-- ==== Sys2Proof/Word.lean ====
section
/-!
DEFINITION. Words, bytes and the sparse canonical maps in which the model holds every memory, register bank and
object table.
-/

namespace Sys2Proof

/-- One byte (R12). -/
abbrev Byte := BitVec 8
/-- One register word (R586). -/
abbrev Word := BitVec 32
/-- A 64-bit value: fence values, host addresses, record words. -/
abbrev DWord := BitVec 64
/-- Wheel time: the cycle in bits 47..12 and the angle in bits 11..0 (R14). -/
abbrev WTime := BitVec 48

/-- A sparse map in canonical form: keys strictly rising, no entry equal to the default an unlisted key reads as. -/
abbrev SMap (α : Type) := List (Nat × α)

/-- The value at a key; an unlisted key reads as the default. -/
def SMap.get {α : Type} (d : α) : SMap α → Nat → α
  | [], _ => d
  | (k, v) :: rest, q => if k = q then v else if q < k then d else SMap.get d rest q

/-- Put a value at a key and keep the canonical form: writing the default removes the entry. -/
def SMap.set {α : Type} [DecidableEq α] (d : α) : SMap α → Nat → α → SMap α
  | [], q, x => if x = d then [] else [(q, x)]
  | (k, v) :: rest, q, x =>
      if k = q then (if x = d then rest else (q, x) :: rest)
      else if q < k then (if x = d then (k, v) :: rest else (q, x) :: (k, v) :: rest)
      else (k, v) :: SMap.set d rest q x

/-- The canonical form: strictly rising keys above `lo` and no default entry. -/
def SMap.wfFrom {α : Type} [DecidableEq α] (d : α) : Nat → SMap α → Bool
  | _, [] => true
  | lo, (k, v) :: rest => decide (lo ≤ k) && decide (v ≠ d) && SMap.wfFrom d (k + 1) rest

/-- The canonical form of a whole map. -/
def SMap.wf {α : Type} [DecidableEq α] (d : α) (m : SMap α) : Bool := SMap.wfFrom d 0 m

/-- The keys a map lists. -/
def SMap.keys {α : Type} (m : SMap α) : List Nat := m.map Prod.fst

end Sys2Proof
end

