-- ==== Sys2Proof/Syntax.lean ====
section
/-!
DEFINITION. The commands of the block: one constructor of `Instr` per row of spec/opcode_table.json.  The table gives
no operand bits; the operands here are the ones each row's rule names (a path, a register word, a channel, a lane, the
fields of a received packet).
-/

namespace Sys2Proof

/-- The two register paths (R90): the control port, MID 0x01, and BAR0, MID 0x40. -/
inductive Path where
  | scp | bar0
  deriving DecidableEq, Repr

/-- The header of a received Zheyn packet (Table ZHN-3) and the port it arrived on. -/
structure ZHdr where
  port : Nat
  dst : Nat
  src : Nat
  user : Bool
  hops : Nat
  lseq : Nat
  opId : Nat
  deriving DecidableEq, Repr

/-- A read request of BAR0 or BAR2 (R92, R475): the offset of its first dword, how many dwords, and the byte enables of
its first and last dword. -/
structure ReadReq where
  bar2 : Bool
  off : Nat
  n : Nat
  fbe : Nat
  lbe : Nat
  deriving DecidableEq, Repr

/-- A register read (R90): a READ frame of the control port, or a read request of BAR0 or BAR2. -/
inductive ReadCmd where
  | frame (bytes : List Byte)
  | bar (r : ReadReq)
  deriving DecidableEq, Repr

/-- What a register write carries beside its first word (R92): bits 3:0 of `be` are its byte enables and bit 4 marks the write
poisoned; `more` holds the further dwords of a BAR0 write request with their byte enables. -/
structure WriteExt where
  be : Nat
  more : List (Word × Nat)
  deriving DecidableEq, Repr

/-- An edge at WHL_SYNC (R37): when, in 1/8 core clocks from now, and whether it rises. -/
structure SyncEdge where
  dt8 : Nat
  rising : Bool
  deriving DecidableEq, Repr

/-- Who holds a grant the Snuffer bites (Table ARB-5). -/
inductive BiteOwner where
  | chan (c : Nat)
  | window (p : Path)
  /-- A host inbound request: a write or a read. -/
  | hostIn (write : Bool)
  | zhnIn (h : ZHdr)
  | governor
  | internal
  deriving DecidableEq, Repr

/-- The body of MEM_RD and MEM_WR (Table ZHN-4, R510). -/
structure ZMem where
  sel : Nat
  offset : Nat
  mid : Nat
  key : Nat
  tier : Nat
  l : WTime
  i : WTime
  len : Nat
  deriving DecidableEq, Repr

/-- The configuration space settings the host has written by the end of a function reset (R491, Table HLK-4). -/
structure HostCfg where
  gen : Nat
  width : Nat
  roEn : Bool
  tag10 : Bool
  extTag : Bool
  mps : Nat
  mrrs : Nat
  ptmEn : Bool
  msixEn : Bool
  fmask : Bool
  deriving DecidableEq, Repr

/-- The straps sampled at the end of a cold or warm reset (R526). -/
structure Straps where
  bootSrc : Nat
  master : Bool
  peerId : Nat
  deriving DecidableEq, Repr

/-- What arrives on RX in a turn that is no TELEMETRY, REQUEST or HELLO frame as it should be (R425, R427, Table ENR-7): a
frame's ADDR, CMD, LEN byte and payload with the CRC behind them, a code error, or an ABORT. -/
inductive BadFrame where
  | frame (chars : List Byte) (crc : Nat)
  | code | abort
  deriving DecidableEq, Repr

/-- What arrives on a Zheyn port and is no packet to act on (R502, R519): header and body with the CRC-32 behind them, or a code
error. -/
inductive BadPacket where
  | packet (bytes : List Byte) (crc : Nat)
  | code
  deriving DecidableEq, Repr

/-- A bad packet and the port it arrives on. -/
structure BadArrival where
  port : Nat
  bad : BadPacket
  deriving DecidableEq, Repr

/-- The operation of a FEN_OP packet (R512). -/
inductive FenOp where
  | imp (nonce : Nat) | signal (v : DWord) | kick | resub | free
  deriving DecidableEq, Repr

/-- The operation of a CHR_OP packet (R513). -/
inductive ChrOp where
  | sit | wait | give | cancel
  deriving DecidableEq, Repr

/-- The rows of spec/opcode_table.json, in its order. -/
inductive Instr where
  /-- A register read: a READ frame of the control port, or the same access as a read request of BAR0 or BAR2 (R90). -/
  | scpRead (r : ReadCmd)
  | scpReadFixed (frame : List Byte)
  | scpWrite (frame : List Byte)
  | scpWriteFixed (frame : List Byte)
  | scpCsRise (bytes : List Byte)
  | registerWrite (p : Path) (off : Nat) (v : Word) (x : WriteExt)
  /-- In `be` of this row and the BAR rows, bits 3:0 are the byte enables and bit 4 marks the write poisoned. -/
  | counterClear (p : Path) (off : Nat) (v : Word) (be : Nat)
  | whlTimeLoRead (p : Path)
  | fenValLoRead (p : Path)
  | winDataRead (p : Path)
  | winDataWrite (p : Path) (v : Word)
  | winReadTimeout (p : Path)
  | cmdWaitRead (p : Path)
  | cmdWaitTimeout (p : Path)
  | ctxCreate (p : Path) (seq : Nat)
  | ctxDestroy (p : Path) (seq : Nat)
  | ctxTeardownComplete (ctx : Nat)
  | ctxReinit (p : Path) (seq : Nat)
  | queueCreate (p : Path) (seq : Nat)
  | queueDestroy (p : Path) (seq : Nat)
  | chanCreate (p : Path) (seq : Nat)
  | chanDestroy (p : Path) (seq : Nat)
  | chanReinit (p : Path) (seq : Nat)
  | memCreate (p : Path) (seq : Nat)
  | memDestroy (p : Path) (seq : Nat)
  | ref (p : Path) (seq : Nat)
  | unref (p : Path) (seq : Nat)
  | fenceCreate (p : Path) (seq : Nat)
  | fenceDestroy (p : Path) (seq : Nat)
  | fenceExport (p : Path) (seq : Nat)
  | fenceImport (p : Path) (seq : Nat)
  | stageMap (p : Path) (seq : Nat)
  | stageUnmap (p : Path) (seq : Nat)
  | chairtabOpen (p : Path) (seq : Nat)
  | laneReinit (p : Path) (seq : Nat)
  | engineReinit (p : Path) (seq : Nat)
  | badOp (p : Path) (op seq : Nat)
  | mailboxDone (p : Path)
  | devStopDrain (p : Path) (chan gen : Nat)
  | devStopHalt (p : Path) (chan gen : Nat)
  | devStopAbort (p : Path) (chan gen : Nat)
  | haltAtBurstBoundary (chan : Nat)
  | devResetKey (v : Word)
  | deviceReset
  | devPwrcycKey (v : Word)
  | pwrcycReq
  | standbyEntry
  | standbyExit
  | devSqDb (v : Word)
  | devCqDb (v : Word)
  | tlbInvalidate (p : Path) (v : Word)
  | tlbInvalidateDone
  | regionSelect (p : Path) (idx : Nat)
  | regionCommit (p : Path) (idx : Nat)
  | prtShdDataWrite (p : Path) (v : Word)
  | prtShdDataRead (p : Path)
  | prtShdFill (p : Path) (v : Word)
  | shadeFillDone
  | protUnitEnable (p : Path) (v : Word)
  /-- Of a channel's stalled beat, or of the oldest stalled access of a peer. -/
  | disabledStallTimeout (chan : Option Nat)
  | kndRequest (mag : Nat) (dir : Bool)
  | kndReqFall
  | kndMark
  | placedFrame (lane : Nat)
  | kndLoadGo (p : Path)
  | kndLoadChecked
  | kndFlip
  /-- An edge of WHL_SYNC, rising or falling, some eighths of a core clock from now (R37). -/
  | syncEdge (e : SyncEdge)
  | syncMissing
  | holdRelease
  | nominalApply
  | whlCtlSrcChange (p : Path) (v : Word)
  | lamplighterFire
  | lamplighterArm
  | markSend
  | ptmRequest (p : Path)
  | ptmInterval
  | ptmResponsed (hostTime : DWord)
  | ptmTimeout
  | sqDb (ctx slot : Nat) (v : Word) (be : Nat)
  | cqDb (ctx slot : Nat) (v : Word) (be : Nat)
  | fenceKick (ctx : Nat) (v : Word) (be : Nat)
  | ctxRef (ctx : Nat) (v : Word) (be : Nat)
  | ctxUnref (ctx : Nat) (v : Word) (be : Nat)
  | submissionEntryRead (queue : Nat) (entry : List Byte)
  | bar4Read (addr len : Nat)
  | bar4Write (addr : Nat) (data : List Byte) (be : List Bool) (poison : Bool)
  | barUnsupportedRequest (write : Bool)
  | hostCompletion (tag status : Nat) (poison : Bool) (data : List Byte)
  | completionTimeout (tag : Nat)
  | msixSend (vec : Nat)
  | functionResetStart (cause : Nat)
  | functionResetEnd (cfg : HostCfg)
  | engineDispatch (engine : Nat)
  | burstLimitExpiry (engine : Nat)
  | snufferBite (res : Nat) (owner : BiteOwner)
  | descriptorFetch (chan : Nat)
  | copy (chan bursts : Nat)
  | fill (chan bursts : Nat)
  | gather (chan bursts : Nat)
  | scatter (chan bursts : Nat)
  | emit (chan : Nat)
  | sample (chan : Nat)
  | pmbXfer (chan : Nat)
  | waitWheel (chan : Nat)
  | waitFence (chan : Nat)
  | signal (chan : Nat)
  | waitWick (chan : Nat)
  | chairTake (chan : Nat)
  | chairGive (chan : Nat)
  | alloc (chan : Nat)
  | free (chan : Nat)
  | nop (chan : Nat)
  | jump (chan : Nat)
  | loop (chan : Nat)
  | cupboardOperationEnd
  | scrubDone
  | descriptorComplete (chan : Nat)
  | completionRecordWrite (queue : Nat)
  | ctxLossUnwind (ctx : Nat)
  | chrSit (p : Path) (n tag : Nat)
  | chrGive (p : Path) (n : Nat)
  | chrWaitRead (p : Path) (n : Nat)
  | chrWaitTimeout (p : Path)
  | chairTakeTimeout (chan : Option Nat)
  | ackReceived (lane : Nat)
  | ackWindowMissed (lane : Nat)
  | laneFrameStart (lane : Nat)
  | turnGrant (lane : Nat)
  | turnLapse (lane : Nat)
  | telemetry (lane pc seq : Nat) (payload : List Byte)
  | request (lane pc seq : Nat) (payload : Byte)
  | hello (lane pc seq : Nat) (payload : List Byte)
  | rxAnswer (lane : Nat)
  | laneTraining (lane : Nat)
  | discoverEnd (lane : Nat)
  | retrainTimer (lane : Nat)
  | lanCtlEnClear (p : Path) (lane : Nat) (v : Word)
  | holdFrame (lane : Nat)
  | windowEnd
  | phaseChange
  | phaseChangeEnd
  | pmbusCurrentRead (rail : Nat)
  | revert (p : Path)
  | govCtlEnSet (p : Path) (v : Word)
  | wickEdge (wick : Nat) (level : Bool)
  | wckCfgSwitch (p : Path) (v : Word)
  | parkEnd (pin : Nat)
  | pmbTransactionEnd (port : Nat) (avs : Bool) (cause badByte : Nat) (data : List Byte)
  | pmbTimeout (port : Nat)
  | smbalert (port : Nat)
  | zhnHello (h : ZHdr) (master cand : Bool) (mask : Nat)
  | helloTimer
  | peerLost (peer : Nat)
  | ping (port : Nat) (received : Bool) (turnaround8 : Nat)
  | pong (port roundTrip8 turnaround8 : Nat)
  | mark (h : ZHdr) (wt : WTime) (corr8 : Nat)
  | memRd (h : ZHdr) (m : ZMem)
  | memWr (h : ZHdr) (m : ZMem) (data : List Byte)
  | memRsp (h : ZHdr) (status : Nat) (data : List Byte)
  | peerResponseTimeout (opId : Nat)
  | fenOp (h : ZHdr) (idx : Nat) (op : FenOp)
  | fenUpd (h : ZHdr) (idx : Nat) (value : DWord) (destroyed : Bool)
  | fenRsp (h : ZHdr) (status : Nat) (value : DWord)
  | chrOp (h : ZHdr) (chair mid tag : Nat) (issue : WTime) (op : ChrOp)
  | chrRsp (h : ZHdr) (chair : Nat) (state : Word)
  | chrUpd (h : ZHdr) (chair : Nat) (state : Word)
  | err (h : ZHdr) (entry : List Byte)
  | zhnResend (port : Nat)
  | zhnAck (port lseq : Nat)
  | pwrfail
  | pwrfailDrained
  | pwrfailDrainMark
  | coldReset (straps : Straps)
  | supplyTrip
  | warmReset (lowNs : Nat) (straps : Straps)
  | init
  | bootHeaderRead (bytes : List Byte)
  | bootBodyRead (bytes : List Byte)
  | bootCtlGo (p : Path)
  | bootCheckDone
  | bootApplyDone
  | bootRetry
  | otpProgram (p : Path) (v : Word)
  | otpBurnDone
  | cupPoolWrite (p : Path) (v : Word)
  | errRdWrite (p : Path) (v : Word)
  | traceFreeze (p : Path) (v : Word)
  | traceThaw (p : Path) (v : Word)
  | clockFailure
  | sampleStale (chan : Nat)
  | wcbIdleFlush (engine : Nat)
  | zhnPortTraining (port : Nat)
  | zhnLockLoss (port : Nat)
  | zhnBadPacket (b : BadArrival)
  | badRxFrame (lane : Nat) (b : BadFrame)
  | smbalertRelease (port : Nat)
  | standbyEntered
  deriving DecidableEq, Repr

end Sys2Proof
end

