-- ==== Sys2Proof/Decode.lean ====
section
/-!
DEFINITION. The decoder over the rows of spec/opcode_table.json that give bits: there are none, since every row is a
command of the block, so no word spells a command.
-/

namespace Sys2Proof

/-- The command a word spells by the table's bits: none. -/
def decodeTableWord (nbits w : Nat) : Option Instr := match nbits, w with
  | _, _ => none

end Sys2Proof
end

