-- ==== Sys2Proof/Machine/RegMap.lean ====
section
/-!
DEFINITION. The register map (Table REG-7, R577, R578, R591): every register with its Reset word, and every field
with its place and access type as its chapter's field table gives it.  Written from those tables.
-/

namespace Sys2Proof.Machine

/-- How a write acts on a field (R17, R18, R581, R585): `lock` is a lock bit, which a write of 1 sets for good. -/
inductive Acc where
  | ro | rw | wo | w1c | rwl | lock
  deriving DecidableEq, Repr

/-- A field's place: the byte offset of its register, its lowest bit and its width. -/
structure Fld where
  off : Nat
  lo : Nat
  width : Nat
  deriving DecidableEq, Repr

/-- A field inside its register. -/
structure RField where
  hi : Nat
  lo : Nat
  acc : Acc
  deriving DecidableEq, Repr

/-- A row of Table REG-7. `clr` marks a register that any write clears (R585). -/
structure RegDesc where
  off : Nat
  reset : Nat
  clr : Bool
  flds : List RField
  deriving DecidableEq, Repr

/-- Registers 0x000 to 0x07F. -/
def regsDev : List RegDesc := [
  -- DEV_ID
  ⟨0x000, 0x00006408, false, [⟨15, 0, .ro⟩]⟩,
  -- DEV_REV
  ⟨0x004, 0x000000B0, false, [⟨11, 0, .ro⟩]⟩,
  -- DEV_GRADE
  ⟨0x008, 0x00000000, false, [⟨0, 0, .ro⟩]⟩,
  -- DEV_PWR
  ⟨0x010, 0x00000000, false, [⟨2, 0, .ro⟩, ⟨8, 8, .rw⟩]⟩,
  -- DEV_RESET
  ⟨0x014, 0x00000000, false, [⟨15, 0, .wo⟩]⟩,
  -- DEV_PWRCYC
  ⟨0x018, 0x00000000, false, [⟨15, 0, .wo⟩]⟩,
  -- CHR_TAB_SEL
  ⟨0x020, 0x00000000, false, [⟨3, 0, .rw⟩]⟩,
  -- CHR_TAB_CFG
  ⟨0x024, 0x00000007, false, [⟨0, 0, .rwl⟩, ⟨1, 1, .rwl⟩, ⟨2, 2, .rwl⟩, ⟨3, 3, .rwl⟩, ⟨4, 4, .rwl⟩, ⟨9, 8, .rwl⟩, ⟨21, 16, .rwl⟩, ⟨31, 31, .lock⟩]⟩,
  -- CHR_CTL
  ⟨0x028, 0x00000314, false, [⟨7, 0, .rw⟩, ⟨11, 8, .rw⟩]⟩,
  -- CHR_DLIM
  ⟨0x02C, 0x000003E8, false, [⟨15, 0, .rw⟩]⟩,
  -- CHR_EVT
  ⟨0x030, 0x00000000, false, [⟨0, 0, .w1c⟩, ⟨1, 1, .w1c⟩, ⟨2, 2, .w1c⟩]⟩,
  -- CHR_CAP
  ⟨0x034, 0x00000000, false, [⟨7, 0, .ro⟩, ⟨14, 8, .ro⟩, ⟨31, 31, .ro⟩]⟩,
  -- CHR_CNT
  ⟨0x038, 0x00000000, true, [⟨15, 0, .ro⟩, ⟨31, 16, .ro⟩]⟩,
  -- DEV_SQ_DB
  ⟨0x040, 0x00000000, false, [⟨15, 0, .rw⟩, ⟨23, 16, .rw⟩]⟩,
  -- DEV_CQ_DB
  ⟨0x044, 0x00000000, false, [⟨15, 0, .rw⟩, ⟨23, 16, .rw⟩]⟩,
  -- DEV_CQ_EVT
  ⟨0x048, 0x00000000, false, [⟨0, 0, .w1c⟩, ⟨1, 1, .rw⟩]⟩,
  -- DEV_STOP
  ⟨0x050, 0x00000000, false, [⟨7, 0, .wo⟩, ⟨19, 8, .wo⟩, ⟨21, 20, .wo⟩]⟩,
  -- DEV_STOP_EVT
  ⟨0x054, 0x00000600, false, [⟨0, 0, .w1c⟩, ⟨1, 1, .w1c⟩, ⟨2, 2, .w1c⟩, ⟨10, 8, .rw⟩]⟩,
  -- DEV_STOP_CNT
  ⟨0x058, 0x00000000, true, [⟨15, 0, .ro⟩]⟩,
  -- DEV_PF_STAT
  ⟨0x05C, 0x00000000, false, [⟨0, 0, .ro⟩, ⟨1, 1, .ro⟩, ⟨27, 16, .ro⟩]⟩,
  -- DEV_PF_CNT
  ⟨0x060, 0x00000000, false, [⟨15, 0, .ro⟩, ⟨31, 16, .ro⟩]⟩,
  -- DEV_PF_WT_LO
  ⟨0x064, 0x00000000, false, [⟨31, 0, .ro⟩]⟩,
  -- DEV_PF_WT_HI
  ⟨0x068, 0x00000000, false, [⟨15, 0, .ro⟩]⟩,
  -- DEV_MEM_CTL
  ⟨0x06C, 0x00000010, false, [⟨7, 0, .rw⟩]⟩,
  -- DEV_BOOK_EVT
  ⟨0x070, 0x00007F00, false, [⟨0, 0, .w1c⟩, ⟨1, 1, .w1c⟩, ⟨2, 2, .w1c⟩, ⟨3, 3, .w1c⟩, ⟨4, 4, .w1c⟩, ⟨5, 5, .w1c⟩, ⟨6, 6, .w1c⟩, ⟨14, 8, .rw⟩]⟩,
  -- DEV_TAGS
  ⟨0x074, 0x01000100, false, [⟨8, 0, .ro⟩, ⟨24, 16, .ro⟩]⟩,
  -- DEV_DESC_FREE
  ⟨0x078, 0x20002000, false, [⟨13, 0, .ro⟩, ⟨29, 16, .ro⟩]⟩,
  -- DEV_DIR_CNT
  ⟨0x07C, 0x00000000, true, [⟨15, 0, .ro⟩, ⟨31, 16, .ro⟩]⟩]

/-- Registers 0x080 to 0x0BF. -/
def regsScp : List RegDesc := [
  -- SCP_CTL
  ⟨0x080, 0x00000003, false, [⟨3, 0, .rw⟩]⟩,
  -- SCP_HOSTMASK
  ⟨0x084, 0x00000000, false, [⟨18, 0, .rw⟩]⟩,
  -- SCP_CNT0
  ⟨0x088, 0x00000000, true, [⟨15, 0, .ro⟩, ⟨31, 16, .ro⟩]⟩,
  -- SCP_CNT1
  ⟨0x08C, 0x00000000, true, [⟨15, 0, .ro⟩, ⟨31, 16, .ro⟩]⟩,
  -- SCP_ALERT
  ⟨0x090, 0x00000000, false, [⟨18, 0, .ro⟩]⟩,
  -- SCP_EVT
  ⟨0x094, 0x00000000, false, [⟨0, 0, .w1c⟩, ⟨1, 1, .w1c⟩, ⟨2, 2, .w1c⟩, ⟨3, 3, .w1c⟩]⟩,
  -- SCP_SCRATCH
  ⟨0x098, 0x00000000, false, [⟨31, 0, .rw⟩]⟩]

/-- Registers 0x0C0 to 0x0FF. -/
def regsCmd : List RegDesc := [
  -- CMD_ARG0
  ⟨0x0C0, 0x00000000, false, [⟨31, 0, .rw⟩]⟩,
  -- CMD_ARG1
  ⟨0x0C4, 0x00000000, false, [⟨31, 0, .rw⟩]⟩,
  -- CMD_ARG2
  ⟨0x0C8, 0x00000000, false, [⟨31, 0, .rw⟩]⟩,
  -- CMD_ARG3
  ⟨0x0CC, 0x00000000, false, [⟨31, 0, .rw⟩]⟩,
  -- CMD_ARG4
  ⟨0x0D0, 0x00000000, false, [⟨31, 0, .rw⟩]⟩,
  -- CMD_ARG5
  ⟨0x0D4, 0x00000000, false, [⟨31, 0, .rw⟩]⟩,
  -- CMD_OP
  ⟨0x0D8, 0x00000000, false, [⟨7, 0, .wo⟩, ⟨15, 8, .wo⟩]⟩,
  -- CMD_STAT
  ⟨0x0DC, 0x00000000, false, [⟨0, 0, .ro⟩, ⟨1, 1, .w1c⟩, ⟨2, 2, .w1c⟩, ⟨3, 3, .rw⟩, ⟨15, 8, .ro⟩, ⟨23, 16, .ro⟩]⟩,
  -- CMD_WAIT
  ⟨0x0E0, 0x00000000, false, [⟨31, 0, .ro⟩]⟩,
  -- CMD_RES0
  ⟨0x0E4, 0x00000000, false, [⟨31, 0, .ro⟩]⟩,
  -- CMD_RES1
  ⟨0x0E8, 0x00000000, false, [⟨31, 0, .ro⟩]⟩,
  -- CMD_RES2
  ⟨0x0EC, 0x00000000, false, [⟨31, 0, .ro⟩]⟩,
  -- CMD_RES3
  ⟨0x0F0, 0x00000000, false, [⟨31, 0, .ro⟩]⟩]

/-- Registers 0x100 to 0x17F. -/
def regsWin : List RegDesc := [
  -- WIN_CTL
  ⟨0x100, 0x000010F8, false, [⟨2, 0, .rw⟩, ⟨3, 3, .rw⟩, ⟨7, 4, .rw⟩, ⟨15, 8, .rw⟩, ⟨16, 16, .w1c⟩, ⟨17, 17, .rw⟩]⟩,
  -- WIN_ADDR
  ⟨0x104, 0x00000000, false, [⟨23, 2, .rw⟩]⟩,
  -- WIN_DATA
  ⟨0x108, 0x00000000, false, [⟨31, 0, .ro⟩]⟩,
  -- WIN_FAULT
  ⟨0x10C, 0x00000000, false, [⟨23, 0, .ro⟩, ⟨27, 24, .ro⟩]⟩]

/-- Registers 0x180 to 0x1FF. -/
def regsWhl : List RegDesc := [
  -- WHL_CTL
  ⟨0x180, 0x00001C00, false, [⟨0, 0, .rwl⟩, ⟨1, 1, .rwl⟩, ⟨2, 2, .rwl⟩, ⟨3, 3, .rwl⟩, ⟨15, 8, .rw⟩, ⟨31, 31, .lock⟩]⟩,
  -- WHL_NOMINAL
  ⟨0x184, 0x00003200, false, [⟨15, 0, .rwl⟩]⟩,
  -- WHL_TRK
  ⟨0x188, 0x40400801, false, [⟨1, 0, .rw⟩, ⟨15, 8, .rwl⟩, ⟨23, 16, .rwl⟩, ⟨31, 24, .rwl⟩]⟩,
  -- WHL_STAT
  ⟨0x18C, 0x00000000, false, [⟨2, 0, .ro⟩, ⟨10, 4, .ro⟩]⟩,
  -- WHL_TIME_LO
  ⟨0x190, 0x00000000, false, [⟨31, 0, .ro⟩]⟩,
  -- WHL_TIME_HI
  ⟨0x194, 0x00000000, false, [⟨15, 0, .ro⟩]⟩,
  -- WHL_PERIOD
  ⟨0x198, 0x00003200, false, [⟨15, 0, .ro⟩, ⟨31, 16, .ro⟩]⟩,
  -- WHL_EVT
  ⟨0x19C, 0x00000000, false, [⟨0, 0, .w1c⟩, ⟨1, 1, .w1c⟩, ⟨2, 2, .w1c⟩, ⟨3, 3, .w1c⟩, ⟨4, 4, .w1c⟩, ⟨5, 5, .w1c⟩, ⟨6, 6, .w1c⟩, ⟨7, 7, .w1c⟩]⟩,
  -- WHL_CNT0
  ⟨0x1A0, 0x00000000, true, [⟨15, 0, .ro⟩, ⟨31, 16, .ro⟩]⟩,
  -- WHL_CNT1
  ⟨0x1A4, 0x00000000, true, [⟨15, 0, .ro⟩, ⟨31, 16, .ro⟩]⟩,
  -- WHL_LL
  ⟨0x1A8, 0x00000000, false, [⟨9, 0, .ro⟩, ⟨25, 16, .ro⟩]⟩,
  -- WHL_LL_CFG
  ⟨0x1AC, 0x00000040, false, [⟨9, 0, .rw⟩]⟩,
  -- WHL_PTM_CTL
  ⟨0x1B0, 0x00000000, false, [⟨0, 0, .wo⟩, ⟨1, 1, .w1c⟩, ⟨23, 8, .rw⟩, ⟨31, 24, .ro⟩]⟩,
  -- WHL_PTM_WLO
  ⟨0x1B4, 0x00000000, false, [⟨31, 0, .ro⟩]⟩,
  -- WHL_PTM_WHI
  ⟨0x1B8, 0x00000000, false, [⟨15, 0, .ro⟩, ⟨31, 31, .ro⟩]⟩,
  -- WHL_PTM_HLO
  ⟨0x1BC, 0x00000000, false, [⟨31, 0, .ro⟩]⟩,
  -- WHL_PTM_HHI
  ⟨0x1C0, 0x00000000, false, [⟨31, 0, .ro⟩]⟩]

/-- Registers 0x200 to 0x23F. -/
def regsKnd : List RegDesc := [
  -- KND_CTL
  ⟨0x200, 0x000F3902, false, [⟨0, 0, .rwl⟩, ⟨1, 1, .rwl⟩, ⟨13, 8, .rw⟩, ⟨19, 16, .rwl⟩, ⟨31, 31, .lock⟩]⟩,
  -- KND_LANE_ARM
  ⟨0x204, 0x00000000, false, [⟨7, 0, .rwl⟩, ⟨15, 8, .ro⟩]⟩,
  -- KND_IMG
  ⟨0x208, 0x00000000, false, [⟨20, 14, .rwl⟩]⟩,
  -- KND_CHAIR
  ⟨0x20C, 0x00000000, false, [⟨3, 0, .rwl⟩, ⟨6, 4, .rwl⟩, ⟨31, 31, .rwl⟩]⟩,
  -- KND_LOAD
  ⟨0x210, 0x00000000, false, [⟨0, 0, .wo⟩]⟩,
  -- KND_STAT
  ⟨0x214, 0x00000000, false, [⟨0, 0, .ro⟩, ⟨1, 1, .ro⟩, ⟨2, 2, .ro⟩, ⟨3, 3, .ro⟩, ⟨4, 4, .ro⟩, ⟨15, 8, .ro⟩, ⟨18, 16, .ro⟩, ⟨23, 20, .ro⟩]⟩,
  -- KND_EVT
  ⟨0x218, 0x00000000, false, [⟨0, 0, .w1c⟩, ⟨1, 1, .w1c⟩, ⟨2, 2, .w1c⟩, ⟨3, 3, .w1c⟩, ⟨4, 4, .w1c⟩]⟩,
  -- KND_LAST
  ⟨0x21C, 0x00000000, false, [⟨2, 0, .ro⟩, ⟨3, 3, .ro⟩, ⟨4, 4, .ro⟩, ⟨5, 5, .ro⟩, ⟨15, 8, .ro⟩, ⟨25, 16, .ro⟩]⟩,
  -- KND_WT_LO
  ⟨0x220, 0x00000000, false, [⟨31, 0, .ro⟩]⟩,
  -- KND_WT_HI
  ⟨0x224, 0x00000000, false, [⟨15, 0, .ro⟩]⟩,
  -- KND_LAT
  ⟨0x228, 0x00000000, false, [⟨7, 0, .ro⟩, ⟨15, 8, .ro⟩]⟩,
  -- KND_CNT0
  ⟨0x22C, 0x00000000, true, [⟨15, 0, .ro⟩, ⟨31, 16, .ro⟩]⟩,
  -- KND_CNT1
  ⟨0x230, 0x00000000, true, [⟨15, 0, .ro⟩, ⟨31, 16, .ro⟩]⟩]

/-- Registers 0x240 to 0x27F. -/
def regsArb : List RegDesc := [
  -- ARB_CTL
  ⟨0x240, 0x00000310, false, [⟨7, 0, .rwl⟩, ⟨9, 8, .rw⟩, ⟨31, 31, .lock⟩]⟩,
  -- ARB_SNUF
  ⟨0x244, 0x00002000, false, [⟨15, 0, .rwl⟩]⟩,
  -- ARB_BURST
  ⟨0x248, 0x000000FF, false, [⟨7, 0, .ro⟩]⟩,
  -- ARB_EVT
  ⟨0x24C, 0x00000000, false, [⟨0, 0, .w1c⟩, ⟨1, 1, .w1c⟩]⟩,
  -- ARB_SNUF_CAP0
  ⟨0x250, 0x00000000, false, [⟨7, 0, .ro⟩, ⟨15, 8, .ro⟩, ⟨21, 16, .ro⟩, ⟨31, 31, .ro⟩]⟩,
  -- ARB_SNUF_CAP1
  ⟨0x254, 0x00000000, false, [⟨31, 0, .ro⟩]⟩,
  -- ARB_SNUF_CAP2
  ⟨0x258, 0x00000000, false, [⟨15, 0, .ro⟩]⟩,
  -- ARB_CNT0
  ⟨0x25C, 0x00000000, true, [⟨15, 0, .ro⟩, ⟨31, 16, .ro⟩]⟩,
  -- ARB_CNT1
  ⟨0x260, 0x00000000, true, [⟨15, 0, .ro⟩]⟩]

/-- Registers 0x280 to 0x2BF. -/
def regsPrt : List RegDesc := [
  -- PRT_CTL
  ⟨0x280, 0x0000F031, false, [⟨0, 0, .rwl⟩, ⟨1, 1, .rwl⟩, ⟨6, 4, .rw⟩, ⟨15, 12, .rwl⟩, ⟨31, 31, .lock⟩]⟩,
  -- PRT_EVT
  ⟨0x284, 0x00000000, false, [⟨0, 0, .w1c⟩, ⟨1, 1, .w1c⟩, ⟨2, 2, .w1c⟩]⟩,
  -- PRT_RGN_IDX
  ⟨0x288, 0x00000000, false, [⟨4, 0, .rw⟩, ⟨31, 31, .wo⟩]⟩,
  -- PRT_RGN_LIM
  ⟨0x28C, 0x00000000, false, [⟨8, 0, .rw⟩, ⟨24, 16, .rw⟩]⟩,
  -- PRT_RGN_ATTR
  ⟨0x290, 0x00000000, false, [⟨0, 0, .rw⟩, ⟨1, 1, .rw⟩, ⟨2, 2, .rw⟩, ⟨3, 3, .rw⟩, ⟨4, 4, .rw⟩, ⟨5, 5, .rw⟩, ⟨13, 8, .rw⟩, ⟨21, 16, .rw⟩]⟩,
  -- PRT_CAP0
  ⟨0x294, 0x00000000, false, [⟨7, 0, .ro⟩, ⟨10, 8, .ro⟩, ⟨11, 11, .ro⟩, ⟨15, 12, .ro⟩, ⟨19, 16, .ro⟩, ⟨25, 20, .ro⟩, ⟨31, 31, .ro⟩]⟩,
  -- PRT_CAP1
  ⟨0x298, 0x00000000, false, [⟨20, 0, .ro⟩, ⟨21, 21, .ro⟩, ⟨31, 24, .ro⟩]⟩,
  -- PRT_CAP2
  ⟨0x29C, 0x00000000, false, [⟨31, 0, .ro⟩]⟩,
  -- PRT_CAP3
  ⟨0x2A0, 0x00000000, false, [⟨15, 0, .ro⟩]⟩,
  -- PRT_VCNT
  ⟨0x2A4, 0x00000000, true, [⟨15, 0, .ro⟩]⟩,
  -- PRT_SHD_ADDR
  ⟨0x2A8, 0x00000000, false, [⟨15, 0, .rw⟩, ⟨16, 16, .rw⟩]⟩,
  -- PRT_SHD_DATA
  ⟨0x2AC, 0x00000000, false, [⟨31, 0, .rw⟩]⟩,
  -- PRT_SHD_FILL
  ⟨0x2B0, 0x00000000, false, [⟨15, 0, .rw⟩, ⟨19, 16, .rw⟩, ⟨31, 31, .ro⟩]⟩,
  -- PRT_CKEY_IDX
  ⟨0x2B4, 0x00000000, false, [⟨5, 0, .rw⟩]⟩,
  -- PRT_CKEY
  ⟨0x2B8, 0x00000001, false, [⟨15, 0, .rw⟩]⟩]

/-- Registers 0x2C0 to 0x2FF. -/
def regsCup : List RegDesc := [
  -- CUP_POOL
  ⟨0x2C0, 0x00000000, false, [⟨8, 0, .rwl⟩, ⟨25, 16, .rwl⟩]⟩,
  -- CUP_CTL
  ⟨0x2C4, 0x06004000, false, [⟨0, 0, .rwl⟩, ⟨17, 8, .rw⟩, ⟨26, 24, .rw⟩, ⟨31, 31, .lock⟩]⟩,
  -- CUP_STAT
  ⟨0x2C8, 0x00000000, false, [⟨15, 0, .ro⟩, ⟨31, 16, .ro⟩]⟩,
  -- CUP_FAIL
  ⟨0x2CC, 0x00000000, true, [⟨2, 0, .ro⟩, ⟨14, 8, .ro⟩, ⟨31, 16, .ro⟩]⟩,
  -- CUP_EVT
  ⟨0x2D0, 0x00000000, false, [⟨0, 0, .w1c⟩, ⟨1, 1, .w1c⟩, ⟨2, 2, .w1c⟩]⟩,
  -- FEN_SEL
  ⟨0x2D4, 0x00000000, false, [⟨11, 0, .rw⟩]⟩,
  -- FEN_VAL_LO
  ⟨0x2D8, 0x00000000, false, [⟨31, 0, .ro⟩]⟩,
  -- FEN_VAL_HI
  ⟨0x2DC, 0x00000000, false, [⟨31, 0, .ro⟩]⟩,
  -- FEN_INFO
  ⟨0x2E0, 0x00000000, false, [⟨6, 0, .ro⟩, ⟨8, 8, .ro⟩, ⟨9, 9, .ro⟩, ⟨10, 10, .ro⟩, ⟨13, 12, .ro⟩, ⟨27, 16, .ro⟩, ⟨31, 31, .ro⟩]⟩,
  -- FEN_REF
  ⟨0x2E4, 0x00000000, false, [⟨31, 0, .ro⟩]⟩,
  -- MEM_SEL
  ⟨0x2E8, 0x00000000, false, [⟨11, 0, .rw⟩]⟩,
  -- MEM_INFO
  ⟨0x2EC, 0x00000000, false, [⟨6, 0, .ro⟩, ⟨9, 8, .ro⟩, ⟨10, 10, .ro⟩, ⟨27, 16, .ro⟩, ⟨31, 31, .ro⟩]⟩,
  -- MEM_REF
  ⟨0x2F0, 0x00000000, false, [⟨31, 0, .ro⟩]⟩,
  -- FEN_EVT
  ⟨0x2F4, 0x00000400, false, [⟨0, 0, .w1c⟩, ⟨1, 1, .w1c⟩, ⟨2, 2, .w1c⟩, ⟨10, 8, .rw⟩]⟩,
  -- FEN_CNT
  ⟨0x2F8, 0x00000000, true, [⟨15, 0, .ro⟩, ⟨31, 16, .ro⟩]⟩]

/-- Registers 0x300 to 0x33F. -/
def regsGov : List RegDesc := [
  -- GOV_CTL
  ⟨0x300, 0x001443A0, false, [⟨0, 0, .rwl⟩, ⟨1, 1, .rw⟩, ⟨2, 2, .wo⟩, ⟨7, 4, .rwl⟩, ⟨11, 8, .rwl⟩, ⟨14, 12, .ro⟩, ⟨20, 16, .rw⟩, ⟨31, 31, .lock⟩]⟩,
  -- GOV_AUTH
  ⟨0x304, 0x00000000, false, [⟨0, 0, .rwl⟩, ⟨1, 1, .rwl⟩, ⟨2, 2, .rwl⟩, ⟨3, 3, .rwl⟩, ⟨31, 16, .rwl⟩]⟩,
  -- GOV_LIM_ARB
  ⟨0x308, 0x0C41FF01, false, [⟨7, 0, .rwl⟩, ⟨15, 8, .rwl⟩, ⟨18, 16, .rwl⟩, ⟨22, 20, .rwl⟩, ⟨25, 24, .rwl⟩, ⟨27, 26, .rwl⟩]⟩,
  -- GOV_THR
  ⟨0x30C, 0x20204004, false, [⟨7, 0, .rwl⟩, ⟨15, 8, .rwl⟩, ⟨23, 16, .rwl⟩, ⟨31, 24, .rwl⟩]⟩,
  -- GOV_HOME
  ⟨0x310, 0x000014FF, false, [⟨7, 0, .rwl⟩, ⟨10, 8, .rwl⟩, ⟨13, 12, .rwl⟩]⟩,
  -- GOV_RAIL_SEL
  ⟨0x314, 0x00000000, false, [⟨3, 0, .rw⟩]⟩,
  -- GOV_RAIL_CFG0
  ⟨0x318, 0x00000000, false, [⟨4, 0, .rwl⟩, ⟨12, 8, .rwl⟩, ⟨20, 16, .rwl⟩]⟩,
  -- GOV_RAIL_CFG1
  ⟨0x31C, 0x00000000, false, [⟨15, 0, .rwl⟩, ⟨31, 16, .rwl⟩]⟩,
  -- GOV_RAIL_STAT
  ⟨0x320, 0x00000000, false, [⟨4, 0, .ro⟩, ⟨8, 8, .ro⟩, ⟨10, 9, .ro⟩, ⟨11, 11, .ro⟩, ⟨31, 16, .ro⟩]⟩,
  -- GOV_MEAS0
  ⟨0x324, 0x00000000, false, [⟨7, 0, .ro⟩, ⟨15, 8, .ro⟩, ⟨23, 16, .ro⟩, ⟨31, 24, .ro⟩]⟩,
  -- GOV_MEAS1
  ⟨0x328, 0x00000000, false, [⟨11, 0, .ro⟩, ⟨23, 12, .ro⟩, ⟨31, 24, .ro⟩]⟩,
  -- GOV_HIST
  ⟨0x32C, 0x00000000, false, [⟨3, 0, .rw⟩, ⟨31, 16, .ro⟩]⟩,
  -- GOV_EVT
  ⟨0x330, 0x00000000, false, [⟨0, 0, .w1c⟩, ⟨1, 1, .w1c⟩, ⟨2, 2, .w1c⟩, ⟨4, 4, .w1c⟩]⟩,
  -- GOV_LOG
  ⟨0x334, 0x00000000, false, [⟨20, 12, .rwl⟩, ⟨27, 24, .rwl⟩]⟩,
  -- GOV_LOG_WR
  ⟨0x338, 0x00000000, false, [⟨15, 0, .ro⟩]⟩,
  -- GOV_PHASE
  ⟨0x33C, 0x00000000, false, [⟨7, 0, .rwl⟩, ⟨24, 16, .rwl⟩]⟩]

/-- Registers 0x340 to 0x37F. -/
def regsPmb : List RegDesc := [
  -- PMB0_CTL
  ⟨0x340, 0x00000000, false, [⟨0, 0, .rw⟩, ⟨2, 1, .rw⟩, ⟨3, 3, .rw⟩]⟩,
  -- PMB1_CTL
  ⟨0x344, 0x00000000, false, [⟨0, 0, .rw⟩, ⟨2, 1, .rw⟩, ⟨3, 3, .rw⟩]⟩,
  -- PMB_STAT
  ⟨0x348, 0x00000000, false, [⟨0, 0, .ro⟩, ⟨1, 1, .ro⟩, ⟨2, 2, .ro⟩, ⟨3, 3, .ro⟩, ⟨4, 4, .ro⟩, ⟨5, 5, .ro⟩]⟩,
  -- PMB0_ARA
  ⟨0x34C, 0x00000000, false, [⟨6, 0, .ro⟩, ⟨7, 7, .ro⟩, ⟨31, 16, .ro⟩]⟩,
  -- PMB1_ARA
  ⟨0x350, 0x00000000, false, [⟨6, 0, .ro⟩, ⟨7, 7, .ro⟩, ⟨31, 16, .ro⟩]⟩,
  -- AVS0_CTL
  ⟨0x354, 0x00001F00, false, [⟨0, 0, .rw⟩, ⟨13, 8, .rw⟩]⟩,
  -- AVS1_CTL
  ⟨0x358, 0x00001F00, false, [⟨0, 0, .rw⟩, ⟨13, 8, .rw⟩]⟩,
  -- PMB_EVT
  ⟨0x35C, 0x00000800, false, [⟨0, 0, .w1c⟩, ⟨1, 1, .w1c⟩, ⟨2, 2, .w1c⟩, ⟨3, 3, .w1c⟩, ⟨11, 8, .rw⟩]⟩,
  -- PMB_CAP
  ⟨0x360, 0x00000000, false, [⟨3, 0, .ro⟩, ⟨4, 4, .ro⟩, ⟨5, 5, .ro⟩, ⟨14, 8, .ro⟩, ⟨23, 16, .ro⟩, ⟨31, 31, .ro⟩]⟩,
  -- PMB_CNT
  ⟨0x364, 0x00000000, true, [⟨15, 0, .ro⟩, ⟨31, 16, .ro⟩]⟩]

/-- Registers 0x380 to 0x3BF. -/
def regsWck : List RegDesc := [
  -- WCK_SEL
  ⟨0x380, 0x00000000, false, [⟨5, 0, .rw⟩]⟩,
  -- WCK_CFG
  ⟨0x384, 0x00000020, false, [⟨2, 0, .rwl⟩, ⟨5, 4, .rwl⟩, ⟨8, 8, .ro⟩]⟩,
  -- WCK_IN0
  ⟨0x388, 0x00000000, false, [⟨31, 0, .ro⟩]⟩,
  -- WCK_IN1
  ⟨0x38C, 0x00000000, false, [⟨31, 0, .ro⟩]⟩,
  -- WCK_OUT0
  ⟨0x390, 0x00000000, false, [⟨31, 0, .rw⟩]⟩,
  -- WCK_OUT1
  ⟨0x394, 0x00000000, false, [⟨31, 0, .rw⟩]⟩,
  -- WCK_LANE0
  ⟨0x398, 0x00000000, false, [⟨31, 0, .ro⟩]⟩,
  -- WCK_LANE1
  ⟨0x39C, 0x00000000, false, [⟨31, 0, .ro⟩]⟩,
  -- WCK_LANE2
  ⟨0x3A0, 0x00000000, false, [⟨31, 0, .ro⟩]⟩,
  -- WCK_LANE3
  ⟨0x3A4, 0x00000000, false, [⟨31, 0, .ro⟩]⟩,
  -- WCK_EVT
  ⟨0x3A8, 0x00000000, false, [⟨0, 0, .w1c⟩, ⟨1, 1, .w1c⟩]⟩,
  -- WCK_CNT
  ⟨0x3AC, 0x00000000, true, [⟨15, 0, .ro⟩]⟩,
  -- WCK_CTL
  ⟨0x3B0, 0x00000002, false, [⟨1, 0, .rw⟩, ⟨31, 31, .lock⟩]⟩]

/-- Registers 0x3C0 to 0x3FF. -/
def regsErr : List RegDesc := [
  -- ERR_CTL
  ⟨0x3C0, 0x00000302, false, [⟨0, 0, .rw⟩, ⟨1, 1, .rwl⟩, ⟨10, 8, .rw⟩, ⟨31, 31, .lock⟩]⟩,
  -- ERR_WR
  ⟨0x3C4, 0x00000000, false, [⟨15, 0, .ro⟩]⟩,
  -- ERR_RD
  ⟨0x3C8, 0x00000000, false, [⟨15, 0, .rw⟩]⟩,
  -- ERR_EVT
  ⟨0x3CC, 0x00000000, false, [⟨0, 0, .w1c⟩, ⟨1, 1, .w1c⟩, ⟨2, 2, .w1c⟩]⟩,
  -- ERR_CNT
  ⟨0x3D0, 0x00000000, true, [⟨15, 0, .ro⟩, ⟨31, 16, .ro⟩]⟩,
  -- ERR_ENG
  ⟨0x3D4, 0x00000F00, false, [⟨3, 0, .rw⟩, ⟨11, 8, .ro⟩]⟩]

/-- Registers 0x800 to 0x8FF. -/
def regsLan0 : List RegDesc := [
  -- LAN_CTL[0]
  ⟨0x800, 0x00000906, false, [⟨0, 0, .rwl⟩, ⟨1, 1, .rwl⟩, ⟨2, 2, .rwl⟩, ⟨15, 8, .rw⟩, ⟨31, 31, .lock⟩]⟩,
  -- LAN_STAT[0]
  ⟨0x804, 0x00000000, false, [⟨2, 0, .ro⟩, ⟨11, 8, .ro⟩, ⟨31, 16, .ro⟩]⟩,
  -- LAN_HOLD0[0]
  ⟨0x808, 0x00000000, false, [⟨7, 0, .rwl⟩, ⟨11, 8, .rwl⟩, ⟨16, 16, .rwl⟩]⟩,
  -- LAN_HOLD1[0]
  ⟨0x80C, 0x00000000, false, [⟨31, 0, .rwl⟩]⟩,
  -- LAN_HOLD2[0]
  ⟨0x810, 0x00000000, false, [⟨31, 0, .rwl⟩]⟩,
  -- LAN_EVT[0]
  ⟨0x814, 0x00000000, false, [⟨0, 0, .w1c⟩, ⟨1, 1, .w1c⟩, ⟨2, 2, .w1c⟩, ⟨3, 3, .w1c⟩, ⟨4, 4, .w1c⟩, ⟨5, 5, .w1c⟩, ⟨6, 6, .w1c⟩, ⟨7, 7, .w1c⟩]⟩,
  -- LAN_CNT0[0]
  ⟨0x818, 0x00000000, true, [⟨15, 0, .ro⟩, ⟨31, 16, .ro⟩]⟩,
  -- LAN_CNT1[0]
  ⟨0x81C, 0x00000000, true, [⟨15, 0, .ro⟩, ⟨31, 16, .ro⟩]⟩,
  -- LAN_CTL[1]
  ⟨0x820, 0x00000906, false, [⟨0, 0, .rwl⟩, ⟨1, 1, .rwl⟩, ⟨2, 2, .rwl⟩, ⟨15, 8, .rw⟩, ⟨31, 31, .lock⟩]⟩,
  -- LAN_STAT[1]
  ⟨0x824, 0x00000000, false, [⟨2, 0, .ro⟩, ⟨11, 8, .ro⟩, ⟨31, 16, .ro⟩]⟩,
  -- LAN_HOLD0[1]
  ⟨0x828, 0x00000000, false, [⟨7, 0, .rwl⟩, ⟨11, 8, .rwl⟩, ⟨16, 16, .rwl⟩]⟩,
  -- LAN_HOLD1[1]
  ⟨0x82C, 0x00000000, false, [⟨31, 0, .rwl⟩]⟩,
  -- LAN_HOLD2[1]
  ⟨0x830, 0x00000000, false, [⟨31, 0, .rwl⟩]⟩,
  -- LAN_EVT[1]
  ⟨0x834, 0x00000000, false, [⟨0, 0, .w1c⟩, ⟨1, 1, .w1c⟩, ⟨2, 2, .w1c⟩, ⟨3, 3, .w1c⟩, ⟨4, 4, .w1c⟩, ⟨5, 5, .w1c⟩, ⟨6, 6, .w1c⟩, ⟨7, 7, .w1c⟩]⟩,
  -- LAN_CNT0[1]
  ⟨0x838, 0x00000000, true, [⟨15, 0, .ro⟩, ⟨31, 16, .ro⟩]⟩,
  -- LAN_CNT1[1]
  ⟨0x83C, 0x00000000, true, [⟨15, 0, .ro⟩, ⟨31, 16, .ro⟩]⟩,
  -- LAN_CTL[2]
  ⟨0x840, 0x00000906, false, [⟨0, 0, .rwl⟩, ⟨1, 1, .rwl⟩, ⟨2, 2, .rwl⟩, ⟨15, 8, .rw⟩, ⟨31, 31, .lock⟩]⟩,
  -- LAN_STAT[2]
  ⟨0x844, 0x00000000, false, [⟨2, 0, .ro⟩, ⟨11, 8, .ro⟩, ⟨31, 16, .ro⟩]⟩,
  -- LAN_HOLD0[2]
  ⟨0x848, 0x00000000, false, [⟨7, 0, .rwl⟩, ⟨11, 8, .rwl⟩, ⟨16, 16, .rwl⟩]⟩,
  -- LAN_HOLD1[2]
  ⟨0x84C, 0x00000000, false, [⟨31, 0, .rwl⟩]⟩,
  -- LAN_HOLD2[2]
  ⟨0x850, 0x00000000, false, [⟨31, 0, .rwl⟩]⟩,
  -- LAN_EVT[2]
  ⟨0x854, 0x00000000, false, [⟨0, 0, .w1c⟩, ⟨1, 1, .w1c⟩, ⟨2, 2, .w1c⟩, ⟨3, 3, .w1c⟩, ⟨4, 4, .w1c⟩, ⟨5, 5, .w1c⟩, ⟨6, 6, .w1c⟩, ⟨7, 7, .w1c⟩]⟩,
  -- LAN_CNT0[2]
  ⟨0x858, 0x00000000, true, [⟨15, 0, .ro⟩, ⟨31, 16, .ro⟩]⟩,
  -- LAN_CNT1[2]
  ⟨0x85C, 0x00000000, true, [⟨15, 0, .ro⟩, ⟨31, 16, .ro⟩]⟩,
  -- LAN_CTL[3]
  ⟨0x860, 0x00000906, false, [⟨0, 0, .rwl⟩, ⟨1, 1, .rwl⟩, ⟨2, 2, .rwl⟩, ⟨15, 8, .rw⟩, ⟨31, 31, .lock⟩]⟩,
  -- LAN_STAT[3]
  ⟨0x864, 0x00000000, false, [⟨2, 0, .ro⟩, ⟨11, 8, .ro⟩, ⟨31, 16, .ro⟩]⟩,
  -- LAN_HOLD0[3]
  ⟨0x868, 0x00000000, false, [⟨7, 0, .rwl⟩, ⟨11, 8, .rwl⟩, ⟨16, 16, .rwl⟩]⟩,
  -- LAN_HOLD1[3]
  ⟨0x86C, 0x00000000, false, [⟨31, 0, .rwl⟩]⟩,
  -- LAN_HOLD2[3]
  ⟨0x870, 0x00000000, false, [⟨31, 0, .rwl⟩]⟩,
  -- LAN_EVT[3]
  ⟨0x874, 0x00000000, false, [⟨0, 0, .w1c⟩, ⟨1, 1, .w1c⟩, ⟨2, 2, .w1c⟩, ⟨3, 3, .w1c⟩, ⟨4, 4, .w1c⟩, ⟨5, 5, .w1c⟩, ⟨6, 6, .w1c⟩, ⟨7, 7, .w1c⟩]⟩,
  -- LAN_CNT0[3]
  ⟨0x878, 0x00000000, true, [⟨15, 0, .ro⟩, ⟨31, 16, .ro⟩]⟩,
  -- LAN_CNT1[3]
  ⟨0x87C, 0x00000000, true, [⟨15, 0, .ro⟩, ⟨31, 16, .ro⟩]⟩]

/-- Registers 0x800 to 0x8FF. -/
def regsLan1 : List RegDesc := [
  -- LAN_CTL[4]
  ⟨0x880, 0x00000906, false, [⟨0, 0, .rwl⟩, ⟨1, 1, .rwl⟩, ⟨2, 2, .rwl⟩, ⟨15, 8, .rw⟩, ⟨31, 31, .lock⟩]⟩,
  -- LAN_STAT[4]
  ⟨0x884, 0x00000000, false, [⟨2, 0, .ro⟩, ⟨11, 8, .ro⟩, ⟨31, 16, .ro⟩]⟩,
  -- LAN_HOLD0[4]
  ⟨0x888, 0x00000000, false, [⟨7, 0, .rwl⟩, ⟨11, 8, .rwl⟩, ⟨16, 16, .rwl⟩]⟩,
  -- LAN_HOLD1[4]
  ⟨0x88C, 0x00000000, false, [⟨31, 0, .rwl⟩]⟩,
  -- LAN_HOLD2[4]
  ⟨0x890, 0x00000000, false, [⟨31, 0, .rwl⟩]⟩,
  -- LAN_EVT[4]
  ⟨0x894, 0x00000000, false, [⟨0, 0, .w1c⟩, ⟨1, 1, .w1c⟩, ⟨2, 2, .w1c⟩, ⟨3, 3, .w1c⟩, ⟨4, 4, .w1c⟩, ⟨5, 5, .w1c⟩, ⟨6, 6, .w1c⟩, ⟨7, 7, .w1c⟩]⟩,
  -- LAN_CNT0[4]
  ⟨0x898, 0x00000000, true, [⟨15, 0, .ro⟩, ⟨31, 16, .ro⟩]⟩,
  -- LAN_CNT1[4]
  ⟨0x89C, 0x00000000, true, [⟨15, 0, .ro⟩, ⟨31, 16, .ro⟩]⟩,
  -- LAN_CTL[5]
  ⟨0x8A0, 0x00000906, false, [⟨0, 0, .rwl⟩, ⟨1, 1, .rwl⟩, ⟨2, 2, .rwl⟩, ⟨15, 8, .rw⟩, ⟨31, 31, .lock⟩]⟩,
  -- LAN_STAT[5]
  ⟨0x8A4, 0x00000000, false, [⟨2, 0, .ro⟩, ⟨11, 8, .ro⟩, ⟨31, 16, .ro⟩]⟩,
  -- LAN_HOLD0[5]
  ⟨0x8A8, 0x00000000, false, [⟨7, 0, .rwl⟩, ⟨11, 8, .rwl⟩, ⟨16, 16, .rwl⟩]⟩,
  -- LAN_HOLD1[5]
  ⟨0x8AC, 0x00000000, false, [⟨31, 0, .rwl⟩]⟩,
  -- LAN_HOLD2[5]
  ⟨0x8B0, 0x00000000, false, [⟨31, 0, .rwl⟩]⟩,
  -- LAN_EVT[5]
  ⟨0x8B4, 0x00000000, false, [⟨0, 0, .w1c⟩, ⟨1, 1, .w1c⟩, ⟨2, 2, .w1c⟩, ⟨3, 3, .w1c⟩, ⟨4, 4, .w1c⟩, ⟨5, 5, .w1c⟩, ⟨6, 6, .w1c⟩, ⟨7, 7, .w1c⟩]⟩,
  -- LAN_CNT0[5]
  ⟨0x8B8, 0x00000000, true, [⟨15, 0, .ro⟩, ⟨31, 16, .ro⟩]⟩,
  -- LAN_CNT1[5]
  ⟨0x8BC, 0x00000000, true, [⟨15, 0, .ro⟩, ⟨31, 16, .ro⟩]⟩,
  -- LAN_CTL[6]
  ⟨0x8C0, 0x00000906, false, [⟨0, 0, .rwl⟩, ⟨1, 1, .rwl⟩, ⟨2, 2, .rwl⟩, ⟨15, 8, .rw⟩, ⟨31, 31, .lock⟩]⟩,
  -- LAN_STAT[6]
  ⟨0x8C4, 0x00000000, false, [⟨2, 0, .ro⟩, ⟨11, 8, .ro⟩, ⟨31, 16, .ro⟩]⟩,
  -- LAN_HOLD0[6]
  ⟨0x8C8, 0x00000000, false, [⟨7, 0, .rwl⟩, ⟨11, 8, .rwl⟩, ⟨16, 16, .rwl⟩]⟩,
  -- LAN_HOLD1[6]
  ⟨0x8CC, 0x00000000, false, [⟨31, 0, .rwl⟩]⟩,
  -- LAN_HOLD2[6]
  ⟨0x8D0, 0x00000000, false, [⟨31, 0, .rwl⟩]⟩,
  -- LAN_EVT[6]
  ⟨0x8D4, 0x00000000, false, [⟨0, 0, .w1c⟩, ⟨1, 1, .w1c⟩, ⟨2, 2, .w1c⟩, ⟨3, 3, .w1c⟩, ⟨4, 4, .w1c⟩, ⟨5, 5, .w1c⟩, ⟨6, 6, .w1c⟩, ⟨7, 7, .w1c⟩]⟩,
  -- LAN_CNT0[6]
  ⟨0x8D8, 0x00000000, true, [⟨15, 0, .ro⟩, ⟨31, 16, .ro⟩]⟩,
  -- LAN_CNT1[6]
  ⟨0x8DC, 0x00000000, true, [⟨15, 0, .ro⟩, ⟨31, 16, .ro⟩]⟩,
  -- LAN_CTL[7]
  ⟨0x8E0, 0x00000906, false, [⟨0, 0, .rwl⟩, ⟨1, 1, .rwl⟩, ⟨2, 2, .rwl⟩, ⟨15, 8, .rw⟩, ⟨31, 31, .lock⟩]⟩,
  -- LAN_STAT[7]
  ⟨0x8E4, 0x00000000, false, [⟨2, 0, .ro⟩, ⟨11, 8, .ro⟩, ⟨31, 16, .ro⟩]⟩,
  -- LAN_HOLD0[7]
  ⟨0x8E8, 0x00000000, false, [⟨7, 0, .rwl⟩, ⟨11, 8, .rwl⟩, ⟨16, 16, .rwl⟩]⟩,
  -- LAN_HOLD1[7]
  ⟨0x8EC, 0x00000000, false, [⟨31, 0, .rwl⟩]⟩,
  -- LAN_HOLD2[7]
  ⟨0x8F0, 0x00000000, false, [⟨31, 0, .rwl⟩]⟩,
  -- LAN_EVT[7]
  ⟨0x8F4, 0x00000000, false, [⟨0, 0, .w1c⟩, ⟨1, 1, .w1c⟩, ⟨2, 2, .w1c⟩, ⟨3, 3, .w1c⟩, ⟨4, 4, .w1c⟩, ⟨5, 5, .w1c⟩, ⟨6, 6, .w1c⟩, ⟨7, 7, .w1c⟩]⟩,
  -- LAN_CNT0[7]
  ⟨0x8F8, 0x00000000, true, [⟨15, 0, .ro⟩, ⟨31, 16, .ro⟩]⟩,
  -- LAN_CNT1[7]
  ⟨0x8FC, 0x00000000, true, [⟨15, 0, .ro⟩, ⟨31, 16, .ro⟩]⟩]

/-- Registers 0x800 to 0x8FF. -/
def regsLan : List RegDesc := regsLan0 ++ regsLan1

/-- Registers 0x900 to 0x93F. -/
def regsHlk : List RegDesc := [
  -- HLK_STAT
  ⟨0x900, 0x00204000, false, [⟨0, 0, .ro⟩, ⟨1, 1, .ro⟩, ⟨7, 4, .ro⟩, ⟨11, 8, .ro⟩, ⟨12, 12, .ro⟩, ⟨13, 13, .ro⟩, ⟨14, 14, .ro⟩, ⟨18, 16, .ro⟩, ⟨22, 20, .ro⟩, ⟨24, 24, .ro⟩]⟩,
  -- HLK_CTL
  ⟨0x904, 0x00000A41, false, [⟨0, 0, .rw⟩, ⟨7, 4, .rwl⟩, ⟨15, 8, .rw⟩, ⟨31, 31, .lock⟩]⟩,
  -- HLK_EVT
  ⟨0x908, 0x00000000, false, [⟨0, 0, .w1c⟩, ⟨1, 1, .w1c⟩, ⟨2, 2, .w1c⟩, ⟨3, 3, .w1c⟩, ⟨4, 4, .w1c⟩, ⟨5, 5, .w1c⟩, ⟨6, 6, .w1c⟩, ⟨7, 7, .w1c⟩]⟩,
  -- HLK_CNT0
  ⟨0x90C, 0x00000000, true, [⟨15, 0, .ro⟩, ⟨31, 16, .ro⟩]⟩,
  -- HLK_CNT1
  ⟨0x910, 0x00000000, true, [⟨15, 0, .ro⟩, ⟨31, 16, .ro⟩]⟩,
  -- HLK_CNT2
  ⟨0x914, 0x00000000, true, [⟨15, 0, .ro⟩, ⟨31, 16, .ro⟩]⟩,
  -- HLK_ROOT0_LO
  ⟨0x918, 0x00000000, false, [⟨31, 13, .rw⟩]⟩,
  -- HLK_ROOT0_HI
  ⟨0x91C, 0x00000000, false, [⟨19, 0, .rw⟩]⟩,
  -- HLK_TLB_VA
  ⟨0x920, 0x00000000, false, [⟨27, 0, .rw⟩]⟩,
  -- HLK_TLB_INV
  ⟨0x924, 0x00000000, false, [⟨6, 0, .rw⟩, ⟨9, 8, .rw⟩, ⟨30, 30, .w1c⟩, ⟨31, 31, .ro⟩]⟩,
  -- HLK_TLB_CNT
  ⟨0x928, 0x00000000, true, [⟨15, 0, .ro⟩, ⟨31, 16, .ro⟩]⟩]

/-- Registers 0x940 to 0x97F. -/
def regsPel : List RegDesc := [
  -- PEL_CTL
  ⟨0x940, 0x00641603, false, [⟨1, 0, .rwl⟩, ⟨2, 2, .rw⟩, ⟨15, 8, .rw⟩, ⟨23, 16, .rw⟩, ⟨31, 31, .lock⟩]⟩,
  -- PEL_STAT
  ⟨0x944, 0x00000000, false, [⟨0, 0, .ro⟩, ⟨1, 1, .ro⟩, ⟨7, 4, .ro⟩, ⟨9, 8, .ro⟩, ⟨13, 12, .ro⟩, ⟨14, 14, .ro⟩]⟩,
  -- PEL_ROUTE
  ⟨0x948, 0x00000000, false, [⟨31, 0, .ro⟩]⟩,
  -- PEL_DLY0
  ⟨0x94C, 0x00000000, false, [⟨15, 0, .ro⟩]⟩,
  -- PEL_DLY1
  ⟨0x950, 0x00000000, false, [⟨15, 0, .ro⟩]⟩,
  -- PEL_EVT
  ⟨0x954, 0x00000000, false, [⟨0, 0, .w1c⟩, ⟨1, 1, .w1c⟩, ⟨2, 2, .w1c⟩, ⟨3, 3, .w1c⟩, ⟨4, 4, .w1c⟩, ⟨5, 5, .w1c⟩]⟩,
  -- PEL_CNT0
  ⟨0x958, 0x00000000, true, [⟨15, 0, .ro⟩, ⟨31, 16, .ro⟩]⟩,
  -- PEL_CNT1
  ⟨0x95C, 0x00000000, true, [⟨15, 0, .ro⟩, ⟨31, 16, .ro⟩]⟩]

/-- Registers 0x980 to 0x9BF. -/
def regsBoot : List RegDesc := [
  -- BOOT_STRAP
  ⟨0x980, 0x00000000, false, [⟨1, 0, .ro⟩, ⟨2, 2, .ro⟩, ⟨5, 4, .ro⟩]⟩,
  -- BOOT_CTL
  ⟨0x984, 0x00000600, false, [⟨0, 0, .wo⟩, ⟨10, 8, .rw⟩]⟩,
  -- BOOT_STAT
  ⟨0x988, 0x00000000, false, [⟨2, 0, .ro⟩, ⟨3, 3, .ro⟩, ⟨5, 4, .ro⟩, ⟨15, 8, .ro⟩, ⟨23, 16, .ro⟩, ⟨25, 24, .ro⟩]⟩,
  -- BOOT_SEQ
  ⟨0x98C, 0x00000000, false, [⟨31, 0, .ro⟩]⟩,
  -- BOOT_TIME
  ⟨0x990, 0x00000000, false, [⟨19, 0, .ro⟩]⟩,
  -- BOOT_EVT
  ⟨0x994, 0x00000000, false, [⟨0, 0, .w1c⟩, ⟨1, 1, .w1c⟩, ⟨2, 2, .w1c⟩]⟩,
  -- BOOT_OTP_CTL
  ⟨0x998, 0x00000000, false, [⟨0, 0, .ro⟩, ⟨1, 1, .ro⟩, ⟨4, 4, .wo⟩, ⟨31, 16, .wo⟩]⟩,
  -- BOOT_OTP_SEL
  ⟨0x99C, 0x00000000, false, [⟨3, 0, .rw⟩]⟩,
  -- BOOT_OTP_DATA
  ⟨0x9A0, 0x00000000, false, [⟨31, 0, .rw⟩]⟩]

/-- Registers 0x9C0 to 0x9FF. -/
def regsTrc : List RegDesc := [
  -- TRC_CTL
  ⟨0x9C0, 0x0000FF01, false, [⟨0, 0, .rw⟩, ⟨1, 1, .wo⟩, ⟨2, 2, .wo⟩, ⟨15, 8, .rw⟩]⟩,
  -- TRC_STAT
  ⟨0x9C4, 0x00000000, false, [⟨15, 0, .ro⟩, ⟨16, 16, .ro⟩]⟩,
  -- TRC_CNT
  ⟨0x9C8, 0x00000000, true, [⟨15, 0, .ro⟩]⟩]

/-- The registers of the block an offset lies in (Table REG-1), but for the chair words, which are composed. -/
def regsNear (off : Nat) : List RegDesc :=
  if off < 0x080 then regsDev
  else if off < 0x0C0 then regsScp
  else if off < 0x100 then regsCmd
  else if off < 0x180 then regsWin
  else if off < 0x200 then regsWhl
  else if off < 0x240 then regsKnd
  else if off < 0x280 then regsArb
  else if off < 0x2C0 then regsPrt
  else if off < 0x300 then regsCup
  else if off < 0x340 then regsGov
  else if off < 0x380 then regsPmb
  else if off < 0x3C0 then regsWck
  else if off < 0x400 then regsErr
  else if off < 0x800 then []
  else if off < 0x900 then regsLan
  else if off < 0x940 then regsHlk
  else if off < 0x980 then regsPel
  else if off < 0x9C0 then regsBoot
  else if off < 0xA00 then regsTrc
  else []

/-- The row of Table REG-7 at an offset; none where the offset is reserved (R577) or a chair word. -/
def regFind (off : Nat) : Option RegDesc := (regsNear off).find? (fun r => r.off == off)

/-- The bits of one field. -/
def fieldMask (hi lo : Nat) : Nat := 2 ^ (hi + 1) - 2 ^ lo

/-- The implemented bits of the register at an offset; a reserved bit reads 0 (R17). -/
def regMask (off : Nat) : Nat :=
  match regFind off with
  | none => 0
  | some r => r.flds.foldl (fun m f => m ||| fieldMask f.hi f.lo) 0

/-- The Reset word of Table REG-7. -/
def regReset (off : Nat) : Word :=
  match regFind off with
  | none => 0
  | some r => BitVec.ofNat 32 r.reset

namespace F

/-- Table REG-6. -/
def DEV_ID_ID : Fld := ⟨0x000, 0, 16⟩
/-- Table REG-6. -/
def DEV_REV_REV : Fld := ⟨0x004, 0, 12⟩
/-- Table REG-6. -/
def DEV_GRADE_GRADE : Fld := ⟨0x008, 0, 1⟩
/-- Table BOOT-11. -/
def DEV_PWR_STATE : Fld := ⟨0x010, 0, 3⟩
/-- Table BOOT-11. -/
def DEV_PWR_STANDBY : Fld := ⟨0x010, 8, 1⟩
/-- Table BOOT-11. -/
def BOOT_STRAP_BOOT_SRC : Fld := ⟨0x980, 0, 2⟩
/-- Table BOOT-11. -/
def BOOT_STRAP_WHL_MASTER : Fld := ⟨0x980, 2, 1⟩
/-- Table BOOT-11. -/
def BOOT_STRAP_PEER_ID : Fld := ⟨0x980, 4, 2⟩
/-- Table BOOT-11. -/
def BOOT_CTL_GO : Fld := ⟨0x984, 0, 1⟩
/-- Table BOOT-11. -/
def BOOT_CTL_ALERT_EN : Fld := ⟨0x984, 8, 3⟩
/-- Table BOOT-11. -/
def BOOT_STAT_PHASE : Fld := ⟨0x988, 0, 3⟩
/-- Table BOOT-11. -/
def BOOT_STAT_SRC : Fld := ⟨0x988, 3, 1⟩
/-- Table BOOT-11. -/
def BOOT_STAT_TRIES : Fld := ⟨0x988, 4, 2⟩
/-- Table BOOT-11. -/
def BOOT_STAT_ERR : Fld := ⟨0x988, 8, 8⟩
/-- Table BOOT-11. -/
def BOOT_STAT_ERR_SECT : Fld := ⟨0x988, 16, 8⟩
/-- Table BOOT-11. -/
def BOOT_STAT_LAST_RESET : Fld := ⟨0x988, 24, 2⟩
/-- Table BOOT-11. -/
def BOOT_SEQ_SEQ : Fld := ⟨0x98C, 0, 32⟩
/-- Table BOOT-11. -/
def BOOT_TIME_US : Fld := ⟨0x990, 0, 20⟩
/-- Table BOOT-11. -/
def BOOT_EVT_DONE : Fld := ⟨0x994, 0, 1⟩
/-- Table BOOT-11. -/
def BOOT_EVT_FAIL : Fld := ⟨0x994, 1, 1⟩
/-- Table BOOT-11. -/
def BOOT_EVT_REFUSED : Fld := ⟨0x994, 2, 1⟩
/-- Table BOOT-11. -/
def BOOT_OTP_CTL_HASH_EN : Fld := ⟨0x998, 0, 1⟩
/-- Table BOOT-11. -/
def BOOT_OTP_CTL_BUSY : Fld := ⟨0x998, 1, 1⟩
/-- Table BOOT-11. -/
def BOOT_OTP_CTL_PROG : Fld := ⟨0x998, 4, 1⟩
/-- Table BOOT-11. -/
def BOOT_OTP_CTL_KEY : Fld := ⟨0x998, 16, 16⟩
/-- Table BOOT-11. -/
def BOOT_OTP_SEL_WORD : Fld := ⟨0x99C, 0, 4⟩
/-- Table BOOT-11. -/
def BOOT_OTP_DATA_DATA : Fld := ⟨0x9A0, 0, 32⟩
/-- Table ERR-6. -/
def DEV_RESET_KEY : Fld := ⟨0x014, 0, 16⟩
/-- Table ERR-6. -/
def DEV_PWRCYC_KEY : Fld := ⟨0x018, 0, 16⟩
/-- Table ERR-6. -/
def ERR_CTL_LOG_CTX : Fld := ⟨0x3C0, 0, 1⟩
/-- Table ERR-6. -/
def ERR_CTL_AUTO_CYC : Fld := ⟨0x3C0, 1, 1⟩
/-- Table ERR-6. -/
def ERR_CTL_ALERT_EN : Fld := ⟨0x3C0, 8, 3⟩
/-- Table ERR-6. -/
def ERR_CTL_LOCK : Fld := ⟨0x3C0, 31, 1⟩
/-- Table ERR-6. -/
def ERR_WR_WR : Fld := ⟨0x3C4, 0, 16⟩
/-- Table ERR-6. -/
def ERR_RD_RD : Fld := ⟨0x3C8, 0, 16⟩
/-- Table ERR-6. -/
def ERR_EVT_POST : Fld := ⟨0x3CC, 0, 1⟩
/-- Table ERR-6. -/
def ERR_EVT_OVF : Fld := ⟨0x3CC, 1, 1⟩
/-- Table ERR-6. -/
def ERR_EVT_KEYBAD : Fld := ⟨0x3CC, 2, 1⟩
/-- Table ERR-6. -/
def ERR_CNT_LOST : Fld := ⟨0x3D0, 0, 16⟩
/-- Table ERR-6. -/
def ERR_CNT_KEYBAD : Fld := ⟨0x3D0, 16, 16⟩
/-- Table ERR-6. -/
def ERR_ENG_OFF : Fld := ⟨0x3D4, 0, 4⟩
/-- Table ERR-6. -/
def ERR_ENG_IDLE : Fld := ⟨0x3D4, 8, 4⟩
/-- Table CHR-4. -/
def CHR_TAB_SEL_TABLE : Fld := ⟨0x020, 0, 4⟩
/-- Table CHR-4. -/
def CHR_TAB_CFG_BMC : Fld := ⟨0x024, 0, 1⟩
/-- Table CHR-4. -/
def CHR_TAB_CFG_GOV : Fld := ⟨0x024, 1, 1⟩
/-- Table CHR-4. -/
def CHR_TAB_CFG_DRV : Fld := ⟨0x024, 2, 1⟩
/-- Table CHR-4. -/
def CHR_TAB_CFG_USER : Fld := ⟨0x024, 3, 1⟩
/-- Table CHR-4. -/
def CHR_TAB_CFG_SHARED : Fld := ⟨0x024, 4, 1⟩
/-- Table CHR-4. -/
def CHR_TAB_CFG_HOME : Fld := ⟨0x024, 8, 2⟩
/-- Table CHR-4. -/
def CHR_TAB_CFG_USER_CTX : Fld := ⟨0x024, 16, 6⟩
/-- Table CHR-4. -/
def CHR_TAB_CFG_LOCK : Fld := ⟨0x024, 31, 1⟩
/-- Table CHR-4. -/
def CHR_CTL_RD_LIMIT : Fld := ⟨0x028, 0, 8⟩
/-- Table CHR-4. -/
def CHR_CTL_ALERT_EN : Fld := ⟨0x028, 8, 4⟩
/-- Table CHR-4. -/
def CHR_DLIM_LIMIT : Fld := ⟨0x02C, 0, 16⟩
/-- Table CHR-4. -/
def CHR_EVT_ABANDON : Fld := ⟨0x030, 0, 1⟩
/-- Table CHR-4. -/
def CHR_EVT_BADGIVE : Fld := ⟨0x030, 1, 1⟩
/-- Table CHR-4. -/
def CHR_EVT_DENY : Fld := ⟨0x030, 2, 1⟩
/-- Table CHR-4. -/
def CHR_CAP_MID : Fld := ⟨0x034, 0, 8⟩
/-- Table CHR-4. -/
def CHR_CAP_CHAIR : Fld := ⟨0x034, 8, 7⟩
/-- Table CHR-4. -/
def CHR_CAP_VALID : Fld := ⟨0x034, 31, 1⟩
/-- Table CHR-4. -/
def CHR_CNT_TIMEOUT : Fld := ⟨0x038, 0, 16⟩
/-- Table CHR-4. -/
def CHR_CNT_REFUSED : Fld := ⟨0x038, 16, 16⟩
/-- Table CTX-11. -/
def DEV_SQ_DB_TAIL : Fld := ⟨0x040, 0, 16⟩
/-- Table CTX-11. -/
def DEV_SQ_DB_SLOT : Fld := ⟨0x040, 16, 8⟩
/-- Table CTX-11. -/
def DEV_CQ_DB_HEAD : Fld := ⟨0x044, 0, 16⟩
/-- Table CTX-11. -/
def DEV_CQ_DB_SLOT : Fld := ⟨0x044, 16, 8⟩
/-- Table CTX-11. -/
def DEV_CQ_EVT_EVT : Fld := ⟨0x048, 0, 1⟩
/-- Table CTX-11. -/
def DEV_CQ_EVT_EN : Fld := ⟨0x048, 1, 1⟩
/-- Table CTX-11. -/
def HLK_ROOT0_LO_ROOT : Fld := ⟨0x918, 13, 19⟩
/-- Table CTX-11. -/
def HLK_ROOT0_HI_ROOT : Fld := ⟨0x91C, 0, 20⟩
/-- Table CTX-11. -/
def HLK_TLB_VA_VPN : Fld := ⟨0x920, 0, 28⟩
/-- Table CTX-11. -/
def HLK_TLB_INV_CTX : Fld := ⟨0x924, 0, 7⟩
/-- Table CTX-11. -/
def HLK_TLB_INV_SCOPE : Fld := ⟨0x924, 8, 2⟩
/-- Table CTX-11. -/
def HLK_TLB_INV_OVR : Fld := ⟨0x924, 30, 1⟩
/-- Table CTX-11. -/
def HLK_TLB_INV_BUSY : Fld := ⟨0x924, 31, 1⟩
/-- Table CTX-11. -/
def HLK_TLB_CNT_MISS : Fld := ⟨0x928, 0, 16⟩
/-- Table CTX-11. -/
def HLK_TLB_CNT_WALKWAIT : Fld := ⟨0x928, 16, 16⟩
/-- Table STP-2. -/
def DEV_STOP_CHAN : Fld := ⟨0x050, 0, 8⟩
/-- Table STP-2. -/
def DEV_STOP_GEN : Fld := ⟨0x050, 8, 12⟩
/-- Table STP-2. -/
def DEV_STOP_MODE : Fld := ⟨0x050, 20, 2⟩
/-- Table STP-2. -/
def DEV_STOP_EVT_REFUSED : Fld := ⟨0x054, 0, 1⟩
/-- Table STP-2. -/
def DEV_STOP_EVT_PWRFAIL : Fld := ⟨0x054, 1, 1⟩
/-- Table STP-2. -/
def DEV_STOP_EVT_PF_LOST : Fld := ⟨0x054, 2, 1⟩
/-- Table STP-2. -/
def DEV_STOP_EVT_ALERT_EN : Fld := ⟨0x054, 8, 3⟩
/-- Table STP-2. -/
def DEV_STOP_CNT_REFUSED : Fld := ⟨0x058, 0, 16⟩
/-- Table STP-2. -/
def DEV_PF_STAT_HELD : Fld := ⟨0x05C, 0, 1⟩
/-- Table STP-2. -/
def DEV_PF_STAT_DRAINED : Fld := ⟨0x05C, 1, 1⟩
/-- Table STP-2. -/
def DEV_PF_STAT_DRAIN : Fld := ⟨0x05C, 16, 12⟩
/-- Table STP-2. -/
def DEV_PF_CNT_REQS : Fld := ⟨0x060, 0, 16⟩
/-- Table STP-2. -/
def DEV_PF_CNT_BEATS : Fld := ⟨0x060, 16, 16⟩
/-- Table STP-2. -/
def DEV_PF_WT_LO_WT_LO : Fld := ⟨0x064, 0, 32⟩
/-- Table STP-2. -/
def DEV_PF_WT_HI_WT_HI : Fld := ⟨0x068, 0, 16⟩
/-- Table STG-4. -/
def DEV_MEM_CTL_WCB_AGE : Fld := ⟨0x06C, 0, 8⟩
/-- Table STG-4. -/
def DEV_BOOK_EVT_CREDIT : Fld := ⟨0x070, 0, 1⟩
/-- Table STG-4. -/
def DEV_BOOK_EVT_TAG : Fld := ⟨0x070, 1, 1⟩
/-- Table STG-4. -/
def DEV_BOOK_EVT_TOKEN : Fld := ⟨0x070, 2, 1⟩
/-- Table STG-4. -/
def DEV_BOOK_EVT_WCB : Fld := ⟨0x070, 3, 1⟩
/-- Table STG-4. -/
def DEV_BOOK_EVT_PEND : Fld := ⟨0x070, 4, 1⟩
/-- Table STG-4. -/
def DEV_BOOK_EVT_LL : Fld := ⟨0x070, 5, 1⟩
/-- Table STG-4. -/
def DEV_BOOK_EVT_DESC : Fld := ⟨0x070, 6, 1⟩
/-- Table STG-4. -/
def DEV_BOOK_EVT_ALERT_EN : Fld := ⟨0x070, 8, 7⟩
/-- Table STG-4. -/
def DEV_TAGS_FREE : Fld := ⟨0x074, 0, 9⟩
/-- Table STG-4. -/
def DEV_TAGS_LOW : Fld := ⟨0x074, 16, 9⟩
/-- Table STG-4. -/
def DEV_DESC_FREE_FREE : Fld := ⟨0x078, 0, 14⟩
/-- Table STG-4. -/
def DEV_DESC_FREE_RUN : Fld := ⟨0x078, 16, 14⟩
/-- Table STG-4. -/
def DEV_DIR_CNT_RECALL : Fld := ⟨0x07C, 0, 16⟩
/-- Table STG-4. -/
def DEV_DIR_CNT_FWD : Fld := ⟨0x07C, 16, 16⟩
/-- Table SCP-8. -/
def SCP_CTL_ALERT_EN : Fld := ⟨0x080, 0, 4⟩
/-- Table SCP-8. -/
def SCP_HOSTMASK_MASK : Fld := ⟨0x084, 0, 19⟩
/-- Table SCP-8. -/
def SCP_CNT0_CRC_ERR : Fld := ⟨0x088, 0, 16⟩
/-- Table SCP-8. -/
def SCP_CNT0_FRAME_ERR : Fld := ⟨0x088, 16, 16⟩
/-- Table SCP-8. -/
def SCP_CNT1_ABANDON : Fld := ⟨0x08C, 0, 16⟩
/-- Table SCP-8. -/
def SCP_CNT1_HOST_DENY : Fld := ⟨0x08C, 16, 16⟩
/-- Table SCP-8. -/
def SCP_ALERT_PEND : Fld := ⟨0x090, 0, 19⟩
/-- Table SCP-8. -/
def SCP_EVT_CRC : Fld := ⟨0x094, 0, 1⟩
/-- Table SCP-8. -/
def SCP_EVT_FRAME : Fld := ⟨0x094, 1, 1⟩
/-- Table SCP-8. -/
def SCP_EVT_ABANDON : Fld := ⟨0x094, 2, 1⟩
/-- Table SCP-8. -/
def SCP_EVT_HOST_DENY : Fld := ⟨0x094, 3, 1⟩
/-- Table SCP-8. -/
def SCP_SCRATCH_SCRATCH : Fld := ⟨0x098, 0, 32⟩
/-- Table SCP-8. -/
def CMD_ARG0_ARG : Fld := ⟨0x0C0, 0, 32⟩
/-- Table SCP-8. -/
def CMD_ARG1_ARG : Fld := ⟨0x0C4, 0, 32⟩
/-- Table SCP-8. -/
def CMD_ARG2_ARG : Fld := ⟨0x0C8, 0, 32⟩
/-- Table SCP-8. -/
def CMD_ARG3_ARG : Fld := ⟨0x0CC, 0, 32⟩
/-- Table SCP-8. -/
def CMD_ARG4_ARG : Fld := ⟨0x0D0, 0, 32⟩
/-- Table SCP-8. -/
def CMD_ARG5_ARG : Fld := ⟨0x0D4, 0, 32⟩
/-- Table SCP-8. -/
def CMD_OP_OP : Fld := ⟨0x0D8, 0, 8⟩
/-- Table SCP-8. -/
def CMD_OP_SEQ : Fld := ⟨0x0D8, 8, 8⟩
/-- Table SCP-8. -/
def CMD_STAT_BUSY : Fld := ⟨0x0DC, 0, 1⟩
/-- Table SCP-8. -/
def CMD_STAT_OVERRUN : Fld := ⟨0x0DC, 1, 1⟩
/-- Table SCP-8. -/
def CMD_STAT_DONE_EVT : Fld := ⟨0x0DC, 2, 1⟩
/-- Table SCP-8. -/
def CMD_STAT_DONE_EN : Fld := ⟨0x0DC, 3, 1⟩
/-- Table SCP-8. -/
def CMD_STAT_RESULT : Fld := ⟨0x0DC, 8, 8⟩
/-- Table SCP-8. -/
def CMD_STAT_SEQ : Fld := ⟨0x0DC, 16, 8⟩
/-- Table SCP-8. -/
def CMD_WAIT_ALL : Fld := ⟨0x0E0, 0, 32⟩
/-- Table SCP-8. -/
def CMD_RES0_RES : Fld := ⟨0x0E4, 0, 32⟩
/-- Table SCP-8. -/
def CMD_RES1_RES : Fld := ⟨0x0E8, 0, 32⟩
/-- Table SCP-8. -/
def CMD_RES2_RES : Fld := ⟨0x0EC, 0, 32⟩
/-- Table SCP-8. -/
def CMD_RES3_RES : Fld := ⟨0x0F0, 0, 32⟩
/-- Table SCP-8. -/
def WIN_CTL_SPACE : Fld := ⟨0x100, 0, 3⟩
/-- Table SCP-8. -/
def WIN_CTL_INC : Fld := ⟨0x100, 3, 1⟩
/-- Table SCP-8. -/
def WIN_CTL_KEY : Fld := ⟨0x100, 4, 4⟩
/-- Table SCP-8. -/
def WIN_CTL_DL : Fld := ⟨0x100, 8, 8⟩
/-- Table SCP-8. -/
def WIN_CTL_FAULT : Fld := ⟨0x100, 16, 1⟩
/-- Table SCP-8. -/
def WIN_CTL_FAULT_EN : Fld := ⟨0x100, 17, 1⟩
/-- Table SCP-8; bits 1:0 read 0: no write reaches them. -/
def WIN_ADDR_ADDR : Fld := ⟨0x104, 0, 24⟩
/-- Table SCP-8. -/
def WIN_DATA_DATA : Fld := ⟨0x108, 0, 32⟩
/-- Table SCP-8. -/
def WIN_FAULT_ADDR : Fld := ⟨0x10C, 0, 24⟩
/-- Table SCP-8. -/
def WIN_FAULT_CAUSE : Fld := ⟨0x10C, 24, 4⟩
/-- Table WHL-5. -/
def WHL_CTL_OUT_EN : Fld := ⟨0x180, 0, 1⟩
/-- Table WHL-5. -/
def WHL_CTL_SRC : Fld := ⟨0x180, 1, 1⟩
/-- Table WHL-5. -/
def WHL_CTL_POL : Fld := ⟨0x180, 2, 1⟩
/-- Table WHL-5. -/
def WHL_CTL_JUMP_POLICY : Fld := ⟨0x180, 3, 1⟩
/-- Table WHL-5. -/
def WHL_CTL_ALERT_EN : Fld := ⟨0x180, 8, 8⟩
/-- Table WHL-5. -/
def WHL_CTL_LOCK : Fld := ⟨0x180, 31, 1⟩
/-- Table WHL-5. -/
def WHL_NOMINAL_PERIOD : Fld := ⟨0x184, 0, 16⟩
/-- Table WHL-5. -/
def WHL_TRK_BW : Fld := ⟨0x188, 0, 2⟩
/-- Table WHL-5. -/
def WHL_TRK_LOCK_TOL : Fld := ⟨0x188, 8, 8⟩
/-- Table WHL-5. -/
def WHL_TRK_WIN : Fld := ⟨0x188, 16, 8⟩
/-- Table WHL-5. -/
def WHL_TRK_JUMP_MIN : Fld := ⟨0x188, 24, 8⟩
/-- Table WHL-5. -/
def WHL_STAT_STATE : Fld := ⟨0x18C, 0, 3⟩
/-- Table WHL-5. -/
def WHL_STAT_MISS : Fld := ⟨0x18C, 4, 7⟩
/-- Table WHL-5. -/
def WHL_TIME_LO_TIME_LO : Fld := ⟨0x190, 0, 32⟩
/-- Table WHL-5. -/
def WHL_TIME_HI_TIME_HI : Fld := ⟨0x194, 0, 16⟩
/-- Table WHL-5. -/
def WHL_PERIOD_EST : Fld := ⟨0x198, 0, 16⟩
/-- Table WHL-5. -/
def WHL_PERIOD_ERR : Fld := ⟨0x198, 16, 16⟩
/-- Table WHL-5. -/
def WHL_EVT_UNLOCK : Fld := ⟨0x19C, 0, 1⟩
/-- Table WHL-5. -/
def WHL_EVT_COAST : Fld := ⟨0x19C, 1, 1⟩
/-- Table WHL-5. -/
def WHL_EVT_LOST : Fld := ⟨0x19C, 2, 1⟩
/-- Table WHL-5. -/
def WHL_EVT_JUMP : Fld := ⟨0x19C, 3, 1⟩
/-- Table WHL-5. -/
def WHL_EVT_RANGE : Fld := ⟨0x19C, 4, 1⟩
/-- Table WHL-5. -/
def WHL_EVT_LL_FULL : Fld := ⟨0x19C, 5, 1⟩
/-- Table WHL-5. -/
def WHL_EVT_LATE : Fld := ⟨0x19C, 6, 1⟩
/-- Table WHL-5. -/
def WHL_EVT_STEP : Fld := ⟨0x19C, 7, 1⟩
/-- Table WHL-5. -/
def WHL_CNT0_STRAY : Fld := ⟨0x1A0, 0, 16⟩
/-- Table WHL-5. -/
def WHL_CNT0_LATE : Fld := ⟨0x1A0, 16, 16⟩
/-- Table WHL-5. -/
def WHL_CNT1_MOVED : Fld := ⟨0x1A4, 0, 16⟩
/-- Table WHL-5. -/
def WHL_CNT1_ARMWAIT : Fld := ⟨0x1A4, 16, 16⟩
/-- Table WHL-5. -/
def WHL_LL_ARMED : Fld := ⟨0x1A8, 0, 10⟩
/-- Table WHL-5. -/
def WHL_LL_HWM : Fld := ⟨0x1A8, 16, 10⟩
/-- Table WHL-5. -/
def WHL_LL_CFG_CTX_MAX : Fld := ⟨0x1AC, 0, 10⟩
/-- Table WHL-5. -/
def WHL_PTM_CTL_REQ : Fld := ⟨0x1B0, 0, 1⟩
/-- Table WHL-5. -/
def WHL_PTM_CTL_FAIL : Fld := ⟨0x1B0, 1, 1⟩
/-- Table WHL-5. -/
def WHL_PTM_CTL_INTERVAL : Fld := ⟨0x1B0, 8, 16⟩
/-- Table WHL-5. -/
def WHL_PTM_CTL_SEQ : Fld := ⟨0x1B0, 24, 8⟩
/-- Table WHL-5. -/
def WHL_PTM_WLO_W_LO : Fld := ⟨0x1B4, 0, 32⟩
/-- Table WHL-5. -/
def WHL_PTM_WHI_W_HI : Fld := ⟨0x1B8, 0, 16⟩
/-- Table WHL-5. -/
def WHL_PTM_WHI_VALID : Fld := ⟨0x1B8, 31, 1⟩
/-- Table WHL-5. -/
def WHL_PTM_HLO_H_LO : Fld := ⟨0x1BC, 0, 32⟩
/-- Table WHL-5. -/
def WHL_PTM_HHI_H_HI : Fld := ⟨0x1C0, 0, 32⟩
/-- Table KND-8. -/
def KND_CTL_ARM : Fld := ⟨0x200, 0, 1⟩
/-- Table KND-8. -/
def KND_CTL_UNPLACE_LOST : Fld := ⟨0x200, 1, 1⟩
/-- Table KND-8. -/
def KND_CTL_ALERT_EN : Fld := ⟨0x200, 8, 6⟩
/-- Table KND-8. -/
def KND_CTL_IMG_KEY : Fld := ⟨0x200, 16, 4⟩
/-- Table KND-8. -/
def KND_CTL_LOCK : Fld := ⟨0x200, 31, 1⟩
/-- Table KND-8. -/
def KND_LANE_ARM_ARM : Fld := ⟨0x204, 0, 8⟩
/-- Table KND-8. -/
def KND_LANE_ARM_ARMED : Fld := ⟨0x204, 8, 8⟩
/-- Table KND-8. -/
def KND_IMG_BASE : Fld := ⟨0x208, 14, 7⟩
/-- Table KND-8. -/
def KND_CHAIR_TABLE : Fld := ⟨0x20C, 0, 4⟩
/-- Table KND-8. -/
def KND_CHAIR_CHAIR : Fld := ⟨0x20C, 4, 3⟩
/-- Table KND-8. -/
def KND_CHAIR_EN : Fld := ⟨0x20C, 31, 1⟩
/-- Table KND-8. -/
def KND_LOAD_GO : Fld := ⟨0x210, 0, 1⟩
/-- Table KND-8. -/
def KND_STAT_BANK : Fld := ⟨0x214, 0, 1⟩
/-- Table KND-8. -/
def KND_STAT_LOADING : Fld := ⟨0x214, 1, 1⟩
/-- Table KND-8. -/
def KND_STAT_FLIP_PEND : Fld := ⟨0x214, 2, 1⟩
/-- Table KND-8. -/
def KND_STAT_ACTIVE_VALID : Fld := ⟨0x214, 3, 1⟩
/-- Table KND-8. -/
def KND_STAT_BUSY : Fld := ⟨0x214, 4, 1⟩
/-- Table KND-8. -/
def KND_STAT_LOAD_ERR : Fld := ⟨0x214, 8, 8⟩
/-- Table KND-8. -/
def KND_STAT_ERR_LANE : Fld := ⟨0x214, 16, 3⟩
/-- Table KND-8. -/
def KND_STAT_ERR_ENTRY : Fld := ⟨0x214, 20, 4⟩
/-- Table KND-8. -/
def KND_EVT_NAK : Fld := ⟨0x218, 0, 1⟩
/-- Table KND-8. -/
def KND_EVT_WITHDRAWN : Fld := ⟨0x218, 1, 1⟩
/-- Table KND-8. -/
def KND_EVT_LOAD_DONE : Fld := ⟨0x218, 2, 1⟩
/-- Table KND-8. -/
def KND_EVT_LOAD_ERR : Fld := ⟨0x218, 3, 1⟩
/-- Table KND-8. -/
def KND_EVT_REFUSED : Fld := ⟨0x218, 4, 1⟩
/-- Table KND-8. -/
def KND_LAST_MAG : Fld := ⟨0x21C, 0, 3⟩
/-- Table KND-8. -/
def KND_LAST_DIR : Fld := ⟨0x21C, 3, 1⟩
/-- Table KND-8. -/
def KND_LAST_RESULT : Fld := ⟨0x21C, 4, 1⟩
/-- Table KND-8. -/
def KND_LAST_EMPTY : Fld := ⟨0x21C, 5, 1⟩
/-- Table KND-8. -/
def KND_LAST_NAK_LANES : Fld := ⟨0x21C, 8, 8⟩
/-- Table KND-8. -/
def KND_LAST_ANS : Fld := ⟨0x21C, 16, 10⟩
/-- Table KND-8. -/
def KND_WT_LO_WT_LO : Fld := ⟨0x220, 0, 32⟩
/-- Table KND-8. -/
def KND_WT_HI_WT_HI : Fld := ⟨0x224, 0, 16⟩
/-- Table KND-8. -/
def KND_LAT_SOF_LAST : Fld := ⟨0x228, 0, 8⟩
/-- Table KND-8. -/
def KND_LAT_SOF_MAX : Fld := ⟨0x228, 8, 8⟩
/-- Table KND-8. -/
def KND_CNT0_REQS : Fld := ⟨0x22C, 0, 16⟩
/-- Table KND-8. -/
def KND_CNT0_NAKS : Fld := ⟨0x22C, 16, 16⟩
/-- Table KND-8. -/
def KND_CNT1_ABORTS : Fld := ⟨0x230, 0, 16⟩
/-- Table KND-8. -/
def KND_CNT1_WITHDRAWN : Fld := ⟨0x230, 16, 16⟩
/-- Table ARB-6. -/
def ARB_CTL_ELDER_N : Fld := ⟨0x240, 0, 8⟩
/-- Table ARB-6. -/
def ARB_CTL_ALERT_EN : Fld := ⟨0x240, 8, 2⟩
/-- Table ARB-6. -/
def ARB_CTL_LOCK : Fld := ⟨0x240, 31, 1⟩
/-- Table ARB-6. -/
def ARB_SNUF_LIMIT : Fld := ⟨0x244, 0, 16⟩
/-- Table ARB-6. -/
def ARB_BURST_CAP : Fld := ⟨0x248, 0, 8⟩
/-- Table ARB-6. -/
def ARB_EVT_BITE : Fld := ⟨0x24C, 0, 1⟩
/-- Table ARB-6. -/
def ARB_EVT_PRIV : Fld := ⟨0x24C, 1, 1⟩
/-- Table ARB-6. -/
def ARB_SNUF_CAP0_CHAN : Fld := ⟨0x250, 0, 8⟩
/-- Table ARB-6. -/
def ARB_SNUF_CAP0_MID : Fld := ⟨0x250, 8, 8⟩
/-- Table ARB-6. -/
def ARB_SNUF_CAP0_RES : Fld := ⟨0x250, 16, 6⟩
/-- Table ARB-6. -/
def ARB_SNUF_CAP0_VALID : Fld := ⟨0x250, 31, 1⟩
/-- Table ARB-6. -/
def ARB_SNUF_CAP1_WT_LO : Fld := ⟨0x254, 0, 32⟩
/-- Table ARB-6. -/
def ARB_SNUF_CAP2_WT_HI : Fld := ⟨0x258, 0, 16⟩
/-- Table ARB-6. -/
def ARB_CNT0_BITES : Fld := ⟨0x25C, 0, 16⟩
/-- Table ARB-6. -/
def ARB_CNT0_ELDER : Fld := ⟨0x25C, 16, 16⟩
/-- Table ARB-6. -/
def ARB_CNT1_LATE_GRANT : Fld := ⟨0x260, 0, 16⟩
/-- Table PRT-5. -/
def PRT_CTL_EN : Fld := ⟨0x280, 0, 1⟩
/-- Table PRT-5. -/
def PRT_CTL_NOMATCH : Fld := ⟨0x280, 1, 1⟩
/-- Table PRT-5. -/
def PRT_CTL_ALERT_EN : Fld := ⟨0x280, 4, 3⟩
/-- Table PRT-5. -/
def PRT_CTL_BAR4_KEY : Fld := ⟨0x280, 12, 4⟩
/-- Table PRT-5. -/
def PRT_CTL_LOCK : Fld := ⟨0x280, 31, 1⟩
/-- Table PRT-5. -/
def PRT_EVT_VIOL : Fld := ⟨0x284, 0, 1⟩
/-- Table PRT-5. -/
def PRT_EVT_LOCKED : Fld := ⟨0x284, 1, 1⟩
/-- Table PRT-5. -/
def PRT_EVT_SHD_OVR : Fld := ⟨0x284, 2, 1⟩
/-- Table PRT-5. -/
def PRT_RGN_IDX_IDX : Fld := ⟨0x288, 0, 5⟩
/-- Table PRT-5. -/
def PRT_RGN_IDX_COMMIT : Fld := ⟨0x288, 31, 1⟩
/-- Table PRT-5. -/
def PRT_RGN_LIM_BASE : Fld := ⟨0x28C, 0, 9⟩
/-- Table PRT-5. -/
def PRT_RGN_LIM_LIMIT : Fld := ⟨0x28C, 16, 9⟩
/-- Table PRT-5. -/
def PRT_RGN_ATTR_EN : Fld := ⟨0x290, 0, 1⟩
/-- Table PRT-5. -/
def PRT_RGN_ATTR_RD : Fld := ⟨0x290, 1, 1⟩
/-- Table PRT-5. -/
def PRT_RGN_ATTR_WR : Fld := ⟨0x290, 2, 1⟩
/-- Table PRT-5. -/
def PRT_RGN_ATTR_STRICT : Fld := ⟨0x290, 3, 1⟩
/-- Table PRT-5. -/
def PRT_RGN_ATTR_SPACE : Fld := ⟨0x290, 4, 1⟩
/-- Table PRT-5. -/
def PRT_RGN_ATTR_LOCK : Fld := ⟨0x290, 5, 1⟩
/-- Table PRT-5. -/
def PRT_RGN_ATTR_MASTERS : Fld := ⟨0x290, 8, 6⟩
/-- Table PRT-5. -/
def PRT_RGN_ATTR_CTX : Fld := ⟨0x290, 16, 6⟩
/-- Table PRT-5. -/
def PRT_CAP0_MID : Fld := ⟨0x294, 0, 8⟩
/-- Table PRT-5. -/
def PRT_CAP0_CAUSE : Fld := ⟨0x294, 8, 3⟩
/-- Table PRT-5. -/
def PRT_CAP0_WR : Fld := ⟨0x294, 11, 1⟩
/-- Table PRT-5. -/
def PRT_CAP0_KEY : Fld := ⟨0x294, 12, 4⟩
/-- Table PRT-5. -/
def PRT_CAP0_SHADE : Fld := ⟨0x294, 16, 4⟩
/-- Table PRT-5. -/
def PRT_CAP0_REGION : Fld := ⟨0x294, 20, 6⟩
/-- Table PRT-5. -/
def PRT_CAP0_VALID : Fld := ⟨0x294, 31, 1⟩
/-- Table PRT-5. -/
def PRT_CAP1_ADDR : Fld := ⟨0x298, 0, 21⟩
/-- Table PRT-5. -/
def PRT_CAP1_SPACE : Fld := ⟨0x298, 21, 1⟩
/-- Table PRT-5. -/
def PRT_CAP1_CHAN : Fld := ⟨0x298, 24, 8⟩
/-- Table PRT-5. -/
def PRT_CAP2_WT_LO : Fld := ⟨0x29C, 0, 32⟩
/-- Table PRT-5. -/
def PRT_CAP3_WT_HI : Fld := ⟨0x2A0, 0, 16⟩
/-- Table PRT-5. -/
def PRT_VCNT_COUNT : Fld := ⟨0x2A4, 0, 16⟩
/-- Table PRT-5. -/
def PRT_SHD_ADDR_GRAN : Fld := ⟨0x2A8, 0, 16⟩
/-- Table PRT-5. -/
def PRT_SHD_ADDR_SPACE : Fld := ⟨0x2A8, 16, 1⟩
/-- Table PRT-5. -/
def PRT_SHD_DATA_SHADES : Fld := ⟨0x2AC, 0, 32⟩
/-- Table PRT-5. -/
def PRT_SHD_FILL_COUNT : Fld := ⟨0x2B0, 0, 16⟩
/-- Table PRT-5. -/
def PRT_SHD_FILL_SHADE : Fld := ⟨0x2B0, 16, 4⟩
/-- Table PRT-5. -/
def PRT_SHD_FILL_BUSY : Fld := ⟨0x2B0, 31, 1⟩
/-- Table PRT-5. -/
def PRT_CKEY_IDX_CTX : Fld := ⟨0x2B4, 0, 6⟩
/-- Table PRT-5. -/
def PRT_CKEY_KEYS : Fld := ⟨0x2B8, 0, 16⟩
/-- Table CUP-6. -/
def CUP_POOL_BASE : Fld := ⟨0x2C0, 0, 9⟩
/-- Table CUP-6. -/
def CUP_POOL_PAGES : Fld := ⟨0x2C0, 16, 10⟩
/-- Table CUP-6. -/
def CUP_CTL_EN : Fld := ⟨0x2C4, 0, 1⟩
/-- Table CUP-6. -/
def CUP_CTL_CTX_PAGES : Fld := ⟨0x2C4, 8, 10⟩
/-- Table CUP-6. -/
def CUP_CTL_ALERT_EN : Fld := ⟨0x2C4, 24, 3⟩
/-- Table CUP-6. -/
def CUP_CTL_LOCK : Fld := ⟨0x2C4, 31, 1⟩
/-- Table CUP-6. -/
def CUP_STAT_FREE : Fld := ⟨0x2C8, 0, 16⟩
/-- Table CUP-6. -/
def CUP_STAT_SCRUB : Fld := ⟨0x2C8, 16, 16⟩
/-- Table CUP-6. -/
def CUP_FAIL_CAUSE : Fld := ⟨0x2CC, 0, 3⟩
/-- Table CUP-6. -/
def CUP_FAIL_CTX : Fld := ⟨0x2CC, 8, 7⟩
/-- Table CUP-6. -/
def CUP_FAIL_COUNT : Fld := ⟨0x2CC, 16, 16⟩
/-- Table CUP-6. -/
def CUP_EVT_FAIL : Fld := ⟨0x2D0, 0, 1⟩
/-- Table CUP-6. -/
def CUP_EVT_POOL_DENY : Fld := ⟨0x2D0, 1, 1⟩
/-- Table CUP-6. -/
def CUP_EVT_UNWIND : Fld := ⟨0x2D0, 2, 1⟩
/-- Table CUP-6. -/
def FEN_SEL_INDEX : Fld := ⟨0x2D4, 0, 12⟩
/-- Table CUP-6. -/
def FEN_VAL_LO_VAL_LO : Fld := ⟨0x2D8, 0, 32⟩
/-- Table CUP-6. -/
def FEN_VAL_HI_VAL_HI : Fld := ⟨0x2DC, 0, 32⟩
/-- Table CUP-6. -/
def FEN_INFO_OWNER : Fld := ⟨0x2E0, 0, 7⟩
/-- Table CUP-6. -/
def FEN_INFO_DESTROY_PEND : Fld := ⟨0x2E0, 8, 1⟩
/-- Table CUP-6. -/
def FEN_INFO_PROXY : Fld := ⟨0x2E0, 9, 1⟩
/-- Table CUP-6. -/
def FEN_INFO_BROKEN : Fld := ⟨0x2E0, 10, 1⟩
/-- Table CUP-6. -/
def FEN_INFO_HOME : Fld := ⟨0x2E0, 12, 2⟩
/-- Table CUP-6. -/
def FEN_INFO_GEN : Fld := ⟨0x2E0, 16, 12⟩
/-- Table CUP-6. -/
def FEN_INFO_LIVE : Fld := ⟨0x2E0, 31, 1⟩
/-- Table CUP-6. -/
def FEN_REF_COUNT : Fld := ⟨0x2E4, 0, 32⟩
/-- Table CUP-6. -/
def MEM_SEL_INDEX : Fld := ⟨0x2E8, 0, 12⟩
/-- Table CUP-6. -/
def MEM_INFO_OWNER : Fld := ⟨0x2EC, 0, 7⟩
/-- Table CUP-6. -/
def MEM_INFO_TYPE : Fld := ⟨0x2EC, 8, 2⟩
/-- Table CUP-6. -/
def MEM_INFO_DESTROY_PEND : Fld := ⟨0x2EC, 10, 1⟩
/-- Table CUP-6. -/
def MEM_INFO_GEN : Fld := ⟨0x2EC, 16, 12⟩
/-- Table CUP-6. -/
def MEM_INFO_LIVE : Fld := ⟨0x2EC, 31, 1⟩
/-- Table CUP-6. -/
def MEM_REF_COUNT : Fld := ⟨0x2F0, 0, 32⟩
/-- Table CUP-6. -/
def FEN_EVT_KICK_BAD : Fld := ⟨0x2F4, 0, 1⟩
/-- Table CUP-6. -/
def FEN_EVT_TOKEN_BAD : Fld := ⟨0x2F4, 1, 1⟩
/-- Table CUP-6. -/
def FEN_EVT_PEER_LOST : Fld := ⟨0x2F4, 2, 1⟩
/-- Table CUP-6. -/
def FEN_EVT_ALERT_EN : Fld := ⟨0x2F4, 8, 3⟩
/-- Table CUP-6. -/
def FEN_CNT_KICK_BAD : Fld := ⟨0x2F8, 0, 16⟩
/-- Table CUP-6. -/
def FEN_CNT_TOKEN_BAD : Fld := ⟨0x2F8, 16, 16⟩
/-- Table GOV-7. -/
def GOV_CTL_EN : Fld := ⟨0x300, 0, 1⟩
/-- Table GOV-7. -/
def GOV_CTL_FREEZE : Fld := ⟨0x300, 1, 1⟩
/-- Table GOV-7. -/
def GOV_CTL_REVERT : Fld := ⟨0x300, 2, 1⟩
/-- Table GOV-7. -/
def GOV_CTL_WINDOW : Fld := ⟨0x300, 4, 4⟩
/-- Table GOV-7. -/
def GOV_CTL_HYST : Fld := ⟨0x300, 8, 4⟩
/-- Table GOV-7. -/
def GOV_CTL_PF_NOW : Fld := ⟨0x300, 12, 3⟩
/-- Table GOV-7. -/
def GOV_CTL_ALERT_EN : Fld := ⟨0x300, 16, 5⟩
/-- Table GOV-7. -/
def GOV_CTL_LOCK : Fld := ⟨0x300, 31, 1⟩
/-- Table GOV-7. -/
def GOV_AUTH_BURST : Fld := ⟨0x304, 0, 1⟩
/-- Table GOV-7. -/
def GOV_AUTH_PF : Fld := ⟨0x304, 1, 1⟩
/-- Table GOV-7. -/
def GOV_AUTH_BW : Fld := ⟨0x304, 2, 1⟩
/-- Table GOV-7. -/
def GOV_AUTH_PHASE : Fld := ⟨0x304, 3, 1⟩
/-- Table GOV-7. -/
def GOV_AUTH_RAILS : Fld := ⟨0x304, 16, 16⟩
/-- Table GOV-7. -/
def GOV_LIM_ARB_BURST_MIN : Fld := ⟨0x308, 0, 8⟩
/-- Table GOV-7. -/
def GOV_LIM_ARB_BURST_MAX : Fld := ⟨0x308, 8, 8⟩
/-- Table GOV-7. -/
def GOV_LIM_ARB_PF_MIN : Fld := ⟨0x308, 16, 3⟩
/-- Table GOV-7. -/
def GOV_LIM_ARB_PF_MAX : Fld := ⟨0x308, 20, 3⟩
/-- Table GOV-7. -/
def GOV_LIM_ARB_BW_MIN : Fld := ⟨0x308, 24, 2⟩
/-- Table GOV-7. -/
def GOV_LIM_ARB_BW_MAX : Fld := ⟨0x308, 26, 2⟩
/-- Table GOV-7. -/
def GOV_THR_LATE_HI : Fld := ⟨0x30C, 0, 8⟩
/-- Table GOV-7. -/
def GOV_THR_OCC_LO : Fld := ⟨0x30C, 8, 8⟩
/-- Table GOV-7. -/
def GOV_THR_FS_HI : Fld := ⟨0x30C, 16, 8⟩
/-- Table GOV-7. -/
def GOV_THR_JIT_HI : Fld := ⟨0x30C, 24, 8⟩
/-- Table GOV-7. -/
def GOV_HOME_BURST : Fld := ⟨0x310, 0, 8⟩
/-- Table GOV-7. -/
def GOV_HOME_PF : Fld := ⟨0x310, 8, 3⟩
/-- Table GOV-7. -/
def GOV_HOME_BW : Fld := ⟨0x310, 12, 2⟩
/-- Table GOV-7. -/
def GOV_RAIL_SEL_RAIL : Fld := ⟨0x314, 0, 4⟩
/-- Table GOV-7. -/
def GOV_RAIL_CFG0_MINPH : Fld := ⟨0x318, 0, 5⟩
/-- Table GOV-7. -/
def GOV_RAIL_CFG0_MAXPH : Fld := ⟨0x318, 8, 5⟩
/-- Table GOV-7. -/
def GOV_RAIL_CFG0_HOMEPH : Fld := ⟨0x318, 16, 5⟩
/-- Table GOV-7. -/
def GOV_RAIL_CFG1_IPH_ADD : Fld := ⟨0x31C, 0, 16⟩
/-- Table GOV-7. -/
def GOV_RAIL_CFG1_IPH_SHED : Fld := ⟨0x31C, 16, 16⟩
/-- Table GOV-7. -/
def GOV_RAIL_STAT_PHASES : Fld := ⟨0x320, 0, 5⟩
/-- Table GOV-7. -/
def GOV_RAIL_STAT_BLOCKED : Fld := ⟨0x320, 8, 1⟩
/-- Table GOV-7. -/
def GOV_RAIL_STAT_FAILS : Fld := ⟨0x320, 9, 2⟩
/-- Table GOV-7. -/
def GOV_RAIL_STAT_NODATA : Fld := ⟨0x320, 11, 1⟩
/-- Table GOV-7. -/
def GOV_RAIL_STAT_IAVG : Fld := ⟨0x320, 16, 16⟩
/-- Table GOV-7. -/
def GOV_MEAS0_LATE : Fld := ⟨0x324, 0, 8⟩
/-- Table GOV-7. -/
def GOV_MEAS0_OCC : Fld := ⟨0x324, 8, 8⟩
/-- Table GOV-7. -/
def GOV_MEAS0_FSTALL : Fld := ⟨0x324, 16, 8⟩
/-- Table GOV-7. -/
def GOV_MEAS0_KREQ : Fld := ⟨0x324, 24, 8⟩
/-- Table GOV-7. -/
def GOV_MEAS1_JIT_MAX : Fld := ⟨0x328, 0, 12⟩
/-- Table GOV-7. -/
def GOV_MEAS1_JIT_MEAN : Fld := ⟨0x328, 12, 12⟩
/-- Table GOV-7. -/
def GOV_MEAS1_LAG : Fld := ⟨0x328, 24, 8⟩
/-- Table GOV-7. -/
def GOV_HIST_BIN : Fld := ⟨0x32C, 0, 4⟩
/-- Table GOV-7. -/
def GOV_HIST_COUNT : Fld := ⟨0x32C, 16, 16⟩
/-- Table GOV-7. -/
def GOV_EVT_DECIDE : Fld := ⟨0x330, 0, 1⟩
/-- Table GOV-7. -/
def GOV_EVT_ADVISE : Fld := ⟨0x330, 1, 1⟩
/-- Table GOV-7. -/
def GOV_EVT_PHASE_FAIL : Fld := ⟨0x330, 2, 1⟩
/-- Table GOV-7. -/
def GOV_EVT_BLOCK : Fld := ⟨0x330, 4, 1⟩
/-- Table GOV-7. -/
def GOV_LOG_BASE : Fld := ⟨0x334, 12, 9⟩
/-- Table GOV-7. -/
def GOV_LOG_LOG2 : Fld := ⟨0x334, 24, 4⟩
/-- Table GOV-7. -/
def GOV_LOG_WR_WR : Fld := ⟨0x338, 0, 16⟩
/-- Table GOV-7. -/
def GOV_PHASE_CHAN : Fld := ⟨0x33C, 0, 8⟩
/-- Table GOV-7. -/
def GOV_PHASE_PROF : Fld := ⟨0x33C, 16, 9⟩
/-- Table PMW-6. -/
def PMB0_CTL_EN : Fld := ⟨0x340, 0, 1⟩
/-- Table PMW-6. -/
def PMB1_CTL_EN : Fld := ⟨0x344, 0, 1⟩
/-- Table PMW-6. -/
def PMB0_CTL_SPEED : Fld := ⟨0x340, 1, 2⟩
/-- Table PMW-6. -/
def PMB1_CTL_SPEED : Fld := ⟨0x344, 1, 2⟩
/-- Table PMW-6. -/
def PMB0_CTL_ARA_AUTO : Fld := ⟨0x340, 3, 1⟩
/-- Table PMW-6. -/
def PMB1_CTL_ARA_AUTO : Fld := ⟨0x344, 3, 1⟩
/-- Table PMW-6. -/
def PMB_STAT_BUSY0 : Fld := ⟨0x348, 0, 1⟩
/-- Table PMW-6. -/
def PMB_STAT_BUSY1 : Fld := ⟨0x348, 1, 1⟩
/-- Table PMW-6. -/
def PMB_STAT_ALERT0 : Fld := ⟨0x348, 2, 1⟩
/-- Table PMW-6. -/
def PMB_STAT_ALERT1 : Fld := ⟨0x348, 3, 1⟩
/-- Table PMW-6. -/
def PMB_STAT_AVS_BUSY0 : Fld := ⟨0x348, 4, 1⟩
/-- Table PMW-6. -/
def PMB_STAT_AVS_BUSY1 : Fld := ⟨0x348, 5, 1⟩
/-- Table PMW-6. -/
def PMB0_ARA_ADDR : Fld := ⟨0x34C, 0, 7⟩
/-- Table PMW-6. -/
def PMB1_ARA_ADDR : Fld := ⟨0x350, 0, 7⟩
/-- Table PMW-6. -/
def PMB0_ARA_VALID : Fld := ⟨0x34C, 7, 1⟩
/-- Table PMW-6. -/
def PMB1_ARA_VALID : Fld := ⟨0x350, 7, 1⟩
/-- Table PMW-6. -/
def PMB0_ARA_COUNT : Fld := ⟨0x34C, 16, 16⟩
/-- Table PMW-6. -/
def PMB1_ARA_COUNT : Fld := ⟨0x350, 16, 16⟩
/-- Table PMW-6. -/
def AVS0_CTL_EN : Fld := ⟨0x354, 0, 1⟩
/-- Table PMW-6. -/
def AVS1_CTL_EN : Fld := ⟨0x358, 0, 1⟩
/-- Table PMW-6. -/
def AVS0_CTL_DIV : Fld := ⟨0x354, 8, 6⟩
/-- Table PMW-6. -/
def AVS1_CTL_DIV : Fld := ⟨0x358, 8, 6⟩
/-- Table PMW-6. -/
def PMB_EVT_NAK : Fld := ⟨0x35C, 0, 1⟩
/-- Table PMW-6. -/
def PMB_EVT_ALERT0 : Fld := ⟨0x35C, 1, 1⟩
/-- Table PMW-6. -/
def PMB_EVT_ALERT1 : Fld := ⟨0x35C, 2, 1⟩
/-- Table PMW-6. -/
def PMB_EVT_STUCK : Fld := ⟨0x35C, 3, 1⟩
/-- Table PMW-6. -/
def PMB_EVT_ALERT_EN : Fld := ⟨0x35C, 8, 4⟩
/-- Table PMW-6. -/
def PMB_CAP_CAUSE : Fld := ⟨0x360, 0, 4⟩
/-- Table PMW-6. -/
def PMB_CAP_AVS : Fld := ⟨0x360, 4, 1⟩
/-- Table PMW-6. -/
def PMB_CAP_PORT : Fld := ⟨0x360, 5, 1⟩
/-- Table PMW-6. -/
def PMB_CAP_ADDR : Fld := ⟨0x360, 8, 7⟩
/-- Table PMW-6. -/
def PMB_CAP_BYTE : Fld := ⟨0x360, 16, 8⟩
/-- Table PMW-6. -/
def PMB_CAP_VALID : Fld := ⟨0x360, 31, 1⟩
/-- Table PMW-6. -/
def PMB_CNT_NAKS : Fld := ⟨0x364, 0, 16⟩
/-- Table PMW-6. -/
def PMB_CNT_STUCK : Fld := ⟨0x364, 16, 16⟩
/-- Table PMW-7. -/
def WCK_SEL_PIN : Fld := ⟨0x380, 0, 6⟩
/-- Table PMW-7. -/
def WCK_CFG_FUNC : Fld := ⟨0x384, 0, 3⟩
/-- Table PMW-7. -/
def WCK_CFG_PARK : Fld := ⟨0x384, 4, 2⟩
/-- Table PMW-7. -/
def WCK_CFG_PARKING : Fld := ⟨0x384, 8, 1⟩
/-- Table PMW-7. -/
def WCK_IN0_LEVEL : Fld := ⟨0x388, 0, 32⟩
/-- Table PMW-7. -/
def WCK_IN1_LEVEL : Fld := ⟨0x38C, 0, 32⟩
/-- Table PMW-7. -/
def WCK_OUT0_OUT : Fld := ⟨0x390, 0, 32⟩
/-- Table PMW-7. -/
def WCK_OUT1_OUT : Fld := ⟨0x394, 0, 32⟩
/-- Table PMW-7. -/
def WCK_EVT_PACE_OVF : Fld := ⟨0x3A8, 0, 1⟩
/-- Table PMW-7. -/
def WCK_EVT_LOCKED : Fld := ⟨0x3A8, 1, 1⟩
/-- Table PMW-7. -/
def WCK_CNT_PACE_OVF : Fld := ⟨0x3AC, 0, 16⟩
/-- Table PMW-7. -/
def WCK_CTL_ALERT_EN : Fld := ⟨0x3B0, 0, 2⟩
/-- Table PMW-7. -/
def WCK_CTL_LOCK : Fld := ⟨0x3B0, 31, 1⟩
/-- Table ENR-8. -/
def LAN_CTL_EN : Fld := ⟨0x800, 0, 1⟩
/-- Table ENR-8. -/
def LAN_CTL_AUTO : Fld := ⟨0x800, 1, 1⟩
/-- Table ENR-8. -/
def LAN_CTL_TURNS : Fld := ⟨0x800, 2, 1⟩
/-- Table ENR-8. -/
def LAN_CTL_ALERT_EN : Fld := ⟨0x800, 8, 8⟩
/-- Table ENR-8. -/
def LAN_CTL_LOCK : Fld := ⟨0x800, 31, 1⟩
/-- Table ENR-8. -/
def LAN_STAT_STATE : Fld := ⟨0x804, 0, 3⟩
/-- Table ENR-8. -/
def LAN_STAT_LAST_TURN : Fld := ⟨0x804, 8, 4⟩
/-- Table ENR-8. -/
def LAN_STAT_PCS : Fld := ⟨0x804, 16, 16⟩
/-- Table ENR-8. -/
def LAN_HOLD0_CMD : Fld := ⟨0x808, 0, 8⟩
/-- Table ENR-8. -/
def LAN_HOLD0_LEN : Fld := ⟨0x808, 8, 4⟩
/-- Table ENR-8. -/
def LAN_HOLD0_EN : Fld := ⟨0x808, 16, 1⟩
/-- Table ENR-8. -/
def LAN_HOLD1_PAY_LO : Fld := ⟨0x80C, 0, 32⟩
/-- Table ENR-8. -/
def LAN_HOLD2_PAY_HI : Fld := ⟨0x810, 0, 32⟩
/-- Table ENR-8. -/
def LAN_EVT_DOWN : Fld := ⟨0x814, 0, 1⟩
/-- Table ENR-8. -/
def LAN_EVT_TRAINED : Fld := ⟨0x814, 1, 1⟩
/-- Table ENR-8. -/
def LAN_EVT_RETRY : Fld := ⟨0x814, 2, 1⟩
/-- Table ENR-8. -/
def LAN_EVT_FAIL : Fld := ⟨0x814, 3, 1⟩
/-- Table ENR-8. -/
def LAN_EVT_CRC_RX : Fld := ⟨0x814, 4, 1⟩
/-- Table ENR-8. -/
def LAN_EVT_CODE : Fld := ⟨0x814, 5, 1⟩
/-- Table ENR-8. -/
def LAN_EVT_BADFRAME : Fld := ⟨0x814, 6, 1⟩
/-- Table ENR-8. -/
def LAN_EVT_RXFULL : Fld := ⟨0x814, 7, 1⟩
/-- Table ENR-8. -/
def LAN_CNT0_RETRIES : Fld := ⟨0x818, 0, 16⟩
/-- Table ENR-8. -/
def LAN_CNT0_CRC_RX : Fld := ⟨0x818, 16, 16⟩
/-- Table ENR-8. -/
def LAN_CNT1_CODE : Fld := ⟨0x81C, 0, 16⟩
/-- Table ENR-8. -/
def LAN_CNT1_BADFRAME : Fld := ⟨0x81C, 16, 16⟩
/-- Table HLK-4. -/
def HLK_STAT_UP : Fld := ⟨0x900, 0, 1⟩
/-- Table HLK-4. -/
def HLK_STAT_PERST : Fld := ⟨0x900, 1, 1⟩
/-- Table HLK-4. -/
def HLK_STAT_GEN : Fld := ⟨0x900, 4, 4⟩
/-- Table HLK-4. -/
def HLK_STAT_WIDTH : Fld := ⟨0x900, 8, 4⟩
/-- Table HLK-4. -/
def HLK_STAT_RO_EN : Fld := ⟨0x900, 12, 1⟩
/-- Table HLK-4. -/
def HLK_STAT_TAG10 : Fld := ⟨0x900, 13, 1⟩
/-- Table HLK-4. -/
def HLK_STAT_EXT_TAG : Fld := ⟨0x900, 14, 1⟩
/-- Table HLK-4. -/
def HLK_STAT_MPS : Fld := ⟨0x900, 16, 3⟩
/-- Table HLK-4. -/
def HLK_STAT_MRRS : Fld := ⟨0x900, 20, 3⟩
/-- Table HLK-4. -/
def HLK_STAT_PTM_EN : Fld := ⟨0x900, 24, 1⟩
/-- Table HLK-4. -/
def HLK_CTL_RO_DATA : Fld := ⟨0x904, 0, 1⟩
/-- Table HLK-4. -/
def HLK_CTL_MAX_GEN : Fld := ⟨0x904, 4, 4⟩
/-- Table HLK-4. -/
def HLK_CTL_ALERT_EN : Fld := ⟨0x904, 8, 8⟩
/-- Table HLK-4. -/
def HLK_CTL_LOCK : Fld := ⟨0x904, 31, 1⟩
/-- Table HLK-4. -/
def HLK_EVT_UP : Fld := ⟨0x908, 0, 1⟩
/-- Table HLK-4. -/
def HLK_EVT_DOWN : Fld := ⟨0x908, 1, 1⟩
/-- Table HLK-4. -/
def HLK_EVT_PARTIAL : Fld := ⟨0x908, 2, 1⟩
/-- Table HLK-4. -/
def HLK_EVT_CTO : Fld := ⟨0x908, 3, 1⟩
/-- Table HLK-4. -/
def HLK_EVT_POISON : Fld := ⟨0x908, 4, 1⟩
/-- Table HLK-4. -/
def HLK_EVT_REFUSED : Fld := ⟨0x908, 5, 1⟩
/-- Table HLK-4. -/
def HLK_EVT_UR : Fld := ⟨0x908, 6, 1⟩
/-- Table HLK-4. -/
def HLK_EVT_UNEXP : Fld := ⟨0x908, 7, 1⟩
/-- Table HLK-4. -/
def HLK_CNT0_PARTIAL : Fld := ⟨0x90C, 0, 16⟩
/-- Table HLK-4. -/
def HLK_CNT0_CTO : Fld := ⟨0x90C, 16, 16⟩
/-- Table HLK-4. -/
def HLK_CNT1_POISON : Fld := ⟨0x910, 0, 16⟩
/-- Table HLK-4. -/
def HLK_CNT1_REFUSED : Fld := ⟨0x910, 16, 16⟩
/-- Table HLK-4. -/
def HLK_CNT2_UR : Fld := ⟨0x914, 0, 16⟩
/-- Table HLK-4. -/
def HLK_CNT2_UNEXP : Fld := ⟨0x914, 16, 16⟩
/-- Table ZHN-5. -/
def PEL_CTL_EN : Fld := ⟨0x940, 0, 2⟩
/-- Table ZHN-5. -/
def PEL_CTL_ERR_FWD : Fld := ⟨0x940, 2, 1⟩
/-- Table ZHN-5. -/
def PEL_CTL_ALERT_EN : Fld := ⟨0x940, 8, 8⟩
/-- Table ZHN-5. -/
def PEL_CTL_RSP_TO : Fld := ⟨0x940, 16, 8⟩
/-- Table ZHN-5. -/
def PEL_CTL_LOCK : Fld := ⟨0x940, 31, 1⟩
/-- Table ZHN-5. -/
def PEL_STAT_UP0 : Fld := ⟨0x944, 0, 1⟩
/-- Table ZHN-5. -/
def PEL_STAT_UP1 : Fld := ⟨0x944, 1, 1⟩
/-- Table ZHN-5. -/
def PEL_STAT_PRESENT : Fld := ⟨0x944, 4, 4⟩
/-- Table ZHN-5. -/
def PEL_STAT_TOPO : Fld := ⟨0x944, 8, 2⟩
/-- Table ZHN-5. -/
def PEL_STAT_HEAD : Fld := ⟨0x944, 12, 2⟩
/-- Table ZHN-5. -/
def PEL_STAT_HEAD_VALID : Fld := ⟨0x944, 14, 1⟩
/-- Table ZHN-5. -/
def PEL_ROUTE_ALL : Fld := ⟨0x948, 0, 32⟩
/-- Table ZHN-5. -/
def PEL_DLY0_D : Fld := ⟨0x94C, 0, 16⟩
/-- Table ZHN-5. -/
def PEL_DLY1_D : Fld := ⟨0x950, 0, 16⟩
/-- Table ZHN-5. -/
def PEL_EVT_PEER_UP : Fld := ⟨0x954, 0, 1⟩
/-- Table ZHN-5. -/
def PEL_EVT_PEER_LOST : Fld := ⟨0x954, 1, 1⟩
/-- Table ZHN-5. -/
def PEL_EVT_LINK_DOWN : Fld := ⟨0x954, 2, 1⟩
/-- Table ZHN-5. -/
def PEL_EVT_RETRY : Fld := ⟨0x954, 3, 1⟩
/-- Table ZHN-5. -/
def PEL_EVT_CONFLICT : Fld := ⟨0x954, 4, 1⟩
/-- Table ZHN-5. -/
def PEL_EVT_IDCLASH : Fld := ⟨0x954, 5, 1⟩
/-- Table ZHN-5. -/
def PEL_CNT0_RETRIES : Fld := ⟨0x958, 0, 16⟩
/-- Table ZHN-5. -/
def PEL_CNT0_CRC : Fld := ⟨0x958, 16, 16⟩
/-- Table ZHN-5. -/
def PEL_CNT1_REFUSED : Fld := ⟨0x95C, 0, 16⟩
/-- Table ZHN-5. -/
def PEL_CNT1_TIMEOUT : Fld := ⟨0x95C, 16, 16⟩
/-- Table ERR-8. -/
def TRC_CTL_EN : Fld := ⟨0x9C0, 0, 1⟩
/-- Table ERR-8. -/
def TRC_CTL_FREEZE : Fld := ⟨0x9C0, 1, 1⟩
/-- Table ERR-8. -/
def TRC_CTL_THAW : Fld := ⟨0x9C0, 2, 1⟩
/-- Table ERR-8. -/
def TRC_CTL_MASK : Fld := ⟨0x9C0, 8, 8⟩
/-- Table ERR-8. -/
def TRC_STAT_WR : Fld := ⟨0x9C4, 0, 16⟩
/-- Table ERR-8. -/
def TRC_STAT_FROZEN : Fld := ⟨0x9C4, 16, 1⟩
/-- Table ERR-8. -/
def TRC_CNT_DROP : Fld := ⟨0x9C8, 0, 16⟩
/-- Table PMW-7. -/
def WCK_LANE0_LEVEL : Fld := ⟨0x398, 0, 32⟩
/-- Table PMW-7. -/
def WCK_LANE1_LEVEL : Fld := ⟨0x39C, 0, 32⟩
/-- Table PMW-7. -/
def WCK_LANE2_LEVEL : Fld := ⟨0x3A0, 0, 32⟩
/-- Table PMW-7. -/
def WCK_LANE3_LEVEL : Fld := ⟨0x3A4, 0, 32⟩

end F

end Sys2Proof.Machine
end

