-- ==== Sys2Proof/Config.lean ====
section
/-!
DEFINITION. What the spec leaves to the part or to chance: the ordering variant and the free values.  Each is an
opaque constant; nothing proves a value of one.  A free value is applied to the counter State.freeCtr, which every
draw advances, so each draw is a fresh one (log 6).
-/

namespace Sys2Proof

/-- The ordering variant: false is the -C grade and true the -E grade (R590, Table CTX-8; log 4). -/
opaque Config.gradeE : Bool

/-- Bytes the spec calls undefined: the overlap of a COPY whose DST lies above its SRC (R160). -/
opaque Config.copyByte : Nat → Byte

/-- Bytes of the shadow banks after a failed Kindle load (R244). -/
opaque Config.shadowByte : Nat → Byte

/-- The random draw behind an export token's NONCE (R374); the model maps it into 1 to 65535. -/
opaque Config.nonce : Nat → Nat

/-- How far the tracker loop moves the period estimate at a good sync, within what Table WHL-3's settling leaves open (R44,
R65): draw, present estimate, phase error and bandwidth. -/
opaque Config.loopPeriod : Nat → Nat → Int → Nat → Nat

/-- The part of a small phase error that the loop absorbs by the next sync, within what Table WHL-3 leaves open (R45 first
case): draw, phase error and bandwidth. -/
opaque Config.loopPhase : Nat → Int → Nat → Nat

/-- The TLB leaf a new one replaces when all 512 are in use (R126 names no policy). -/
opaque Config.tlbVictim : Nat → Nat

/-- Core clocks a forwarded MARK spends in this device (R506). -/
opaque Config.markWait : Nat → Nat

/-- The Vendor ID of the configuration header (R471 gives none). -/
opaque Config.vendorId : BitVec 16

/-- Cells of the boundary register as the pins set them (R612 does not list the cells). -/
opaque Config.boundaryCells : Nat → List Bool

/-- Whether a RESET# pulse longer than 100 ns and shorter than 1 us acts as a warm reset (R523). -/
opaque Config.shortReset : Nat → Bool

end Sys2Proof
end

