-- ==== Sys2Proof/Machine/State.lean ====
section
/-!
DEFINITION. The state of the block as plain data, and the state right after reset (the end of a cold reset: R522,
R578, R579).  Register words live in `regs`; every other piece of state the spec gives the device has a field here.
-/

namespace Sys2Proof.Machine

/-- Why a step can stop.  The spec gives the block no machine fault, so no command raises one. -/
inductive Fault where
  /-- Raised by nothing; it fills the interface's place (safe: no run is cut short by it). -/
  | never
  deriving DecidableEq, Repr

/-- Why a command has no meaning in the model. -/
inductive Refusal where
  /-- Raised by exec for a row not modelled yet (safe: nothing is claimed about it). -/
  | notModelled (mnemonic : String)
  deriving DecidableEq, Repr

/-- Tracker states (Table WHL-1). -/
inductive Trk where
  | idle | acquire | locked | coast | lost | master
  deriving DecidableEq, Repr

/-- The wheel tracker and generator (02_wheel_time.md). -/
structure Wheel where
  st : Trk
  /-- Device wheel time (R41). -/
  time : WTime
  /-- The 20 fraction bits of the accumulator, in 2^-20 angle unit. -/
  frac : Nat
  /-- Period estimate, 1/16 core clock (WHL_PERIOD.EST). -/
  est : Nat
  /-- Last phase error, angle units (WHL_PERIOD.ERR). -/
  err : Int
  /-- Running generator period, 1/16 core clock (R40). -/
  genP : Nat
  /-- A written WHL_NOMINAL period not yet reached (R40). -/
  nomPend : Option Nat
  miss : Nat
  good : Nat
  bad : Nat
  /-- Time of the last edge seen, 1/8 core clock (R37, R73). -/
  lastEdge : Option Nat
  /-- Spacings counted toward R43, R62 and R66, newest first, 1/8 core clock. -/
  spacings : List Nat
  /-- In ACQUIRE: R43 has been met on the present source (R69, R73). -/
  qual : Bool
  /-- Hold still to run, in 2^-20 angle unit (R45). -/
  hold : Nat
  /-- A peer's wheel time has been adopted (R39). -/
  adopted : Bool
  /-- WHL_OUT waits for the next angle 0x000 (R36). -/
  outWait : Bool
  /-- What is left of a small error's absorption: 2^-20 angle unit added in each of `slewLeft` core clocks (R45). -/
  slew : Int
  slewLeft : Nat
  /-- The part of the last error that is not absorbed, and good syncs since the tracker was last settled (R48, R65). -/
  resid : Int
  unset : Nat
  /-- Cycle of the last expected sync that is judged: it had an edge, or its window has closed (R44). -/
  judged : Nat
  /-- WHL_TRK before a write, and the cycle of the expected sync from which the write is in force (R70). -/
  trkOld : Option (Nat × Nat)
  /-- The cycle at whose angle 0x000 the generator may take its next period (R40). -/
  nomFrom : Nat
  /-- The last jump, hold or adoption: its clock, and wheel time before and after it (R55). -/
  discClk : Nat
  discFrom : WTime
  discTo : WTime
  deriving DecidableEq, Repr

/-- One armed Lamplighter entry (R51): the clock it was armed at, the first core clock in which wheel time was at or after
the target, and whether it is LATE whatever the measure (R67, R189). -/
structure LampEnt where
  idx : Nat
  chan : Nat
  ctx : Nat
  target : WTime
  armed : Nat
  since : Option Nat
  forced : Bool
  deriving DecidableEq, Repr

/-- A channel parked for want of an entry (R52). -/
structure LampWait where
  chan : Nat
  ctx : Nat
  target : WTime
  issue : WTime
  clk : Nat
  forced : Bool
  deriving DecidableEq, Repr

/-- The Lamplighter, with the clock of its last fire and how many entries fired in it (R53). -/
structure Lamp where
  entries : List LampEnt
  waiters : List LampWait
  firedAt : Nat
  fired : Nat
  /-- The book of armed entries, as the device counts it (R301). -/
  used : Nat
  deriving DecidableEq, Repr

/-- The PTM requester (R58, R490): the dialogue in progress, with its start clock and sampled wheel time; and the wheel
time from which the next INTERVAL is counted. -/
structure Ptm where
  start : Option Nat
  sample : WTime
  valid : Bool
  anchor : WTime
  deriving DecidableEq, Repr

/-- The register a held (RS) read waits on (R86, R93). -/
inductive HeldReg where
  | cmdWait
  | chrWait (n : Nat)
  /-- WIN_DATA on staging or the object store before INIT has ended (R97, R525). -/
  | win
  deriving DecidableEq, Repr

/-- A read in progress on a path: the register it is held on, the clock and issue time since which it is, the offset of
its first word, how many words it reads, whether the address is fixed, the byte enables of its first and last word, and
the words already read. -/
structure HeldRead where
  reg : Option HeldReg
  since : Nat
  issue : WTime
  off : Nat
  total : Nat
  fixed : Bool
  fbe : Nat
  lbe : Nat
  got : List Word
  deriving DecidableEq, Repr

/-- A BAR read completion the device has returned (R477): PCIe status and data. -/
structure Cpl where
  status : Nat
  data : List Byte
  deriving DecidableEq, Repr

/-- A host access that waits behind a held BAR0 read (R93, R474): a write dword with its byte enables, a read of BAR0 or
BAR2, or a read of BAR4. -/
inductive BarReq where
  | wr (off : Nat) (v : Word) (be : Nat)
  | rd (r : ReadReq)
  | rd4 (addr len : Nat)
  deriving DecidableEq, Repr

/-- A register path's port: the held read, the bytes or completions last returned, what waits behind the held read, and for
the control port the byte times before the reply: those with nothing to send, then those of wait bytes (R81, R82). -/
structure PathPort where
  held : Option HeldRead
  reply : List Byte
  cpls : List Cpl
  behind : List BarReq
  lead : Nat
  waits : Nat
  deriving DecidableEq, Repr

/-- What a begun mailbox command waits for before it may finish. -/
inductive JobWait where
  | none
  /-- No further access of the context's channels (R144 step 2). -/
  | ctxQuiet (ctx : Nat)
  /-- No further access to the queue's rings (R146). -/
  | queueQuiet (q : Nat)
  /-- A forwarded import (R376): operation, context, token. -/
  | importRsp (opId ctx token : Nat)
  /-- STAGE_MAP or STAGE_UNMAP: the view entry of a context takes a value when the command finishes (R131). -/
  | viewSet (ctx entry v : Nat)
  deriving DecidableEq, Repr

/-- A mailbox command begun and not finished (R100). -/
structure Job where
  op : Nat
  args : List Nat
  seq : Nat
  result : Nat
  res : List Word
  wait : JobWait
  discard : Bool
  /-- The other path's command was written before it and is not finished: this one has not begun (R105). -/
  second : Bool
  deriving DecidableEq, Repr

/-- Context states (Table CTX-2). -/
inductive CtxSt where
  | free | live | lost | dying
  deriving DecidableEq, Repr

/-- The captured first fault of a context (R154). -/
structure CtxFault where
  status : Nat
  desc : Nat
  chan : Nat
  addr : Nat
  wt : WTime
  deriving DecidableEq, Repr

/-- A context (04). The staging view maps an entry to page + 512 * read-only + 1; 0 is unmapped. -/
structure Ctx where
  st : CtxSt
  gen : Nat
  freedAt : Nat
  mode : Nat
  root : Nat
  view : SMap Nat
  fault : Option CtxFault
  dberr : Nat
  dbslot : Nat
  /-- A loss is between step 1 and step 3 of R555: the channel whose fault began it. -/
  losing : Option Nat
  /-- Descriptor references of its channels that step 3 of R555 returns. -/
  heldRefs : List (Bool × Nat)
  deriving DecidableEq, Repr

/-- A queue (R132, R133). -/
structure Queue where
  live : Bool
  gen : Nat
  freedAt : Nat
  ctx : Nat
  log2 : Nat
  sqRing : Nat
  cqRing : Nat
  slot : Nat
  sqTail : Nat
  sqHead : Nat
  cqTail : Nat
  cqHead : Nat
  /-- Its ring faulted (R554). -/
  faulted : Bool
  destroying : Bool
  /-- The channel whose full list stopped the reading (R136). -/
  blockedOn : Option Nat
  /-- A submission entry read is outstanding at the host. -/
  reading : Bool
  deriving DecidableEq, Repr

/-- An accepted submission (Table CTX-5). Queue 1024 stands for the governor's own submissions (R397). -/
structure Sub where
  chan : Nat
  tag : Nat
  start : WTime
  first : Nat
  queue : Nat
  deriving DecidableEq, Repr

/-- Channel states (Table STP-3). -/
inductive ChanSt where
  | free | idle | queued | running | parked | halted | stopped | dying
  deriving DecidableEq, Repr

/-- Why a channel is parked (Table CTX-7, R131, R324, R458). -/
inductive Park where
  | none
  | start | class2 | wheel
  | fence (idx : Nat) (value : DWord)
  | wick (w cond : Nat)
  | chair (n : Nat)
  | ring (q : Nat)
  /-- A staging-view entry that a STAGE_MAP or STAGE_UNMAP in progress is to change: its context and entry (R131). -/
  | view (ctx entry : Nat)
  | pace
  | stall
  deriving DecidableEq, Repr

/-- What the current descriptor waits for. -/
inductive Phase where
  | ready | walk | hostData | flush | peer | lane | frame | bus | cup | fenceRsp | chairRsp
  | done (status : Nat)
  deriving DecidableEq, Repr

/-- The current (taken) descriptor (R157, R172). -/
structure Cur where
  idx : Nat
  words : List Word
  s : WTime
  l : WTime
  takeWT : WTime
  off : Nat
  phase : Phase
  late : Bool
  /-- References held: (is a fence, index) (R141). -/
  refs : List (Bool × Nat)
  /-- Bytes read for the next piece and not yet written. -/
  data : Option (List Byte)
  /-- Bursts this command may still move. -/
  budget : Nat
  /-- CLASS 2: its Lamplighter entry has fired, or it resumed past its wait (R171, R265). -/
  fired : Bool
  /-- EMIT: frames loaded; a peer access: its bytes; SAMPLE: 1 once it is stale. -/
  sent : Nat
  acked : Nat
  doneWT : WTime
  /-- The operand address of the access in progress, for fault reports (R270, R554). -/
  addr : Nat
  /-- The status it completes with once its flush read returns (R176). -/
  after : Option Nat
  deriving DecidableEq, Repr

/-- The running chain. -/
structure Run where
  next : Nat
  cur : Option Cur
  /-- First status of the chain that is neither DONE nor DONE_LATE; 0 none (R182). -/
  status : Nat
  late : Bool
  bytes : Nat
  lastWT : WTime
  lastIntr : Bool
  /-- Offset at which the first take resumes (R265). -/
  resume : Option Nat
  q : WTime
  i : WTime
  /-- Address of the chain's last host write that no flush has covered yet (R176). -/
  hostWrote : Option Nat
  /-- Tier and L of the descriptor taken last (R202). -/
  tier : Nat
  l : WTime
  /-- OP_IDs of peer writes issued before a stop or a fault and not acknowledged then (R184, R267). -/
  acks : List Nat
  deriving DecidableEq, Repr

/-- A channel (04, 05, 08). -/
structure Chan where
  st : ChanSt
  gen : Nat
  freedAt : Nat
  ctx : Nat
  burst : Nat
  engines : Nat
  pfMax : Nat
  paceWick : Nat
  paceEn : Bool
  base : Nat
  count : Nat
  /-- Accepted submissions, oldest first; the head is the running one when `run` is some. -/
  subs : List Sub
  run : Option Run
  copies : List (Nat × List Word)
  park : Park
  parkedAt : Nat
  /-- 0 none, 1 DRAIN, 2 HALT, 3 ABORT. -/
  stopPend : Nat
  stopWT : WTime
  resValid : Bool
  resDesc : Nat
  resOff : Nat
  resTag : Nat
  faultDesc : Nat
  faultOff : Nat
  pace : Nat
  engine : Nat
  /-- The book of its pending places in use, as the device counts it (R301). -/
  pend : Nat
  /-- The state that a stop or a fault leads to, reached once the records due for it are written (R258, R261). -/
  dest : Option ChanSt
  /-- The Snuffer has bitten it during an operation that ABORT does not cut (R216, R268). -/
  bitten : Bool
  deriving DecidableEq, Repr

/-- A completion record due to a queue (R181). -/
structure Due where
  queue : Nat
  chan : Option Nat
  tag : Nat
  status : Nat
  isEnd : Bool
  intr : Bool
  wt : WTime
  bytes : Nat
  chanIdx : Nat
  chanGen : Nat
  /-- It reports an accepted submission; peer writes its chain has issued, by OP_ID, that it waits for (R184). -/
  own : Bool
  acks : List Nat
  /-- The engine that writes it, 10 for the device itself, and the tier and L of its requests (R202). -/
  eng : Nat
  tier : Nat
  l : WTime
  deriving DecidableEq, Repr

/-- A memory object (Table CUP-1). -/
structure MemObj where
  live : Bool
  gen : Nat
  freedAt : Nat
  owner : Nat
  typ : Nat
  base : Nat
  len : Nat
  release : Nat
  unattr : Nat
  holds : Nat
  descRefs : Nat
  destroy : Bool
  deriving DecidableEq, Repr

/-- A fence or a proxy (12). -/
structure Fence where
  live : Bool
  gen : Nat
  freedAt : Nat
  owner : Nat
  value : DWord
  unattr : Nat
  holds : Nat
  imported : Nat
  descRefs : Nat
  destroy : Bool
  nonce : Nat
  /-- Subscribed peers, a bit each (R376). -/
  subs : Nat
  proxy : Bool
  broken : Bool
  home : Nat
  /-- The fence's index at its home; 4096 once that home has been lost (R378, R379). -/
  homeIdx : Nat
  deriving DecidableEq, Repr

/-- A request at a fabric port (Table ARB-3): the requester's fixed index, its tier, L, I and burst limit in beats. -/
structure FReq where
  idx : Nat
  tier : Nat
  l : WTime
  i : WTime
  burst : Nat
  deriving DecidableEq, Repr

/-- A fabric target port: the request granted last, the clock its grant is visible and the clock of its last data beat;
between the two the owner holds the port's token (R287).  The token's own count has it out until `out` (R301). -/
structure Port where
  owner : Option FReq
  first : Nat
  last : Nat
  out : Nat
  deriving DecidableEq, Repr

/-- A beat in a writeback queue: its address and byte mask (R288). -/
structure WBeat where
  addr : Nat
  mask : Nat
  deriving DecidableEq, Repr

/-- A leaf translation of the TLB (R126). -/
structure Tlb where
  ctx : Nat
  big : Bool
  vpn : Nat
  phys : Nat
  w : Bool
  ns : Bool
  deriving DecidableEq, Repr

/-- A write-combining line (R290): space 0 staging or 1 object store, line number, byte mask, bytes, last write. -/
structure WLine where
  space : Nat
  line : Nat
  mask : Nat
  bytes : List Byte
  first : Nat
  last : Nat
  deriving DecidableEq, Repr

/-- A transfer engine. -/
structure Engine where
  chan : Option Nat
  granted : Nat
  /-- Core clocks of the grant that the Snuffer does not count (R215). -/
  excused : Nat
  wcb : List WLine
  /-- Lines its cache holds: (space, line), newest first (R290). -/
  cache : List (Nat × Nat)
  /-- The lines of its cache that it alone holds, clean or under its buffer: E or M (Table STG-1). -/
  excl : List (Nat × Nat)
  /-- Bytes moved since its grant, a beat for 32 of them, and ARB_BURST.CAP when the grant was made (R208). -/
  moved : Nat
  cap : Nat
  /-- The book of its buffer's lines in use, as the device counts it (R301). -/
  wcbUsed : Nat
  deriving DecidableEq, Repr

/-- Who a translation walk or an operand access serves. -/
inductive Who where
  | chan (c : Nat)
  | sq (q : Nat)
  | cq (q : Nat)
  deriving DecidableEq, Repr

/-- What an outbound host read is for. -/
inductive Purpose where
  /-- Walk read of a level, with the W bits met so far (R124). -/
  | walk (who : Who) (ctx va level : Nat) (write w : Bool)
  | data (c : Nat)
  | flush (c : Nat)
  | ring (q : Nat)
  deriving DecidableEq, Repr

/-- An outstanding host read (R480); `dead` when its data is to be discarded on return (R267). -/
structure HRead where
  tag : Nat
  addr : Nat
  len : Nat
  purpose : Purpose
  got : List Byte
  dead : Bool
  since : Nat
  ro : Bool
  ns : Bool
  /-- The engine that issued it, or another requester, and its posted writes that go out before it (R297). -/
  eng : Nat
  ahead : Nat
  deriving DecidableEq, Repr

/-- A host read request raised at the host link outbound port, with no tag yet (R300); `leaf` is the translation it used
(R128). -/
structure HReq where
  purpose : Purpose
  addr : Nat
  len : Nat
  ro : Bool
  ns : Bool
  req : FReq
  leaf : Option Tlb
  deriving DecidableEq, Repr

/-- A TLB miss that waits for a walk slot or for an invalidation to end (R126, R128). -/
structure WalkReq where
  who : Who
  ctx : Nat
  va : Nat
  write : Bool
  req : FReq
  deriving DecidableEq, Repr

/-- What a posted host write is. -/
inductive WKind where
  | data | record | msix
  deriving DecidableEq, Repr

/-- A posted host write not yet sent on the link (R485), with the requester whose outbound queue holds it (R297). -/
structure HWrite where
  eng : Nat
  kind : WKind
  addr : Nat
  data : List Byte
  ro : Bool
  ns : Bool
  ctx : Nat
  deriving DecidableEq, Repr

/-- One MSI-X table entry (R472). -/
structure Msix where
  addr : Nat
  data : Word
  masked : Bool
  deriving DecidableEq, Repr

/-- The uncorrectable errors that the function itself reports (Table HLK-3). -/
inductive AerErr where
  | completionTimeout | unexpectedCompletion | completerAbort | unsupportedRequest | poisonedTlp
  deriving DecidableEq, Repr

/-- The host link (16). -/
structure HostLink where
  link : Bool
  gen : Nat
  width : Nat
  /-- A function reset is in force (R491). -/
  fr : Bool
  perst : Bool
  roEn : Bool
  tag10 : Bool
  extTag : Bool
  mps : Nat
  mrrs : Nat
  ptmEn : Bool
  msixEn : Bool
  fmask : Bool
  table : SMap Msix
  /-- Pending bits of the 65 vectors. -/
  pend : Nat
  outq : List HWrite
  reads : List HRead
  /-- Read requests that wait for a tag, and misses that wait for a walk, in issue-time order. -/
  waits : List HReq
  walkq : List WalkReq
  /-- The book of host read tags in use, as the device counts it (R301). -/
  tagsUsed : Nat
  /-- Clock at which a posted write left last (R275). -/
  sentAt : Nat
  /-- Errors that stand in the AER status, each once (R496). -/
  aer : List AerErr
  deriving DecidableEq, Repr

/-- A chair's waiter (R337 to R339, R513). -/
inductive Sitter where
  | path (p : Path)
  | gov
  | peer (id mid opId : Nat)
  | chan (c : Nat)
  deriving DecidableEq, Repr

/-- A chair (R331). -/
structure Chair where
  held : Bool
  peer : Nat
  mid : Nat
  tag : Nat
  abandoned : Bool
  waiters : List (Sitter × WTime)
  deriving DecidableEq, Repr

/-- Lane states (Table ENR-2). -/
inductive LaneSt where
  | down | lock | discover | trained | hold
  deriving DecidableEq, Repr

/-- Whose frame it is: frame n of a channel's EMIT, a frame of the Kindle entry numbered k, or a BCAST frame. -/
inductive FrameOf where
  | emit (chan n : Nat)
  | kindle (k : Nat)
  | bcast
  deriving DecidableEq, Repr

/-- A TX frame (Table ENR-3). -/
structure TxFrame where
  who : FrameOf
  addr : Nat
  cmd : Nat
  payload : List Byte
  seq : Nat
  retries : Nat
  cls : Nat
  l : WTime
  i : WTime
  eng : Nat
  /-- Placement angle, for a placed Kindle frame (R232). -/
  placed : Option Nat
  /-- Its CRC-16, once its SOF has been loaded (R413). -/
  crc : Nat
  deriving DecidableEq, Repr

/-- A telemetry frame received (R429): SOF time, ADDR byte, CMD, payload. -/
structure Telem where
  wt : WTime
  addr : Nat
  cmd : Nat
  payload : List Byte
  deriving DecidableEq, Repr

/-- An Enran lane (14). -/
structure Lane where
  st : LaneSt
  pcs : Nat
  lastTurn : Nat
  /-- The frame on the wire, and whether it is a resend. -/
  tx : Option (TxFrame × Bool)
  /-- EMIT frames waiting for the lane. -/
  waiting : List TxFrame
  /-- Frames cut on their first sending, to be sent again: the one cut last first (R236). -/
  aborted : List TxFrame
  /-- Frames due to be resent, in order (R418). -/
  resend : List TxFrame
  /-- Frames sent and not acknowledged, in the order sent. -/
  unacked : List TxFrame
  credits : SMap Nat
  txSeq : SMap Nat
  rxSeq : SMap Nat
  turn : Option Nat
  rxbuf : List Telem
  /-- The answer owed: true ACK, false HOLD (R425). -/
  owed : Option Bool
  telem : SMap (List Telem)
  /-- Kindle frames of the entry not started yet. -/
  kq : List TxFrame
  /-- The first frame of the Kindle entry has not started (R418, Table KND-2). -/
  kfirst : Bool
  /-- Clock at which LOCK ends, or at which training is repeated (R431); 0 none. -/
  trainAt : Nat
  /-- The next address of discovery (R431). -/
  disc : Nat
  /-- Clock at which what is on TX has left, and wheel time at the EOF of the entry's last frame (R232). -/
  busyTo : Nat
  eofWT : WTime
  deriving DecidableEq, Repr

/-- A Kindle entry in progress (R227). -/
structure KEntry where
  num : Nat
  mag : Nat
  dir : Bool
  start : Nat
  wt : WTime
  lanes : Nat
  answered : Bool
  withdrawn : Bool
  /-- Lanes on which a frame of the entry was refused sending or lost with its lane: it cannot be acknowledged (R248, R433). -/
  lost : Nat
  deriving DecidableEq, Repr

/-- The Kindle block (07). -/
structure Kindle where
  req : Bool
  ack : Bool
  nak : Bool
  num : Nat
  entry : Option KEntry
  /-- MID of the load in progress, and the first failure found while copying. -/
  load : Option Nat
  loadErr : Nat
  /-- Lane and entry of that failure, as 16 * lane + entry, and the Kindle chair at the GO write. -/
  loadAt : Nat
  loadChair : Nat
  /-- The clock of the last flip (R245). -/
  flippedAt : Option Nat
  deriving DecidableEq, Repr

/-- A phase change the governor carries out or has decided (R397): its rail and direction, the KIND and KNOB of its record,
the measures it rests on, the clock of its take and the chair taken. -/
structure PhaseJob where
  rail : Nat
  up : Bool
  kind : Nat
  knob : Nat
  iavg : Nat
  thresh : Nat
  wt : WTime
  meas0 : Word
  meas1 : Word
  since : Nat
  chair : Option Nat
  deriving DecidableEq, Repr

/-- Stage of the phase change in progress. -/
inductive PhaseStage where
  | chair | chain
  deriving DecidableEq, Repr

/-- The governor (13). -/
structure Gov where
  phases : SMap Nat
  measuring : Bool
  winStart : Nat
  hist : SMap Nat
  shownHist : SMap Nat
  occ : Nat
  busy : Nat
  fstall : Nat
  kreq : Nat
  jitMax : Nat
  jitSum : Nat
  jitN : Nat
  lag : Nat
  lockedAll : Bool
  /-- IOUT sums and counts of each phase controller in the window, at key 16 * lane + address. -/
  iSum : SMap Nat
  iCnt : SMap Nat
  /-- Currents read over PMBus in the window, plus 1, and the rails whose chain has been started (R390). -/
  pmbIavg : SMap Nat
  pmbGot : Nat
  hBurst : Nat
  hPf : Nat
  hBw : Nat
  hPhase : SMap Nat
  limPend : Bool
  /-- Clock of the last write to WHL_TRK, plus 1 (R400). -/
  bwWritten : Nat
  job : Option (PhaseJob × PhaseStage)
  jobs : List PhaseJob
  reverting : Bool
  /-- The rail whose PMBus chain runs; 16 more once its window has ended (R390). -/
  pmbRail : Option Nat
  /-- TAG and status of the phase channel's chains that have ended (R397). -/
  ended : List (Nat × Nat)
  deriving DecidableEq, Repr

/-- What uses a PMBus port or AVSBus interface. -/
inductive PmbUser where
  | chan (c : Nat)
  | ara
  /-- A transaction whose channel was aborted runs to its end (R268). -/
  | orphan
  deriving DecidableEq, Repr

/-- A PMBus port (0, 1) or AVSBus interface (2, 3). -/
structure PmbPort where
  user : Option PmbUser
  alert : Bool
  /-- ARAs issued in this assertion, whether the series goes on, and the issue time of the next (R453). -/
  aras : Nat
  araOn : Bool
  araAt : WTime
  /-- What the device sends in the transaction, PEC bytes among it (R163, R445 to R448). -/
  wire : List Byte
  deriving DecidableEq, Repr

/-- A pin wick (R456 to R459). -/
structure Wick where
  pad : Bool
  level : Bool
  /-- Clock at which the park ends, while parked for a switch. -/
  parkEnd : Option Nat
  deriving DecidableEq, Repr

/-- A Zheyn packet (Table ZHN-3). -/
structure Pkt where
  typ : Nat
  dst : Nat
  src : Nat
  user : Bool
  hops : Nat
  lseq : Nat
  opId : Nat
  body : List Byte
  /-- Times it has been resent, and the clock at which it last left; its CRC-32 from then on (R502). -/
  tries : Nat
  sentAt : Nat
  crc : Nat
  deriving DecidableEq, Repr

/-- A Zheyn port (R500 to R502): `ready` once its IDLE characters are sent and HELLOs are exchanged; packets that wait for
room, packets sent and not acknowledged; the next sequence numbers to send and to expect; the link delay in 1/8 core
clock; a PING is out; an identity clash was seen (R501). -/
structure ZPort where
  ready : Bool
  up : Bool
  txSeq : Nat
  rxSeq : Nat
  queue : List Pkt
  unacked : List Pkt
  delay8 : Nat
  pingOut : Bool
  clash : Bool
  /-- The clock of the last PING (R507). -/
  pingAt : Option Nat
  deriving DecidableEq, Repr

/-- What a device knows of a peer (R500, R505): clock of its last HELLO, and the clock and hops of the last on each port. -/
structure Peer where
  present : Bool
  at_ : Nat
  seen0 : Option (Nat × Nat)
  seen1 : Option (Nat × Nat)
  master : Bool
  cand : Bool
  deriving DecidableEq, Repr

/-- What a forwarded operation is for (R510 to R513). -/
inductive ZFor where
  | rd (c : Nat) | wr (c : Nat)
  /-- A peer write of a chain that has ended since (R267). -/
  | wrLate
  | signal (c : Nat) | kick | imp (p : Path) | free
  | chair (c : Nat) | chairPath (p : Path) (n : Nat) | chairOther
  deriving DecidableEq, Repr

/-- An outstanding forwarded operation. -/
structure ZOut where
  opId : Nat
  peer : Nat
  what : ZFor
  since : Nat
  deriving DecidableEq, Repr

/-- An operation already performed for a peer, with the answer given (R503). -/
structure ZDone where
  src : Nat
  opId : Nat
  ans : Pkt
  deriving DecidableEq, Repr

/-- An inbound request of a peer whose beat stalls at the disabled protection unit, bytes served before it, and since when (R309,
R323). -/
structure ZStall where
  h : ZHdr
  m : ZMem
  wr : Bool
  data : List Byte
  off : Nat
  since : Nat
  deriving DecidableEq, Repr

/-- The Zheyn link (17). -/
structure Zhn where
  p0 : ZPort
  p1 : ZPort
  peers : SMap Peer
  /-- The wheel head last followed (R505, R508). -/
  head : Option Nat
  nextOp : Nat
  outs : List ZOut
  done : List ZDone
  /-- The CHR_UPD mirror of chairs homed elsewhere (R513). -/
  mirror : SMap Nat
  stalled : List ZStall
  /-- The clock of the last HELLO_TIMER (R500). -/
  helloAt : Option Nat
  deriving DecidableEq, Repr

/-- The Cupboard operation granted and not ended (R358): its channel, context and descriptor. -/
structure CupOp where
  chan : Nat
  ctx : Nat
  words : List Word
  deriving DecidableEq, Repr

/-- The Cupboard (12). -/
structure Cup where
  op : Option CupOp
  /-- Channels whose requests wait for the operation in progress to end, with their issue times (R358). -/
  waits : List (Nat × WTime)
  /-- Granule ranges with the scrubber: (first staging granule, count). -/
  scrub : List (Nat × Nat)
  /-- Clock at which the scrubber began the first of them (R364). -/
  scrubAt : Nat
  deriving DecidableEq, Repr

/-- A read of the boot flash over SPI (R527): command, address bytes, address, DIV, length in bytes, and the clock at which
BSPI_CS# fell. -/
structure Spi where
  cmd : Nat
  abytes : Nat
  addr : Nat
  div : Nat
  len : Nat
  since : Nat
  deriving DecidableEq, Repr

/-- The boundary-scan instructions (R612). -/
inductive TapInst where
  | bypass | idcode | sample | extest
  deriving DecidableEq, Repr

/-- The test access port (R612): the instruction in force, the data register between TDI and TDO with the bit nearest TDO
first, and the update latches of the boundary register. -/
structure Tap where
  inst : TapInst
  dr : List Bool
  latches : List Bool
  deriving DecidableEq, Repr

/-- The boot loader (18). -/
structure Boot where
  /-- Clock at which the last reset ended, and its kind as LAST_RESET has it. -/
  resetEnd : Nat
  kind : Nat
  /-- INIT has ended (R525). -/
  inited : Bool
  /-- The first trace record after a thaw is a RESET record (R570). -/
  thawRec : Bool
  headerOk : Bool
  /-- The image's KND_CTL.ARM, GOV_CTL.EN and SEQ, kept for arming (R533, R534). -/
  armImg : Bool
  govImg : Bool
  seq : Word
  /-- Clock of the next flash attempt (R542); 0 none. -/
  waitAt : Nat
  /-- A boot image load has started since the last cold or warm reset (R89). -/
  started : Bool
  /-- The flash read in progress (R527, R528). -/
  spi : Option Spi
  deriving DecidableEq, Repr

/-- The OTP and its holding copy (R540); while it burns, `words` are those being burned. -/
structure Otp where
  hashEn : Bool
  burning : Bool
  words : SMap Word
  hold : SMap Word
  deriving DecidableEq, Repr

/-- The level of PWRCYC_REQ# (Table BOOT-5). -/
inductive CycPin where
  | hiZ | high | low
  deriving DecidableEq, Repr

/-- Power and reset control (08, 18, 19). -/
structure Power where
  /-- A supply is out of range, or the core clock is gone: no command but a reset has an effect. -/
  off : Bool
  /-- Clock of the first DEV_RESET key, and the same for DEV_PWRCYC (R565, R567). -/
  rstKey : Option Nat
  cycKey : Option Nat
  /-- An accepted sequence: true device reset, false power cycle. -/
  seq : Option Bool
  pin : CycPin
  /-- Clock at which PWRFAIL# was recognised while host writes drain, and the error-queue entry it posted (R275, R552). -/
  pf : Option Nat
  pfEntry : Option Nat
  entering : Bool
  exitPend : Bool
  standby : Bool
  /-- Steps 1 to 4 of R272 are done and the power cycle is awaited. -/
  quiesced : Bool
  /-- PWRFAIL# was recognised after a device reset was accepted (R273, R277). -/
  pfAfter : Bool
  clockLost : Bool
  /-- Channels of context 65 that STANDBY entry halts (R539, R404). -/
  halts : List Nat
  deriving DecidableEq, Repr

/-- The state of the device and the queue of commands that wait. -/
structure State where
  /-- The model's own: commands waiting, first in first out. -/
  pending : List Instr
  /-- The model's own: core clocks since power-up, the time base of every limit (log 2). -/
  clk : Nat
  /-- The model's own: free values drawn so far (log 6). No statement rests on it. -/
  freeCtr : Nat
  /-- Order number of the next free of an index (R119). -/
  freeSeq : Nat
  /-- Register words by offset + 0x1000 * instance; an unlisted one is at its Reset word (Table REG-7). -/
  regs : SMap Word
  stag : SMap Byte
  objs : SMap Byte
  lanemem : SMap Byte
  errq : SMap Byte
  trace : SMap Byte
  /-- Shades: staging granules, then object-store granules from 32,768. -/
  shades : SMap Nat
  /-- Granules of a shade fill still to set, and the fill's own position, a shade index (R316, R588). -/
  fillLeft : Nat
  fillAt : Nat
  /-- The clock in which BUSY of the last fill clears (R316). -/
  fillEnd : Nat
  wheel : Wheel
  lamp : Lamp
  ptm : Ptm
  scp : PathPort
  bar : PathPort
  jobScp : Option Job
  jobBar : Option Job
  ctxs : SMap Ctx
  queues : SMap Queue
  chans : SMap Chan
  due : List Due
  mems : SMap MemObj
  fences : SMap Fence
  tlb : List Tlb
  /-- The invalidation that runs: scope, context and page number (R128). -/
  tlbInv : Option (Nat × Nat × Nat)
  engines : SMap Engine
  /-- Elder-grant counters, by arbiter (R212). -/
  elder : SMap Nat
  /-- Fabric target ports and their writeback queues, by resource code (Table ARB-7, R287, R288).  A queued beat is stored:
  `stag` and `objs` hold what the banks and their queues hold together (R293). -/
  ports : SMap Port
  wbq : SMap (List WBeat)
  /-- The book of owned descriptors, as the device counts it (R301). -/
  descUsed : Nat
  host : HostLink
  chairs : SMap Chair
  lanes : SMap Lane
  kindle : Kindle
  gov : Gov
  pmb : SMap PmbPort
  wicks : SMap Wick
  /-- Levels of the lane wicks 64 to 191, bit w - 64 (R430). -/
  laneWicks : Nat
  zhn : Zhn
  cup : Cup
  boot : Boot
  otp : Otp
  tap : Tap
  straps : Straps
  pwr : Power
  deriving DecidableEq, Repr

/-- A path's port with nothing held, returned or waiting. -/
def PathPort.init : PathPort := ⟨none, [], [], [], 0, 0⟩

/-! What an unlisted key of each table reads as. -/

/-- A user context before its first creation (R121, R123). -/
def Ctx.init : Ctx := ⟨.free, 0, 0, 0, 0, [], none, 0, 0, none, []⟩
def Queue.init : Queue := ⟨false, 0, 0, 0, 4, 0, 0, 0, 0, 0, 0, 0, false, false, none, false⟩
def Chan.init : Chan :=
  ⟨.free, 0, 0, 0, 1, 15, 4, 0, false, 0, 0, [], none, [], .none, 0, 0, 0, false, 0, 0, 0, 0, 0, 0, 0, 0, none, false⟩
def MemObj.init : MemObj := ⟨false, 0, 0, 0, 0, 0, 0, 0, 0, 0, 0, false⟩
def Fence.init : Fence := ⟨false, 0, 0, 0, 0, 0, 0, 0, 0, false, 0, 0, false, false, 0, 0⟩
def Engine.init : Engine := ⟨none, 0, 0, [], [], [], 0, 0, 0⟩
def Port.init : Port := ⟨none, 0, 0, 0⟩
def Msix.init : Msix := ⟨0, 0, true⟩
def Chair.init : Chair := ⟨false, 0, 0, 0, false, []⟩
def Lane.init : Lane := ⟨.down, 0, 0, none, [], [], [], [], [], [], [], none, [], none, [], [], false, 0, 0, 0, 0⟩
def PmbPort.init : PmbPort := ⟨none, false, 0, false, 0, []⟩
def Wick.init : Wick := ⟨false, false, none⟩
def Peer.init : Peer := ⟨false, 0, none, none, false, false⟩
def ZPort.init : ZPort := ⟨false, false, 0, 0, [], [], 0, false, false, none⟩

/-- The wheel right after reset: IDLE, or MASTER with the WHL_MASTER strap (R35, Table REG-7). -/
def Wheel.init (master : Bool) : Wheel :=
  ⟨if master then .master else .idle, 0, 0, 0x3200, 0, 0x3200, none, 0, 0, 0, none, [], true, 0, false, false,
    0, 0, 0, 0, 0, none, 0, 0, 0, 0⟩

/-- The TAP while TRST# is low: IDCODE is the instruction in force (R612). -/
def Tap.init : Tap := ⟨.idcode, [], []⟩

/-- The Cupboard with no operation and nothing being scrubbed. -/
def Cup.init : Cup := ⟨none, [], [], 0⟩

/-- Contexts 0, 64 and 65 are LIVE from the end of a reset (R121). -/
def ctxsReset : SMap Ctx :=
  [(0, { Ctx.init with st := .live }), (64, { Ctx.init with st := .live }), (65, { Ctx.init with st := .live })]

/-- The host link right after reset (Table HLK-4): down, under a function reset until it trains (R491, R537). -/
def HostLink.init : HostLink :=
  ⟨false, 0, 0, true, false, false, false, true, 0, 2, false, false, false, [], 0, [], [], [], [], 0, 0, []⟩

/-- The governor right after reset (Table GOV-7). -/
def Gov.init : Gov :=
  ⟨[], false, 0, [], [], 0, 0, 0, 0, 0, 0, 0, 0, true, [], [], [], 0, 0, 0, 0, [], false, 0, none, [], false, none, []⟩

/-- The Zheyn link right after reset: both ports enabled and training (PEL_CTL.EN resets to 3). -/
def Zhn.init : Zhn := ⟨ZPort.init, ZPort.init, [], none, 0, [], [], [], [], none⟩

/-- The machine right after a cold reset has ended (R522, R578): every register at its Reset word, memories empty,
phase INIT; straps and OTP as log 3 says. -/
def State.reset : State where
  pending := []
  clk := 0
  freeCtr := 0
  freeSeq := 0
  regs := []
  stag := []
  objs := []
  lanemem := []
  errq := []
  trace := []
  shades := []
  fillLeft := 0
  fillAt := 0
  fillEnd := 0
  wheel := Wheel.init false
  lamp := ⟨[], [], 0, 0, 0⟩
  ptm := ⟨none, 0, false, 0⟩
  scp := PathPort.init
  bar := PathPort.init
  jobScp := none
  jobBar := none
  ctxs := ctxsReset
  queues := []
  chans := []
  due := []
  mems := []
  fences := []
  tlb := []
  tlbInv := none
  engines := []
  elder := []
  ports := []
  wbq := []
  descUsed := 0
  host := HostLink.init
  chairs := []
  lanes := []
  kindle := ⟨false, false, false, 0, none, none, 0, 0, 0, none⟩
  gov := Gov.init
  pmb := []
  wicks := []
  laneWicks := 0
  zhn := Zhn.init
  cup := Cup.init
  boot := ⟨0, 0, false, false, false, false, false, 0, 0, false, none⟩
  otp := ⟨false, false, [], []⟩
  tap := Tap.init
  straps := ⟨0, false, 0⟩
  pwr := ⟨false, none, none, none, .high, none, none, false, false, false, false, false, false, []⟩

end Sys2Proof.Machine
end

