-- ==== Sys2Proof/Machine/Act.lean ====
section
/-!
DEFINITION. What a command can do to the state, said once: `Upd` lists the only updates there are, `Upd.apply` performs
one and keeps every memory and register bank canonical, and an `Act` is a sequence of updates that may look at the
state on the way.  Every meaning is an `Act`.
-/

namespace Sys2Proof.Machine

/-- The byte memories of the device. -/
inductive MemId where
  | stag | objs | lane | errq | trace
  deriving DecidableEq, Repr

/-- Sizes in bytes (R94, R253; lane memory is 8 KiB for each of eight lanes). -/
def memSize : MemId → Nat
  | .stag => 0x200000
  | .objs => 0xC0000
  | .lane => 0x10000
  | .errq => 0x2000
  | .trace => 0x40000

/-- Granules with a shade: 32,768 of staging, then 12,288 of the object store (10). -/
def shadeCount : Nat := 45056

/-- The tables a reset empties. -/
inductive Wipe where
  | stag | objs | lanemem | errq | trace | shades | queues | chans | mems | fences | engines | elder | ports | wbq | chairs | lanes
  | pmb | wicks | ctxs
  deriving DecidableEq, Repr

/-- One update of the state.  There is none of the queue of waiting commands. -/
inductive Upd where
  /-- Some core clocks pass. -/
  | tick (n : Nat)
  /-- A free value is drawn. -/
  | draw
  | freeSeq (n : Nat)
  | fillLeft (n : Nat)
  | fillAt (n : Nat)
  | fillEnd (n : Nat)
  | wheel (w : Wheel)
  | lamp (l : Lamp)
  | ptm (x : Ptm)
  | scp (x : PathPort)
  | bar (x : PathPort)
  | jobScp (j : Option Job)
  | jobBar (j : Option Job)
  | due (l : List Due)
  | tlb (l : List Tlb)
  | tlbInv (b : Option (Nat × Nat × Nat))
  | host (h : HostLink)
  | kindle (k : Kindle)
  | gov (g : Gov)
  | laneWicks (n : Nat)
  | zhn (z : Zhn)
  | cup (c : Cup)
  | boot (b : Boot)
  | otp (o : Otp)
  | straps (x : Straps)
  | pwr (p : Power)
  | reg (key : Nat) (w : Word)
  | keepRegs (keep : Nat → Bool)
  | mem (m : MemId) (a : Nat) (b : Byte)
  | shade (g : Nat) (v : Nat)
  | elder (i : Nat) (n : Nat)
  | port (i : Nat) (x : Port)
  | wbq (i : Nat) (l : List WBeat)
  | descUsed (n : Nat)
  | tap (x : Tap)
  | wipe (w : Wipe)
  | ctx (i : Nat) (x : Ctx)
  | queue (i : Nat) (x : Queue)
  | chan (i : Nat) (x : Chan)
  | mobj (i : Nat) (x : MemObj)
  | fence (i : Nat) (x : Fence)
  | engine (i : Nat) (x : Engine)
  | chair (i : Nat) (x : Chair)
  | lane (i : Nat) (x : Lane)
  | pmbp (i : Nat) (x : PmbPort)
  | wick (i : Nat) (x : Wick)

/-- The bytes of a memory. -/
def State.bytes (s : State) : MemId → SMap Byte
  | .stag => s.stag
  | .objs => s.objs
  | .lane => s.lanemem
  | .errq => s.errq
  | .trace => s.trace

/-- A memory with new contents. -/
def State.setBytes (s : State) (m : MemId) (b : SMap Byte) : State :=
  match m with
  | .stag => { s with stag := b }
  | .objs => { s with objs := b }
  | .lane => { s with lanemem := b }
  | .errq => { s with errq := b }
  | .trace => { s with trace := b }

/-- Empty a table. -/
def State.wipe (s : State) : Wipe → State
  | .stag => { s with stag := [] }
  | .objs => { s with objs := [] }
  | .lanemem => { s with lanemem := [] }
  | .errq => { s with errq := [] }
  | .trace => { s with trace := [] }
  | .shades => { s with shades := [] }
  | .queues => { s with queues := [] }
  | .chans => { s with chans := [] }
  | .mems => { s with mems := [] }
  | .fences => { s with fences := [] }
  | .engines => { s with engines := [] }
  | .elder => { s with elder := [] }
  | .ports => { s with ports := [] }
  | .wbq => { s with wbq := [] }
  | .chairs => { s with chairs := [] }
  | .lanes => { s with lanes := [] }
  | .pmb => { s with pmb := [] }
  | .wicks => { s with wicks := [] }
  | .ctxs => { s with ctxs := ctxsReset }

/-- The offset of a register key (offset + 0x1000 * instance). -/
def keyOff (key : Nat) : Nat := key % 0x1000

/-- The word a register key reads as when nothing is listed for it: its Reset word. -/
def keyReset (key : Nat) : Word := regReset (keyOff key)

/-- Registers whose words nothing changes: DEV_ID and DEV_REV (R1, R2, Table REG-6). -/
def hardWired (off : Nat) : Bool := off == 0x000 || off == 0x004

/-- Put a register word: a hard-wired one keeps its word, only implemented bits are held (R17), and a word at its Reset
value is not listed. -/
def setReg (m : SMap Word) (key : Nat) (w : Word) : SMap Word :=
  if hardWired (keyOff key) then m
  else SMap.set (keyReset key) m key (w &&& BitVec.ofNat 32 (regMask (keyOff key)))

/-- Perform one update. -/
def Upd.apply (u : Upd) (s : State) : State :=
  match u with
  | .tick n => { s with clk := s.clk + n }
  | .draw => { s with freeCtr := s.freeCtr + 1 }
  | .freeSeq n => { s with freeSeq := n }
  | .fillLeft n => { s with fillLeft := n }
  | .fillAt n => { s with fillAt := n }
  | .fillEnd n => { s with fillEnd := n }
  | .wheel w => { s with wheel := w }
  | .lamp l => { s with lamp := l }
  | .ptm x => { s with ptm := x }
  | .scp x => { s with scp := x }
  | .bar x => { s with bar := x }
  | .jobScp j => { s with jobScp := j }
  | .jobBar j => { s with jobBar := j }
  | .due l => { s with due := l }
  | .tlb l => { s with tlb := l }
  | .tlbInv b => { s with tlbInv := b }
  | .host h => { s with host := h }
  | .kindle k => { s with kindle := k }
  | .gov g => { s with gov := g }
  | .laneWicks n => { s with laneWicks := n }
  | .zhn z => { s with zhn := z }
  | .cup c => { s with cup := c }
  | .boot b => { s with boot := b }
  | .otp o => { s with otp := o }
  | .straps x => { s with straps := x }
  | .pwr p => { s with pwr := p }
  | .reg key w => { s with regs := setReg s.regs key w }
  | .keepRegs keep => { s with regs := s.regs.filter (fun e => keep e.1) }
  | .mem m a b => if a < memSize m then s.setBytes m (SMap.set 0 (s.bytes m) a b) else s
  | .shade g v => if g < shadeCount then { s with shades := SMap.set 0 s.shades g (v % 16) } else s
  | .elder i n => { s with elder := SMap.set 0 s.elder i n }
  | .port i x => { s with ports := SMap.set Port.init s.ports i x }
  | .wbq i l => { s with wbq := SMap.set [] s.wbq i l }
  | .descUsed n => { s with descUsed := n }
  | .tap x => { s with tap := x }
  | .wipe w => s.wipe w
  | .ctx i x => { s with ctxs := SMap.set Ctx.init s.ctxs i x }
  | .queue i x => { s with queues := SMap.set Queue.init s.queues i x }
  | .chan i x => { s with chans := SMap.set Chan.init s.chans i x }
  | .mobj i x => { s with mems := SMap.set MemObj.init s.mems i x }
  | .fence i x => { s with fences := SMap.set Fence.init s.fences i x }
  | .engine i x => { s with engines := SMap.set Engine.init s.engines i x }
  | .chair i x => { s with chairs := SMap.set Chair.init s.chairs i x }
  | .lane i x => { s with lanes := SMap.set Lane.init s.lanes i x }
  | .pmbp i x => { s with pmb := SMap.set PmbPort.init s.pmb i x }
  | .wick i x => { s with wicks := SMap.set Wick.init s.wicks i x }

/-- A meaning: updates in sequence; `ask` looks at the state reached so far. -/
inductive Act where
  | skip
  | upd (u : Upd)
  | seq (a b : Act)
  | ask (k : State → Act)

/-- Run a meaning. -/
def Act.run : Act → State → State
  | .skip, s => s
  | .upd u, s => u.apply s
  | .seq a b, s => b.run (a.run s)
  | .ask k, s => (k s).run s

/-- Meanings one after another. -/
def acts : List Act → Act
  | [] => .skip
  | [a] => a
  | a :: rest => .seq a (acts rest)

/-- A meaning under a condition. -/
def when_ (b : Bool) (a : Act) : Act := if b then a else .skip

/-- A meaning that nothing but a device with its supplies in range and its core clock running carries out. -/
def powered (a : Act) : Act := .ask fun s => when_ (!s.pwr.off) a

/-- A meaning for each element of a list, in order. -/
def forEach {α : Type} (l : List α) (f : α → Act) : Act := acts (l.map f)

/-- A meaning for the value of an option, when there is one. -/
def forSome {α : Type} (o : Option α) (f : α → Act) : Act :=
  match o with
  | none => .skip
  | some x => f x

/-- The same meaning n times. -/
def rep : Nat → Act → Act
  | 0, _ => .skip
  | n + 1, a => .seq a (rep n a)

/-! Reading and changing the tables. -/

/-- The context at an index. -/
def State.ctx (s : State) (i : Nat) : Ctx := SMap.get Ctx.init s.ctxs i
/-- Change the context at an index. -/
def modCtx (i : Nat) (f : Ctx → Ctx) : Act := .ask fun s => .upd (.ctx i (f (s.ctx i)))

/-- The queue at an index. -/
def State.queue (s : State) (i : Nat) : Queue := SMap.get Queue.init s.queues i
/-- Change the queue at an index. -/
def modQueue (i : Nat) (f : Queue → Queue) : Act := .ask fun s => .upd (.queue i (f (s.queue i)))

/-- The channel at an index. -/
def State.chan (s : State) (i : Nat) : Chan := SMap.get Chan.init s.chans i
/-- Change the channel at an index. -/
def modChan (i : Nat) (f : Chan → Chan) : Act := .ask fun s => .upd (.chan i (f (s.chan i)))

/-- The memory object at an index. -/
def State.mobj (s : State) (i : Nat) : MemObj := SMap.get MemObj.init s.mems i
/-- Change the memory object at an index. -/
def modMobj (i : Nat) (f : MemObj → MemObj) : Act := .ask fun s => .upd (.mobj i (f (s.mobj i)))

/-- The fence at an index. -/
def State.fence (s : State) (i : Nat) : Fence := SMap.get Fence.init s.fences i
/-- Change the fence at an index. -/
def modFence (i : Nat) (f : Fence → Fence) : Act := .ask fun s => .upd (.fence i (f (s.fence i)))

/-- The engine at an index. -/
def State.engine (s : State) (i : Nat) : Engine := SMap.get Engine.init s.engines i
/-- Change the engine at an index. -/
def modEngine (i : Nat) (f : Engine → Engine) : Act := .ask fun s => .upd (.engine i (f (s.engine i)))

/-- The chair at an index. -/
def State.chair (s : State) (i : Nat) : Chair := SMap.get Chair.init s.chairs i
/-- Change the chair at an index. -/
def modChair (i : Nat) (f : Chair → Chair) : Act := .ask fun s => .upd (.chair i (f (s.chair i)))

/-- The lane at an index. -/
def State.lane (s : State) (i : Nat) : Lane := SMap.get Lane.init s.lanes i
/-- Change the lane at an index. -/
def modLane (i : Nat) (f : Lane → Lane) : Act := .ask fun s => .upd (.lane i (f (s.lane i)))

/-- The PMBus port or AVSBus interface at an index. -/
def State.pmbp (s : State) (i : Nat) : PmbPort := SMap.get PmbPort.init s.pmb i
/-- Change the PMBus port or AVSBus interface at an index. -/
def modPmbp (i : Nat) (f : PmbPort → PmbPort) : Act := .ask fun s => .upd (.pmbp i (f (s.pmbp i)))

/-- The pin wick at an index. -/
def State.wick (s : State) (i : Nat) : Wick := SMap.get Wick.init s.wicks i
/-- Change the pin wick at an index. -/
def modWick (i : Nat) (f : Wick → Wick) : Act := .ask fun s => .upd (.wick i (f (s.wick i)))

/-- Change the field `wheel`. -/
def modWheel (f : Wheel → Wheel) : Act := .ask fun s => .upd (.wheel (f s.wheel))

/-- Change the field `lamp`. -/
def modLamp (f : Lamp → Lamp) : Act := .ask fun s => .upd (.lamp (f s.lamp))

/-- Change the field `ptm`. -/
def modPtm (f : Ptm → Ptm) : Act := .ask fun s => .upd (.ptm (f s.ptm))

/-- Change the field `host`. -/
def modHost (f : HostLink → HostLink) : Act := .ask fun s => .upd (.host (f s.host))

/-- Change the field `kindle`. -/
def modKindle (f : Kindle → Kindle) : Act := .ask fun s => .upd (.kindle (f s.kindle))

/-- Change the field `gov`. -/
def modGov (f : Gov → Gov) : Act := .ask fun s => .upd (.gov (f s.gov))

/-- Change the field `zhn`. -/
def modZhn (f : Zhn → Zhn) : Act := .ask fun s => .upd (.zhn (f s.zhn))

/-- Change the field `cup`. -/
def modCup (f : Cup → Cup) : Act := .ask fun s => .upd (.cup (f s.cup))

/-- Change the field `boot`. -/
def modBoot (f : Boot → Boot) : Act := .ask fun s => .upd (.boot (f s.boot))

/-- Change the field `otp`. -/
def modOtp (f : Otp → Otp) : Act := .ask fun s => .upd (.otp (f s.otp))

/-- Change the field `pwr`. -/
def modPwr (f : Power → Power) : Act := .ask fun s => .upd (.pwr (f s.pwr))

/-- Change the field `scp`. -/
def modScp (f : PathPort → PathPort) : Act := .ask fun s => .upd (.scp (f s.scp))

/-- Change the field `bar`. -/
def modBar (f : PathPort → PathPort) : Act := .ask fun s => .upd (.bar (f s.bar))

/-- A byte of a memory. -/
def State.byte (s : State) (m : MemId) (a : Nat) : Byte := SMap.get 0 (s.bytes m) a

/-- Bytes of a memory at ascending addresses. -/
def State.readBytes (s : State) (m : MemId) (a n : Nat) : List Byte := (List.range n).map (fun i => s.byte m (a + i))

/-- Store bytes at ascending addresses. -/
def storeBytes (m : MemId) : Nat → List Byte → Act
  | _, [] => .skip
  | a, b :: rest => .seq (.upd (.mem m a b)) (storeBytes m (a + 1) rest)

/-- The n bytes of a number, lowest first (R12). -/
def leBytes : Nat → Nat → List Byte
  | 0, _ => []
  | n + 1, v => BitVec.ofNat 8 v :: leBytes n (v / 256)

/-- The number that bytes spell, lowest first (R12). -/
def ofLe : List Byte → Nat
  | [] => 0
  | b :: rest => b.toNat + 256 * ofLe rest

/-- A little-endian number of n bytes at an address. -/
def State.readLe (s : State) (m : MemId) (a n : Nat) : Nat := ofLe (s.readBytes m a n)

/-- The shade of a granule. -/
def State.shadeOf (s : State) (g : Nat) : Nat := SMap.get 0 s.shades g

/-- Bits lo to lo + width - 1 of a number. -/
def bits (v lo width : Nat) : Nat := v / 2 ^ lo % 2 ^ width

/-- Bit i of a number. -/
def bitAt (v i : Nat) : Bool := v / 2 ^ i % 2 == 1

/-- A number with bit i set. -/
def setBit (v i : Nat) : Nat := if bitAt v i then v else v + 2 ^ i

/-- A number with bit i clear. -/
def clrBit (v i : Nat) : Nat := if bitAt v i then v - 2 ^ i else v

/-- 1 for true. -/
def b2n (b : Bool) : Nat := if b then 1 else 0

/-- Take a fresh free value's number (log 6). -/
def drawFree (k : Nat → Act) : Act := .ask fun s => .seq (.upd .draw) (k s.freeCtr)

end Sys2Proof.Machine
end

