-- ==== Sys2Proof/Machine/Flags.lean ====
section
/-!
DEFINITION. Register fields and the flags of the block: counters, event bits, what an event raises (MSI-X vector 0) and
the alert pin.  A processor's condition flags have no counterpart here.
-/

namespace Sys2Proof.Machine

/-! ### Registers -/

/-- The stored word of a register instance; instance 1 is the BAR0 bank or latch (R582). -/
def State.word (s : State) (inst off : Nat) : Word := SMap.get (keyReset (off + 0x1000 * inst)) s.regs (off + 0x1000 * inst)

/-- A field of a register instance. -/
def State.fldI (s : State) (inst : Nat) (f : Fld) : Nat := bits (s.word inst f.off).toNat f.lo f.width

/-- A field of a single register. -/
def State.fld (s : State) (f : Fld) : Nat := s.fldI 0 f

/-- A one-bit field as a truth value. -/
def State.flag (s : State) (f : Fld) : Bool := s.fld f == 1

/-- A word with one field replaced. -/
def putField (w : Word) (f : Fld) (v : Nat) : Word :=
  let m := w.toNat - bits w.toNat f.lo f.width * 2 ^ f.lo
  BitVec.ofNat 32 (m + v % 2 ^ f.width * 2 ^ f.lo)

/-- Set a register instance. -/
def putWord (inst off : Nat) (w : Word) : Act := .upd (.reg (off + 0x1000 * inst) w)

/-- Set a field of a register instance. -/
def putI (inst : Nat) (f : Fld) (v : Nat) : Act := .ask fun s => putWord inst f.off (putField (s.word inst f.off) f v)

/-- Set a field of a single register. -/
def put (f : Fld) (v : Nat) : Act := putI 0 f v

/-- Add to a counter field, which stops at its maximum (R113, R573 and their like). -/
def countBy (f : Fld) (n : Nat) : Act := .ask fun s => put f (min (s.fld f + n) (2 ^ f.width - 1))

/-- Count one. -/
def count (f : Fld) : Act := countBy f 1

/-- The bank or latch instance of a path (R582). -/
def pathInst : Path → Nat
  | .scp => 0
  | .bar0 => 1

/-- The MID a path's accesses carry (R90). -/
def pathMid : Path → Nat
  | .scp => 0x01
  | .bar0 => 0x40

/-- The field of lane L whose lane 0 place is f (R441). -/
def Fld.lane (f : Fld) (l : Nat) : Fld := { f with off := f.off + 32 * l }

/-- This device's PEER_ID (R526). -/
def State.self (s : State) : Nat := s.straps.peerId

/-! ### Events, vectors and the alert -/

/-- An event register: the block's SCP_ALERT bit, the register and lowest event bit, the register and lowest bit of
its enables, how many bits, and whether an enabled bit raises MSI-X vector 0 (R88, R573 and its like). -/
structure EvtSrc where
  block : Nat
  evtOff : Nat
  evtLo : Nat
  enOff : Nat
  enLo : Nat
  n : Nat
  vec0 : Bool
  deriving DecidableEq, Repr

/-- The event registers of the single blocks. -/
def evtSingles : List EvtSrc := [
  ⟨0, 0x048, 0, 0x048, 1, 1, false⟩, ⟨0, 0x054, 0, 0x054, 8, 3, true⟩, ⟨0, 0x070, 0, 0x070, 8, 7, true⟩,
  ⟨13, 0x030, 0, 0x028, 8, 4, true⟩, ⟨1, 0x094, 0, 0x080, 0, 4, false⟩, ⟨4, 0x19C, 0, 0x180, 8, 8, true⟩,
  ⟨5, 0x218, 0, 0x200, 8, 6, true⟩, ⟨6, 0x24C, 0, 0x240, 8, 2, true⟩, ⟨7, 0x284, 0, 0x280, 4, 3, true⟩,
  ⟨8, 0x2D0, 0, 0x2C4, 24, 3, true⟩, ⟨8, 0x2F4, 0, 0x2F4, 8, 3, true⟩, ⟨9, 0x330, 0, 0x300, 16, 5, true⟩,
  ⟨10, 0x35C, 0, 0x35C, 8, 4, true⟩, ⟨11, 0x3A8, 0, 0x3B0, 0, 2, true⟩, ⟨12, 0x3CC, 0, 0x3C0, 8, 3, true⟩,
  ⟨15, 0x908, 0, 0x904, 8, 8, true⟩, ⟨16, 0x954, 0, 0x940, 8, 6, true⟩, ⟨17, 0x994, 0, 0x984, 8, 3, true⟩]

/-- All event registers: the single ones, one for each lane (R440), and the banked ones of a path (R622). -/
def evtSources : List EvtSrc :=
  evtSingles ++ (List.range 8).map (fun l => ⟨14, 0x814 + 32 * l, 0, 0x800 + 32 * l, 8, 8, true⟩) ++
  [⟨2, 0x0DC, 2, 0x0DC, 3, 1, false⟩, ⟨3, 0x100, 16, 0x100, 17, 1, false⟩]

/-- The bits of a source that are set and enabled, in a bank. -/
def EvtSrc.hot (e : EvtSrc) (inst : Nat) (s : State) : Nat :=
  bits (s.word inst e.evtOff).toNat e.evtLo e.n &&& bits (s.word inst e.enOff).toNat e.enLo e.n

/-- SCP_ALERT: bit b is 1 while block b has an enabled event bit set; the control-port bank counts (R88). -/
def State.alertBits (s : State) : Nat :=
  evtSources.foldl (fun acc e => if e.hot 0 s != 0 then setBit acc e.block else acc) 0

/-- Whether SCP_ALERT# is asserted: not between a cold or warm reset and the start of the boot image load, which is the
start of a flash load or an accepted GO; waiting for the control port is no load (R88, R89; log 80). -/
def State.alertPin (s : State) : Bool := s.alertBits != 0 && s.boot.started

/-- Raise an MSI-X vector: its pending bit is set while MSI-X Enable is 1 (R488). -/
def raiseVec (v : Nat) : Act := modHost fun h => if h.msixEn then { h with pend := setBit h.pend v } else h

/-- Whether a register's set and enabled bits raise vector 0, for a bank (R573, R622): a HLK event only while the link
is up (R497). -/
def vec0Of (inst : Nat) (s : State) (off : Nat) : Nat :=
  evtSources.foldl (fun acc e =>
    let on := (e.vec0 && (e.block != 15 || s.host.link)) || (inst == 1 && (e.block == 2 || e.block == 3))
    if on && (e.evtOff == off || e.enOff == off) then acc * 256 + e.hot inst s else acc) 0

/-- Perform an update of one register; a bit of it that becomes set and enabled raises vector 0 (log 7). -/
def withAlert (inst off : Nat) (a : Act) : Act := .ask fun s0 =>
  acts [a, .ask fun s1 => when_ (vec0Of inst s1 off &&& vec0Of inst s0 off != vec0Of inst s1 off) (raiseVec 0)]

/-- Set an event bit in a bank. -/
def eventI (inst : Nat) (f : Fld) : Act := withAlert inst f.off (putI inst f 1)

/-- Set an event bit. -/
def event (f : Fld) : Act := eventI 0 f

end Sys2Proof.Machine
end

