-- ==== Sys2Proof/Machine/Ops.lean ====
section
/-!
DEFINITION. The named operations every family shares over the fields and flags of Flags.lean: wheel-time comparison
and the passage of time, the global error queue, the trace buffer, handles, and packets
queued toward peers.
-/

namespace Sys2Proof.Machine

/-! ### Wheel time -/

/-- Comparison under the half-range rule (R49). -/
def wtBefore (a b : WTime) : Bool :=
  let d := (b - a).toNat
  if d == 0 then false
  else if d < 2 ^ 47 then true
  else if d > 2 ^ 47 then false
  else a.toNat < b.toNat

/-- Not before. -/
def wtAtOrAfter (a b : WTime) : Bool := !wtBefore a b

/-- A wheel time some angle units later. -/
def wtAdd (a : WTime) (n : Nat) : WTime := a + BitVec.ofNat 48 n

/-- The period the wheel advances at, 1/16 core clock (Table WHL-1). -/
def Wheel.period (w : Wheel) : Nat :=
  match w.st with
  | .idle | .lost | .master => w.genP
  | .acquire | .locked | .coast => w.est

/-- One core clock's share of a cycle in 2^-20 angle unit: 2^32 / P, P in core clocks, rounded down (log 8). -/
def Wheel.inc (w : Wheel) : Nat := 2 ^ 36 / max w.period 1

/-- What wheel time gains in a core clock while a small error is being absorbed (R45), in 2^-20 angle unit. -/
def Wheel.speed (w : Wheel) : Nat := ((w.inc : Int) + w.slew).toNat

/-- The wheel n core clocks later: a hold is used up first (R45), then the absorption of a small error. -/
def Wheel.after (w : Wheel) (n : Nat) : Wheel :=
  if n * w.inc ≤ w.hold then { w with hold := w.hold - n * w.inc }
  else
    let m := min (n - w.hold / max w.inc 1) w.slewLeft
    let t := w.time.toNat * 2 ^ 20 + w.frac + (((n * w.inc - w.hold : Nat) : Int) + w.slew * m).toNat
    { w with
      hold := 0, frac := t % 2 ^ 20, time := BitVec.ofNat 48 (t / 2 ^ 20), slewLeft := w.slewLeft - m,
      outWait := w.outWait && t / 2 ^ 32 == w.time.toNat / 2 ^ 12 }

/-- Core clocks until wheel time is at or after a target. -/
def Wheel.clocksTo (w : Wheel) (target : WTime) : Nat :=
  if wtBefore w.time target then
    let inc := max w.inc 1
    let need := (target - w.time).toNat * 2 ^ 20 - w.frac + w.hold % inc
    let fast := max w.speed 1
    w.hold / inc +
      (if need ≤ fast * w.slewLeft then (need + fast - 1) / fast
       else w.slewLeft + (need - fast * w.slewLeft + inc - 1) / inc)
  else 0

/-- The core clock in which wheel time first was at or after a target that it has reached: counted back at the present
speed, and not behind the last jump, hold or adoption (R55; log 8). -/
def Wheel.reachedAt (w : Wheel) (clk : Nat) (target : WTime) : Nat :=
  if wtAtOrAfter w.discFrom target then w.discClk - (w.discFrom - target).toNat * 2 ^ 20 / max w.inc 1
  else if wtAtOrAfter w.discTo target then w.discClk
  else clk - ((w.time - target).toNat * 2 ^ 20 + w.frac) / max w.speed 1

/-- The earliest wheel time after one that has an angle (R67, R164). -/
def nextAngle (t : WTime) (angle : Nat) : WTime :=
  let d := (angle + 4096 - t.toNat % 4096) % 4096
  wtAdd t (if d == 0 then 4096 else d)

/-- The earliest wheel time at or after one that has an angle (R232). -/
def angleFrom (t : WTime) (angle : Nat) : WTime := wtAdd t ((angle + 4096 - t.toNat % 4096) % 4096)

/-- The present wheel time. -/
def State.now (s : State) : WTime := s.wheel.time

/-- An engine dispatch arbiter has a raised request left ungranted (Table GOV-2, OCC). -/
def State.occupied (s : State) : Bool := s.chans.any (fun e => e.2.st == .queued)

/-- A RUNNING channel waits for a descriptor fetch (Table GOV-2, FSTALL). -/
def State.fetchStalled (s : State) : Bool :=
  s.chans.any (fun e => e.2.st == .running && e.2.copies.isEmpty &&
    (match e.2.run with | some r => r.cur.isNone | none => false))

/-- A fill is BUSY (R316). -/
def State.filling (s : State) : Bool := s.fillLeft != 0 || decide (s.clk < s.fillEnd)

/-- One core clock of a fill: the next eight granules, and GRAN past them (R316). -/
def fillGroup : Act := .ask fun s =>
  let n := min 8 s.fillLeft
  acts [
    forEach (List.range n) fun i => .upd (.shade (s.fillAt + i) (s.fld F.PRT_SHD_FILL_SHADE)),
    put F.PRT_SHD_ADDR_GRAN (s.fillAt + n - if s.flag F.PRT_SHD_ADDR_SPACE then 32768 else 0),
    .upd (.fillAt (s.fillAt + n)), .upd (.fillLeft (s.fillLeft - n))]

/-- The core clocks of a fill among n. -/
def fillBy (n : Nat) : Act := .ask fun s => rep (min n ((s.fillLeft + 7) / 8)) fillGroup

/-- A fabric port, and the beats in its writeback queue. -/
def State.fport (s : State) (res : Nat) : Port := SMap.get Port.init s.ports res
def State.wbqOf (s : State) (res : Nat) : List WBeat := SMap.get [] s.wbq res

/-- In each core clock between owners a port writes one beat of its writeback queue (R288). -/
def wbqDrain (n : Nat) : Act := .ask fun s => forEach s.wbq.keys fun res =>
  .upd (.wbq res ((s.wbqOf res).drop (n - ((s.fport res).last - s.clk))))

/-- Wheel time at the EOF of a Kindle frame on its first sending, when that falls within n core clocks (R232). -/
def eofBy (n : Nat) : Act := .ask fun s => forEach (List.range 8) fun l =>
  let x := s.lane l
  let mine := match x.tx with
    | some (f, false) => (match f.who with
      | .kindle _ => true
      | _ => false)
    | _ => false
  when_ (mine && s.clk < x.busyTo && x.busyTo ≤ s.clk + n)
    (modLane l fun x => { x with eofWT := (s.wheel.after (x.busyTo - s.clk)).time })

/-- Let n core clocks pass: the clock, a shade fill (R316), the writeback queues, EOFs of Kindle frames, the wheel, the Lamplighter's count from the
clock a target is reached (R55), and the governor's clock counts (R388). -/
def tickBy (n : Nat) : Act := .ask fun s =>
  let w := s.wheel
  let ents := s.lamp.entries.map (fun e =>
    if e.since.isNone && w.clocksTo e.target ≤ n then { e with since := some (s.clk + w.clocksTo e.target) } else e)
  let g := s.gov
  let g' := if g.measuring then
    { g with occ := g.occ + (if s.occupied then n else 0),
             busy := g.busy + (if s.chans.any (fun e => e.2.st == .running) then n else 0),
             fstall := g.fstall + (if s.fetchStalled then n else 0) } else g
  acts [fillBy n, wbqDrain n, eofBy n, .upd (.tick n), .upd (.wheel (w.after n)), .upd (.lamp { s.lamp with entries := ents }),
    .upd (.gov g')]

/-- Bring the clock to an instant that lies ahead. -/
def advanceTo (clk : Nat) : Act := .ask fun s => tickBy (clk - s.clk)

/-- Core clocks in a number of microseconds (R87: 800 a microsecond). -/
def usClocks (n : Nat) : Nat := 800 * n

/-- Bring wheel time to a target that lies ahead. -/
def advanceToWheel (t : WTime) : Act := .ask fun s => tickBy (s.wheel.clocksTo t)

/-! ### Requests at the fabric ports of the device itself (Table ARB-3) -/

/-- A requester of tier 2 with L = I + 4,096. -/
def State.plainReq (s : State) (idx burst : Nat) : FReq := ⟨idx, 2, wtAdd s.now 4096, s.now, burst⟩

/-- Device-internal requests, and those that serve no descriptor (R202). -/
def State.internalReq (s : State) : FReq := s.plainReq 10 2

/-- Trace writes. -/
def State.traceReq (s : State) : FReq := ⟨10, 3, wtAdd s.now 0xFFFFFF, s.now, 2⟩

/-- One beat of a request passes its port at once: no other request waits there (log 18). -/
def portBeat (q : FReq) (res : Nat) : Act := .ask fun s => .upd (.port res ⟨some q, s.clk + 1, s.clk + 1, s.clk + 1⟩)

/-! ### Trace buffer (R569, R570) -/

/-- Trace records that wait for the trace buffer, which takes a beat, one record, in a core clock. -/
def State.traceWaits (s : State) : Nat := (s.fport 0x25).last - s.clk

/-- Write one trace record of a type, its DATA packed from offset 0x0C; one that finds 16 waiting is dropped (R569). -/
def traceRec (typ : Nat) (data : List Byte) : Act := .ask fun s =>
  when_ (s.flag F.TRC_CTL_EN && !s.flag F.TRC_STAT_FROZEN && bitAt (s.fld F.TRC_CTL_MASK) (typ - 1)) <|
    let k := s.fld F.TRC_STAT_WR
    let t := s.clk + s.traceWaits + 1
    let body := leBytes 6 s.now.toNat ++ leBytes 2 k ++ leBytes 1 typ ++ leBytes 3 0 ++ data ++ List.replicate 20 0
    if s.traceWaits ≥ 16 then count F.TRC_CNT_DROP
    else acts [
      .upd (.port 0x25 ⟨some s.traceReq, t, t, t⟩), storeBytes .trace (32 * (k % 8192)) (body.take 32), put F.TRC_STAT_WR (k + 1)]

/-! ### Codes of composed fields, and wheel events -/

/-- Tracker state codes (Table WHL-1). -/
def Trk.code : Trk → Nat
  | .idle => 0 | .acquire => 1 | .locked => 2 | .coast => 3 | .lost => 4 | .master => 5

/-- Lane state codes (Table ENR-2). -/
def LaneSt.code : LaneSt → Nat
  | .down => 0 | .lock => 1 | .discover => 2 | .trained => 3 | .hold => 4

/-- An int in a two's complement field of 16 bits. -/
def int16 (x : Int) : Nat := ((x + 65536) % 65536).toNat

/-- WHL_STAT and WHL_PERIOD (Table WHL-5). -/
def Wheel.statWord (w : Wheel) : Nat := w.st.code + 2 ^ 4 * w.miss
def Wheel.periodWord (w : Wheel) : Nat := w.est % 65536 + 2 ^ 16 * int16 w.err

/-- WHL_OUT: high in the first half of each cycle in MASTER with OUT_EN, from a whole pulse on (R36). -/
def State.whlOut (s : State) : Bool :=
  s.wheel.st == .master && s.flag F.WHL_CTL_OUT_EN && !s.wheel.outWait && s.wheel.time.toNat % 4096 < 2048

/-! ### Zheyn packets outward (R500, R502) -/

/-- A Zheyn port. -/
def State.zport (s : State) (p : Nat) : ZPort := if p == 0 then s.zhn.p0 else s.zhn.p1

/-- Change a Zheyn port. -/
def modZport (p : Nat) (f : ZPort → ZPort) : Act :=
  modZhn fun z => if p == 0 then { z with p0 := f z.p0 } else { z with p1 := f z.p1 }

/-- A peer as this device knows it. -/
def State.peer (s : State) (p : Nat) : Peer := SMap.get Peer.init s.zhn.peers p

/-- The route to a present peer: the port with the fewest hops, port 0 on a tie; its hops (R500). -/
def Peer.route (p : Peer) : Option (Nat × Nat) :=
  if !p.present then none
  else match p.seen0, p.seen1 with
    | some a, some b => if b.2 < a.2 then some (1, b.2) else some (0, a.2)
    | some a, none => some (0, a.2)
    | none, some b => some (1, b.2)
    | none, none => none

/-- A packet's header and body on the wire (Table ZHN-3). -/
def Pkt.bytes (p : Pkt) : List Byte :=
  leBytes 1 p.typ ++ leBytes 1 (p.dst % 4 + 4 * (p.src % 4) + 16 * b2n p.user + 32 * (p.hops % 4)) ++ leBytes 1 p.lseq ++
    leBytes 1 p.body.length ++ leBytes 2 p.opId ++ leBytes 2 0 ++ p.body

/-- A packet with its CRC-32 (R502). -/
def Pkt.sealed (p : Pkt) : Pkt := { p with crc := crc32 p.bytes }

/-- Packets leave a port while fewer than 16 are unacknowledged; each takes the next link sequence number (R502). -/
def ZPort.pump (clk : Nat) (z : ZPort) : ZPort :=
  let n := min z.queue.length (16 - z.unacked.length)
  { z with
    unacked := z.unacked ++ ((z.queue.take n).zipIdx.map fun e =>
      ({ e.1 with lseq := (z.txSeq + e.2) % 256, tries := 0, sentAt := clk } : Pkt).sealed),
    queue := z.queue.drop n, txSeq := (z.txSeq + n) % 256 }

/-- Queue a packet at a port that exchanges packets; an urgent one goes ahead of those not started (R506). -/
def zPut (port : Nat) (urgent : Bool) (p : Pkt) : Act := .ask fun s =>
  when_ (s.zport port).ready <| acts [
    portBeat s.internalReq (0x23 + port),
    modZport port fun z => ({ z with queue := if urgent then p :: z.queue else z.queue ++ [p] }).pump s.clk]

/-- Queue a packet at a port. -/
def zQueue (port : Nat) (p : Pkt) : Act := zPut port false p

/-- Queue a packet of this device toward a peer over its route; nothing is sent to an absent peer. -/
def zSend (typ dst : Nat) (user : Bool) (opId : Nat) (body : List Byte) : Act := .ask fun s =>
  forSome (s.peer dst).route fun r => zQueue r.1 ⟨typ, dst, s.self, user, 0, 0, opId, body, 0, 0, 0⟩

/-- Answer a peer's operation; the answers to the last 64 operations of each source are kept (R503). -/
def zAnswer (typ dst opId : Nat) (body : List Byte) : Act := acts [
  modZhn fun z =>
    let old := (z.done.filter (·.src == dst)).drop ((z.done.filter (·.src == dst)).length - 63)
    { z with done := z.done.filter (·.src != dst) ++ old ++ [⟨dst, opId, ⟨typ, dst, 0, false, 0, 0, opId, body, 0, 0, 0⟩⟩] },
  zSend typ dst false opId body]

/-- The present peers. -/
def State.presentPeers (s : State) : List Nat := (List.range 4).filter (fun p => (s.peer p).present && p != s.self)

/-- A mask of the present peers. -/
def State.presentMask (s : State) : Nat := s.presentPeers.foldl (fun m p => m + 2 ^ p) 0

/-! ### Global error queue (R547 to R551, R514) -/

/-- What an entry says besides its queue fields (Table ERR-4). -/
structure ErrInfo where
  code : Nat
  block : Nat
  mid : Nat
  status : Nat
  chan : Option Nat
  ctx : Nat
  info0 : Nat
  info1 : Nat
  deriving DecidableEq, Repr

/-- Post the 32 bytes of an entry, given without SEQ; a full queue discards it (R548). -/
def postBytes (body : Nat → List Byte) : Act := .ask fun s =>
  let wr := s.fld F.ERR_WR_WR
  if (wr + 65536 - s.fld F.ERR_RD_RD) % 65536 == 256 then acts [count F.ERR_CNT_LOST, event F.ERR_EVT_OVF]
  else acts [storeBytes .errq (32 * (wr % 256)) (body wr), put F.ERR_WR_WR (wr + 1), event F.ERR_EVT_POST, raiseVec 0,
    traceRec 1 ((body wr).take 8 ++ ((body wr).drop 16).take 8)]

/-- The bytes of an entry this device raises. -/
def errBytes (self : Nat) (wt : WTime) (e : ErrInfo) (seq : Nat) : List Byte :=
  leBytes 2 seq ++ leBytes 1 e.code ++ leBytes 1 (e.block + 32 * self) ++
  leBytes 1 e.mid ++ leBytes 1 e.status ++ leBytes 1 (e.chan.getD 0) ++ leBytes 1 (e.ctx % 128 + 128 * b2n e.chan.isSome) ++
  leBytes 6 wt.toNat ++ leBytes 2 0 ++ leBytes 8 e.info0 ++ leBytes 8 e.info1

/-- Post an entry of this device, and forward it to every present peer while ERR_FWD is 1 (R514). -/
def postErr (e : ErrInfo) : Act := .ask fun s => acts [
  postBytes (errBytes s.self s.now e),
  when_ (s.flag F.PEL_CTL_ERR_FWD) (forEach s.presentPeers fun p =>
    zSend 0x40 p false 0 (errBytes s.self s.now e (s.fld F.ERR_WR_WR)))]

/-- An entry that names no channel, context, MID or status. -/
def postPlain (code block info0 info1 : Nat) : Act := postErr ⟨code, block, 0, 0, none, 0x7F, info0, info1⟩

/-- A wheel event: its bit, a trace record, and an entry when Table WHL-4 says so and the bit was 0 (R72). -/
def whlEvent (f : Fld) (posted : Bool) : Act := .ask fun s => acts [
  event f, traceRec 5 (leBytes 4 s.wheel.statWord ++ leBytes 4 s.wheel.periodWord),
  when_ (posted && !s.flag f) (postPlain 0x02 4 (2 ^ f.lo) s.wheel.st.code)]

/-! ### Handles (R19, R115, R118) -/

/-- A handle word: KIND, GEN, INDEX (Table SCO-3). -/
def handle (kind gen idx : Nat) : Nat := kind * 2 ^ 28 + gen % 4096 * 2 ^ 16 + idx

def hKind (h : Nat) : Nat := bits h 28 4
def hGen (h : Nat) : Nat := bits h 16 12
def hIdx (h : Nat) : Nat := bits h 0 16

/-- The MID of a context's channels (R116, Table SCO-4). -/
def ctxMid (n : Nat) : Nat := if n == 64 then 0x01 else if n == 65 then 0x02 else 0x40 + n

/-- A device context (R121). -/
def isDevCtx (n : Nat) : Bool := n == 0 || n == 64 || n == 65

/-- The index freed longest ago among free ones (R119): the least (freedAt, index). -/
def pickFree (cands : List (Nat × Nat)) : Option Nat :=
  (cands.foldl (fun best c =>
    match best with
    | none => some c
    | some b => if c.1 < b.1 || (c.1 == b.1 && c.2 < b.2) then some c else some b) none).map Prod.snd

/-- The order number of a free about to be made (R119). -/
def takeFreeSeq (k : Nat → Act) : Act := .ask fun s => .seq (.upd (.freeSeq (s.freeSeq + 1))) (k (s.freeSeq + 1))

/-- A context handle names a context that is not FREE with its generation (R118). -/
def State.ctxOf (s : State) (h : Nat) : Option Nat :=
  if hKind h == 1 && hIdx h < 66 && (s.ctx (hIdx h)).st != .free && (s.ctx (hIdx h)).gen == hGen h then some (hIdx h)
  else none

/-- A queue handle's index. -/
def State.queueOf (s : State) (h : Nat) : Option Nat :=
  if hKind h == 2 && hIdx h < 1024 && (s.queue (hIdx h)).live && (s.queue (hIdx h)).gen == hGen h then some (hIdx h) else none

/-- A channel handle's index. -/
def State.chanOf (s : State) (h : Nat) : Option Nat :=
  if hKind h == 3 && hIdx h < 256 && (s.chan (hIdx h)).st != .free && (s.chan (hIdx h)).gen == hGen h then some (hIdx h)
  else none

/-- A memory-object handle's index. -/
def State.memOf (s : State) (h : Nat) : Option Nat :=
  if hKind h == 4 && hIdx h < 4096 && (s.mobj (hIdx h)).live && (s.mobj (hIdx h)).gen == hGen h then some (hIdx h) else none

/-- A fence handle's index. -/
def State.fenceOf (s : State) (h : Nat) : Option Nat :=
  if hKind h == 5 && hIdx h < 4096 && (s.fence (hIdx h)).live && (s.fence (hIdx h)).gen == hGen h then some (hIdx h)
  else none

/-- The handle of a channel (R196). -/
def State.chanHandle (s : State) (c : Nat) : Nat := handle 3 (s.chan c).gen c

/-- Whether the device is held after PWRFAIL# (R276). -/
def State.pfHeld (s : State) : Bool := s.flag F.DEV_PF_STAT_HELD

/-- Whether the device refuses new work: held after PWRFAIL#, or an accepted reset or power-cycle sequence (R272, R273). -/
def State.refusing (s : State) : Bool := s.pfHeld || s.pwr.seq.isSome || s.pwr.quiesced

end Sys2Proof.Machine
end

