-- ==== Sys2Proof/Machine/Fabric.lean ====
section
/-!
DEFINITION. Arbitration: ranking and the elder grant (R199 to R203, R212 to R214), the requesters of the fabric (Table ARB-3),
and the fabric target ports with their tokens and writeback queues (R285 to R288).
-/

namespace Sys2Proof.Machine

/-! ### Ranking (R199 to R203, R212, R213) -/

/-- What ranks a request. -/
structure Rank where
  tier : Nat
  l : WTime
  i : WTime
  index : Nat
  deriving DecidableEq, Repr

/-- One request ranks before another (R200). -/
def Rank.before (a b : Rank) : Bool :=
  if a.tier != b.tier then a.tier < b.tier
  else if a.l != b.l then wtBefore a.l b.l
  else if a.i != b.i then wtBefore a.i b.i
  else a.index < b.index

/-- One request is older than another; at one issue time the one that ranks first (R212). -/
def Rank.older (a b : Rank) : Bool := if a.i != b.i then wtBefore a.i b.i else a.before b

/-- The request that comes first by an order. -/
def pickRank (lt : Rank → Rank → Bool) (l : List (Nat × Rank)) : Option (Nat × Rank) :=
  l.foldl (fun best r => match best with
    | none => some r
    | some b => if lt r.2 b.2 then some r else some b) none

/-- A grant made after the granted request's L counts in ARB_CNT1 (Table ARB-6). -/
def lateGrant (l : WTime) (n : Nat) : Act := .ask fun s => when_ (wtBefore l s.now) (countBy F.ARB_CNT1_LATE_GRANT n)

/-- An arbiter decides among requests and grants one; every ELDER_N-th contested grant goes to the oldest (R212, R213). -/
def arbitrate (key : Nat) (l : List (Nat × Rank)) (grant : Nat → Act) : Act := .ask fun s =>
  match pickRank Rank.before l with
  | none => .skip
  | some w =>
    let n := if s.fld F.ARB_CTL_ELDER_N == 0 then 0 else max 2 (s.fld F.ARB_CTL_ELDER_N)
    let k := SMap.get 0 s.elder key
    let contested := decide (2 ≤ l.length) && n != 0
    let elder := contested && n ≤ k + 1
    let g := if elder then (pickRank Rank.older l).getD w else w
    acts [
      when_ contested (.upd (.elder key (if elder then 0 else k + 1))),
      when_ (g.1 != w.1) (count F.ARB_CNT0_ELDER),
      lateGrant g.2.l 1,
      grant g.1]

/-! ### The requesters of the fabric (Table ARB-3) -/

/-- What ranks a fabric request. -/
def FReq.rank (q : FReq) : Rank := ⟨q.tier, q.l, q.i, q.idx⟩

/-- A window access of a path: L = I + WIN_CTL.DL × 64 (R96). -/
def State.windowReq (s : State) (p : Path) : FReq :=
  ⟨4 + pathInst p, 2, wtAdd s.now (64 * s.fldI (pathInst p) F.WIN_CTL_DL), s.now, 1⟩

/-- Host inbound, and the governor. -/
def State.hostReq (s : State) : FReq := s.plainReq 6 16
def State.govReq (s : State) : FReq := s.plainReq 9 2

/-! ### Ports (R285 to R288) -/

/-- The bank of a staging address, and its byte in that bank (R285). -/
def bankOfAddr (a : Nat) : Nat := bits a 9 4
def byteInBank (a : Nat) : Nat := bits a 13 8 * 512 + bits a 0 9

/-- The resource code of a bank, and of the port that a byte of a space lies behind (Table ARB-7). -/
def resOfBank (b : Nat) : Nat := 0x10 + b
def resOf (space a : Nat) : Nat := if space == 0 then resOfBank (bankOfAddr a) else 0x20

/-- Who holds a port's token now (R287). -/
def State.tokenAt (s : State) (res : Nat) : Option FReq :=
  if s.clk ≤ (s.fport res).last then (s.fport res).owner else none

/-- Beats of a byte range. -/
def beatCount (a n : Nat) : Nat := if n == 0 then 0 else (a + n - 1) / 32 - a / 32 + 1

/-- A request is granted a port for some beats: the queued beats of the port are written first (R288), then the owner holds
the token until its last beat (R287); each grant lasts at most the burst limit (R208).  No other request waits at a memory
port, so its grants are uncontested (log 18). -/
def portGrant (q : FReq) (res beats : Nat) : Act := .ask fun s =>
  let start := s.clk + 1 + (s.wbqOf res).length
  acts [
    .upd (.wbq res []),
    .upd (.port res ⟨some q, start, start + (max beats 1 - 1), start + (max beats 1 - 1)⟩),
    lateGrant q.l ((max beats 1 + max q.burst 1 - 1) / max q.burst 1)]

/-- The owner of a port loses it to a bite: the token comes back (R207, R216). -/
def portDrop (res : Nat) : Act := .upd (.port res Port.init)

/-- The stripes of a staging byte range, as address and length: a piece never crosses one (R286). -/
def stripes : Nat → Nat → Nat → List (Nat × Nat)
  | 0, _, _ => []
  | fuel + 1, a, n =>
    if n == 0 then [] else
    let k := min n (512 - a % 512)
    (a, k) :: stripes fuel (a + k) (n - k)

/-- The grants that an access to a byte range of a space takes, stripe by stripe. -/
def memGrant (q : FReq) (space a n : Nat) : Act :=
  if space == 0 then forEach (stripes (n / 512 + 2) a n) fun p => portGrant q (resOf 0 p.1) (beatCount p.1 p.2)
  else portGrant q 0x20 (beatCount a n)

/-- Beats of a line enter the writeback queue of their port: when it is full, its oldest is written first while the flush is
held (R288, R305). -/
def wbqPut (res : Nat) (b : WBeat) : Act := .ask fun s =>
  let l := s.wbqOf res ++ [b]
  .upd (.wbq res (l.drop (l.length - 4)))

end Sys2Proof.Machine
end

