-- ==== Sys2Proof/Machine/Memory.lean ====
section
/-!
DEFINITION. Staging and the object store as one coherent image over the engines' write-combining buffers and line
caches (09_staging_memory_and_books.md), and the protection unit's check of a beat (10_shades_and_protection.md).
-/

namespace Sys2Proof.Machine

/-! ### The protection unit -/

/-- An access as the protection unit sees it: MID, class bit (Table PRT-2), key, the context of a class 5 master, whether
a peer made it, the channel (0xFF for none), the space (0 staging, 1 object store), its bytes and its direction. -/
structure Access where
  mid : Nat
  cls : Nat
  key : Nat
  ctx : Nat
  peer : Bool
  chan : Nat
  space : Nat
  addr : Nat
  len : Nat
  wr : Bool
  deriving DecidableEq, Repr

/-- The outcome of a check: it proceeds, it stalls (R323), or it is refused with a cause, a region and a shade (R328). -/
inductive Verdict where
  | ok
  | stall
  | refuse (cause region shade : Nat)
  deriving DecidableEq, Repr

/-- The class bit of a MID (Table PRT-2); `user` is the USER flag of a peer access (R309). -/
def midClass (mid : Nat) (user : Bool) : Nat :=
  if mid == 1 then 0 else if mid == 2 then 1 else if mid == 3 then 2
  else if 4 ≤ mid && mid ≤ 7 then (if user then 5 else 3)
  else if mid == 0x40 then 4 else 5

/-- A privileged master (Table PRT-2). -/
def Access.priv (a : Access) : Bool := a.cls != 5

/-- Whether region entry i matches an access (R312). -/
def State.rgnMatch (s : State) (a : Access) (i : Nat) : Bool :=
  let lim := (s.word (i + 1) 0x28C).toNat
  let att := (s.word (i + 1) 0x290).toNat
  let page := a.addr / 4096
  bitAt att 0 && bits att 4 1 == a.space && bits lim 0 9 ≤ page && page ≤ bits lim 16 9 && bitAt att (8 + a.cls) &&
    (a.cls != 5 || bits att 16 6 == 0 || (!a.peer && bits att 16 6 == a.ctx))

/-- The first matching entry, of the locked ones alone when the unit is disabled (R312, R323). -/
def State.rgnFind (s : State) (a : Access) (lockedOnly : Bool) : Option Nat :=
  (List.range 32).find? (fun i => s.rgnMatch a i && (!lockedOnly || bitAt (s.word (i + 1) 0x290).toNat 5))

/-- The granules an access touches, as shade indices. -/
def Access.granules (a : Access) : List Nat :=
  (List.range ((a.addr + max a.len 1 - 1) / 64 - a.addr / 64 + 1)).map
    (fun i => (if a.space == 0 then 0 else 32768) + a.addr / 64 + i)

/-- Step 5: the first granule that refuses the access, by its shade (R314). -/
def State.shadeRefuses (s : State) (a : Access) (strict : Bool) : Option Nat :=
  (a.granules.map s.shadeOf).find? (fun sh => !(sh == a.key || sh == 0 || (a.priv && a.key == 15 && !strict)))

/-- Steps 4 and 5 against an entry, or against the default map. -/
def State.rgnCheck (s : State) (a : Access) (r : Option Nat) : Verdict :=
  let att := match r with
    | none => 0x06
    | some i => (s.word (i + 1) 0x290).toNat
  let reg := r.getD 0x3F
  if !(if a.wr then bitAt att 2 else bitAt att 1) then .refuse 2 reg 0
  else match s.shadeRefuses a (bitAt att 3) with
    | some sh => .refuse 3 reg sh
    | none => .ok

/-- Step 2: a class 5 master's key is in its context's key set; a peer's was checked where it was sent (R311). -/
def State.keyHeld (s : State) (a : Access) : Bool :=
  a.cls != 5 || a.peer || bitAt (s.word a.ctx 0x2B8).toNat a.key

/-- Writes to the boot buffer that the boot loader's phases refuse (R530). -/
def State.bootRefuses (s : State) (a : Access) : Bool :=
  let ph := s.fld F.BOOT_STAT_PHASE
  a.wr && a.space == 0 && 0x180000 ≤ a.addr + a.len - 1 && a.mid != 3 &&
    (ph == 5 || ph == 1 || ph == 2 || ph == 3) &&
    (!(a.mid == 1 && a.chan == 0xFF) || (s.flag F.BOOT_STAT_SRC && (ph == 2 || ph == 3)))

/-- The check of one beat (Table PRT-3, R310, R323, R530). -/
def State.protCheck (s : State) (a : Access) : Verdict :=
  if s.bootRefuses a then .refuse 2 0x3F 0
  else if !s.flag F.PRT_CTL_EN then
    match s.rgnFind a true with
    | some i => if s.keyHeld a then s.rgnCheck a (some i) else .refuse 4 i 0
    | none => if a.priv then .ok else .stall
  else if !s.keyHeld a then .refuse 4 0x3F 0
  else match s.rgnFind a false with
    | some i => s.rgnCheck a (some i)
    | none => if s.flag F.PRT_CTL_NOMATCH || !a.priv then .refuse 1 0x3F 0 else s.rgnCheck a none

/-- Capture or count a refused beat (R328). -/
def protCapture (a : Access) (cause region shade : Nat) : Act := .ask fun s =>
  if s.flag F.PRT_EVT_VIOL then count F.PRT_VCNT_COUNT
  else acts [
    putWord 0 0x294 (BitVec.ofNat 32 (a.mid + 2 ^ 8 * cause + 2 ^ 11 * b2n a.wr + 2 ^ 12 * a.key + 2 ^ 16 * shade +
      2 ^ 20 * region + 2 ^ 31)),
    putWord 0 0x298 (BitVec.ofNat 32 (a.addr % 2 ^ 21 + 2 ^ 21 * a.space + 2 ^ 24 * a.chan)),
    putWord 0 0x29C (BitVec.ofNat 32 s.now.toNat), putWord 0 0x2A0 (BitVec.ofNat 32 (s.now.toNat / 2 ^ 32)),
    event F.PRT_EVT_VIOL]

/-- The beats of a byte range: each within one aligned 32-byte beat (R310, R312). -/
def beatsOf : Nat → Nat → Nat → List (Nat × Nat)
  | 0, _, _ => []
  | fuel + 1, addr, len =>
    if len == 0 then [] else
    let n := min len (32 - addr % 32)
    (addr, n) :: beatsOf fuel (addr + n) (len - n)

/-- The first beat of a range that does not pass, with the bytes before it. -/
def State.firstRefused (s : State) (a : Access) : Option (Nat × Verdict) :=
  ((beatsOf (a.len / 32 + 2) a.addr a.len).map
      (fun b => (b.1 - a.addr, s.protCheck { a with addr := b.1, len := b.2 }))).find? (fun r => r.2 != .ok)

/-- The beat of an access that begins some bytes in. -/
def Access.beatAt (a : Access) (off : Nat) : Access :=
  { a with addr := a.addr + off, len := min (a.len - off) (32 - (a.addr + off) % 32) }

/-! ### Channel records in the object store (R284, Table STP-4) -/

/-- Table STP-3. -/
def ChanSt.code : ChanSt → Nat
  | .free => 0 | .idle => 1 | .queued => 2 | .running => 3 | .parked => 4 | .halted => 5 | .stopped => 6 | .dying => 7

/-- The 64 bytes of a channel's record. -/
def Chan.record (c : Chan) : List Byte :=
  leBytes 4 (c.st.code + 2 ^ 4 * c.stopPend + 2 ^ 8 * b2n c.resValid + 2 ^ 12 * c.engine + 2 ^ 16 * c.subs.length) ++
  leBytes 4 (c.resDesc % 65536) ++ leBytes 4 c.resOff ++ leBytes 4 c.resTag ++ leBytes 8 c.stopWT.toNat ++
  leBytes 4 c.faultDesc ++ leBytes 4 c.faultOff ++ leBytes 32 0

/-- An object-store offset inside the channel records. -/
def inChanRecords (a : Nat) : Bool := 0x80000 ≤ a && a < 0x84000

/-! ### The coherent image (R291, R295, R296) -/

/-- The memory of a space. -/
def spaceMem (space : Nat) : MemId := if space == 0 then .stag else .objs

/-- The byte a memory holds, channel records composed. -/
def State.spaceByte (s : State) (space a : Nat) : Byte :=
  if space == 1 && inChanRecords a then ((s.chan ((a - 0x80000) / 64)).record).getD (a % 64) 0
  else s.byte (spaceMem space) a

/-- The line of an engine's buffer that holds a byte. -/
def State.wline (s : State) (e space a : Nat) : Option WLine :=
  (s.engine e).wcb.find? (fun l => l.space == space && l.line == a / 64)

/-- The newest value of a byte: a buffered one, else the memory's. -/
def State.cohByte (s : State) (space a : Nat) : Byte :=
  match (List.range 4).findSome? (fun e =>
      match s.wline e space a with
      | some l => if bitAt l.mask (a % 64) then some (l.bytes.getD (a % 64) 0) else none
      | none => none) with
  | some b => b
  | none => s.spaceByte space a

/-- The newest values of a byte range. -/
def State.cohBytes (s : State) (space a n : Nat) : List Byte := (List.range n).map (fun i => s.cohByte space (a + i))

/-- Store one byte in a space; the device ignores writes to channel records (R284). -/
def storeByte (space a : Nat) (b : Byte) : Act :=
  if space == 1 && inChanRecords a then .skip else .upd (.mem (spaceMem space) a b)

/-- A line's masked bytes are stored: they pass the writeback queue of their port, a beat for each half that has any (R288,
R293). -/
def drainLine (l : WLine) : Act := acts [
  forEach [0, 1] fun h => when_ (bits l.mask (32 * h) 32 != 0)
    (wbqPut (resOf l.space (l.line * 64)) ⟨l.line * 64 + 32 * h, bits l.mask (32 * h) 32⟩),
  forEach (List.range 64) fun i =>
    when_ (bitAt l.mask i) (storeByte l.space (l.line * 64 + i) (l.bytes.getD i 0))]

/-! ### The directory (Table STG-1, R291 to R296) -/

/-- The state of a line at an engine. -/
inductive LineSt where
  | i | s | e | m
  deriving DecidableEq, Repr

/-- The line of an engine's buffer. -/
def Engine.line (x : Engine) (space line : Nat) : Option WLine := x.wcb.find? (fun l => l.space == space && l.line == line)

/-- How an engine holds a line: under its buffer with bytes in it, alone, with others, or not at all. -/
def Engine.lineSt (x : Engine) (space line : Nat) : LineSt :=
  match x.line space line with
  | some l => if l.mask != 0 then .m else .e
  | none => if x.excl.contains (space, line) then .e else if x.cache.contains (space, line) then .s else .i

/-- A flush that leaves the line with its engine, clean (R291, R303). -/
def flushKeep (e : Nat) (l : WLine) : Act := acts [
  drainLine l,
  modEngine e fun x => { x with
    wcb := x.wcb.map (fun y => if y == l then { y with mask := 0 } else y), wcbUsed := x.wcbUsed - b2n (l.mask != 0) }]

/-- A completed writeback retires its line: the engine holds it no longer (R294). -/
def flushLine (e : Nat) (l : WLine) : Act := acts [
  when_ (l.mask != 0) (drainLine l),
  modEngine e fun x => { x with
    wcb := x.wcb.filter (· != l), excl := x.excl.filter (· != (l.space, l.line)),
    cache := x.cache.filter (· != (l.space, l.line)), wcbUsed := x.wcbUsed - b2n (l.mask != 0) }]

/-- Flush every buffered line of an engine, which keeps them in E: acceptance, a stop or a fault (R293, R303). -/
def flushEngine (e : Nat) : Act := .ask fun s => forEach ((s.engine e).wcb.filter (·.mask != 0)) (flushKeep e)

/-- An engine gives a line up: a buffered one after a flush. -/
def giveUp (e space line : Nat) : Act := .ask fun s => acts [
  forSome ((s.engine e).line space line) (flushLine e),
  modEngine e fun x => { x with
    excl := x.excl.filter (· != (space, line)), cache := x.cache.filter (· != (space, line)) }]

/-- A holder in E or M falls to S: flushed, it keeps its cache copy, if any (R291). -/
def shareLine (e space line : Nat) : Act := .ask fun s => acts [
  forSome ((s.engine e).line space line) (fun l => acts [
    when_ (l.mask != 0) (drainLine l),
    modEngine e fun x => { x with wcb := x.wcb.filter (· != l), wcbUsed := x.wcbUsed - b2n (l.mask != 0) }]),
  modEngine e fun x => { x with excl := x.excl.filter (· != (space, line)) }]

/-- A flush or recall for another master is counted (R296). -/
def recalled : Act := count F.DEV_DIR_CNT_RECALL

/-- The other engines. -/
def othersOf (eng : Option Nat) : List Nat := (List.range 4).filter (fun f => some f != eng)

/-- The lines of a byte range. -/
def linesOf (a n : Nat) : List Nat := (List.range ((a + max n 1 - 1) / 64 - a / 64 + 1)).map (· + a / 64)

/-- A coherence transaction passes the directory: no other request waits for the line (log 18). -/
def dirGrant (q : FReq) : Act := acts [portBeat q 0x21, lateGrant q.l 1]

/-- A read that allocates nothing reaches a line: an engine that holds it in M flushes it and keeps it in E (R291, R296). -/
def touchReadLine (q : FReq) (eng : Option Nat) (space line : Nat) : Act :=
  forEach (othersOf eng) fun f => .ask fun s =>
    when_ ((s.engine f).lineSt space line == .m) <| forSome ((s.engine f).line space line) fun l =>
      acts [dirGrant q, flushKeep f l, recalled]

/-- Some bytes of a range lie in an engine's own buffer: its read is forwarded (R295). -/
def State.ownBytes (s : State) (e space a n : Nat) : Bool :=
  (List.range n).any (fun i => match s.wline e space (a + i) with
    | some l => bitAt l.mask ((a + i) % 64)
    | none => false)

/-- The effects of a read of a byte range on the ports, the directory and its counts (R291, R295, R296). -/
def touchRead (q : FReq) (eng : Option Nat) (space a n : Nat) : Act := .ask fun s =>
  let own := match eng with
    | none => false
    | some e => s.ownBytes e space a n
  acts [when_ own (count F.DEV_DIR_CNT_FWD), forEach (linesOf a n) (touchReadLine q eng space), memGrant q space a n]

/-- A write reaches a line: S copies are invalidated, and an E or M holder is recalled to I, with a flush for M (R291). -/
def touchWriteLine (q : FReq) (eng : Option Nat) (space line : Nat) : Act :=
  forEach (othersOf eng) fun f => .ask fun s =>
    match (s.engine f).lineSt space line with
    | .i => .skip
    | .s => giveUp f space line
    | _ => acts [dirGrant q, giveUp f space line, recalled]

/-- An engine reads bytes of a line for its own structures and caches the line, at most 512 of them (R290): in E when no other
engine holds it, else in S with an E or M holder recalled to S (R291).  Its own buffered bytes are forwarded (R295), and an
M line that must go from a full cache is written back first (R302). -/
def cacheRead (q : FReq) (e space a n : Nat) : Act := .ask fun s =>
  let line := a / 64
  acts [
    when_ (s.ownBytes e space a n) (count F.DEV_DIR_CNT_FWD),
    when_ (!(s.engine e).cache.contains (space, line)) (acts [
      memGrant q space a n,
      forEach (othersOf (some e)) (fun f => .ask fun s => match (s.engine f).lineSt space line with
        | .e | .m => acts [dirGrant q, shareLine f space line, recalled]
        | _ => .skip),
      .ask fun s => forSome ((s.engine e).cache[511]?) fun k => giveUp e k.1 k.2,
      when_ ((othersOf (some e)).all (fun f => (s.engine f).lineSt space line == .i))
        (modEngine e fun x => { x with excl := (space, line) :: x.excl })]),
    modEngine e fun x => { x with cache := (space, line) :: x.cache.filter (· != (space, line)) }]

/-- A buffer with all 16 lines in place gives one: a clean one, else the line written longest ago after its flush (R293). -/
def wcbRoom (e : Nat) : Act := .ask fun s =>
  when_ ((s.engine e).wcb.length ≥ 16) <|
    forSome ((s.engine e).wcb.foldl (fun best l =>
      match best with
      | none => some l
      | some b =>
        if b.mask == 0 && l.mask != 0 then some b
        else if b.mask != 0 && l.mask == 0 then some l
        else if l.last < b.last then some l else some b) none) fun l =>
      if l.mask == 0 then modEngine e fun x => { x with wcb := x.wcb.filter (· != l) } else flushLine e l

/-- Put bytes of one line into an engine's buffer, making room first; a full line is flushed (R293). -/
def wcbPut (e space a : Nat) (bs : List Byte) : Act := acts [
  .ask fun s => when_ (s.wline e space a).isNone (wcbRoom e),
  .ask fun s =>
    let l := (s.wline e space a).getD ⟨space, a / 64, 0, List.replicate 64 0, s.clk, s.clk⟩
    let put := bs.zipIdx.foldl (fun (acc : WLine) p =>
      let i := a % 64 + p.2
      { acc with mask := setBit acc.mask i, bytes := acc.bytes.set i p.1 }) { l with last := s.clk }
    modEngine e fun x => { x with
      wcb := x.wcb.filter (fun y => !(y.space == space && y.line == a / 64)) ++ [put],
      wcbUsed := x.wcbUsed + b2n (l.mask == 0 && put.mask != 0),
      excl := if x.cache.contains (space, a / 64) && !x.excl.contains (space, a / 64) then (space, a / 64) :: x.excl else x.excl },
  .ask fun s => forSome (s.wline e space a) fun l => when_ (l.mask == 2 ^ 64 - 1) (flushLine e l)]

/-- Pieces of a byte list by line. -/
def linePieces : Nat → Nat → List Byte → List (Nat × List Byte)
  | 0, _, _ => []
  | fuel + 1, a, bs =>
    if bs.isEmpty then [] else
    let n := 64 - a % 64
    (a, bs.take n) :: linePieces fuel (a + n) (bs.drop n)

/-- A write by an engine: it enters the engine's buffer once the line is held by no other (R290, R291); one to a channel
record is ignored (R284). -/
def engineWrite (q : FReq) (e space a : Nat) (bs : List Byte) : Act :=
  forEach (linePieces (bs.length / 64 + 2) a bs) fun p =>
    when_ (!(space == 1 && inChanRecords p.1)) (acts [touchWriteLine q (some e) space (p.1 / 64), wcbPut e space p.1 p.2])

/-- A write by any other master that honours byte enables: performed at the memory (R291, R477). -/
def otherWriteBe (q : FReq) (space a : Nat) (bs : List Byte) (be : List Bool) : Act := acts [
  forEach (linesOf a bs.length) (touchWriteLine q none space),
  memGrant q space a bs.length,
  forEach bs.zipIdx fun p => when_ (be.getD p.2 true) (storeByte space (a + p.2) p.1)]

/-- A write by any other master. -/
def otherWrite (q : FReq) (space a : Nat) (bs : List Byte) : Act := otherWriteBe q space a bs []

/-- Set granule shades. -/
def shadeRange (first n shade : Nat) : Act := forEach (List.range n) fun i => .upd (.shade (first + i) shade)

/-- A device-internal write (MID 0x03, key 0xF): a refused beat abandons the access, a device-level fault (R327). -/
def internalWrite (space a : Nat) (bs : List Byte) : Act := .ask fun s =>
  let acc : Access := ⟨3, 2, 15, 0, false, 0xFF, space, a, bs.length, true⟩
  match s.firstRefused acc with
  | none => otherWrite s.internalReq space a bs
  | some (off, .refuse cause region shade) => acts [otherWrite s.internalReq space a (bs.take off), protCapture (acc.beatAt off) cause region shade,
      postErr ⟨0x07, 7, 3, 0, none, 0x7F, (if space == 0 then 1 else 2) * 2 ^ 56 + a + off, cause * 2 ^ 8⟩]
  | some (off, _) => otherWrite s.internalReq space a (bs.take off)

/-- A governor access (MID 0x02, key 0xF). -/
def govAccess (space addr len : Nat) (wr : Bool) : Access := ⟨2, 1, 15, 0, false, 0xFF, space, addr, len, wr⟩

/-- A refused access of the governor is captured and reported (R327). -/
def govRefused (space a off cause region shade : Nat) (acc : Access) : Act := acts [
  protCapture (acc.beatAt off) cause region shade,
  postErr ⟨0x07, 7, 2, 0, none, 0x7F, (if space == 0 then 1 else 2) * 2 ^ 56 + a + off, cause * 2 ^ 8⟩]

/-- A write of the governor; a refused one is abandoned (R327). -/
def govWrite (space a : Nat) (bs : List Byte) : Act := .ask fun s =>
  let acc := govAccess space a bs.length true
  match s.firstRefused acc with
  | none => otherWrite s.govReq space a bs
  | some (off, .refuse cause region shade) => acts [otherWrite s.govReq space a (bs.take off), govRefused space a off cause region shade acc]
  | some (off, _) => otherWrite s.govReq space a (bs.take off)

/-- A read of the governor from staging, then what it does with the bytes; none when it is refused. -/
def govRead (a n : Nat) (k : Option (List Byte) → Act) : Act := .ask fun s =>
  let acc := govAccess 0 a n false
  match s.firstRefused acc with
  | none => acts [touchRead s.govReq none 0 a n, .ask fun s => k (some (s.cohBytes 0 a n))]
  | some (off, .refuse cause region shade) => acts [govRefused 0 a off cause region shade acc, k none]
  | some _ => k none

end Sys2Proof.Machine
end

