-- ==== Sys2Proof/Machine/Objects.lean ====
section
/-!
DEFINITION. Fences and memory objects: counts, values, waits released by a change, freeing (R141 to R143, R355 to R379),
and operations forwarded to a peer (R503).
-/

namespace Sys2Proof.Machine

/-! ### Channels released from a wait -/

/-- The channels that exist. -/
def State.chanList (s : State) : List Nat := s.chans.keys

/-- Change the running chain of a channel. -/
def modRun (c : Nat) (f : Run → Run) : Act := modChan c fun x => { x with run := x.run.map f }

/-- Change the current descriptor of a channel. -/
def modCur (c : Nat) (f : Cur → Cur) : Act := modRun c fun r => { r with cur := r.cur.map f }

/-- The current descriptor of a channel. -/
def State.cur (s : State) (c : Nat) : Option Cur := (s.chan c).run.bind (·.cur)

/-- A channel becomes QUEUED now; its place in dispatch counts from here (R210). -/
def makeQueued (c : Nat) : Act := .ask fun s => modChan c fun x =>
  { x with st := .queued, park := .none, run := x.run.map (fun r => { r with q := s.now, i := s.now }) }

/-- The completion condition of the current descriptor is met with a status (R159). -/
def descDone (c status : Nat) : Act := .ask fun s => modCur c fun d => { d with phase := .done status, doneWT := s.now }

/-- A parked wait ends with a status: its channel becomes QUEUED (R164, R368). -/
def releaseWait (c status : Nat) : Act := acts [descDone c status, makeQueued c]

/-- Status codes (Table ERR-2). -/
def stDONE : Nat := 0x00
def stDONE_LATE : Nat := 0x01
def stSTOPPED : Nat := 0x02
def stABORTED : Nat := 0x03
def stPROT_FAULT : Nat := 0x10
def stXLATE_FAULT : Nat := 0x11
def stBAD_DESC : Nat := 0x12
def stBAD_HANDLE : Nat := 0x13
def stLANE_ERR : Nat := 0x20
def stPMB_NAK : Nat := 0x21
def stHOST_ERR : Nat := 0x22
def stCHAIR_TIMEOUT : Nat := 0x30
def stALLOC_FAIL : Nat := 0x31
def stCTX_LOST : Nat := 0x40
def stSNUFFED : Nat := 0x41
def stDEV_RESET : Nat := 0x50

/-! ### Forwarded operations (R503, R512, R513) -/

/-- Forward an operation to a present peer under a new OP_ID. -/
def zForward (peer typ : Nat) (user : Bool) (what : ZFor) (body : List Byte) : Act := .ask fun s =>
  let op := s.zhn.nextOp
  acts [modZhn fun z => { z with nextOp := (op + 1) % 65536, outs := z.outs ++ [⟨op, peer, what, s.clk⟩] },
    zSend typ peer user op body]

/-- The body of a fence packet: index, operation or status, value (Table ZHN-4; the operation codes are log 10). -/
def fenBody (idx op : Nat) (v : DWord) : List Byte := leBytes 2 idx ++ leBytes 1 op ++ leBytes 8 v.toNat

/-- The code of a fence operation in a packet (log 10). -/
def fenOpCode : FenOp → Nat
  | .imp _ => 0 | .signal _ => 1 | .kick => 2 | .resub => 3 | .free => 4

/-- The value a fence operation carries. -/
def fenOpValue : FenOp → DWord
  | .imp n => BitVec.ofNat 64 n
  | .signal v => v
  | _ => 0

/-- Forward a fence operation to a proxy's home. -/
def fenForward (i : Nat) (user : Bool) (what : ZFor) (op : FenOp) : Act := .ask fun s =>
  zForward (s.fence i).home 0x20 user what (fenBody (s.fence i).homeIdx (fenOpCode op) (fenOpValue op))

/-! ### Chair tables (R344, R513) -/

/-- A field of a chair table's configuration word. -/
def State.tab (s : State) (t : Nat) (f : Fld) : Nat := s.fldI t f

/-- The table lives on another device (R344). -/
def State.tabRemote (s : State) (t : Nat) : Bool :=
  s.tab t F.CHR_TAB_CFG_SHARED == 1 && s.tab t F.CHR_TAB_CFG_HOME != s.self

/-- The table is DOWN: it lives on a device that is not present (R345). -/
def State.tabDown (s : State) (t : Nat) : Bool := s.tabRemote t && !(s.peer (s.tab t F.CHR_TAB_CFG_HOME)).present

/-- The context whose chairs a path's accesses hold. -/
def pathCtx : Path → Nat
  | .scp => 64
  | .bar0 => 0

/-- The body of a CHR_OP: chair, operation, MID, TAG, I (Table ZHN-4; the codes are log 10). -/
def chrBody (n op mid tag : Nat) (i : WTime) : List Byte :=
  leBytes 1 n ++ leBytes 1 op ++ leBytes 1 mid ++ leBytes 2 tag ++ leBytes 6 i.toNat

/-- The MID a waiter acts with. -/
def State.sitterMid (s : State) : Sitter → Nat
  | .path p => pathMid p
  | .gov => 0x02
  | .peer _ mid _ => mid
  | .chan c => ctxMid (s.chan c).ctx

/-- A waiter of chairs goes; the home of a shared chair is told (R346, R347, R513). -/
def chairUnwait (w : Sitter) : Act := .ask fun s => forEach s.chairs.keys fun n =>
  forSome ((s.chair n).waiters.find? (·.1 == w)) fun e => acts [
    modChair n fun x => { x with waiters := x.waiters.filter (·.1 != w) },
    when_ (s.tabRemote (n / 8) && !s.tabDown (n / 8))
      (zForward (s.tab (n / 8) F.CHR_TAB_CFG_HOME) 0x30 (s.sitterMid w > 0x40) .chairOther (chrBody n 3 (s.sitterMid w) 0 e.2))]

/-! ### Fences -/

/-- Ones among bits 0 to 65. -/
def ones (m : Nat) : Nat := ((List.range 66).filter (bitAt m)).length

/-- The count of a fence (R355). -/
def Fence.cnt (f : Fence) : Nat := f.unattr + ones f.holds + f.descRefs

/-- The count of a memory object (R355). -/
def MemObj.cnt (m : MemObj) : Nat := m.unattr + ones m.holds + m.descRefs

/-- Tell every subscriber the value of a fence (R377, R512); `dead` tells that its destroy was requested (R379). -/
def fenTell (i : Nat) (dead : Bool) : Act := .ask fun s =>
  forEach (s.presentPeers.filter (fun p => bitAt (s.fence i).subs p)) fun p =>
    zSend 0x21 p false 0 (fenBody i (b2n dead) (s.fence i).value)

/-- Release every parked WAIT_FENCE that a fence's value meets (R368). -/
def wakeFence (i : Nat) : Act := .ask fun s => forEach s.chanList fun c =>
  match (s.chan c).park with
  | .fence j v => when_ ((s.chan c).st == .parked && j == i && v.toNat ≤ (s.fence i).value.toNat) (releaseWait c stDONE)
  | _ => .skip

/-- Give a fence a value: waits it meets are released and subscribers told (R367, R368, R377). -/
def fenceTo (i : Nat) (v : DWord) : Act := .ask fun s =>
  when_ (v != (s.fence i).value) <| acts [modFence i fun f => { f with value := v }, wakeFence i, fenTell i false]

/-- SET v: the value becomes max(value, v) (R367). -/
def fenceSet (i : Nat) (v : DWord) : Act := .ask fun s =>
  when_ ((s.fence i).value.toNat < v.toNat) (fenceTo i v)

/-- INC; at all ones it changes nothing (R367). -/
def fenceInc (i : Nat) : Act := .ask fun s =>
  when_ ((s.fence i).value.toNat != 2 ^ 64 - 1) (fenceTo i ((s.fence i).value + 1))

/-- Free a fence when its destroy is requested, or it is a proxy, and its count is 0 (R142); the home of a proxy is told,
unless it was lost meanwhile (R378, R379). -/
def fenceTryFree (i : Nat) : Act := .ask fun s =>
  let f := s.fence i
  when_ (f.live && (f.destroy || f.proxy) && f.cnt == 0) <| acts [
    when_ (f.proxy && decide (f.homeIdx < 4096)) (fenForward i false .free .free),
    takeFreeSeq fun n => modFence i fun f => { Fence.init with gen := (f.gen + 1) % 4096, freedAt := n }]

/-- Parked waits on a fence end with ABORTED (R371). -/
def abortFenceWaits (i : Nat) : Act := .ask fun s => forEach s.chanList fun c =>
  match (s.chan c).park with
  | .fence j _ => when_ ((s.chan c).st == .parked && j == i) (releaseWait c stABORTED)
  | _ => .skip

/-- Request a fence's destroy (R371, R379). -/
def fenceDestroyReq (i : Nat) : Act := acts [
  modFence i fun f => { f with destroy := true }, abortFenceWaits i, fenTell i true, fenceTryFree i]

/-- A proxy becomes BROKEN (R379). -/
def proxyBreak (i : Nat) : Act := .ask fun s =>
  when_ (!(s.fence i).broken) <| acts [
    modFence i fun f => { f with broken := true }, event F.FEN_EVT_PEER_LOST, abortFenceWaits i]

/-- Whether a context may use a fence (R369). -/
def Fence.usable (f : Fence) (ctx : Nat) : Bool := isDevCtx ctx || (!f.proxy && f.owner == ctx) || bitAt f.imported ctx

/-! ### Memory objects -/

/-- Unmap view entries of a context from one on. -/
def unmapRun (ctx first n : Nat) : Act :=
  modCtx ctx fun x => { x with view := (List.range n).foldl (fun v i => SMap.set 0 v (first + i) 0) x.view }

/-- The staging granule ranges of a TYPE 3 object: the pages its view run maps, or its direct range (R360, R361). -/
def State.cupRanges (s : State) (m : MemObj) : List (Nat × Nat) :=
  if isDevCtx m.owner then [(m.base / 64, m.len / 64)]
  else (List.range (m.len / 4096)).filterMap (fun i =>
    let e := SMap.get 0 (s.ctx m.owner).view (m.base / 4096 + i)
    if e == 0 then none else some ((e - 1) % 512 * 64, 64))

/-- Return one unattributed reference of a fence (R354, R376). -/
def fenceDropUnattr (i : Nat) : Act := acts [modFence i fun f => { f with unattr := f.unattr - 1 }, fenceTryFree i]

/-- Free a memory object, in the order of R357. -/
def memFree (i : Nat) : Act := .ask fun s =>
  let m := s.mobj i
  let rel := hIdx m.release
  acts [
    when_ (m.typ == 3) (modCup fun c => { c with
      scrub := c.scrub ++ s.cupRanges m, scrubAt := if c.scrub.isEmpty then s.clk else c.scrubAt }),
    when_ (m.typ == 1 || (m.typ == 3 && !isDevCtx m.owner)) (unmapRun m.owner (m.base / 4096) (m.len / 4096)),
    when_ (m.release != 0 && (s.fence rel).live) <| acts [
      (if (s.fence rel).proxy then when_ (!(s.fence rel).broken) (fenForward rel false .kick .kick) else fenceInc rel),
      fenceDropUnattr rel],
    takeFreeSeq fun n => modMobj i fun m => { MemObj.init with gen := (m.gen + 1) % 4096, freedAt := n }]

/-- Free a memory object when its destroy is requested and its count is 0 (R142). -/
def memTryFree (i : Nat) : Act := .ask fun s =>
  when_ ((s.mobj i).live && (s.mobj i).destroy && (s.mobj i).cnt == 0) (memFree i)

/-- Request a memory object's destroy. -/
def memDestroyReq (i : Nat) : Act := acts [modMobj i fun m => { m with destroy := true }, memTryFree i]

/-! ### Descriptor references (R141, R158) -/

/-- Return one descriptor reference. -/
def dropRef (r : Bool × Nat) : Act :=
  if r.1 then acts [modFence r.2 fun f => { f with descRefs := f.descRefs - 1 }, fenceTryFree r.2]
  else acts [modMobj r.2 fun m => { m with descRefs := m.descRefs - 1 }, memTryFree r.2]

/-- Return every reference of a channel's current descriptor. -/
def dropRefs (c : Nat) : Act := .ask fun s =>
  forSome (s.cur c) fun d => acts [modCur c fun d => { d with refs := [] }, forEach d.refs dropRef]

end Sys2Proof.Machine
end

