-- ==== Sys2Proof/Machine/Host.lean ====
section
/-!
DEFINITION. The device's own host traffic: tags, posted writes and reads (R480 to R485), the TLB and the translation
walk (R124 to R128), staging views (R129), and MSI-X messages (R488, R489).
-/

namespace Sys2Proof.Machine

/-! ### Requests -/

/-- The link is up and no function reset is in force (Table HLK-4, UP). -/
def State.linkUp (s : State) : Bool := s.host.link && !s.host.fr

/-- Free host read tags (Table STG-4). -/
def State.tagsFree (s : State) : Nat := 256 - s.host.reads.length

/-- Link tag values (R481). -/
def State.linkTags (s : State) : Nat := if s.host.tag10 || s.host.extTag then 256 else 32

/-- A walk read. -/
def Purpose.isWalk : Purpose → Bool
  | .walk .. => true
  | _ => false

/-- Tags that an engine's reads hold, walk reads apart (R126, R300). -/
def State.engineTags (s : State) (e : Nat) : Nat := (s.host.reads.filter (fun r => !r.purpose.isWalk && r.eng == e)).length

/-- A tag is available to a read request: a walk takes any free one, another read one of more than 8, and an engine holds at
most 64 (R126, R300, R481). -/
def State.canRead (s : State) (r : HReq) : Bool :=
  s.linkUp && s.host.reads.length < s.linkTags &&
    (if r.purpose.isWalk then s.tagsFree ≥ 1 else s.tagsFree ≥ 9 && (r.req.idx ≥ 4 || s.engineTags r.req.idx < 64))

/-- The lowest free tag. -/
def State.freeTag (s : State) : Nat :=
  ((List.range 256).find? (fun t => !(s.host.reads.any (·.tag == t)))).getD 0

/-- A read request is granted the port and its tag (R300); DEV_TAGS.LOW follows the lowest number free (Table STG-4).  It goes
out behind the posted writes of its engine (R297). -/
def issueRead (r : HReq) : Act := .ask fun s => acts [
  portBeat r.req 0x22,
  modHost fun h => { h with
    waits := h.waits.erase r, tagsUsed := h.tagsUsed + 1,
    reads := h.reads ++ [⟨s.freeTag, r.addr, r.len, r.purpose, [], false, s.clk, r.ro, r.ns, r.req.idx,
      (h.outq.filter (fun w => w.eng == r.req.idx)).length⟩] },
  .ask fun s => put F.DEV_TAGS_LOW (min (s.fld F.DEV_TAGS_LOW) s.tagsFree)]

/-- The host link outbound port grants the waiting read requests that have a tag available, by rank and the elder grant, until
none is left (R126, R300). -/
def readGrants : Nat → Act
  | 0 => .skip
  | n + 1 => .ask fun s =>
    let l := s.host.waits.zipIdx.filter (fun r => s.canRead r.1)
    when_ (!l.isEmpty) <| acts [
      arbitrate 0x22 (l.map (fun r => (r.2, r.1.req.rank))) (fun k => forSome s.host.waits[k]? issueRead), readGrants n]

/-- Grant what can be granted now. -/
def readPump : Act := .ask fun s => readGrants s.host.waits.length

/-- A host read request is raised at the host link outbound port; it waits there while no tag is available to it (R300). -/
def raiseRead (r : HReq) : Act := acts [modHost fun h => { h with waits := h.waits ++ [r] }, readPump]

/-- Bytes from an address to the next boundary of some size. -/
def toBoundary (addr size : Nat) : Nat := size - addr % size

/-- Max Payload Size and Max Read Request Size in bytes (PCIe encoding, Table HLK-1). -/
def State.mpsBytes (s : State) : Nat := min (128 * 2 ^ s.host.mps) 512
def State.mrrsBytes (s : State) : Nat := min (128 * 2 ^ s.host.mrrs) 4096

/-- The pieces of a host write: cut at Max Payload Size and 4 KiB boundaries (R480). -/
def writePieces (mps : Nat) : Nat → Nat → List Byte → List (Nat × List Byte)
  | 0, _, _ => []
  | fuel + 1, addr, bs =>
    if bs.isEmpty then [] else
    let n := toBoundary addr mps
    (addr, bs.take n) :: writePieces mps fuel (addr + n) (bs.drop n)

/-- Post a host write of a requester: each request is a grant at the host link outbound port. -/
def postWrite (q : FReq) (k : WKind) (addr : Nat) (bs : List Byte) (ro ns : Bool) (ctx : Nat) : Act := .ask fun s =>
  let ps := writePieces s.mpsBytes (bs.length / s.mpsBytes + 2) addr bs
  acts [
    portBeat q 0x22, lateGrant q.l ps.length,
    modHost fun h => { h with outq := h.outq ++ ps.map (fun p => ⟨q.idx, k, p.1, p.2, ro, ns, ctx⟩) }]

/-- A posted write leaves on the link, and with it the place it had before its engine's reads (R297). -/
def HostLink.sendOne (clk : Nat) (h : HostLink) : HostLink :=
  match h.outq with
  | [] => h
  | w :: rest => { h with
      outq := rest, sentAt := clk, reads := h.reads.map (fun r => if r.eng == w.eng && r.ahead != 0 then { r with ahead := r.ahead - 1 } else r) }

/-- The first n posted writes of a requester. -/
def dropOf (e : Nat) : Nat → List HWrite → List HWrite
  | 0, l => l
  | _, [] => []
  | n + 1, w :: rest => if w.eng == e then dropOf e n rest else w :: dropOf e (n + 1) rest

/-- A read has been answered, so it had left the device, and before it the writes its engine had posted earlier (R297). -/
def HostLink.sendAhead (clk : Nat) (h : HostLink) (r : HRead) : HostLink :=
  { h with
    outq := dropOf r.eng r.ahead h.outq, sentAt := if r.ahead == 0 then h.sentAt else clk,
    reads := h.reads.map (fun x => if x.eng == r.eng then { x with ahead := x.ahead - r.ahead } else x) }

/-- A read that has been answered leaves the books: its tag returns, and goes to the request that ranks first among those that
wait for one (R300). -/
def dropRead (r : HRead) : Act := acts [
  .ask fun s => modHost fun h => let k := h.sendAhead s.clk r
    { k with reads := k.reads.filter (·.tag != r.tag), tagsUsed := k.tagsUsed - 1 },
  readPump]

/-- Relaxed Ordering of operand data (R484). -/
def State.dataRO (s : State) : Bool := s.host.roEn && s.flag F.HLK_CTL_RO_DATA

/-- The function logs an error under AER (R496, Table HLK-3). -/
def aerLog (e : AerErr) : Act := modHost fun h => { h with aer := if h.aer.contains e then h.aer else h.aer ++ [e] }

/-- A poisoned TLP is counted and reported (R479, R483). -/
def poisoned : Act := acts [count F.HLK_CNT1_POISON, event F.HLK_EVT_POISON, aerLog .poisonedTlp]

/-- A poisoned write to a BAR is discarded whole (R479). -/
def poisonedWrite : Act := poisoned

/-- A refused or bitten BAR4 request is counted and reported as a Completer Abort (R478). -/
def bar4Refused : Act := acts [count F.HLK_CNT1_REFUSED, event F.HLK_EVT_REFUSED, aerLog .completerAbort]

/-- A BAR write dword: poisoned when bit 4 of its enables is set. -/
def barDword (be : Nat) (act : Act) : Act := .ask fun s =>
  if bitAt be 4 then when_ (!s.pwr.off && s.linkUp) poisonedWrite else act

/-! ### The configuration header (R471) -/

/-- A word of the configuration header: Device ID 0x6408 over the Vendor ID, and Class Code 0x08_8000 over Revision ID 0xB0; PCI
Express gives the words their places (log 86). -/
def cfgHeader (off : Nat) : Option Word := match off with
  | 0x00 => some (0x6408#16 ++ Config.vendorId)
  | 0x08 => some 0x088000B0
  | _ => none

/-- Device Capabilities 2: Completion Timeout ranges A to D, and no Completion Timeout Disable. -/
def devCap2 : Word := 0x0000000F

/-! ### MSI-X (R488, R489) -/

/-- A table entry. -/
def State.msix (s : State) (v : Nat) : Msix := SMap.get Msix.init s.host.table v

/-- Vectors whose messages wait to be sent, with nothing that masks them. -/
def HostLink.unsent (h : HostLink) : List Nat := (List.range 65).filter (fun v =>
  bitAt h.pend v && h.msixEn && !h.fmask && !(SMap.get Msix.init h.table v).masked)

/-- Send the message of a pending vector that nothing masks. -/
def sendMsix (v : Nat) : Act := .ask fun s =>
  let e := s.msix v
  when_ (s.linkUp && bitAt s.host.pend v && !e.masked && s.host.msixEn && !s.host.fmask) <| acts [
    modHost fun h => { h with pend := clrBit h.pend v },
    postWrite s.internalReq .msix e.addr (leBytes 4 e.data.toNat) false false 0]

/-! ### Translation (R124 to R126) -/

/-- The translation root of a context. -/
def State.root (s : State) (n : Nat) : Nat :=
  if n == 0 then s.fld F.HLK_ROOT0_LO_ROOT * 2 ^ 13 + s.fld F.HLK_ROOT0_HI_ROOT * 2 ^ 32 else (s.ctx n).root

/-- Whether a TLB leaf maps a context's address. -/
def Tlb.maps (t : Tlb) (ctx va : Nat) : Bool := t.ctx == ctx && t.vpn == (if t.big then va / 2 ^ 21 else va / 2 ^ 12)

/-- The outcome of a translation. -/
inductive Xlate where
  | hit (phys : Nat) (ns : Bool)
  | miss
  | fault
  deriving DecidableEq, Repr

/-- Translate a virtual address (R124, R125). -/
def State.xlate (s : State) (ctx addr : Nat) (write : Bool) : Xlate :=
  if addr ≥ 2 ^ 40 || ctx ≥ 64 || s.root ctx == 0 then .fault
  else match s.tlb.find? (·.maps ctx addr) with
    | some t => if write && !t.w then .fault
        else .hit (t.phys + (if t.big then addr % 2 ^ 21 else addr % 2 ^ 12)) t.ns
    | none => .miss

/-- The byte offset of the entry of a level in its table. -/
def walkIndex (level va : Nat) : Nat :=
  8 * (if level == 1 then bits va 30 10 else if level == 2 then bits va 21 9 else bits va 12 9)

/-- Walks in progress, their reads outstanding or waiting for a tag (R126: at most 8). -/
def State.walks (s : State) : Nat :=
  (s.host.reads.filter (fun r => !r.dead && r.purpose.isWalk)).length + (s.host.waits.filter (·.purpose.isWalk)).length

/-- A read serves a walk of a requester. -/
def Purpose.walksFor (p : Purpose) (w : Who) : Bool := match p with
  | .walk x .. => x == w
  | _ => false

/-- A requester's miss is being walked, or waits to be. -/
def State.walking (s : State) (w : Who) : Bool :=
  s.host.reads.any (fun r => !r.dead && r.purpose.walksFor w) || s.host.waits.any (·.purpose.walksFor w) ||
    s.host.walkq.any (·.who == w)

/-- A walk begins with the read of its level-1 entry. -/
def walkBegin (k : WalkReq) : Act := .ask fun s =>
  raiseRead ⟨.walk k.who k.ctx k.va 1 k.write true, s.root k.ctx + walkIndex 1 k.va, 8, false, false, k.req, none⟩

/-- The misses that wait begin their walks in the order they came, while a slot is free and no invalidation runs (R126, R128). -/
def walkPump : Nat → Act
  | 0 => .skip
  | n + 1 => .ask fun s =>
    when_ (s.walks < 8 && s.tlbInv.isNone) <| forSome s.host.walkq.head? fun k => acts [
      modHost fun h => { h with walkq := h.walkq.tail }, walkBegin k, walkPump n]

/-- Begin the walks that can begin. -/
def walkNext : Act := .ask fun s => walkPump s.host.walkq.length

/-- A TLB miss: counted once, it waits for a walk slot, which counts too, or for an invalidation to end (R126, R128, Table
CTX-11). -/
def startWalk (who : Who) (ctx va : Nat) (write : Bool) (q : FReq) : Act := .ask fun s =>
  when_ (!s.walking who) <| acts [
    count F.HLK_TLB_CNT_MISS,
    when_ (s.walks ≥ 8 || (s.tlbInv.isNone && !s.host.walkq.isEmpty)) (count F.HLK_TLB_CNT_WALKWAIT),
    modHost fun h => { h with walkq := h.walkq ++ [⟨who, ctx, va, write, q⟩] },
    walkNext]

/-- What an entry of a walk says: a leaf, the next table, or a fault (R125, Table CTX-4). -/
inductive WalkEnt where
  | next (table : Nat)
  | leaf (page : Nat) (ns : Bool)
  | bad
  deriving DecidableEq, Repr

/-- Judge an entry at a level. -/
def walkEntry (level e : Nat) (write w : Bool) : WalkEnt :=
  let adr := bits e 12 40 * 2 ^ 12
  let ps := bitAt e 7
  if !bitAt e 0 || (write && !(w && bitAt e 1)) || bits e 3 4 != 0 || (ps && level != 2) then .bad
  else if level == 3 then .leaf adr (bitAt e 2)
  else if level == 2 && ps then (if bits e 12 9 != 0 then .bad else .leaf adr (bitAt e 2))
  else .next adr

/-- Put a leaf in the TLB: at most 512, one replaced when all are in use (R126). -/
def tlbPut (t : Tlb) : Act := .ask fun s =>
  if s.tlb.length < 512 then .upd (.tlb (s.tlb ++ [t]))
  else drawFree fun k => .upd (.tlb (s.tlb.eraseIdx (Config.tlbVictim k % 512) ++ [t]))

/-! ### Staging views (R129) -/

/-- The staging byte of a selector-0x01 address of a context, or its fault. -/
def State.viewAddr (s : State) (ctx addr : Nat) (write : Bool) : Nat ⊕ Nat :=
  if isDevCtx ctx then .inl addr
  else if addr ≥ 2 ^ 21 then .inr stXLATE_FAULT
  else
    let e := SMap.get 0 (s.ctx ctx).view (addr / 4096)
    if e == 0 then .inr stXLATE_FAULT
    else if write && e > 512 then .inr stPROT_FAULT
    else .inl ((e - 1) % 512 * 4096 + addr % 4096)

end Sys2Proof.Machine
end

