-- ==== Sys2Proof/Machine/Channels.lean ====
section
/-!
DEFINITION. Channels: descriptor words, the Lamplighter's entries, completion records, how a descriptor and a chain
end, stops, faults and the loss of a context (04, 05, 08, 19).
-/

namespace Sys2Proof.Machine

/-! ### Descriptor words (Tables DSC-1, DSC-2) -/

/-- Word i of a descriptor. -/
def dw (d : List Word) (i : Nat) : Nat := (d.getD i 0).toNat
/-- A 64-bit field of a descriptor from word i on. -/
def dw64 (d : List Word) (i : Nat) : Nat := dw d i + 2 ^ 32 * dw d (i + 1)
def dOp (d : List Word) : Nat := bits (dw d 0) 0 8
def dIntr (d : List Word) : Bool := bitAt (dw d 0) 8
def dFenceNext (d : List Word) : Bool := bitAt (dw d 0) 9
def dHaltAfter (d : List Word) : Bool := bitAt (dw d 0) 10
def dSafeStop (d : List Word) : Bool := bitAt (dw d 0) 11
def dErrCont (d : List Word) : Bool := bitAt (dw d 0) 12
def dNoSnoop (d : List Word) : Bool := bitAt (dw d 0) 13
def dKey (d : List Word) : Nat := bits (dw d 0) 16 4
def dClass (d : List Word) : Nat := bits (dw d 0) 20 2
def dBurst (d : List Word) : Nat := bits (dw d 0) 24 8
def dLen (d : List Word) : Nat := dw d 1
def dSrc (d : List Word) : Nat := dw64 d 2
def dDst (d : List Word) : Nat := dw64 d 4
def dDeadline (d : List Word) : Nat := if bits (dw d 6) 0 24 == 0 then 0xFFFFFF else bits (dw d 6) 0 24
def dStride (d : List Word) : Nat := dw d 7
def dWhen (d : List Word) : WTime := BitVec.ofNat 48 (dw64 d 8)
def dNext (d : List Word) : Nat := dw d 10
def dTag (d : List Word) : Nat := dw d 11
/-- Op-specific word i, from offset 0x30 (Table DSC-5). -/
def dOps (d : List Word) (i : Nat) : Nat := dw d (12 + i)

/-- LOOP's REMAIN, ACTIVE and successor (R167). -/
def loopStep (d : List Word) : Nat × Nat × Nat :=
  let target := dOps d 0
  let cnt := dOps d 1
  let remain := if bitAt (dOps d 3) 0 then dOps d 2 else cnt
  if cnt == 0xFFFFFFFF then (remain, 1, target)
  else if remain != 0 then (remain - 1, 1, target)
  else (remain, 0, dNext d)

/-- A chain ends where a descriptor's NEXT is 0xFFFF_FFFF; a TARGET never ends it (R140, R174). -/
def endsAt (d : List Word) (nxt : Nat) : Bool :=
  nxt == 0xFFFFFFFF && dOp d != 0x40 && !(dOp d == 0x41 && (loopStep d).2.1 == 1)

/-- Wait descriptors (05 Model). -/
def isWaitOp (op : Nat) : Bool := op == 0x20 || op == 0x21 || op == 0x23 || op == 0x30
/-- Control descriptors. -/
def isCtlOp (op : Nat) : Bool := op == 0x3F || op == 0x40 || op == 0x41
/-- Transfer descriptors: every other opcode. -/
def isTransferOp (op : Nat) : Bool := !isWaitOp op && !isCtlOp op

/-- The selector of an operand, and its address (Table DSC-3). -/
def opSel (a : Nat) : Nat := bits a 56 8
def opAddr (a : Nat) : Nat := bits a 0 56

/-- The tier of a class (Table ARB-2). -/
def classTier (cls : Nat) : Nat := if cls == 3 then 1 else if cls == 0 then 3 else 2

/-! ### The Lamplighter (R51, R52) -/

/-- The lowest free entry of a pool. -/
def Lamp.freeIn (l : Lamp) (lo n : Nat) : Option Nat :=
  ((List.range n).map (· + lo)).find? (fun i => !(l.entries.any (fun e => e.idx == i)))

/-- The entry a channel of a context may arm (R51). -/
def State.lampFree (s : State) (ctx : Nat) : Option Nat :=
  if isDevCtx ctx then
    match s.lamp.freeIn 0 480 with
    | some i => some i
    | none => s.lamp.freeIn 480 32
  else if (s.lamp.entries.filter (fun e => e.ctx == ctx)).length < max 1 (min (s.fld F.WHL_LL_CFG_CTX_MAX) 480) then s.lamp.freeIn 0 480
  else none

/-- The general pool is full (R52). -/
def Lamp.generalFull (l : Lamp) : Bool := (l.freeIn 0 480).isNone

/-- Put an armed entry in place, with the high-water mark and LL_FULL (R52, Table WHL-5). -/
def lampPlace (c ctx idx : Nat) (target : WTime) (forced : Bool) : Act := .ask fun s =>
  let since := if wtAtOrAfter s.now target then some (s.wheel.reachedAt s.clk target) else none
  let full0 := s.lamp.generalFull
  acts [modLamp fun l => { l with
      entries := l.entries ++ [⟨idx, c, ctx, target, s.clk, since, forced⟩], used := l.used + 1 },
    .ask fun s => acts [
      when_ (s.fld F.WHL_LL_HWM < s.lamp.entries.length) (put F.WHL_LL_HWM s.lamp.entries.length),
      when_ (!full0 && s.lamp.generalFull) (whlEvent F.WHL_EVT_LL_FULL false)]]

/-- The parked channel that arms next (R52). -/
def State.lampWaiter (s : State) : Option LampWait :=
  (s.lamp.waiters.filter (fun w => (s.lampFree w.ctx).isSome)).foldl (fun best w => match best with
    | none => some w
    | some b =>
      if wtBefore w.issue b.issue || (w.issue == b.issue && (w.clk < b.clk || (w.clk == b.clk && w.chan < b.chan)))
      then some w else some b) none

/-- The parked channel that arms next takes its entry (R52). -/
def lampArmAct : Act := .ask fun s =>
  forSome s.lampWaiter fun w => acts [
    modLamp fun l => { l with waiters := l.waiters.filter (· != w) },
    forSome (s.lampFree w.ctx) fun i => lampPlace w.chan w.ctx i w.target w.forced]

/-- Every parked channel that has an entry available to it arms it (R52). -/
def lampRearm : Act := .ask fun s => rep s.lamp.waiters.length lampArmAct

/-- A channel arms an entry for a target, after those parked before it, or waits for one (R51, R52). -/
def lampArm (c : Nat) (target : WTime) (forced : Bool) : Act := acts [lampRearm, .ask fun s =>
  let ctx := (s.chan c).ctx
  if (s.chan c).st != .parked then .skip
  else match s.lampFree ctx with
  | some i => lampPlace c ctx i target forced
  | none => acts [modLamp fun l => { l with waiters := l.waiters ++ [⟨c, ctx, target, s.now, s.clk, forced⟩] },
      count F.WHL_CNT1_ARMWAIT, when_ s.lamp.generalFull (whlEvent F.WHL_EVT_LL_FULL false)]]

/-- Release Lamplighter entries and places among the waiters by channel and context; parked channels arm what comes free. -/
def lampDrop (gone : Nat → Nat → Bool) : Act := acts [
  modLamp fun l => { l with
    entries := l.entries.filter (fun e => !gone e.chan e.ctx), waiters := l.waiters.filter (fun w => !gone w.chan w.ctx),
    used := l.used - (l.entries.filter (fun e => gone e.chan e.ctx)).length },
  lampRearm]

/-- Release a channel's Lamplighter entry or place among the waiters. -/
def lampRelease (c : Nat) : Act := lampDrop (fun chan _ => chan == c)

/-- A wheel time given to the device that is not after the present, or is 2^47 or more ahead of it, is past (R50, R189). -/
def State.pastWhen (s : State) (w : WTime) : Bool := w == s.now || (w - s.now).toNat ≥ 2 ^ 47

/-- A target that is not after the present fires in the next core clock, and is LATE then when more than 2 core clocks have
passed since wheel time reached it (R50, R55). -/
def State.pastLate (s : State) (target : WTime) : Bool := s.clk + 1 > s.wheel.reachedAt s.clk target + 2

/-- A LATE fire counts and sets its event (R55). -/
def lateFire : Act := acts [count F.WHL_CNT0_LATE, whlEvent F.WHL_EVT_LATE false]

/-! ### Completion records (R181 to R184, R196) -/

/-- The records a channel's context may still write: none once it is DYING (R144), none of a queue in destruction or
whose ring faulted (R146, R554). -/
def State.recordable (s : State) (q : Nat) : Bool :=
  (s.queue q).live && !(s.queue q).destroying && !(s.queue q).faulted && (s.ctx (s.queue q).ctx).st != .dying

/-- A device reset was accepted after PWRFAIL#, if any: its end records are written (R565, R277). -/
def State.resetRecords (s : State) : Bool := s.pwr.seq == some true && !s.pwr.pfAfter

/-- A record becomes due. The governor's own end record goes to the governor (R397). After PWRFAIL# none does, but those
of a device reset accepted later (R273, R277, R565). -/
def addDue (d : Due) : Act := .ask fun s =>
  if d.queue == 1024 then modGov fun g => { g with ended := g.ended ++ [(d.tag, d.status)] }
  else when_ (s.recordable d.queue && (!s.pfHeld || s.resetRecords)) (.upd (.due (s.due ++ [d])))

/-- What the requests of a channel's engine carry: tier and L of the descriptor taken last, or those of a request that serves
none (R202). -/
def State.engReq (s : State) (c burst : Nat) : FReq :=
  match (s.chan c).run with
  | some r => ⟨(s.chan c).engine, r.tier, r.l, s.now, burst⟩
  | none => ⟨(s.chan c).engine, 2, wtAdd s.now 4096, s.now, burst⟩

/-- The end record of a submission that ends with bytes and a time (R182, R183): it waits for the peer writes in `acks`, and
its requests carry what those of its chain's last descriptor do. -/
def endRecord (c : Nat) (sub : Sub) (status : Nat) (wt : WTime) (bytes : Nat) (intr : Bool) (acks : List Nat) (q : FReq) : Act :=
  .ask fun s =>
  addDue ⟨sub.queue, some c, sub.tag, status, true, intr || (status != stDONE && status != stDONE_LATE), wt.toNat,
    min bytes 0xFFFFFF, c, (s.chan c).gen, true, acks, q.idx, q.tier, q.l⟩

/-- The end record of a submission that has not started. -/
def unstarted (c : Nat) (sub : Sub) (status : Nat) : Act := .ask fun s => endRecord c sub status s.now 0 false [] s.internalReq

/-- Free a queue's index and doorbell slot. -/
def queueFree (q : Nat) : Act := takeFreeSeq fun k =>
  modQueue q fun x => { Queue.init with gen := (x.gen + 1) % 4096, freedAt := k }

/-- Destroyed queues of which no channel holds a submission are freed (R146). -/
def queueSettle : Act := .ask fun s =>
  forEach (s.queues.keys.filter (fun q => (s.queue q).destroying &&
    !(s.chanList.any (fun c => (s.chan c).subs.any (·.queue == q))))) queueFree

/-- Change the submissions a channel holds: their places are credited (Table STG-3). -/
def modSubs (c : Nat) (f : List Sub → List Sub) : Act := acts [
  modChan c fun x => { x with subs := f x.subs, pend := x.pend + (f x.subs).length - x.subs.length }, queueSettle]

/-- Every submission not started completes with bytes 0, in order of acceptance (R258). -/
def dropSubs (c status : Nat) : Act := .ask fun s => acts [
  forEach (s.chan c).subs (fun sub => unstarted c sub status), modSubs c fun _ => []]

/-! ### Leaving an engine -/

/-- The channel's engine runs it no longer. -/
def leaveEngine (c : Nat) : Act := forEach (List.range 4) fun e => .ask fun s =>
  when_ ((s.engine e).chan == some c) (modEngine e fun x => { x with chan := none, excused := 0 })

/-- Flush the lines of the engine that last ran a channel (R261, R267, R293). -/
def flushOf (c : Nat) : Act := .ask fun s => flushEngine (s.chan c).engine

/-- The channel a host read serves. -/
def Purpose.chan? : Purpose → Option Nat
  | .data c => some c
  | .flush c => some c
  | .walk (.chan c) .. => some c
  | _ => none

/-- Reads and walks of some requesters are wanted no more: those outstanding stay so until they return, and are then discarded
(R267); those that wait are withdrawn (R221). -/
def dropReads (gone : Purpose → Bool) : Act := acts [
  modHost fun h => { h with
    reads := h.reads.map (fun r => if gone r.purpose then { r with dead := true } else r),
    waits := h.waits.filter (fun r => !gone r.purpose),
    walkq := h.walkq.filter (fun k => !gone (.walk k.who k.ctx k.va 1 k.write true)) },
  walkNext, readPump]

/-- The reads of a channel. -/
def killReads (c : Nat) : Act := dropReads (fun p => p.chan? == some c)

/-- Bytes a chain wrote to its destinations (R182); `acked` of the descriptor carries its own share. -/
def addBytes (c n : Nat) : Act := acts [
  modRun c fun r => { r with bytes := min (r.bytes + n) 0xFFFFFF }, modCur c fun d => { d with acked := d.acked + n }]

/-- Forwarded operations of a channel are forgotten; a peer write on its way counts as written, and the end record waits for
the peer's acknowledgement (R184, R262, R267). -/
def killForwards (c : Nat) : Act := .ask fun s =>
  let wr := s.zhn.outs.filter (·.what == .wr c)
  acts [
    when_ (!wr.isEmpty) (forSome (s.cur c) fun d => addBytes c d.sent),
    modRun c fun r => { r with acks := r.acks ++ wr.map (·.opId) },
    modZhn fun z =>
      let kept := z.outs.filter (fun o => !(o.what == .rd c || o.what == .signal c || o.what == .chair c))
      { z with outs := kept.map (fun o => if o.what == .wr c then { o with what := .wrLate } else o) }]

/-- A waiting place on a bus is given up; a transaction in progress runs to its end with its bytes discarded (R268). -/
def leaveBus (c : Nat) : Act := forEach (List.range 4) fun p => .ask fun s =>
  when_ ((s.pmbp p).user == some (.chan c)) (modPmbp p fun x => { x with user := some .orphan })

/-- A frame of channel c's EMIT. -/
def TxFrame.ofChan (f : TxFrame) (c : Nat) : Bool :=
  match f.who with
  | .emit d _ => d == c
  | _ => false

/-- Give back one frame credit of a phase controller on a lane (R420). -/
def creditBack (l pc : Nat) : Act :=
  modLane l fun x => { x with credits := SMap.set 4 x.credits pc (min 4 (SMap.get 4 x.credits pc + 1)) }

/-- The phase controller a frame addresses. -/
def TxFrame.pc (f : TxFrame) : Nat := f.addr % 16

/-- Two sendings of one frame: phase controller and SEQ. -/
def TxFrame.same (f g : TxFrame) : Bool := f.pc == g.pc && f.seq == g.seq

/-- An ABORT cuts a frame on its first sending: its credit and its SEQ come back (R236, R414). -/
def cutFirst (l : Nat) (f : TxFrame) : Act := acts [
  creditBack l f.pc,
  modLane l fun x => { x with txSeq := SMap.set 0 x.txSeq f.pc f.seq, resend := x.resend.filter (fun g => !g.same f) }]

/-- An aborted channel's EMIT: a frame on the wire is cut and its credit refunded on a first sending, waiting frames
go, and frames sent already are only waited for by the lane (R236, R267). -/
def cutEmit (c : Nat) : Act := forEach (List.range 8) fun l => .ask fun s =>
  let la := s.lane l
  let orphan := fun (f : TxFrame) => if f.ofChan c then { f with who := .emit 256 0 } else f
  acts [
    forSome la.tx fun t => when_ (t.1.ofChan c && s.clk < la.busyTo) <| acts [
      modLane l fun x => { x with tx := none, busyTo := s.clk + 13 },
      when_ (!t.2) (cutFirst l t.1)],
    modLane l fun x => { x with tx := x.tx.map (fun t => (orphan t.1, t.2)) },
    modLane l fun x => { x with
      waiting := x.waiting.filter (fun f => !f.ofChan c), aborted := x.aborted.filter (fun f => !f.ofChan c),
      resend := x.resend.map orphan, unacked := x.unacked.map orphan }]

/-- A fault, PERST# and PWRFAIL# let a frame whose SOF has left run to its end (R269): frames sent belong to no channel
any more, and waiting ones go. -/
def orphanEmit (c : Nat) : Act := forEach (List.range 8) fun l =>
  let orphan := fun (f : TxFrame) => if f.ofChan c then { f with who := .emit 256 0 } else f
  modLane l fun x => { x with
    tx := x.tx.map (fun t => (orphan t.1, t.2)), waiting := x.waiting.filter (fun f => !f.ofChan c),
    aborted := x.aborted.map orphan, resend := x.resend.map orphan, unacked := x.unacked.map orphan }

/-! ### Starting submissions -/

/-- A completion queue has room for a record behind k others that are due to it (R137). -/
def State.ringRoom (s : State) (q k : Nat) : Bool :=
  ((s.queue q).cqTail + 65536 - (s.queue q).cqHead) % 65536 + k < 2 ^ (s.queue q).log2

/-- The queue whose full ring holds back a record of a channel (R137). -/
def State.ringBlocked (s : State) (c : Nat) : Option Nat :=
  (s.due.zipIdx.find? (fun e => e.1.chan == some c &&
    !s.ringRoom e.1.queue ((s.due.take e.2).filter (·.queue == e.1.queue)).length)).map (·.1.queue)

/-- A chain that starts at a descriptor, perhaps some bytes in. -/
def Run.start (first : Nat) (off : Option Nat) (now : WTime) : Run :=
  ⟨first, none, 0, false, 0, now, false, off, now, now, none, 2, wtAdd now 4096, []⟩

/-- The submission at the head of a channel starts its chain: the channel is QUEUED (R135). -/
def beginSub (c : Nat) : Act := .ask fun s =>
  let x := s.chan c
  forSome x.subs.head? fun sub =>
    let res := sub.first == 0xFFFF
    let run := Run.start (if res then x.resDesc else sub.first) (if res then some x.resOff else none) s.now
    modChan c fun x => { x with st := .queued, park := .none, run := some run, copies := [] }

/-- Go to the submission at the head of a channel: at once, or parked on its start time, one that has passed counting as a
LATE fire (R50, R135); IDLE with none (R135, R178);
parked first while a full completion ring holds back its last record (R137).  A submission that resumes a record
discarded meanwhile ends with BAD_DESC (R135). -/
def startFrom (c : Nat) : Nat → Act
  | 0 => .skip
  | fuel + 1 => .ask fun s =>
    if (s.chan c).st == .dying then .skip
    else match s.ringBlocked c, (s.chan c).subs with
    | some q, _ => modChan c fun x =>
        { x with st := .parked, park := .ring q, parkedAt := s.clk, run := none, copies := [] }
    | none, [] => modChan c fun x => { x with st := .idle, park := .none, stopPend := 0, run := none, copies := [] }
    | none, sub :: rest =>
      if sub.start.toNat != 0 && !s.pastWhen sub.start then
        acts [modChan c fun x => { x with st := .parked, park := .start, parkedAt := s.clk, run := none, copies := [] },
          lampArm c sub.start false]
      else if sub.first == 0xFFFF && !(s.chan c).resValid then acts [
        unstarted c sub stBAD_DESC, modSubs c fun _ => rest, startFrom c fuel]
      else acts [when_ (sub.start.toNat != 0 && s.pastLate sub.start) lateFire, beginSub c]

/-- Go to the next submission. -/
def startNext (c : Nat) : Act := startFrom c 17

/-- A HALTED channel goes on at a submission that resumes; those before it complete with STOPPED (R264). -/
def resumeNext (c : Nat) : Act := .ask fun s =>
  let subs := (s.chan c).subs
  acts [
    forEach (subs.takeWhile (·.first != 0xFFFF)) (fun sub => unstarted c sub stSTOPPED),
    modSubs c (·.dropWhile (·.first != 0xFFFF)),
    when_ (subs.any (·.first == 0xFFFF)) (startNext c)]

/-! ### The state that a stop leads to (R258, R261, R267, R278) -/

/-- Zero a descriptor block and free a channel's index (R144 step 8, R147). -/
def chanFree (c : Nat) : Act := .ask fun s =>
  let x := s.chan c
  acts [
    otherWrite s.internalReq 1 (64 * x.base) (List.replicate (64 * x.count) 0),
    .ask fun s => .upd (.due (s.due.map (fun d => if d.chan == some c then { d with chan := none } else d))),
    .ask fun s => .upd (.descUsed (s.descUsed - x.count)),
    takeFreeSeq fun k => modChan c fun x => { Chan.init with gen := (x.gen + 1) % 4096, freedAt := k },
    queueSettle]

/-- The records due for a channel's submissions are written: it reaches its state, and goes on with what was accepted
meanwhile (R258, R264, R558). -/
def arrive (c : Nat) : Act := .ask fun s => forSome (s.chan c).dest fun st =>
  when_ (!(s.due.any (fun d => d.own && d.chan == some c))) <| acts [
    modChan c fun x => { x with st := st, dest := none, park := .none, stopPend := 0 },
    if st == .halted then resumeNext c
    else if st == .stopped then dropSubs c stSTOPPED
    else startNext c]

/-- The chain has been stopped: the channel is on its way to a state; one under destruction is freed, with its context or at
once (R144, R147). -/
def stopTo (c : Nat) (st : ChanSt) : Act := .ask fun s =>
  if (s.chan c).st == .dying then when_ ((s.ctx (s.chan c).ctx).st != .dying) (chanFree c)
  else acts [modChan c fun x => { x with st := .parked, park := .none, dest := some st }, arrive c]

/-! ### Ending chains -/

/-- Everything a channel waits on is released (R261). -/
def releaseWaits (c : Nat) : Act := acts [lampRelease c, chairUnwait (.chan c)]

/-- The running chain ends: its end record is due (R181, R182, R259), and its engine is released. -/
def chainEnd (c status : Nat) : Act := .ask fun s =>
  let x := s.chan c
  acts [
    match x.subs, x.run with
    | sub :: _, some r => endRecord c sub status r.lastWT r.bytes r.lastIntr r.acks (s.engReq c 1)
    | sub :: _, none => unstarted c sub status
    | [], _ => .skip,
    leaveEngine c,
    modChan c fun x => { x with st := if x.st == .dying then .dying else .parked, park := .none, run := none, copies := [] },
    modSubs c List.tail]

/-- The status that an ABORT gives a channel: DEV_RESET before a device reset (R565), CTX_LOST while its context is being
lost (R555). -/
def State.abortStatus (s : State) (c : Nat) : Nat :=
  if s.pwr.seq == some true then stDEV_RESET
  else if (s.ctx (s.chan c).ctx).losing.isSome then stCTX_LOST else stABORTED

/-- The chain ended by itself: its status by R182; a pending HALT or ABORT acts on the pending submissions only
(R277), a DRAIN whose SAFE_STOP this was likewise (R260); else the next submission starts. -/
def chainEndNormal (c : Nat) (drained : Bool) : Act := .ask fun s =>
  let x := s.chan c
  let r := x.run.getD (Run.start 0 none s.now)
  let status := if r.status != 0 then r.status else if r.late then stDONE_LATE else stDONE
  acts [chainEnd c status,
    if x.stopPend ≥ 2 || (x.stopPend == 1 && drained) then acts [
      dropSubs c (if x.stopPend == 3 then s.abortStatus c else stSTOPPED),
      modChan c fun x => { x with stopWT := s.now }, stopTo c .idle]
    else startNext c]

/-- Frames of a channel's EMIT that have not been sent are taken back (R262). -/
def dropWaiting (c : Nat) : Act := forEach (List.range 8) fun l => modLane l fun x =>
  { x with waiting := x.waiting.filter (fun f => !f.ofChan c) }

/-- A chain that is cut reports the time of the cut when a descriptor was in execution, else that of its last descriptor (R182). -/
def cutTime (c : Nat) : Act := .ask fun s => modRun c fun r => if r.cur.isSome then { r with lastWT := s.now } else r

/-- The channel stops with a resume record of a descriptor and an offset (R168, R261, R262). -/
def haltChain (c desc off : Nat) : Act := .ask fun s =>
  let tag := match (s.chan c).subs with
    | sub :: _ => sub.tag
    | [] => 0
  acts [flushOf c, releaseWaits c, killReads c, dropWaiting c, dropRefs c,
    modChan c fun x => { x with resValid := true, resDesc := desc, resOff := off, resTag := tag, stopWT := s.now },
    cutTime c, chainEnd c stSTOPPED]

/-- A HALT or a DRAIN takes effect: the pending submissions complete with STOPPED (R258), and the channel becomes HALTED. -/
def haltAt (c desc off : Nat) : Act := acts [haltChain c desc off, dropSubs c stSTOPPED, stopTo c .halted]

/-- HALT_AFTER halts the channel at the next descriptor, which satisfies a pending DRAIN (R168, R279). -/
def haltAfter (c nxt : Nat) : Act := .ask fun s =>
  if (s.chan c).stopPend != 0 then haltAt c nxt 0 else acts [haltChain c nxt 0, stopTo c .halted]

/-- The place a halt of a parked, queued or between-descriptors channel resumes at (R262). -/
def State.resumePlace (s : State) (c : Nat) : Nat × Nat :=
  match (s.chan c).run with
  | none => (match (s.chan c).subs with
      | sub :: _ => if sub.first == 0xFFFF then ((s.chan c).resDesc, (s.chan c).resOff) else (sub.first, 0)
      | [] => (0, 0))
  | some r => match r.cur with
    | none => (r.next, r.resume.getD 0)
    | some d => if isTransferOp (dOp d.words) && (dClass d.words != 2 || d.fired || d.off != 0) then (d.idx, d.off)
        else (d.idx, 0)

/-- A stop under ABORT (R267, R268): no further beat; writes issued stand; outstanding reads are discarded on return;
the chain's end record carries a status. -/
def abortRun (c status : Nat) : Act := .ask fun s =>
  when_ ((s.chan c).run.isSome || !(s.chan c).subs.isEmpty) <| acts [
    flushOf c, releaseWaits c, killReads c, killForwards c, cutEmit c, leaveBus c, dropRefs c, cutTime c,
    when_ ((s.chan c).run.isSome || (s.chan c).park == .start) (chainEnd c status)]

/-- An operation the device performs as one whole is in progress: a SIGNAL, a granted ALLOC or FREE with the writing of its
result, or a CHAIR_GIVE (R268). -/
def State.atomicBusy (s : State) (c : Nat) : Bool :=
  match s.cur c with
  | none => false
  | some d => match d.phase with
    | .done _ => false
    | .fenceRsp => true
    | .chairRsp => dOp d.words == 0x31
    | .flush => dOp d.words == 0x22 && d.after.isNone
    | .cup => (match s.cup.op with | some o => o.chan == c | none => false)
    | _ => dOp d.words == 0x38 && d.data.isSome

/-- An ABORT stop takes effect on a channel: the running chain, then the pending submissions, end with a status, and no
resume record is left (08 Model, R556). -/
def abortChan (c status subStatus : Nat) : Act := .ask fun s =>
  let x := s.chan c
  acts [
    abortRun c status, dropSubs c subStatus,
    modChan c fun x => { x with stopWT := s.now, resValid := false, bitten := false },
    match x.st with
    | .queued | .running | .parked | .dying => stopTo c (if x.dest == some .stopped then .stopped else .idle)
    | .halted => modChan c fun x => { x with st := .idle }
    | _ => .skip]

/-! ### Parking -/

/-- A HALT or an ABORT that is pending takes effect on a channel that has left its engine (R278, R324). -/
def stopParked (c : Nat) : Act := .ask fun s =>
  let pl := s.resumePlace c
  if s.atomicBusy c then .skip
  else if (s.chan c).stopPend == 2 then haltAt c pl.1 pl.2
  else when_ ((s.chan c).stopPend == 3) (abortChan c (s.abortStatus c) (s.abortStatus c))

/-- The channel parks: its engine is released and its copies are discarded (R178). -/
def parkChan (c : Nat) (p : Park) : Act := .ask fun s => acts [
  leaveEngine c,
  modChan c fun x => { x with st := .parked, park := p, parkedAt := s.clk, copies := [] },
  stopParked c]

/-- The channel drops its dispatch grant at a burst boundary without a park: its copies go with it (R178, R209), and it is
QUEUED from here (R210). -/
def queueAt (c : Nat) (p : Park) : Act := .ask fun s => acts [
  leaveEngine c,
  modChan c fun x => { x with
    st := if x.st == .dying then .dying else .queued, park := p, parkedAt := s.clk,
    run := x.run.map (fun r => { r with q := s.now, i := s.now }) }]

/-- A beat stalls, or an access waits for its view entry: the channel leaves its engine and asks for none meanwhile (R131,
R324); a stop finds it as one that is parked. -/
def stallChan (c : Nat) (p : Park) : Act := acts [queueAt c p, stopParked c]

/-! ### Faults and the loss of a context (R270, R555, R558) -/

/-- A status that makes a user context LOST and stops a device context's channel (Table ERR-2). -/
def losesCtx (status : Nat) : Bool :=
  status == stPROT_FAULT || status == stXLATE_FAULT || status == stHOST_ERR || status == stSNUFFED

/-- Capture the first fault of a context (R154). -/
def captureFault (n status desc chan addr : Nat) : Act := .ask fun s =>
  when_ ((s.ctx n).fault.isNone && n < 64) (modCtx n fun x => { x with fault := some ⟨status, desc, chan, addr, s.now⟩ })

/-- The references of a channel wait for step 3 of R555. -/
def holdRefs (n c : Nat) : Act := .ask fun s =>
  forSome (s.cur c) fun d => acts [
    modCtx n fun x => { x with heldRefs := x.heldRefs ++ d.refs }, modCur c fun d => { d with refs := [] }]

/-- Step 1 of R555: the context loses: its queues are read no longer and every other channel stops under ABORT with
CTX_LOST, one with an atomic operation in progress when that has ended (R268). Channel 256 stands for none (R554). A context that is DYING stays so (R571), and a second fault loses nothing more. -/
def loseCtx (n c : Nat) : Act := .ask fun s =>
  when_ ((s.ctx n).st == .live && (s.ctx n).losing.isNone) <| acts [
    modCtx n fun x => { x with losing := some c },
    forEach s.chanList fun d => .ask fun s =>
      when_ (d != c && (s.chan d).ctx == n && (s.chan d).st != .free && (s.chan d).st != .dying)
        (acts [holdRefs n d,
          if s.atomicBusy d then modChan d fun x => { x with stopPend := 3 } else abortChan d stCTX_LOST stCTX_LOST])]

/-- What a context's channel that ended with a losing status brings about (R553).  Context 0's first fault is captured too
(R154, Table CTX-10; DEDUCED, log 82). -/
def faultAfter (c status desc off addr : Nat) : Act := .ask fun s =>
  let n := (s.chan c).ctx
  acts [
    captureFault n status desc (s.chanHandle c) addr,
    modChan c fun x => { x with stopPend := 0, stopWT := s.now },
    if isDevCtx n then acts [
      dropSubs c stSTOPPED, stopTo c .stopped, postErr ⟨0x06, 0, ctxMid n, status, some c, n, addr, desc + 2 ^ 16 * off⟩]
    else acts [dropSubs c stCTX_LOST, stopTo c .idle, loseCtx n c]]

/-- An access of a channel faults at a byte offset of its descriptor (R270), or the Snuffer bites it, as under ABORT
(R216). ABORTED loses no context (R511). -/
def faultChan (c status off : Nat) : Act := .ask fun s =>
  let d := s.cur c
  let desc := (d.map (·.idx)).getD 0 % 65536
  let addr := (d.map (·.addr)).getD 0
  let n := (s.chan c).ctx
  acts [flushOf c, releaseWaits c, killReads c, killForwards c,
    if status == stSNUFFED then cutEmit c else orphanEmit c, leaveBus c,
    modChan c fun x => { x with faultDesc := desc, faultOff := off, resValid := false, bitten := false },
    when_ (losesCtx status && !isDevCtx n) (holdRefs n c), dropRefs c, cutTime c,
    chainEnd c status,
    if losesCtx status then faultAfter c status desc off addr
    else .ask fun s =>
      if (s.chan c).st == .dying then stopTo c .idle
      else if (s.chan c).stopPend ≥ 2 then acts [
        dropSubs c (if (s.chan c).stopPend == 3 then s.abortStatus c else stSTOPPED), stopTo c .idle]
      else startNext c]

/-! ### Finishing a descriptor (R168, R173, R174, R181) -/

/-- The slack bin of a completion (Table GOV-2). -/
def slackBin (late : Bool) (l wt : WTime) : Nat :=
  if late || wtBefore l wt then 0
  else
    let sl := (l - wt).toNat
    if sl < 32 then 1 else if sl ≥ 2 ^ 18 then 15
    else ((List.range 13).map (· + 2)).foldl (fun b k => if 2 ^ (k + 3) ≤ sl then k else b) 2

/-- A status that ERR_CONT continues (R168). -/
def errContinues (status : Nat) : Bool :=
  status == stLANE_ERR || status == stPMB_NAK || status == stCHAIR_TIMEOUT || status == stALLOC_FAIL

/-- A progress record of the current descriptor (R181, R183). -/
def progressRecord (c : Nat) (d : Cur) (status bytes : Nat) : Act := .ask fun s =>
  match (s.chan c).subs with
  | [] => .skip
  | sub :: _ => addDue ⟨sub.queue, some c, dTag d.words, status, false, dIntr d.words, d.doneWT.toNat, min bytes 0xFFFFFF, c,
      (s.chan c).gen, true, [], (s.chan c).engine, classTier (dClass d.words), d.l⟩

/-- A DRAIN is satisfied by the completion of a descriptor: one with SAFE_STOP, or one that HALT_AFTER ends at (R260, R279). -/
def drains (pend : Nat) (d : List Word) (ok : Bool) : Bool := pend == 1 && (dSafeStop d || (ok && dHaltAfter d))

/-- The chain goes on at a descriptor, ends, or halts there by HALT_AFTER or a satisfied DRAIN (R168, R174, R260); an ABORT
that waited for an operation ends it (R268, R280). -/
def chainGo (c nxt : Nat) (d : Cur) (ok : Bool) : Act := .ask fun s =>
  let pend := (s.chan c).stopPend
  if pend == 3 then abortChan c (s.abortStatus c) (s.abortStatus c)
  else if endsAt d.words nxt then chainEndNormal c (drains pend d.words ok)
  else if drains pend d.words ok then haltAt c nxt 0
  else if ok && dHaltAfter d.words then haltAfter c nxt
  else
    let keep := fun (l : List (Nat × List Word)) =>
      if dFenceNext d.words || isWaitOp (dOp d.words) then [] else
      match l with
      | (i, w) :: rest => if i == nxt then (i, w) :: rest else []
      | [] => []
    acts [
      modChan c fun x =>
        { x with run := x.run.map (fun r => { r with next := nxt, cur := none, resume := none }), copies := keep x.copies },
      .ask fun s => forSome (s.ringBlocked c) fun q =>
        when_ ((s.chan c).st == .running || (s.chan c).st == .queued) (parkChan c (.ring q))]

/-- The current descriptor completes with a status and the chain passes on (R173, R174, R181, R192). -/
def finishDesc (c status nxt : Nat) : Act := .ask fun s =>
  forSome (s.cur c) fun d =>
    let op := dOp d.words
    let late := (isTransferOp op && wtBefore d.l d.doneWT) || d.late
    let st := if status == stDONE && late then stDONE_LATE else status
    let ok := st == stDONE || st == stDONE_LATE
    let goes := ok || (dErrCont d.words && errContinues st)
    let pend := (s.chan c).stopPend
    let ends := endsAt d.words nxt || pend == 3 || (ok && dHaltAfter d.words) || drains pend d.words ok
    acts [
      when_ (s.gov.measuring && isTransferOp op && dClass d.words != 0) (modGov fun g =>
        let b := slackBin (st == stDONE_LATE) d.l d.doneWT
        { g with hist := SMap.set 0 g.hist b (SMap.get 0 g.hist b + 1) }),
      when_ (losesCtx st && !isDevCtx (s.chan c).ctx) (holdRefs (s.chan c).ctx c),
      dropRefs c,
      modRun c fun r => { r with
        lastWT := d.doneWT, lastIntr := dIntr d.words, late := r.late || (ok && late),
        status := if ok || r.status != 0 then r.status else st },
      when_ (goes && !ends && (dIntr d.words || !ok)) (progressRecord c d st d.acked),
      if goes then chainGo c nxt d ok
      else if losesCtx st then acts [flushOf c, releaseWaits c, killReads c,
        modChan c fun x => { x with faultDesc := d.idx % 65536, faultOff := d.off, resValid := false, bitten := false },
        .ask fun s => chainEnd c ((s.chan c).run.elim st (·.status)), faultAfter c st (d.idx % 65536) d.off d.addr]
      else if pend == 3 then abortChan c (s.abortStatus c) (s.abortStatus c)
      else acts [flushOf c, chainEndNormal c false]]

end Sys2Proof.Machine
end

