-- ==== Sys2Proof/Machine/Operands.lean ====
section
/-!
DEFINITION. The checks a device makes when it takes a descriptor, steps 1 to 3 of R157: opcode, reserved fields,
operand rules (Tables DSC-3, DSC-4, DSC-5, PMW-2, PMW-3), spans (R190) and the selectors a context may name (R117).
-/

namespace Sys2Proof.Machine

/-- The opcodes of Table DSC-4. -/
def opListed (op : Nat) : Bool :=
  [0x01, 0x02, 0x03, 0x04, 0x10, 0x11, 0x12, 0x20, 0x21, 0x22, 0x23, 0x30, 0x31, 0x38, 0x39, 0x3F, 0x40, 0x41].contains op

/-- Bits of a number outside [hi:lo] are 0. -/
def onlyBits (v lo width : Nat) : Bool := v == bits v lo width * 2 ^ lo

/-- A memory selector of a transfer: context virtual, staging or object store. -/
def selMem (sel : Nat) : Bool := sel ≤ 2

/-- A memory or peer selector. -/
def selXfer (sel : Nat) : Bool := sel ≤ 2 || sel == 7

/-- The last address of a span of n bytes lies in a space of some size; the address itself always must (R190). -/
def spanIn (addr n size : Nat) : Bool := addr < size && addr + n ≤ size

/-- Reserved address bits are 0 and the span lies in its space (R190, R194). `dev` is a device context, `self` the
device's PEER_ID, `n` the span in bytes. -/
def operandOk (dev : Bool) (self : Nat) (a n : Nat) : Bool :=
  let x := opAddr a
  match opSel a with
  | 0 => true
  | 1 => !dev || spanIn x n 0x200000
  | 2 => spanIn x n 0xC0000
  | 3 => onlyBits x 0 7
  | 4 => x == bits x 0 1 + bits x 8 7 * 2 ^ 8
  | 5 => onlyBits x 0 1
  | 6 => x < 192
  | 7 =>
    let sel := bits x 40 8
    x == bits x 0 24 + sel * 2 ^ 40 + bits x 48 2 * 2 ^ 48 && (sel == 1 || sel == 2) && bits x 48 2 != self &&
      spanIn (bits x 0 24) n (if sel == 1 then 0x200000 else 0xC0000)
  | _ => false

/-- The strided span of a GATHER or SCATTER operand (R190). -/
def stridedSpan (len block stride : Nat) : Nat :=
  if len == 0 then 0 else (len / block - 1) * stride + block

/-- Spans of SRC and DST of an opcode. -/
def srcSpan (d : List Word) : Nat :=
  if dOp d == 0x03 then stridedSpan (dLen d) (dOps d 0) (dStride d) else if dOp d == 0x11 then 0 else dLen d
def dstSpan (d : List Word) : Nat :=
  if dOp d == 0x04 then stridedSpan (dLen d) (dOps d 0) (dStride d)
  else if dOp d == 0x11 then 32 * 2 ^ bits (dOps d 0) 0 4
  else dLen d

/-- Op-specific bytes not listed in Table DSC-5 are 0. -/
def opsReservedOk (d : List Word) : Bool :=
  let o := dOps d
  match dOp d with
  | 0x02 => onlyBits (o 2) 0 2 && o 3 == 0
  | 0x03 | 0x04 => o 1 == 0 && o 2 == 0 && o 3 == 0
  | 0x10 => o 0 == bits (o 0) 0 12 + bits (o 0) 16 5 * 2 ^ 16 && o 1 == 0 && o 2 == 0 && o 3 == 0
  | 0x11 => onlyBits (o 0) 0 4 && onlyBits (o 1) 0 16 && o 2 == 0 && o 3 == 0
  | 0x12 => onlyBits (o 0) 0 21 && o 1 == 0 && o 2 == 0 && o 3 == 0
  | 0x20 | 0x23 => onlyBits (o 0) 0 2 && o 1 == 0 && o 2 == 0 && o 3 == 0
  | 0x21 | 0x22 => o 1 == 0
  | 0x30 | 0x31 => onlyBits (o 1) 0 3 && o 2 == 0 && o 3 == 0
  | 0x38 => o 1 == bits (o 1) 0 5 + bits (o 1) 8 4 * 2 ^ 8 && o 2 == 0 && o 3 == 0
  | 0x39 | 0x40 => o 1 == 0 && o 2 == 0 && o 3 == 0
  | 0x41 => onlyBits (o 3) 0 1
  | _ => o 0 == 0 && o 1 == 0 && o 2 == 0 && o 3 == 0

/-- Reserved fields of the common words, STRIDE, WHEN and CLASS (R159, R164, R170). -/
def commonOk (dev : Bool) (d : List Word) : Bool :=
  let op := dOp d
  let w0 := dw d 0
  w0 == bits w0 0 14 + bits w0 16 6 * 2 ^ 16 + bits w0 24 8 * 2 ^ 24 && onlyBits (dw d 6) 0 24 &&
    onlyBits (dw d 9) 0 16 && (op == 0x03 || op == 0x04 || dStride d == 0) &&
    (dClass d == 2 || op == 0x20 || dWhen d == 0) && (op != 0x20 || dClass d ≤ 1) &&
    (dClass d != 3 || (op == 0x10 && dev))

/-- The rules of Table PMW-2 and Table PMW-3 for a PMB_XFER (R444, R454). -/
def pmbOk (d : List Word) : Bool :=
  let wr := bits (dOps d 0) 0 8
  let rd := bits (dOps d 0) 8 8
  let form := bits (dOps d 0) 16 4
  let noAddr := bits (opAddr (dDst d)) 8 7 == 0
  dLen d == wr + rd &&
  if opSel (dDst d) == 5 then
    !bitAt (dOps d 0) 20 &&
      (((form == 0 || form == 1 || form == 4) && wr == 3 && rd == 1) || ((form == 2 || form == 3) && wr == 1 && rd == 3))
  else match form with
    | 0 => wr == 1 && rd == 0
    | 1 => 1 ≤ wr && rd == 0
    | 2 => wr == 0 && 1 ≤ rd
    | 3 => 1 ≤ wr && 1 ≤ rd
    | 4 => 2 ≤ wr && rd == 0
    | 5 => 1 ≤ wr && 2 ≤ rd
    | 6 => 2 ≤ wr && 2 ≤ rd
    | 7 => 3 ≤ wr && rd == 0 && noAddr
    | 8 => wr == 0 && rd == 1 && noAddr
    | _ => false

/-- The operand rules of Table DSC-4 and the values of Table DSC-5 for an opcode. -/
def shapeOk (d : List Word) : Bool :=
  let s := opSel (dSrc d)
  let t := opSel (dDst d)
  let n := dLen d
  let z := dSrc d == 0 && dDst d == 0 && n == 0
  match dOp d with
  | 0x01 => selXfer s && selXfer t
  | 0x02 => dSrc d == 0 && selXfer t
  | 0x03 => selXfer s && selXfer t && dOps d 0 != 0 && n % max (dOps d 0) 1 == 0
  | 0x04 => selXfer s && selXfer t && dOps d 0 != 0 && n % max (dOps d 0) 1 == 0 && dOps d 0 ≤ dStride d
  | 0x10 =>
    let flen := bits (dOps d 0) 16 5
    (s == 1 || s == 2) && t == 3 && flen ≤ 16 && bits (dOps d 0) 8 4 ≤ 3 &&
      (if flen == 0 then n == 0 else n != 0 && n % flen == 0)
  | 0x11 => s == 3 && selMem t && opAddr (dDst d) % 32 == 0 && n != 0 && n % 32 == 0 && bits (dOps d 0) 0 4 ≤ 12
  | 0x12 => (s == 1 || s == 2) && (t == 4 || t == 5) && pmbOk d
  | 0x20 => z && bits (dOps d 0) 0 2 != 3 && (bits (dOps d 0) 0 2 != 2 || onlyBits (dWhen d).toNat 0 12)
  | 0x21 | 0x22 => z
  | 0x23 => s == 6 && dDst d == 0 && n == 0
  | 0x30 | 0x31 => z
  | 0x38 => dSrc d == 0 && selMem t && opAddr (dDst d) % 16 == 0 && n == 16 && dOps d 0 != 0 &&
      6 ≤ bits (dOps d 1) 0 5 && bits (dOps d 1) 0 5 ≤ 21
  | _ => z

/-- A selector a context may name (Table CTX-3). -/
def selAllowed (ctx sel : Nat) : Bool := isDevCtx ctx || sel ≤ 2

/-- An operand other than one that must be 0. -/
def opNames (op : Nat) : Bool × Bool :=
  if op == 0x01 || op == 0x03 || op == 0x04 || op == 0x10 || op == 0x11 || op == 0x12 then (true, true)
  else if op == 0x02 || op == 0x38 then (false, true)
  else if op == 0x23 then (true, false)
  else (false, false)

/-- Steps 1 to 3 of R157 for a descriptor of a channel whose block has a base and a count: a status, or pass. -/
def takeCheck (self ctx base cnt idx : Nat) (d : List Word) : Option Nat :=
  let op := dOp d
  let dev := isDevCtx ctx
  let nm := opNames op
  if !(base ≤ idx && idx < base + cnt) then some stBAD_DESC
  else if !(opListed op && commonOk dev d && opsReservedOk d && shapeOk d &&
      (!nm.1 || operandOk dev self (dSrc d) (srcSpan d)) && (!nm.2 || operandOk dev self (dDst d) (dstSpan d))) then
    some stBAD_DESC
  else if !((!nm.1 || selAllowed ctx (opSel (dSrc d))) && (!nm.2 || selAllowed ctx (opSel (dDst d)))) then
    some stPROT_FAULT
  else none

end Sys2Proof.Machine
end

