-- ==== Sys2Proof/Machine/Take.lean ====
section
/-!
DEFINITION. Fetching and taking descriptors (R157, R158, R177 to R180), and the end of a completion: the flush of
FENCE_NEXT (R176).
-/

namespace Sys2Proof.Machine

/-! ### Fetch (R177, R178) -/

/-- A channel's prefetch depth: PF_MAX under the governor's depth (R177). -/
def State.depth (s : State) (c : Nat) : Nat := max 1 (min (s.chan c).pfMax (s.fld F.GOV_CTL_PF_NOW))

/-- An index lies in the channel's block (R140). -/
def Chan.inBlock (x : Chan) (i : Nat) : Bool := x.base ≤ i && i < x.base + x.count

/-- The descriptor an object-store index holds now, in the coherent image. -/
def State.descAt (s : State) (i : Nat) : List Word :=
  (List.range 16).map (fun k => BitVec.ofNat 32 (ofLe (s.cohBytes 1 (64 * i + 4 * k) 4)))

/-- The successor an engine may fetch of a descriptor (R177). -/
def fetchNext (d : List Word) : Option Nat :=
  let op := dOp d
  if op == 0x41 || isWaitOp op || dClass d == 2 || dHaltAfter d || dFenceNext d then none
  else if op == 0x40 then some (dOps d 0)
  else if dNext d == 0xFFFFFFFF then none
  else some (dNext d)

/-- Up to n copies from an index on. -/
def State.fetchRun (s : State) (x : Chan) : Nat → Option Nat → List (Nat × List Word)
  | 0, _ => []
  | _, none => []
  | n + 1, some i =>
    if !x.inBlock i then []
    else
      let d := s.descAt i
      (i, d) :: s.fetchRun x n (fetchNext d)

/-- Fetch the copies a channel may hold: the next descriptor when none is current, and up to D successors. -/
def fetchCopies (c : Nat) : Act := .ask fun s =>
  let x := s.chan c
  forSome x.run fun r =>
    let cs := match r.cur, x.copies.getLast? with
      | none, none => s.fetchRun x (s.depth c + 1) (some r.next)
      | none, some l => x.copies ++ s.fetchRun x (s.depth c + 1 - x.copies.length) (fetchNext l.2)
      | some d, none => s.fetchRun x (s.depth c) (fetchNext d.words)
      | some _, some l => x.copies ++ s.fetchRun x (s.depth c - x.copies.length) (fetchNext l.2)
    acts [
      forEach (cs.drop x.copies.length) (fun e => cacheRead (s.engReq c 2) x.engine 1 (64 * e.1) 64),
      modChan c fun x => { x with copies := cs }]

/-- A write of the channel's own discards the first copy it touches and those fetched after it (R179). -/
def dropCopies (c space a n : Nat) : Act :=
  when_ (space == 1) (modChan c fun x =>
    { x with copies := x.copies.takeWhile (fun e => !(64 * e.1 < a + n && a < 64 * e.1 + 64)) })

/-! ### References (R141 to R143, R157 step 4) -/

/-- The reference a handle operand of an opcode takes: none needed, one to take, or BAD_HANDLE. -/
def State.handleOf (s : State) (ctx : Nat) (d : List Word) : Option (Option (Bool × Nat)) :=
  let h := dOps d 0
  match dOp d with
  | 0x21 | 0x22 => match s.fenceOf h with
    | some i =>
      let f := s.fence i
      if f.usable ctx && (f.proxy || !f.destroy) && f.cnt < 2 ^ 32 - 1 then some (some (true, i)) else none
    | none => none
  | 0x39 => match s.memOf h with
    | some i =>
      let m := s.mobj i
      if m.typ == 3 && m.owner == ctx && !m.destroy && m.cnt < 2 ^ 32 - 1 then some (some (false, i)) else none
    | none => none
  | 0x30 | 0x31 =>
    if hKind h == 6 && hIdx h < 1056 && hIdx h / 16 == ctx && hGen h == (s.ctx ctx).gen then some none else none
  | _ => some none

/-- Take one descriptor reference. -/
def takeRef (r : Bool × Nat) : Act :=
  if r.1 then modFence r.2 fun f => { f with descRefs := f.descRefs + 1 }
  else modMobj r.2 fun m => { m with descRefs := m.descRefs + 1 }

/-! ### Taking (R157, R171, R172, R187, R458) -/

/-- The current descriptor right after its take, with the status it completes with at once, if any. -/
def takenCur (idx : Nat) (d : List Word) (now : WTime) (off : Nat) (refs : List (Bool × Nat)) (st : Option Nat) : Cur :=
  let s0 := if dClass d == 2 then dWhen d else now
  ⟨idx, d, s0, wtAdd s0 (dDeadline d), now, off, match st with | some x => .done x | none => .ready, false, refs, none, 0,
    off != 0, 0, 0, now, 0, none⟩

/-- Transfers that move LENGTH bytes piece by piece, and complete at the take when there is nothing to move (R187). -/
def isMoveOp (op : Nat) : Bool := op == 0x01 || op == 0x02 || op == 0x03 || op == 0x04

/-- Take a fetched copy as the current descriptor. -/
def take (c idx : Nat) (d : List Word) : Act := .ask fun s =>
  let x := s.chan c
  let off := match x.run with
    | some r => r.resume.getD 0
    | none => 0
  let resumed := match x.run with
    | some r => r.resume.isSome
    | none => false
  let begin_ := fun (cu : Cur) => modChan c fun x =>
    { x with run := x.run.map (fun r => { r with
               cur := some cu, resume := none, tier := classTier (dClass cu.words), l := cu.l }),
             copies := x.copies.tail, resValid := if resumed then false else x.resValid }
  match takeCheck s.self x.ctx x.base x.count idx d with
  | some st => begin_ { takenCur idx d s.now 0 [] (some st) with addr := if opSel (dSrc d) > 2 then dSrc d else dDst d }
  | none =>
    if x.paceEn && isTransferOp (dOp d) && x.pace == 0 then parkChan c .pace
    else match s.handleOf x.ctx d with
      | none => begin_ (takenCur idx d s.now 0 [] (some stBAD_HANDLE))
      | some ref =>
        let nothing := (off != 0 && off ≥ dLen d && isTransferOp (dOp d)) || (isMoveOp (dOp d) && dLen d == 0)
        acts [
          forSome ref takeRef,
          when_ (x.paceEn && isTransferOp (dOp d)) (modChan c fun x => { x with pace := x.pace - 1 }),
          begin_ (takenCur idx d s.now off ref.toList (if nothing then some stDONE else none)),
          when_ (!nothing && dClass d == 2 && off == 0) (acts [
            parkChan c .class2,
            if s.pastWhen (dWhen d) then lampArm c s.now true else lampArm c (dWhen d) false])]

/-! ### Finishing (R174, R176) -/

/-- Issue the flush read behind the last host write of the chain. -/
def flushRead (c : Nat) : Act := .ask fun s =>
  match (s.chan c).run.bind (·.hostWrote) with
  | none => .skip
  | some a => acts [
      modCur c fun d => { d with phase := .flush }, raiseRead ⟨.flush c, a / 4 * 4, 4, false, false, s.engReq c 1, none⟩]

/-- The current descriptor has met its completion condition: it completes, after the flush that FENCE_NEXT asks for; a bite
that waited for an operation acts now (R216, R268). -/
def settle (c : Nat) : Act := .ask fun s =>
  forSome (s.cur c) fun d =>
    match d.phase with
    | .done st =>
      let nxt := dNext d.words
      if (s.chan c).bitten then faultChan c stSNUFFED d.off
      else if dFenceNext d.words && (s.chan c).stopPend != 3 then
        match (s.chan c).run.bind (·.hostWrote) with
        | some _ => acts [flushOf c, modCur c fun d => { d with after := some st }, flushRead c]
        | none => acts [flushOf c, finishDesc c st nxt]
      else finishDesc c st nxt
    | _ => .skip

/-- Frames of a channel's EMIT have been sent and are not answered. -/
def State.emitOut (s : State) (c : Nat) : Bool :=
  (List.range 8).any (fun l =>
    let x := s.lane l
    (match x.tx with
      | some t => t.1.ofChan c
      | none => false) || x.unacked.any (·.ofChan c) || x.resend.any (·.ofChan c) || x.aborted.any (·.ofChan c))

/-- A channel's PMB_XFER waits for its bus or runs on it. -/
def State.onBus (s : State) (c : Nat) : Bool :=
  (List.range 4).any (fun p => (s.pmbp p).user == some (.chan c)) ||
  (match s.cur c with
    | some d => d.phase == .bus
    | none => false)

/-- A HALT waits for the end of what is in progress (R262). -/
def State.haltWaits (s : State) (c : Nat) : Bool := s.emitOut c || s.onBus c || s.atomicBusy c

/-- A HALT of a channel that is QUEUED or PARKED acts, once a descriptor that has met its condition has completed (R261, R262,
R277). -/
def haltIdle (c : Nat) : Act :=
  let idle := fun (x : Chan) => x.stopPend == 2 && (x.st == .queued || x.st == .parked) && x.run.isSome
  acts [
    .ask fun s => when_ (idle (s.chan c)) (settle c),
    .ask fun s =>
      let done := match s.cur c with
        | some d => (match d.phase with
          | .done _ => true
          | _ => false)
        | none => false
      when_ (idle (s.chan c) && !s.haltWaits c && !done) (haltAt c (s.resumePlace c).1 (s.resumePlace c).2)]

/-- What a stop or a bite waited for has ended: it goes on (R216, R262, R268). -/
def settleStop (c : Nat) : Act := acts [
  .ask fun s => when_ ((s.chan c).stopPend ≥ 2 || (s.chan c).bitten) (settle c), haltIdle c]

/-- A descriptor whose translation or host read has ended goes on. -/
def renew (c : Nat) : Act := .ask fun s =>
  forSome (s.cur c) fun d =>
    let idle := match d.phase with
      | .walk => !s.walking (.chan c)
      | .hostData => !(s.host.reads.any (fun r => !r.dead && r.purpose == .data c) || s.host.waits.any (·.purpose == .data c))
      | _ => false
    when_ idle (modCur c fun d => { d with phase := .ready })

/-- A take that failed completes its descriptor at once and makes no access (R157). -/
def takeFailed (c : Nat) : Act := .ask fun s =>
  match s.cur c with
  | some d => match d.phase with
    | .done st => when_ (st != stDONE) (finishDesc c st (dNext d.words))
    | _ => .skip
  | none => .skip

end Sys2Proof.Machine
end

