-- ==== Sys2Proof/Machine/Grants.lean ====
section
/-!
DEFINITION. Dispatch grants: what a channel's dispatch request carries and when it is raised (R209, R210), how long a grant
lasts (R201, R207, R208), and the frame that every descriptor's row shares.
-/

namespace Sys2Proof.Machine

/-! ### Frame credits of a lane (R234, R420) -/

/-- Credits of a phase controller. -/
def Lane.credit (x : Lane) (pc : Nat) : Nat := SMap.get 4 x.credits pc

/-- EMIT frames outstanding at a phase controller: started, and neither acknowledged nor refunded (R234). -/
def Lane.emitOut (x : Lane) (pc : Nat) : Nat :=
  let fs := (x.tx.toList.map Prod.fst ++ x.unacked ++ x.resend).filter (fun f => f.pc == pc && (match f.who with
    | .emit .. => true
    | _ => false))
  (fs.map (·.seq)).eraseDups.length

/-- An EMIT frame may start: its phase controller has a credit, and at most two are EMIT frames' (R234). -/
def Lane.emitCan (x : Lane) (pc : Nat) : Bool := 1 ≤ x.credit pc && x.emitOut pc < 2

/-- Frames of an EMIT (R161). -/
def emitCount (d : List Word) : Nat := if dLen d == 0 then 1 else dLen d / max (bits (dOps d 0) 16 5) 1

/-- Lane, phase controller and frame length that an EMIT names. -/
def emitLane (d : List Word) : Nat := bits (dDst d) 4 3
def emitPc (d : List Word) : Nat := bits (dDst d) 0 4
def emitLen (d : List Word) : Nat := bits (dOps d 0) 16 5

/-- An EMIT has a credit for its next frame, or its phase controller is gone (R209, R433). -/
def State.emitReady (s : State) (d : List Word) : Bool :=
  (s.lane (emitLane d)).emitCan (emitPc d) || (s.lane (emitLane d)).st != .trained || !bitAt (s.lane (emitLane d)).pcs (emitPc d)

/-! ### Dispatch requests (R209, R210) -/

/-- The values a channel's dispatch request carries (R210).  One whose next index lies outside its block has no descriptor
to take them from: tier 3 and L = Q (DESIGN CHOICE, log 83). -/
def State.chanRank (s : State) (c : Nat) : Rank :=
  let x := s.chan c
  let r := x.run.getD (Run.start 0 none s.now)
  match r.cur, x.copies with
  | some d, _ => ⟨classTier (dClass d.words), d.l, r.i, c⟩
  | none, (_, d) :: _ =>
    ⟨classTier (dClass d), wtAdd (if dClass d == 2 then dWhen d else r.q) (dDeadline d), r.i, c⟩
  | none, [] => ⟨3, r.q, r.i, c⟩

/-- The channel can make progress: it raises its dispatch request (R131, R209, R210, R281, R324). -/
def State.canGo (s : State) (c : Nat) : Bool :=
  let x := s.chan c
  x.park == .none && x.stopPend < 3 && !x.bitten && match x.run with
  | none => false
  | some r => match r.cur with
    | some d => match d.phase with
      | .lane | .frame | .bus => false
      | .ready => dOp d.words != 0x10 || s.emitReady d.words
      | _ => true
    | none => !x.copies.isEmpty || !x.inBlock r.next

/-- The channels that ask an engine for a grant. -/
def State.asking (s : State) (e : Nat) : List (Nat × Rank) :=
  (s.chanList.filter (fun c => (s.chan c).st == .queued && bitAt (s.chan c).engines e && s.canGo c)).map
    (fun c => (c, s.chanRank c))

/-- An event lets requests be raised that were not: their issue time is the present (R201). -/
def raised (a : Act) : Act := .ask fun s0 => acts [a, .ask fun s => forEach s.chanList fun c =>
  when_ ((s.chan c).st == .queued && (s0.chan c).st == .queued && s.canGo c && !s0.canGo c)
    (modRun c fun r => { r with i := s.now })]

/-! ### The length of a grant (R201, R208) -/

/-- Burst limit of a descriptor in bytes: under the cap in force when the grant was made (R208). -/
def State.burstBytes (s : State) (c : Nat) (d : List Word) : Nat :=
  let e := s.engine (s.chan c).engine
  32 * max 1 (min (if dBurst d == 0 then (s.chan c).burst else dBurst d)
    (if e.chan == some c then e.cap else s.fld F.ARB_BURST_CAP))

/-- The channel has moved its burst limit since its grant, or has met a burst boundary of R185. -/
def State.grantSpent (s : State) (c : Nat) : Bool :=
  let moved := (s.engine (s.chan c).engine).moved
  match s.cur c, (s.chan c).copies with
  | some d, _ => s.burstBytes c d.words ≤ moved
  | none, (_, d) :: _ => s.burstBytes c d ≤ moved
  | none, [] => 32 * 255 ≤ moved

/-- Bytes that the channel's engine has moved under its grant. -/
def movedBytes (c n : Nat) : Act := .ask fun s =>
  when_ ((s.engine (s.chan c).engine).chan == some c) (modEngine (s.chan c).engine fun x => { x with moved := x.moved + n })

/-- A control or wait descriptor has been performed: a burst boundary (R185). -/
def spendGrant (c : Nat) : Act := movedBytes c (32 * 255)

/-- A grant begins: its count, its cap and the Snuffer's count start (R208, R215). -/
def grantBegin (e c : Nat) : Act := .ask fun s => modEngine e fun x =>
  { x with chan := some c, granted := s.clk, excused := 0, moved := 0, cap := s.fld F.ARB_BURST_CAP }

/-- The grant has ended at its limit and the owner, which alone asks, is granted again as a continuing request (R201, R204). -/
def regrant (c : Nat) : Act := .ask fun s => acts [
  modRun c fun r => { r with i := s.now }, lateGrant (s.chanRank c).l 1, grantBegin (s.chan c).engine c]

/-- A channel goes on under its grant; at its limit only while no other asks its engine: else BURST_LIMIT_EXPIRY comes first. -/
def underGrant (c : Nat) (k : Act) : Act := .ask fun s =>
  if !s.grantSpent c then k
  else when_ (s.asking (s.chan c).engine).isEmpty (.seq (regrant c) k)

/-! ### A descriptor's row -/

/-- The channel runs and an opcode's row may act on it: its finished descriptor completes first, and a fetched copy of
that opcode, or of no listed opcode, is taken. -/
def opRow (c op : Nat) (body : Act) : Act := acts [
  settle c,
  .ask fun s => when_ ((s.chan c).st == .running) <| underGrant c <| acts [
    .ask fun s =>
      let x := s.chan c
      match x.run, x.copies with
      | some r, (i, d) :: _ =>
        when_ (x.st == .running && r.cur.isNone && i == r.next && x.stopPend != 2 && (dOp d == op || !opListed (dOp d)))
          (acts [take c i d, takeFailed c])
      | _, _ => .skip,
    renew c,
    .ask fun s =>
      match s.cur c with
      | some d => when_ ((s.chan c).st == .running && dOp d.words == op && d.phase == .ready)
          (acts [body, when_ (!isTransferOp op) (spendGrant c)])
      | none => .skip]]

end Sys2Proof.Machine
end

