-- ==== Sys2Proof/Machine/Transfer.lean ====
section
/-!
DEFINITION. The data path of COPY, FILL, GATHER and SCATTER (R160, R207 to R209, R286), and the meanings of their
rows.  Bytes move in pieces: within a burst, a page, a host or peer request; a channel has one request outstanding.
-/

namespace Sys2Proof.Machine

/-! ### Accesses of a channel -/

/-- A channel's operand access to device memory (R169, Table PRT-1). -/
def State.chanAccess (s : State) (c : Nat) (d : List Word) (space addr len : Nat) (wr : Bool) : Access :=
  let n := (s.chan c).ctx
  ⟨ctxMid n, midClass (ctxMid n) false, dKey d, n, false, c, space, addr, len, wr⟩

/-- A range lies in the descriptor blocks of a context's own channels (R117). -/
def State.ownBlock (s : State) (ctx addr len : Nat) : Bool :=
  s.chans.any (fun e => e.2.st != .free && e.2.ctx == ctx && 64 * e.2.base ≤ addr && addr + len ≤ 64 * (e.2.base + e.2.count))

/-- An access of a channel faults: the place and the operand address are recorded (R270, R554). -/
def accessFault (c status off addr : Nat) : Act := acts [
  modCur c fun d => { d with addr := addr }, faultChan c status off]

/-- The outcome of an access to device memory: how many bytes may proceed, or what the first beat meets. -/
inductive Reach where
  | go (addr n : Nat)
  | fault (status : Nat)
  | refuse (a : Access) (cause region shade : Nat)
  | stall
  | view (entry : Nat)
  deriving DecidableEq, Repr

/-- A STAGE_MAP or STAGE_UNMAP in progress is to change a view entry of a context (R131). -/
def State.viewPending (s : State) (ctx entry : Nat) : Bool :=
  [s.jobScp, s.jobBar].any (fun j => match j with
    | some j => (match j.wait with
      | .viewSet n e _ => n == ctx && e == entry
      | _ => false)
    | none => false)

/-- View, block limit and protection check of an access of at most n bytes at an operand address (R117, R129, R310). -/
def State.reach (s : State) (c : Nat) (d : List Word) (sel adr n : Nat) (wr : Bool) : Reach :=
  let ctx := (s.chan c).ctx
  let place := if sel == 1 then s.viewAddr ctx adr wr else .inl adr
  if sel == 1 && !isDevCtx ctx && s.viewPending ctx (adr / 4096) then .view (adr / 4096)
  else match place with
  | .inr st => .fault st
  | .inl a =>
    if sel == 2 && !isDevCtx ctx && !s.ownBlock ctx a n then .fault stPROT_FAULT
    else
      let acc := s.chanAccess c d (sel - 1) a n wr
      match s.firstRefused acc with
      | none => .go a n
      | some (0, .refuse cause region shade) => .refuse (acc.beatAt 0) cause region shade
      | some (0, _) => .stall
      | some (k, _) => .go a k

/-- Bytes of one piece at an operand address: within a page, a host read request, a stripe of a staging bank, an object-store
line for a user context, or a peer packet (R129, R286, R480, R510). -/
def State.pieceLen (s : State) (c sel adr n : Nat) : Nat :=
  if sel == 7 then min n 64
  else if sel == 0 then min n (min (toBoundary adr 4096) (toBoundary adr s.mrrsBytes))
  else if sel == 1 then min n (toBoundary adr 512)
  else if !isDevCtx (s.chan c).ctx then min n (toBoundary adr 64)
  else min n (toBoundary adr 4096)

/-- What a channel's operand requests carry (R202, R208). -/
def State.operandReq (s : State) (c : Nat) (d : List Word) : FReq := s.engReq c (s.burstBytes c d / 32)

/-- The leaf that maps an address of a channel's context. -/
def State.leafOf (s : State) (c adr : Nat) : Option Tlb := s.tlb.find? (·.maps (s.chan c).ctx adr)

/-- An operand access meets a miss: its channel waits for the walk. -/
def walkFor (c : Nat) (adr : Nat) (write : Bool) : Act := .ask fun s => acts [
  modCur c fun d => { d with phase := .walk }, startWalk (.chan c) (s.chan c).ctx adr write (s.engReq c 1)]

/-- An operand access waits for its view entry (R131). -/
def viewWait (c entry : Nat) : Act := .ask fun s => stallChan c (.view (s.chan c).ctx entry)

/-- A beat of an operand stalls at the disabled protection unit (R323, R324). -/
def beatStall (c full : Nat) : Act := acts [modCur c fun d => { d with addr := full }, stallChan c .stall]

/-- A MEM_RD or MEM_WR body (Table ZHN-4). -/
def memBody (a mid key tier : Nat) (l i : WTime) (len : Nat) (bs : List Byte) : List Byte :=
  leBytes 4 (bits a 0 24 + bits a 40 8 * 2 ^ 24) ++ leBytes 1 mid ++ leBytes 1 (key + 16 * tier) ++ leBytes 6 l.toNat ++
    leBytes 6 i.toNat ++ leBytes 1 len ++ bs

/-- Send a peer access of a channel; an absent peer ends it with ABORTED (R510, R511). -/
def peerAccess (c : Nat) (d : Cur) (full n : Nat) (wr : Option (List Byte)) : Act := .ask fun s =>
  let a := opAddr full
  let p := bits a 48 2
  let ctx := (s.chan c).ctx
  if (s.peer p).route.isNone then accessFault c stABORTED d.off full
  else acts [
    modCur c fun d => { d with phase := .peer, sent := n },
    zForward p (if wr.isSome then 0x11 else 0x10) (!isDevCtx ctx) (if wr.isSome then .wr c else .rd c)
      (memBody a (ctxMid ctx) (dKey d.words) (classTier (dClass d.words)) d.l s.now n (wr.getD [])),
    forSome (s.peer p).route fun r => acts [portBeat (s.operandReq c d.words) (0x23 + r.1), lateGrant d.l 1]]

/-! ### Reading one piece -/

/-- Read up to n bytes at an operand address into the current descriptor. -/
def readPiece (c : Nat) (d : Cur) (full n : Nat) : Act := .ask fun s =>
  let sel := opSel full
  let adr := opAddr full
  let k := s.pieceLen c sel adr n
  if sel == 7 then peerAccess c d full k none
  else if sel == 0 then
    match s.xlate (s.chan c).ctx adr false with
    | .fault => accessFault c stXLATE_FAULT d.off full
    | .miss => walkFor c adr false
    | .hit phys ns => acts [
        modCur c fun d => { d with phase := .hostData, addr := full },
        raiseRead ⟨.data c, phys, k, s.dataRO, ns || dNoSnoop d.words, s.operandReq c d.words, s.leafOf c adr⟩]
  else match s.reach c d.words sel adr k false with
    | .go a m => acts [
        touchRead (s.operandReq c d.words) (some (s.chan c).engine) (sel - 1) a m,
        .ask fun s => modCur c fun d => { d with data := some (s.cohBytes (sel - 1) a m) }]
    | .fault st => accessFault c st d.off full
    | .refuse acc cause region shade => acts [protCapture acc cause region shade, accessFault c stPROT_FAULT d.off full]
    | .stall => beatStall c full
    | .view e => viewWait c e

/-! ### Writing one piece -/

/-- k bytes of the current descriptor's data have been issued. -/
def wrote (c k : Nat) : Act := acts [
  modCur c fun d =>
    let rest := (d.data.getD []).drop k
    { d with off := d.off + k, data := if rest.isEmpty then none else some rest },
  addBytes c k, movedBytes c k]

/-- Write the first bytes in hand to an operand address. -/
def writePiece (c : Nat) (d : Cur) (full n : Nat) (bs : List Byte) : Act := .ask fun s =>
  let sel := opSel full
  let adr := opAddr full
  let k := s.pieceLen c sel adr n
  let eng := (s.chan c).engine
  if sel == 7 then peerAccess c d full k (some (bs.take k))
  else if sel == 0 then
    match s.xlate (s.chan c).ctx adr true with
    | .fault => accessFault c stXLATE_FAULT d.off full
    | .miss => walkFor c adr true
    | .hit phys ns => acts [
        postWrite (s.operandReq c d.words) .data phys (bs.take k) s.dataRO (ns || dNoSnoop d.words) (s.chan c).ctx,
        modRun c fun r => { r with hostWrote := some phys },
        wrote c k]
  else match s.reach c d.words sel adr k true with
    | .go a m => acts [engineWrite (s.operandReq c d.words) eng (sel - 1) a (bs.take m), dropCopies c (sel - 1) a m, wrote c m]
    | .fault st => accessFault c st d.off full
    | .refuse acc cause region shade => acts [protCapture acc cause region shade, accessFault c stPROT_FAULT d.off full]
    | .stall => beatStall c full
    | .view e => viewWait c e

/-! ### The loop -/

/-- Operand address of byte offset `off` (R160). -/
def srcAt (d : List Word) (off : Nat) : Nat :=
  if dOp d == 0x03 then dSrc d + off / max (dOps d 0) 1 * dStride d + off % max (dOps d 0) 1 else dSrc d + off
def dstAt (d : List Word) (off : Nat) : Nat :=
  if dOp d == 0x04 then dDst d + off / max (dOps d 0) 1 * dStride d + off % max (dOps d 0) 1 else dDst d + off

/-- Bytes left in the present block of a strided operand. -/
def blockLeft (strided : Bool) (d : List Word) (off n : Nat) : Nat :=
  if strided then min n (dOps d 0 - off % max (dOps d 0) 1) else n

/-- Byte k of a FILL (R160). -/
def fillByte (d : List Word) (k : Nat) : Byte := BitVec.ofNat 8 (dw64 d 12 / 2 ^ (8 * (k % 2 ^ bits (dOps d 2) 0 2)))

/-- Bytes of DST from `off` on that overlap SRC while DST lies above it: a COPY leaves them undefined (R160). -/
def undefinedBytes (d : List Word) (off n : Nat) : Nat :=
  if dOp d == 0x01 && opSel (dSrc d) == opSel (dDst d) && dSrc d < dDst d && dDst d < dSrc d + dLen d then
    min n (dSrc d + dLen d - dDst d - off)
  else 0

/-- Data to be written, with its undefined bytes replaced by free ones (log 6). -/
def withFree (c : Nat) (d : List Word) (off : Nat) (bs : List Byte) (k : List Byte → Act) : Act :=
  let u := undefinedBytes d off bs.length
  if u == 0 then k bs
  else drawFree fun f =>
    let bs' := (List.range u).map (fun i => Config.copyByte (f * 65536 + i)) ++ bs.drop u
    .seq (modCur c fun d => { d with data := some bs' }) (k bs')

/-- Move pieces while the burst budget and the grant last; the loop ends when a request must be waited for, the descriptor has
moved its bytes, or the channel stopped. -/
def move (c : Nat) : Nat → Act
  | 0 => .skip
  | fuel + 1 => .ask fun s =>
    match s.cur c with
    | none => .skip
    | some d =>
      if (s.chan c).st != .running || d.phase != .ready then .skip
      else
        let total := dLen d.words
        let bb := s.burstBytes c d.words
        match d.data with
        | some bs => acts [
            withFree c d.words d.off bs fun bs =>
              writePiece c d (dstAt d.words d.off) (blockLeft (dOp d.words == 0x04) d.words d.off bs.length) bs,
            .ask fun s2 => match s2.cur c with
              | some e => when_ (e.off != d.off && (e.off % bb == 0 || e.off ≥ total))
                  (modCur c fun e => { e with budget := e.budget - 1 })
              | none => .skip,
            move c fuel]
        | none =>
          if d.off ≥ total then descDone c stDONE
          else if d.budget == 0 || ((s.chan c).stopPend == 2 && d.off % bb == 0) then .skip
          else
            let n := min (total - d.off) (bb - d.off % bb)
            underGrant c <| .seq (if dOp d.words == 0x02 then
                modCur c fun e => { e with data := some ((List.range n).map (fun i => fillByte d.words (d.off + i))) }
              else readPiece c d (srcAt d.words d.off) (blockLeft (dOp d.words == 0x03) d.words d.off n))
              (move c fuel)

/-- Steps enough for some bursts: a piece is at least one byte. -/
def moveFuel (bursts : Nat) : Nat := 16400 * (bursts + 1)

/-- Go on moving. -/
def moveOn (c : Nat) : Act := .ask fun s =>
  match s.cur c with
  | some d => when_ (isMoveOp (dOp d.words)) (move c (moveFuel d.budget))
  | none => .skip

/-- A row of a moving opcode: up to some bursts. -/
def moveRow (c op bursts : Nat) : Act := .ask fun s => when_ (!s.pwr.off) <|
  opRow c op (acts [modCur c fun d => { d with budget := bursts }, moveOn c])

end Sys2Proof.Machine
end

