-- ==== Sys2Proof/Machine/Regs.lean ====
section
/-!
DEFINITION. What every register reads (R577 to R583, Table REG-7), window accesses (R94 to R99), sits on chairs
(R335, R337), and the reads of a path word by word, held by RS registers (R86, R93, R589).
-/

namespace Sys2Proof.Machine

/-! ### Chairs as registers show them (Table CHR-4) -/

/-- Whether a table admits a context and the parties of its MID (R332). -/
def State.admits (s : State) (t ctx : Nat) : Bool :=
  if ctx == 0 then s.tab t F.CHR_TAB_CFG_DRV == 1
  else if ctx == 64 then s.tab t F.CHR_TAB_CFG_BMC == 1
  else if ctx == 65 then s.tab t F.CHR_TAB_CFG_GOV == 1
  else s.tab t F.CHR_TAB_CFG_USER == 1 && (s.tab t F.CHR_TAB_CFG_USER_CTX == 0 || s.tab t F.CHR_TAB_CFG_USER_CTX == ctx)

/-- The word that a read of CHR_SIT[n] returns. -/
def State.chairWord (s : State) (n : Nat) : Nat :=
  let c := s.chair n
  if s.tabDown (n / 8) then 2 ^ 13 + 2 ^ 12 * b2n (!c.waiters.isEmpty)
  else if s.tabRemote (n / 8) then SMap.get 0 s.zhn.mirror n
  else (if c.held then c.mid + 2 ^ 8 * c.peer + 2 ^ 10 + 2 ^ 16 * c.tag else 0) + 2 ^ 11 * b2n c.abandoned +
    2 ^ 12 * b2n (!c.waiters.isEmpty)

/-- A pair owns a chair (R331); nobody owns a chair of a DOWN table (R345). -/
def State.owns (s : State) (n peer mid : Nat) : Bool :=
  if s.tabDown (n / 8) then false
  else if s.tabRemote (n / 8) then
    let w := SMap.get 0 s.zhn.mirror n
    bitAt w 10 && bits w 0 8 == mid && bits w 8 2 == peer
  else (s.chair n).held && (s.chair n).peer == peer && (s.chair n).mid == mid

/-- Tell every present peer a shared chair's state, at its home (R513). -/
def chairTell (n : Nat) : Act := .ask fun s =>
  when_ (s.tab (n / 8) F.CHR_TAB_CFG_SHARED == 1 && !s.tabRemote (n / 8)) <|
    forEach s.presentPeers fun p => zSend 0x32 p false 0 (leBytes 1 n ++ leBytes 4 (s.chairWord n))

/-- A master that a table does not admit (R341). -/
def chairDeny : Act := acts [event F.CHR_EVT_DENY, count F.CHR_CNT_REFUSED]

/-- A sit or a wait on a local chair: a free chair goes to it, else it changes nothing (R335); the
owner's own parked channels hold it too (R338). -/
def chairSit (n peer mid tag : Nat) : Act := .ask fun s =>
  let mine := fun (w : Sitter) => match w with
    | .chan c => peer == s.self && ctxMid (s.chan c).ctx == mid
    | _ => false
  let ws := (s.chair n).waiters
  when_ (!(s.chair n).held) <| acts [
    modChair n fun c => { c with
      held := true, peer := peer, mid := mid, tag := tag, waiters := ws.filter (fun w => !mine w.1) },
    chairTell n,
    forEach (ws.filter (fun w => mine w.1)) fun w => match w.1 with
      | .chan c => releaseWait c stDONE
      | _ => .skip]

/-- A path's CHR_WAIT read reaches the chair (R337): it takes the chair, waits, or is denied. -/
def chairWaitArrive (p : Path) (n : Nat) : Act := .ask fun s =>
  let t := n / 8
  if !s.admits t (pathCtx p) then chairDeny
  else if s.owns n s.self (pathMid p) then .skip
  else if s.tabDown t then modChair n fun c => { c with waiters := c.waiters ++ [(.path p, s.now)] }
  else if s.tabRemote t then acts [
      modChair n fun c => { c with waiters := c.waiters ++ [(.path p, s.now)] },
      zForward (s.tab t F.CHR_TAB_CFG_HOME) 0x30 false (.chairPath p n) (chrBody n 1 (pathMid p) 0 s.now)]
  else if (s.chair n).held then modChair n fun c => { c with waiters := c.waiters ++ [(.path p, s.now)] }
  else chairSit n s.self (pathMid p) 0

/-! ### The capability table (Table CTX-8) -/

/-- A mask of the lanes that are trained. -/
def State.trainedMask (s : State) : Nat :=
  (List.range 8).foldl (fun m l => if (s.lane l).st == .trained then m + 2 ^ l else m) 0

/-- Its records: ID and value. -/
def State.capRecords (s : State) : List (Nat × Nat) :=
  [(0x0001, 0x6408), (0x0002, 0x0B0), (0x0003, b2n Config.gradeE), (0x0010, 64), (0x0011, 1024), (0x0012, 256),
   (0x0013, 8192), (0x0014, 4096), (0x0015, 4096), (0x0016, 128 + 2 ^ 16 * 16), (0x0017, 512), (0x0018, 512),
   (0x0020, 0x200000), (0x0021, 0xC0000), (0x0022, 0x40000), (0x0023, 0x2000),
   (0x0030, s.presentMask + 2 ^ 4 * s.self), (0x0031, s.trainedMask)] ++
  (List.range 8).map (fun l => (0x0040 + l, (s.lane l).pcs)) ++
  [(0x0050, if s.linkUp then s.host.gen + 2 ^ 4 * s.host.width else 0)]

/-- A word of the capability table. -/
def State.capWord (s : State) (a : Nat) : Nat :=
  match s.capRecords[a / 16]? with
  | none => 0
  | some r => if a % 16 / 4 == 0 then r.1 + 2 ^ 16 * 4 else if a % 16 / 4 == 1 then r.2 else 0

/-! ### INIT (R525, R551) -/

/-- The bytes that the boot SPI master sends on BSPI_IO0: command, then address, most significant byte first (R527). -/
def Spi.sent (q : Spi) : List Byte := leBytes 1 q.cmd ++ (leBytes q.abytes q.addr).reverse

/-- Dummy clocks behind the address, and the IO lines that return data. -/
def Spi.dummy (q : Spi) : Nat := if q.cmd == 0x03 then 0 else 8
def Spi.lines (q : Spi) : Nat := if q.cmd == 0x6B then 4 else 1

/-- Core clocks of an SPI clock: 800 MHz / (2 (DIV + 1)), a DIV below 7 acting as 7. -/
def Spi.period (q : Spi) : Nat := 2 * (max 7 q.div + 1)

/-- Core clocks that a read takes from BSPI_CS# low to its last data bit. -/
def Spi.clocks (q : Spi) : Nat := (8 * q.sent.length + q.dummy + 8 * q.len / q.lines) * q.period

/-- Bytes of a flash address, as BOOT_SRC selects (Table BOOT-4). -/
def State.flashAddr (s : State) : Nat := if s.straps.bootSrc == 1 then 4 else 3

/-- Start a load from flash: the header is read with command 0x03 at DIV 31 (R528, R542). -/
def flashLoad : Act := .ask fun s => acts [
  put F.BOOT_STAT_PHASE 1, put F.BOOT_STAT_SRC 0, put F.BOOT_STAT_TRIES (min 3 (s.fld F.BOOT_STAT_TRIES + 1)),
  put F.BOOT_STAT_ERR 0, put F.BOOT_STAT_ERR_SECT 0, 
  modBoot fun b => { b with
    headerOk := false, waitAt := 0, started := true, spi := some ⟨0x03, s.flashAddr, 0, 31, 64, s.clk⟩ }]

/-- INIT: memories and shades are zeroed, the RESET entry is posted, and the load that the straps select starts.  The
object tables are as the reset leaves them (R118, R121). -/
def initGo : Act := .ask fun s => when_ (!s.pwr.off && !s.boot.inited) <| acts [
  advanceTo (s.boot.resetEnd + usClocks 10),
  .upd (.wipe .stag), .upd (.wipe .objs), .upd (.wipe .lanemem), .upd (.wipe .shades),
  put F.BOOT_STAT_LAST_RESET s.boot.kind,
  modBoot fun b => { b with inited := true },
  postPlain 0x01 17 s.boot.kind 0,
  when_ (!s.pfHeld) (if s.straps.bootSrc ≤ 1 then flashLoad else put F.BOOT_STAT_PHASE 5)]

/-! ### Windows -/

/-- Bytes in a window space; 0 for none (Table SCP-4). -/
def winSize (space : Nat) : Nat :=
  match space with
  | 1 => 0xC0000 | 2 => 0x200000 | 3 => 0x1000 | 4 => 0x2000 | 5 => 0x40000 | _ => 0

/-- A window access faults: the first fault is captured (R98). -/
def winFault (p : Path) (cause : Nat) : Act := .ask fun s =>
  let i := pathInst p
  when_ (s.fldI i F.WIN_CTL_FAULT == 0) <| acts [
    putI i F.WIN_FAULT_ADDR (s.fldI i F.WIN_ADDR_ADDR), putI i F.WIN_FAULT_CAUSE cause, eventI i F.WIN_CTL_FAULT]

/-- WIN_ADDR advances under INC (R95). -/
def winAdvance (p : Path) : Act := .ask fun s =>
  let i := pathInst p
  when_ (s.fldI i F.WIN_CTL_INC == 1) (putI i F.WIN_ADDR_ADDR (s.fldI i F.WIN_ADDR_ADDR + 4))

/-- A window access to device memory as the protection unit sees it (R96). -/
def State.winAccess (s : State) (p : Path) (wr : Bool) : Access :=
  let i := pathInst p
  ⟨pathMid p, midClass (pathMid p) false, s.fldI i F.WIN_CTL_KEY, 0, false, 0xFF,
    if s.fldI i F.WIN_CTL_SPACE == 2 then 0 else 1, s.fldI i F.WIN_ADDR_ADDR / 4 * 4, 4, wr⟩

/-- A window access to staging or the object store before INIT has ended: it is held (R525). -/
def State.winEarly (s : State) (p : Path) : Bool :=
  !s.boot.inited && (s.fldI (pathInst p) F.WIN_CTL_SPACE == 1 || s.fldI (pathInst p) F.WIN_CTL_SPACE == 2)

/-- Read the word at WIN_ADDR, then go on with it (R95 to R98). -/
def winRead (p : Path) (k : Word → Act) : Act := .ask fun s =>
  let i := pathInst p
  let sp := s.fldI i F.WIN_CTL_SPACE
  let a := s.fldI i F.WIN_ADDR_ADDR / 4 * 4
  if winSize sp == 0 then acts [winFault p 1, winAdvance p, k 0]
  else if a ≥ winSize sp then acts [winFault p 2, winAdvance p, k 0]
  else if sp == 1 || sp == 2 then
    let acc := s.winAccess p false
    match s.protCheck acc with
    | .refuse cause region shade => acts [protCapture acc cause region shade, winFault p 4, winAdvance p, k 0]
    | _ => acts [touchRead (s.windowReq p) none acc.space a 4, winAdvance p,
        .ask fun s => k (BitVec.ofNat 32 (ofLe (s.cohBytes acc.space a 4)))]
  else acts [winAdvance p, k (BitVec.ofNat 32 (if sp == 3 then s.capWord a
      else if sp == 4 then s.readLe .errq a 4 else s.readLe .trace a 4))]

/-! ### Shades and other composed registers -/

/-- Granules of the space PRT_SHD_ADDR names. -/
def State.shdSpace (s : State) : Nat := if s.flag F.PRT_SHD_ADDR_SPACE then 12288 else 32768

/-- The first granule of the group PRT_SHD_DATA reads and writes, as a shade index; none past the end (R315). -/
def State.shdGroup (s : State) : Option Nat :=
  let g := s.fld F.PRT_SHD_ADDR_GRAN / 8 * 8
  if s.fld F.PRT_SHD_ADDR_GRAN < s.shdSpace then some (g + if s.flag F.PRT_SHD_ADDR_SPACE then 32768 else 0) else none

/-- GRAN moves on by 8 (R315). -/
def shdAdvance : Act := .ask fun s =>
  when_ s.shdGroup.isSome (put F.PRT_SHD_ADDR_GRAN (s.fld F.PRT_SHD_ADDR_GRAN + 8))

/-- Put a block (base, count) among blocks in the order of their bases. -/
def addBlock (b : Nat × Nat) : List (Nat × Nat) → List (Nat × Nat)
  | [] => [b]
  | x :: rest => if b.1 ≤ x.1 then b :: x :: rest else x :: addBlock b rest

/-- Descriptors owned by channels, as intervals in ascending order of base. -/
def State.descBlocks (s : State) : List (Nat × Nat) :=
  ((s.chans.filter (fun e => e.2.st != .free)).map (fun e => (e.2.base, e.2.count))).foldr addBlock []

/-- Free runs of the descriptor store: base and length (R139, Table STG-4). -/
def freeRuns : Nat → List (Nat × Nat) → List (Nat × Nat)
  | at_, [] => if at_ < 8192 then [(at_, 8192 - at_)] else []
  | at_, (b, n) :: rest => (if at_ < b then [(at_, b - at_)] else []) ++ freeRuns (max at_ (b + n)) rest

/-- A pool granule is being scrubbed. -/
def State.scrubbing (s : State) (g : Nat) : Bool := s.cup.scrub.any (fun r => r.1 ≤ g && g < r.1 + r.2)

/-- Granules passed to the scrubber. -/
def State.scrubCount (s : State) : Nat := (s.cup.scrub.map Prod.snd).sum

/-- Granules of live Cupboard allocations. -/
def State.cupHeld (s : State) : List (Nat × Nat) :=
  s.mems.flatMap (fun e => if e.2.live && e.2.typ == 3 then s.cupRanges e.2 else [])

/-- Lanes armed now (07 Model). -/
def State.armedMask (s : State) : Nat :=
  (List.range 8).foldl (fun m l =>
    if s.flag F.KND_CTL_ARM && bitAt (s.fld F.KND_LANE_ARM_ARM) l && (s.lane l).st == .trained &&
      s.flag F.KND_STAT_ACTIVE_VALID then m + 2 ^ l else m) 0

/-- The power state (Table BOOT-7). -/
def State.pwrState (s : State) : Nat :=
  if s.pwr.standby then 3
  else if s.fld F.BOOT_STAT_PHASE != 4 then 0
  else if s.host.fr then 2
  else 1

/-- PEL_ROUTE's four bits of a peer. -/
def State.routeBits (s : State) (p : Nat) : Nat :=
  if p == s.self then 0
  else match (s.peer p).route with
    | some (port, hops) => hops + 4 * port + 8
    | none => 0

/-- The live queue of context 64 in a doorbell slot. -/
def State.slotQueue (s : State) (ctx slot : Nat) : Option Nat :=
  (s.queues.find? (fun e => e.2.live && e.2.ctx == ctx && e.2.slot == slot)).map Prod.fst

/-- What CHR_WAIT and CHR_SIT cover: the chair of an offset. -/
def chairOfOff (off : Nat) : Option Nat :=
  if 0x400 ≤ off && off < 0x800 then some ((off - 0x400) / 4 % 128) else none

/-- Pin wick levels as a mask. -/
def State.pinLevels (s : State) : Nat :=
  (List.range 64).foldl (fun m w => if (s.wick w).level then m + 2 ^ w else m) 0

/-- Live bits and fields of DEV, CHR and CTX registers that a read composes. -/
def State.readDev (s : State) (off : Nat) : Option Nat :=
  let w := (s.word 0 off).toNat
  match off with
  | 0x008 => some (b2n Config.gradeE)
  | 0x010 => some (w / 8 * 8 + s.pwrState)
  | 0x024 => some (s.word (s.fld F.CHR_TAB_SEL_TABLE) 0x024).toNat
  | 0x040 => some (s.fld F.DEV_SQ_DB_SLOT * 2 ^ 16 +
      ((s.slotQueue 64 (s.fld F.DEV_SQ_DB_SLOT)).map (fun q => (s.queue q).sqTail)).getD 0)
  | 0x044 => some (s.fld F.DEV_CQ_DB_SLOT * 2 ^ 16 +
      ((s.slotQueue 64 (s.fld F.DEV_CQ_DB_SLOT)).map (fun q => (s.queue q).cqHead)).getD 0)
  | 0x074 => some (s.tagsFree + 2 ^ 16 * s.fld F.DEV_TAGS_LOW)
  | 0x078 =>
    let runs := freeRuns 0 s.descBlocks
    some ((runs.map Prod.snd).sum + 2 ^ 16 * (runs.map Prod.snd).foldl max 0)
  | 0x090 => some s.alertBits
  | _ => none

/-- Live fields of the wheel and Kindle blocks. -/
def State.readWheel (s : State) (off : Nat) : Option Nat :=
  let w := (s.word 0 off).toNat
  match off with
  | 0x18C => some s.wheel.statWord
  | 0x190 => some (s.now.toNat % 2 ^ 32)
  | 0x198 => some s.wheel.periodWord
  | 0x1A8 => some (s.lamp.entries.length + 2 ^ 16 * s.fld F.WHL_LL_HWM)
  | 0x204 => some (s.fld F.KND_LANE_ARM_ARM + 2 ^ 8 * s.armedMask)
  | 0x214 => some (w / 32 * 32 + w % 2 + 2 * b2n s.kindle.load.isSome + bits w 2 2 * 4 + 16 * b2n s.kindle.entry.isSome)
  | _ => none

/-- Live fields of the protection, Cupboard and fence blocks. -/
def State.readObj (s : State) (off : Nat) : Option Nat :=
  let w := (s.word 0 off).toNat
  let fi := s.fld F.FEN_SEL_INDEX
  let f := s.fence fi
  let mi := s.fld F.MEM_SEL_INDEX
  let m := s.mobj mi
  match off with
  | 0x2AC => some (match s.shdGroup with
      | some g => (List.range 8).foldl (fun v i => v + s.shadeOf (g + i) * 2 ^ (4 * i)) 0
      | none => 0)
  | 0x2B0 => some (w % 2 ^ 31 + 2 ^ 31 * b2n s.filling)
  | 0x2B8 => some (let c := s.fld F.PRT_CKEY_IDX_CTX
      if c == 0 then 0 else (s.word c 0x2B8).toNat)
  | 0x2C8 => some ((s.fld F.CUP_POOL_PAGES * 64 - (s.cupHeld.map Prod.snd).sum - s.scrubCount) % 2 ^ 16 +
      2 ^ 16 * (s.scrubCount % 2 ^ 16))
  | 0x2D8 => some (f.value.toNat % 2 ^ 32)
  | 0x2E0 => some ((if f.proxy then 0x7F else f.owner) + 2 ^ 8 * b2n f.destroy + 2 ^ 9 * b2n f.proxy + 2 ^ 10 * b2n f.broken +
      2 ^ 12 * (if f.proxy then f.home else if f.live then s.self else 0) + 2 ^ 16 * f.gen + 2 ^ 31 * b2n f.live)
  | 0x2E4 => some f.cnt
  | 0x2EC => some (m.owner + 2 ^ 8 * m.typ + 2 ^ 10 * b2n m.destroy + 2 ^ 16 * m.gen + 2 ^ 31 * b2n m.live)
  | 0x2F0 => some m.cnt
  | _ => none

/-- ERR_ENG.IDLE: the engine runs no channel and holds no host read tag (R563). -/
def State.engineIdle (s : State) (e : Nat) : Bool := (s.engine e).chan.isNone && s.engineTags e == 0

/-- Live fields of the governor, PMBus, wick, error and boot blocks. -/
def State.readMisc (s : State) (off : Nat) : Option Nat :=
  let w := (s.word 0 off).toNat
  let r := s.fld F.GOV_RAIL_SEL_RAIL
  match off with
  | 0x318 => some (s.word r 0x318).toNat
  | 0x31C => some (s.word r 0x31C).toNat
  | 0x320 => some ((s.word r 0x320).toNat / 32 * 32 + SMap.get 0 s.gov.phases r)
  | 0x32C => some (s.fld F.GOV_HIST_BIN + 2 ^ 16 * min (SMap.get 0 s.gov.shownHist (s.fld F.GOV_HIST_BIN)) 65535)
  | 0x348 => some (b2n (s.pmbp 0).user.isSome + 2 * b2n (s.pmbp 1).user.isSome + 4 * b2n (s.pmbp 0).alert +
      8 * b2n (s.pmbp 1).alert + 16 * b2n (s.pmbp 2).user.isSome + 32 * b2n (s.pmbp 3).user.isSome)
  | 0x384 =>
    let p := s.fld F.WCK_SEL_PIN
    some ((s.word p 0x384).toNat % 2 ^ 8 + 2 ^ 8 * b2n (s.wick p).parkEnd.isSome)
  | 0x388 => some (s.pinLevels % 2 ^ 32)
  | 0x38C => some (s.pinLevels / 2 ^ 32)
  | 0x398 => some (bits s.laneWicks 0 32)
  | 0x39C => some (bits s.laneWicks 32 32)
  | 0x3A0 => some (bits s.laneWicks 64 32)
  | 0x3A4 => some (bits s.laneWicks 96 32)
  | 0x3D4 => some (w % 2 ^ 4 + 2 ^ 8 * (List.range 4).foldl (fun v e => if s.engineIdle e then v + 2 ^ e else v) 0)
  | 0x980 => some (s.straps.bootSrc + 4 * b2n s.straps.master + 16 * s.straps.peerId)
  | 0x998 => some (b2n s.otp.hashEn + 2 * b2n s.otp.burning)
  | 0x9A0 =>
    let i := s.fld F.BOOT_OTP_SEL_WORD
    some (if i ≥ 12 then 0 else if s.otp.hashEn then (SMap.get 0 s.otp.words i).toNat else (SMap.get 0 s.otp.hold i).toNat)
  | _ => none

/-- This device is a wheel candidate (R505). -/
def State.wheelCand (s : State) : Bool := s.wheel.st == .master || (!s.flag F.WHL_CTL_SRC && s.wheel.st == .locked)

/-- The wheel head: the lowest MASTER, else the lowest candidate (R505). -/
def State.headNow (s : State) : Option Nat :=
  let has := fun (mine : Bool) (f : Peer → Bool) (p : Nat) =>
    if p == s.self then mine else (s.peer p).present && f (s.peer p)
  ((List.range 4).find? (has (s.wheel.st == .master) (·.master))) <|>
    ((List.range 4).find? (has s.wheelCand (fun p => p.master || p.cand)))

/-- Live fields of the host link and Zheyn blocks. -/
def State.readLink (s : State) (off : Nat) : Option Nat :=
  let w := (s.word 0 off).toNat
  let h := s.host
  let up := b2n s.linkUp
  match off with
  | 0x900 => some (up + 2 * b2n h.perst + 2 ^ 4 * (if s.linkUp then h.gen else 0) + 2 ^ 8 * (if s.linkUp then h.width else 0) +
      2 ^ 12 * b2n h.roEn + 2 ^ 13 * b2n h.tag10 + 2 ^ 14 * b2n h.extTag + 2 ^ 16 * h.mps + 2 ^ 20 * h.mrrs + 2 ^ 24 * b2n h.ptmEn)
  | 0x924 => some (w % 2 ^ 31 + 2 ^ 31 * b2n s.tlbInv.isSome)
  | 0x944 =>
    let ring := s.presentPeers.any (fun p => (s.peer p).seen0.isSome && (s.peer p).seen1.isSome)
    some (b2n s.zhn.p0.up + 2 * b2n s.zhn.p1.up + 16 * s.presentMask +
      256 * (if s.presentPeers.isEmpty then 0 else if ring then 2 else 1) +
      2 ^ 12 * s.headNow.getD 0 + 2 ^ 14 * b2n s.headNow.isSome)
  | 0x948 => some ((List.range 4).foldl (fun v p => v + s.routeBits p * 2 ^ (4 * p)) 0)
  | 0x94C => some (s.zhn.p0.delay8 % 65536)
  | 0x950 => some (s.zhn.p1.delay8 % 65536)
  | _ => none

/-- Live fields of a lane's registers (R441). -/
def State.readLane (s : State) (off : Nat) : Option Nat :=
  if 0x800 ≤ off && off < 0x900 && off % 32 == 4 then
    let l := s.lane ((off - 0x800) / 32)
    some (l.st.code + 2 ^ 8 * l.lastTurn + 2 ^ 16 * l.pcs)
  else none

/-- The path's bank of an offset: CMD, WIN and the latched registers (R582). -/
def bankOf (p : Path) (off : Nat) : Nat :=
  if (0x0C0 ≤ off && off < 0x180) || off == 0x194 || off == 0x2DC then pathInst p else 0

/-- The bits of a register that a read shows: write-only fields read 0 (R583). -/
def readMask (off : Nat) : Nat :=
  match regFind off with
  | none => 0
  | some r => r.flds.foldl (fun m f => if f.acc == .wo then m else m ||| fieldMask f.hi f.lo) 0

/-- The word a read of an offset returns, effects aside (R17, R577). -/
def State.readWord (s : State) (p : Path) (off : Nat) : Word :=
  match chairOfOff off with
  | some n => BitVec.ofNat 32 (s.chairWord n)
  | none =>
    let inst := bankOf p off
    let busy := b2n (match (match p with | .scp => s.jobScp | .bar0 => s.jobBar) with
      | some j => !j.discard
      | none => false)
    if off == 0x0DC || off == 0x0E0 then BitVec.ofNat 32 ((s.word inst 0x0DC).toNat / 2 * 2 + busy)
    else match s.readDev off <|> s.readWheel off <|> s.readObj off <|> s.readMisc off <|> s.readLink off <|> s.readLane off with
      | some v => BitVec.ofNat 32 v
      | none => s.word inst off &&& BitVec.ofNat 32 (readMask off)

/-! ### Reads of a path -/

/-- A path's port. -/
def State.port (s : State) (p : Path) : PathPort := match p with | .scp => s.scp | .bar0 => s.bar

/-- Change a path's port. -/
def modPort (p : Path) (f : PathPort → PathPort) : Act := match p with | .scp => modScp f | .bar0 => modBar f

/-- A path's mailbox command in progress. -/
def State.job (s : State) (p : Path) : Option Job := match p with | .scp => s.jobScp | .bar0 => s.jobBar

/-- CMD_STAT.BUSY: a command is in progress whose result is not discarded (R100, R110). -/
def State.busy (s : State) (p : Path) : Bool := match s.job p with | some j => !j.discard | none => false

/-- A word on the wire, most significant byte first (R78). -/
def wireWord (w : Word) : List Byte := (leBytes 4 w.toNat).reverse

/-- The requested bytes of the dwords a BAR read has read (R92). -/
def HeldRead.bytes (h : HeldRead) : List Byte := h.got.zipIdx.flatMap fun e =>
  let be := if e.2 == 0 then h.fbe else if e.2 + 1 == h.total then h.lbe else 15
  ((leBytes 4 e.1.toNat).zipIdx.filter (fun b => bitAt be b.2)).map Prod.fst

/-- The read has all its words: the control port replies START, data and data CRC; BAR0 completes (R82, R93). -/
def readDone (p : Path) : Act := modPort p fun x =>
  match x.held with
  | none => x
  | some h => match p with
    | .scp => { x with held := none, reply := [0x5A] ++ h.got.flatMap wireWord ++ leBytes 1 (crc8 (h.got.flatMap wireWord)) }
    | .bar0 => { x with held := none, cpls := [⟨0, h.bytes⟩] }

/-- A word of the read in progress has been read. -/
def gotWord (p : Path) (w : Word) : Act := modPort p fun x =>
  { x with held := x.held.map (fun h => { h with reg := none, got := h.got ++ [w] }) }

/-- The read in progress is held on a register from now on. -/
def holdRead (p : Path) (r : HeldReg) : Act := .ask fun s => modPort p fun x =>
  { x with held := x.held.map (fun h => { h with reg := some r, since := s.clk, issue := s.now }) }

/-- A dword of the MSI-X table and pending bit array (R472). -/
def State.msixWord (s : State) (a : Nat) : Nat :=
  if 0x1000 ≤ a && a < 0x1410 then
    let e := s.msix ((a - 0x1000) / 16)
    match a % 16 / 4 with
    | 0 => e.addr % 2 ^ 32
    | 1 => e.addr / 2 ^ 32
    | 2 => e.data.toNat
    | _ => b2n e.masked
  else if 0x2000 ≤ a && a < 0x2010 then bits s.host.pend (8 * (a - 0x2000)) 32
  else 0

/-- The register read of one word with its effect, unless an RS register holds it (Table REG-4). -/
def readOne (p : Path) (off : Nat) : Act := .ask fun s =>
  let i := pathInst p
  let plain := gotWord p (s.readWord p off)
  if off == 0x190 then acts [putI i F.WHL_TIME_HI_TIME_HI (s.now.toNat / 2 ^ 32), plain]
  else if off == 0x2D8 then
    acts [putI i F.FEN_VAL_HI_VAL_HI ((s.fence (s.fld F.FEN_SEL_INDEX)).value.toNat / 2 ^ 32), plain]
  else if off == 0x108 then (if s.winEarly p then holdRead p .win else winRead p (gotWord p))
  else if off == 0x2AC then acts [plain, shdAdvance]
  else if off == 0x0E0 then (if s.busy p then holdRead p .cmdWait else plain)
  else if 0x600 ≤ off && off < 0x800 then
    let n := (off - 0x600) / 4
    if !s.admits (n / 8) (pathCtx p) || s.owns n s.self (pathMid p) then
      acts [chairWaitArrive p n, .ask fun s => gotWord p (s.readWord p off)]
    else acts [chairWaitArrive p n, .ask fun s =>
        if s.owns n s.self (pathMid p) then gotWord p (s.readWord p off) else holdRead p (.chrWait n)]
  else if 0xC00 ≤ off then gotWord p (BitVec.ofNat 32 (s.msixWord off))
  else plain

/-- Read the remaining words of a path's read until an RS register holds it. -/
def readGo (p : Path) : Nat → Act
  | 0 => .skip
  | fuel + 1 => .ask fun s =>
    match (s.port p).held with
    | none => .skip
    | some h =>
      if h.reg.isSome then .skip
      else if h.got.length ≥ h.total then readDone p
      else acts [readOne p (if h.fixed then h.off else h.off + 4 * h.got.length), readGo p fuel]

/-- Begin a read on a path (R86): its words, whether the address is fixed, and its byte enables. -/
def readStart (p : Path) (off total : Nat) (fixed : Bool) (fbe lbe : Nat) : Act := .ask fun s => acts [
  modPort p fun x => { x with held := some ⟨none, s.clk, s.now, off, total, fixed, fbe, lbe, []⟩, reply := [], cpls := [] },
  readGo p 18]

/-- The wait bytes of the clocks a read was held: a byte time is 128 core clocks (R82, R87; log 78). -/
def heldWaits (p : Path) (since : Nat) : Act := .ask fun s =>
  modPort p fun x => { x with waits := x.waits + (s.clk - since + 127) / 128 }

/-- The RS register that holds a path's read releases it: its word is read now and the read goes on. -/
def readRelease (p : Path) : Act := .ask fun s =>
  match (s.port p).held with
  | some h => match h.reg with
    | some .cmdWait => acts [heldWaits p h.since, gotWord p (s.readWord p 0x0E0), readGo p 18]
    | some (.chrWait n) => acts [heldWaits p h.since, gotWord p (s.readWord p (0x600 + 4 * n)), readGo p 18]
    | some .win => acts [heldWaits p h.since, winRead p (gotWord p), readGo p 18]
    | none => .skip
  | none => .skip

/-- A path's read is held on a register. -/
def State.heldOn (s : State) (p : Path) (r : HeldReg) : Bool :=
  match (s.port p).held with
  | some h => h.reg == some r
  | none => false

/-- INIT ends, and window reads held for it go on (R525). -/
def initAct : Act := acts [
  initGo,
  .ask fun s => when_ s.boot.inited (forEach [.scp, .bar0] fun p => .ask fun s =>
    when_ (s.heldOn p .win) (readRelease p))]

/-- Write a word at WIN_ADDR (R95 to R98). -/
def winWrite (p : Path) (v : Word) : Act := .seq (.ask fun s => when_ (s.winEarly p) initAct) <| .ask fun s =>
  let i := pathInst p
  let sp := s.fldI i F.WIN_CTL_SPACE
  let a := s.fldI i F.WIN_ADDR_ADDR / 4 * 4
  if winSize sp == 0 then acts [winFault p 1, winAdvance p]
  else if a ≥ winSize sp then acts [winFault p 2, winAdvance p]
  else if sp == 1 || sp == 2 then
    let acc := s.winAccess p true
    match s.protCheck acc with
    | .refuse cause region shade => acts [protCapture acc cause region shade, winFault p 4, winAdvance p]
    | _ => acts [otherWrite (s.windowReq p) acc.space a (leBytes 4 v.toNat), winAdvance p]
  else acts [winFault p 3, winAdvance p]

/-- A path's access that must not act: the device is off, or the host path is down. -/
def State.pathDead (s : State) (p : Path) : Bool := s.pwr.off || (p == .bar0 && !s.linkUp)

/-- The SCP_ALERT and SCP_HOSTMASK bit of an offset (Table REG-1). -/
def blockOf (off : Nat) : Option Nat :=
  if 0x020 ≤ off && off < 0x03C then some 13
  else if off < 0x080 then some 0 else if off < 0x0C0 then some 1 else if off < 0x100 then some 2
  else if off < 0x180 then some 3 else if off < 0x200 then some 4 else if off < 0x240 then some 5
  else if off < 0x280 then some 6 else if off < 0x2C0 then some 7 else if off < 0x300 then some 8
  else if off < 0x340 then some 9 else if off < 0x380 then some 10 else if off < 0x3C0 then some 11
  else if off < 0x400 then some 12 else if off < 0x800 then some 13 else if off < 0x900 then some 14
  else if off < 0x940 then some 15 else if off < 0x980 then some 16 else if off < 0x9C0 then some 17
  else if off < 0xA00 then some 18 else none

/-- SCP_HOSTMASK keeps BAR0 from writing an offset (R91). -/
def State.hostMasked (s : State) (p : Path) (off : Nat) : Bool :=
  p == .bar0 && (match blockOf off with
    | some b => bitAt (s.fld F.SCP_HOSTMASK_MASK) b
    | none => false)

/-- A host access waits behind the held BAR0 read (R93). -/
def barQueue (r : BarReq) : Act := modBar fun x => { x with behind := x.behind ++ [r] }

/-- A posted write waits behind the held BAR0 read, so that no BAR read may be answered before it (R474). -/
def State.writeWaits (s : State) : Bool := s.bar.behind.any (fun r => match r with
  | .wr .. => true
  | _ => false)

/-- A write of a path to an offset: it acts when the path lives and its block is not masked (R91); on BAR0 it waits behind a
held read (R93), and the BMC sends no frame while the control port holds one (R82). -/
def pathWrite (p : Path) (off : Nat) (v : Word) (act : Act) : Act := .ask fun s =>
  when_ (!s.pathDead p) <|
    if (s.port p).held.isSome then when_ (p == .bar0) (barQueue (.wr off v 15))
    else if s.hostMasked p off then acts [count F.SCP_CNT1_HOST_DENY, event F.SCP_EVT_HOST_DENY]
    else act

/-- A read of one word on a path (R93). -/
def pathRead (p : Path) (off : Nat) : Act := .ask fun s =>
  when_ (!s.pathDead p) <|
    if (s.port p).held.isSome then when_ (p == .bar0) (barQueue (.rd ⟨false, off, 1, 15, 15⟩))
    else readStart p off 1 false 15 15

end Sys2Proof.Machine
end

