-- ==== Sys2Proof/Machine/Chairs.lean ====
section
/-!
DEFINITION. Chairs: hand-over, gives, releases of a lost context, and the meanings of the chair rows (11).
-/

namespace Sys2Proof.Machine

/-! ### Hand-over (R339) -/

/-- The order among waiters of one issue time. -/
def Sitter.rank : Sitter → Nat
  | .path .scp => 0
  | .path .bar0 => 1
  | .gov => 2
  | .peer id _ _ => 3 + id
  | .chan c => 8 + c

/-- While a chair is abandoned only register reads are eligible (R342); a peer's waiter counts as one by its MID
(log 11). -/
def Sitter.eligible (abandoned : Bool) (w : Sitter) : Bool :=
  !abandoned || match w with
    | .path _ => true
    | .peer _ mid _ => mid == 0x01 || mid == 0x40
    | _ => false

/-- The taker with the earliest issue time. -/
def pickSitter (l : List (Sitter × WTime)) : Option (Sitter × WTime) :=
  l.foldl (fun best w => match best with
    | none => some w
    | some b => if wtBefore w.2 b.2 || (w.2 == b.2 && w.1.rank < b.1.rank) then some w else some b) none

/-- The pair a waiter acts with. -/
def State.sitterPair (s : State) (w : Sitter) : Nat × Nat :=
  match w with
  | .peer id mid _ => (id, mid)
  | w => (s.self, s.sitterMid w)

/-- A waiter learns that its pair owns the chair. -/
def sitterTold (n : Nat) : Sitter → Act
  | .path p => readRelease p
  | .gov => .skip
  | .peer id _ op => .ask fun s => zAnswer 0x31 id op (leBytes 1 n ++ leBytes 4 (s.chairWord n))
  | .chan c => releaseWait c stDONE

/-- A free chair passes to its first eligible waiter; every waiter of that pair holds it then (R338, R339). -/
def chairPass (n : Nat) : Act := .ask fun s =>
  let c := s.chair n
  when_ (!c.held) <|
    forSome (pickSitter (c.waiters.filter (fun w => w.1.eligible c.abandoned))) fun w =>
      let pr := s.sitterPair w.1
      let served := c.waiters.filter (fun x => s.sitterPair x.1 == pr)
      acts [
        modChair n fun c => { c with
          held := true, peer := pr.1, mid := pr.2, tag := 0, waiters := c.waiters.filter (fun x => s.sitterPair x.1 != pr) },
        chairTell n,
        forEach served fun x => sitterTold n x.1]

/-- A release of the Kindle chair fails a load in progress (R244, R343). -/
def kindleChairGone (n : Nat) : Act := .ask fun s =>
  when_ (s.kindle.load.isSome && s.kindle.loadChair == n && s.kindle.loadErr == 0)
    (modKindle fun k => { k with loadErr := 7 })

/-- So does a release at the home of a shared table, or its loss (R244, R343, R344). -/
def kindleChairCheck : Act := .ask fun s => forSome s.kindle.load fun mid =>
  when_ (!s.owns s.kindle.loadChair s.self mid) (kindleChairGone s.kindle.loadChair)

/-- An accepted give (R340). -/
def chairFree (n : Nat) : Act := acts [
  modChair n fun c => { c with held := false, peer := 0, mid := 0, tag := 0, abandoned := false },
  kindleChairGone n, chairTell n, chairPass n]

/-- Release every chair a pair owns, with ABANDONED set (R342, R345). -/
def chairAbandon (peer mid : Nat) : Act := .ask fun s =>
  let own := s.chairs.keys.filter (fun n => (s.chair n).held && (s.chair n).peer == peer && (s.chair n).mid == mid)
  acts [
    forEach own fun n => acts [
      modChair n fun c => { c with held := false, peer := 0, mid := 0, tag := 0, abandoned := true },
      kindleChairGone n, chairTell n, chairPass n],
    when_ (!own.isEmpty) (event F.CHR_EVT_ABANDON),
    when_ (peer == s.self) <| forEach (List.range 128) fun n => .ask fun s =>
      when_ (s.tabRemote (n / 8) && s.owns n peer mid)
        (zForward (s.tab (n / 8) F.CHR_TAB_CFG_HOME) 0x30 (mid > 0x40) .chairOther (chrBody n 3 mid 1 s.now))]

/-! ### Register sits and gives -/

/-- A sit (R335). -/
def sitAct (p : Path) (n tag : Nat) : Act := .ask fun s =>
  let t := n / 8
  if !s.admits t (pathCtx p) then chairDeny
  else if s.tabDown t || s.owns n s.self (pathMid p) then .skip
  else if s.tabRemote t then
    zForward (s.tab t F.CHR_TAB_CFG_HOME) 0x30 false .chairOther (chrBody n 0 (pathMid p) tag s.now)
  else chairSit n s.self (pathMid p) tag

/-- A register give (R340, R341, R345). -/
def giveAct (p : Path) (n : Nat) : Act := .ask fun s =>
  let t := n / 8
  if !s.admits t (pathCtx p) then chairDeny
  else if s.tabDown t then .skip
  else if !s.owns n s.self (pathMid p) then acts [
    when_ (!s.flag F.CHR_EVT_BADGIVE)
      (putWord 0 0x034 (BitVec.ofNat 32 (pathMid p + 2 ^ 8 * n + 2 ^ 31))),
    event F.CHR_EVT_BADGIVE, count F.CHR_CNT_REFUSED]
  else if s.tabRemote t then
    zForward (s.tab t F.CHR_TAB_CFG_HOME) 0x30 false .chairOther (chrBody n 2 (pathMid p) 0 s.now)
  else chairFree n

/-- A write of CHR_SIT[n] with GIVE = 0. -/
def chrSitAct (p : Path) (n tag : Nat) : Act := when_ (decide (n < 128)) (pathWrite p (0x400 + 4 * n) (BitVec.ofNat 32 (tag % 65536)) (sitAct p n (tag % 65536)))

/-- A write of CHR_SIT[n] with GIVE = 1. -/
def chrGiveAct (p : Path) (n : Nat) : Act := when_ (decide (n < 128)) (pathWrite p (0x400 + 4 * n) 0x10000 (giveAct p n))

/-- A read of CHR_WAIT[n] (R337). -/
def chrWaitAct (p : Path) (n : Nat) : Act := when_ (decide (n < 128)) (pathRead p (0x600 + 4 * n))

/-- The limit of a held CHR_WAIT read, in µs (R337). -/
def State.rdLimit (s : State) : Nat := max 1 (min (s.fld F.CHR_CTL_RD_LIMIT) 50)

/-- A held CHR_WAIT read reaches its limit (R337). -/
def chrWaitTimeoutAct (p : Path) : Act := .ask fun s =>
  match (s.port p).held with
  | some h => match h.reg with
    | some (.chrWait _) => acts [
        advanceTo (h.since + usClocks s.rdLimit), count F.CHR_CNT_TIMEOUT, chairUnwait (.path p), readRelease p]
    | _ => .skip
  | none => .skip

/-! ### CHAIR_TAKE and CHAIR_GIVE -/

/-- The chair a descriptor names. -/
def descChair (d : List Word) : Nat := 8 * (hIdx (dOps d 0) % 16) + bits (dOps d 1) 0 3

/-- A CHAIR_TAKE executes (R334, R338, R342, R345). -/
def chairTakeBody (c : Nat) : Act := .ask fun s => forSome (s.cur c) fun d =>
  let n := descChair d.words
  let t := n / 8
  let mid := ctxMid (s.chan c).ctx
  let wait := modChair n fun x => { x with waiters := x.waiters ++ [(.chan c, d.takeWT)] }
  if !s.admits t (s.chan c).ctx then acts [chairDeny, descDone c stPROT_FAULT]
  else if s.owns n s.self mid then descDone c stDONE
  else if s.tabDown t then acts [wait, parkChan c (.chair n)]
  else if s.tabRemote t then acts [
    wait,
    zForward (s.tab t F.CHR_TAB_CFG_HOME) 0x30 (!isDevCtx (s.chan c).ctx) (.chair c) (chrBody n 1 mid 0 d.takeWT),
    parkChan c (.chair n)]
  else if !(s.chair n).held && !(s.chair n).abandoned then acts [chairSit n s.self mid 0, descDone c stDONE]
  else acts [wait, parkChan c (.chair n)]

/-- A CHAIR_GIVE executes (R334, R340, R345). -/
def chairGiveBody (c : Nat) : Act := .ask fun s => forSome (s.cur c) fun d =>
  let n := descChair d.words
  let t := n / 8
  let mid := ctxMid (s.chan c).ctx
  if !s.admits t (s.chan c).ctx then acts [chairDeny, descDone c stPROT_FAULT]
  else if s.tabDown t then descDone c stDONE
  else if !s.owns n s.self mid then descDone c stPROT_FAULT
  else if s.tabRemote t then acts [
    modCur c fun d => { d with phase := .chairRsp },
    zForward (s.tab t F.CHR_TAB_CFG_HOME) 0x30 (!isDevCtx (s.chan c).ctx) (.chair c) (chrBody n 2 mid 0 s.now)]
  else acts [chairFree n, descDone c stDONE]

/-- A parked CHAIR_TAKE reaches CHR_DLIM.LIMIT (R338). -/
def chairTakeLimit (c : Nat) : Act := .ask fun s =>
  match (s.chan c).park with
  | .chair _ => when_ ((s.chan c).st == .parked) <| acts [
      advanceTo ((s.chan c).parkedAt + usClocks (max 1 (s.fld F.CHR_DLIM_LIMIT))), count F.CHR_CNT_TIMEOUT,
      chairUnwait (.chan c), releaseWait c stCHAIR_TIMEOUT]
  | _ => .skip

/-- A row of an opcode whose descriptors act at once. -/
def descRow (c op : Nat) (body : Act) : Act := .ask fun s => when_ (!s.pwr.off) (opRow c op body)

end Sys2Proof.Machine
end

