-- ==== Sys2Proof/Machine/DescOps.lean ====
section
/-!
DEFINITION. The wait, control and object descriptors: WAIT_WHEEL, WAIT_FENCE, WAIT_WICK, SIGNAL, NOP, JUMP, LOOP,
ALLOC and FREE with the Cupboard (R164 to R167, R358 to R366), and the Lamplighter's rows (R51 to R55).
-/

namespace Sys2Proof.Machine

/-! ### Waits -/

/-- WAIT_WHEEL's target (R164). -/
def wheelTarget (d : Cur) : WTime :=
  match bits (dOps d.words 0) 0 2 with
  | 0 => dWhen d.words
  | 1 => d.s + dWhen d.words
  | _ => nextAngle d.s (dWhen d.words).toNat

/-- WAIT_WHEEL completes at once when its target is not after the present, as a LATE fire when that is long enough ago (R50,
R55, R173); else it parks on a Lamplighter entry (R164). -/
def waitWheelBody (c : Nat) : Act := .ask fun s => forSome (s.cur c) fun d =>
  let t := wheelTarget d
  if s.pastWhen t then acts [
    when_ (s.pastLate t) (acts [lateFire, modCur c fun d => { d with late := true }]), descDone c stDONE]
  else acts [parkChan c .wheel, lampArm c t false]

/-- WAIT_FENCE (R164, R368, R379). -/
def waitFenceBody (c : Nat) : Act := .ask fun s => forSome (s.cur c) fun d =>
  let i := hIdx (dOps d.words 0)
  let v := dw64 d.words 14
  if (s.fence i).broken then descDone c stABORTED
  else if v ≤ (s.fence i).value.toNat then descDone c stDONE
  else parkChan c (.fence i (BitVec.ofNat 64 v))

/-- The logical level of a wick (R430, R456). -/
def State.wickLevel (s : State) (w : Nat) : Bool := if w < 64 then (s.wick w).level else bitAt s.laneWicks (w - 64)

/-- A pin being switched: its level is judged later (R463). -/
def State.wickParked (s : State) (w : Nat) : Bool := w < 64 && (s.wick w).parkEnd.isSome

/-- A level condition holds (Table DSC-5: 2 high, 3 low). -/
def State.wickMeets (s : State) (w cond : Nat) : Bool :=
  !s.wickParked w && ((cond == 2 && s.wickLevel w) || (cond == 3 && !s.wickLevel w))

/-- WAIT_WICK (R164). -/
def waitWickBody (c : Nat) : Act := .ask fun s => forSome (s.cur c) fun d =>
  let w := opAddr (dSrc d.words)
  let cond := bits (dOps d.words 0) 0 2
  if s.wickMeets w cond then descDone c stDONE else parkChan c (.wick w cond)

/-- A wick's logical level changes: pace counts, and waits it meets (R164, R458). -/
def wickEdge (w : Nat) (level : Bool) : Act := .ask fun s => forEach s.chanList fun c => .ask fun s =>
  let x := s.chan c
  acts [
    when_ (level && x.paceEn && x.paceWick == w && x.st != .free) <| acts [
      (if x.pace == 15 then acts [count F.WCK_CNT_PACE_OVF, event F.WCK_EVT_PACE_OVF]
        else modChan c fun x => { x with pace := x.pace + 1 }),
      when_ (x.st == .parked && x.park == .pace) (makeQueued c)],
    match x.park with
    | .wick w' cond => when_ (x.st == .parked && w' == w &&
        ((level && (cond == 0 || cond == 2)) || (!level && (cond == 1 || cond == 3)))) (releaseWait c stDONE)
    | _ => .skip]

/-! ### SIGNAL (R165, R370, R377, R379) -/

/-- The signal itself, once the chain's earlier writes are accepted. -/
def signalGo (c : Nat) : Act := .ask fun s => forSome (s.cur c) fun d =>
  let i := hIdx (dOps d.words 0)
  let v : DWord := BitVec.ofNat 64 (dw64 d.words 14)
  let f := s.fence i
  if !f.proxy then acts [fenceSet i v, descDone c stDONE]
  else if f.broken || (s.peer f.home).route.isNone then descDone c stABORTED
  else acts [
    modCur c fun d => { d with phase := .fenceRsp },
    fenForward i (!isDevCtx (s.chan c).ctx) (.signal c) (.signal v)]

/-- SIGNAL waits for every earlier write of its chain: buffered lines are flushed, host writes by a flush read. -/
def signalBody (c : Nat) : Act := .ask fun s =>
  match (s.chan c).run.bind (·.hostWrote) with
  | some _ => acts [flushOf c, flushRead c]
  | none => acts [flushOf c, signalGo c]

/-! ### Control descriptors (R167) -/

/-- The current descriptor passes to an index. -/
def passTo (c nxt : Nat) : Act := acts [
  modCur c fun d => { d with words := d.words.set 10 (BitVec.ofNat 32 nxt) }, descDone c stDONE]

/-- NOP. -/
def nopBody (c : Nat) : Act := descDone c stDONE

/-- JUMP. -/
def jumpBody (c : Nat) : Act := .ask fun s => forSome (s.cur c) fun d => passTo c (dOps d.words 0)

/-- LOOP, with the write-back of its device-maintained words (R167, R186). -/
def loopBody (c : Nat) : Act := .ask fun s => forSome (s.cur c) fun d =>
  let r := loopStep d.words
  let a := 64 * d.idx + 0x38
  acts [
    cacheRead (s.engReq c 1) (s.chan c).engine 1 a 8,
    engineWrite (s.engReq c 1) (s.chan c).engine 1 a (leBytes 4 r.1 ++ leBytes 4 r.2.1),
    dropCopies c 1 a 8,
    passTo c r.2.2]

/-! ### The Cupboard (R358 to R366) -/

/-- The Cupboard takes a channel's request (R358). -/
def cupGrant (c : Nat) : Act := .ask fun s => forSome (s.cur c) fun d =>
  modCup fun k => { k with op := some ⟨c, (s.chan c).ctx, d.words⟩, waits := k.waits.filter (·.1 != c) }

/-- A request reaches the Cupboard, which performs one operation at a time: it is granted, or stays raised at the object-store
controller port (R358). -/
def cupRequest (c : Nat) : Act := .ask fun s => acts [
  modCur c fun d => { d with phase := .cup },
  if s.cup.op.isNone then cupGrant c
  else modCup fun k => { k with waits := k.waits.filter (·.1 != c) ++ [(c, s.now)] }]

/-- The rank of a channel's request at the Cupboard. -/
def State.cupRank (s : State) (c : Nat) (i : WTime) : Rank := { (s.engReq c 1).rank with i := i }

/-- Requests raised at the Cupboard, as channels and ranks: those of channels that still run their operation. -/
def State.cupAsking (s : State) : List (Nat × Rank) :=
  (s.cup.waits.filter (fun w => (s.chan w.1).st == .running && (s.cur w.1).any (·.phase == .cup))).map
    (fun w => (w.1, s.cupRank w.1 w.2))

/-- A context's Cupboard pages. -/
def State.cupPages (s : State) (ctx : Nat) : Nat :=
  (s.mems.map (fun e => if e.2.live && e.2.typ == 3 && e.2.owner == ctx then e.2.len / 4096 else 0)).sum

/-- A granule is with the scrubber or in an allocation. -/
def inRanges (rs : List (Nat × Nat)) (g : Nat) : Bool := rs.any (fun r => r.1 ≤ g && g < r.1 + r.2)

/-- A range of granules meets none of some ranges. -/
def clearOf (rs : List (Nat × Nat)) (g n : Nat) : Bool := rs.all (fun r => g + n ≤ r.1 || r.1 + r.2 ≤ g)

/-- Ranges held by live allocations of user contexts, and every range not free. -/
def State.userHeld (s : State) : List (Nat × Nat) :=
  s.mems.flatMap (fun e => if e.2.live && e.2.typ == 3 && !isDevCtx e.2.owner then s.cupRanges e.2 else [])
def State.notFree (s : State) : List (Nat × Nat) := s.cupHeld ++ s.cup.scrub

/-- The highest-numbered free pool pages (R360). -/
def State.freePages (s : State) (n : Nat) : Option (List Nat) :=
  let base := s.fld F.CUP_POOL_BASE
  let ps := ((List.range (s.fld F.CUP_POOL_PAGES)).map (· + base)).reverse.filter (fun p => clearOf s.notFree (64 * p) 64)
  if ps.length < n then none else some (ps.take n)

/-- The lowest aligned run of free entries of the Cupboard part of a view (R360). -/
def State.freeViewRun (s : State) (ctx n alignLog2 : Nat) : Option Nat :=
  let v := (s.ctx ctx).view
  let lo := if (s.ctx ctx).mode == 2 then 256 else 0
  let al := 2 ^ (max alignLog2 12 - 12)
  ((List.range 512).filter (fun e => lo ≤ e && e % al == 0 && e + n ≤ 512)).find?
    (fun e => (List.range n).all (fun i => SMap.get 0 v (e + i) == 0))

/-- The lowest aligned run of free pool granules in pages that no user allocation holds (R361). -/
def State.freeGranules (s : State) (n alignLog2 : Nat) : Option Nat :=
  let base := s.fld F.CUP_POOL_BASE * 64
  let cnt := s.fld F.CUP_POOL_PAGES * 64
  let al := 2 ^ (max alignLog2 6 - 6)
  let users := s.userHeld.map (fun r => (r.1 / 64 * 64, 64))
  ((List.range (cnt / al + 1)).map (fun k => (base + al - 1) / al * al + k * al)).find?
    (fun g => g + n ≤ base + cnt && clearOf s.notFree g n &&
      clearOf users (g / 64 * 64) ((g + n + 63) / 64 * 64 - g / 64 * 64))

/-- The free memory-object index that was freed longest ago (R119). -/
def State.freeMemIndex (s : State) : Option Nat :=
  pickFree (((List.range 4096).filter (fun i => !(s.mobj i).live)).map (fun i => ((s.mobj i).freedAt, i)))

/-- What an ALLOC gets: a placement, a cause of ALLOC_FAIL, or a refused key (R359). -/
inductive AllocOut where
  | user (obj entry : Nat) (pages : List Nat)
  | priv (obj granule n : Nat)
  | fail (cause : Nat)
  | key
  deriving DecidableEq, Repr

/-- The checks of R359 in their order. -/
def State.allocOut (s : State) (ctx : Nat) (d : List Word) : AllocOut :=
  let size := dOps d 0
  let al := bits (dOps d 1) 0 5
  let user := !isDevCtx ctx
  let pages := (size + 4095) / 4096
  let quota := if s.fld F.CUP_CTL_CTX_PAGES == 0 then 512 else s.fld F.CUP_CTL_CTX_PAGES
  if !s.flag F.CUP_CTL_EN || (user && (s.ctx ctx).mode == 0) then .fail 1
  else if user && !bitAt (s.word ctx 0x2B8).toNat (bits (dOps d 1) 8 4) then .key
  else if size > 0x200000 then .fail 2
  else match s.freeMemIndex with
    | none => .fail 3
    | some obj =>
      if user then
        if s.cupPages ctx + pages > quota then .fail 4
        else match s.freePages pages with
          | none => .fail 5
          | some ps => match s.freeViewRun ctx pages al with
            | none => .fail 6
            | some e => .user obj e ps
      else match s.freeGranules ((size + 63) / 64) al with
        | none => .fail 5
        | some g => .priv obj g ((size + 63) / 64)

/-- A failed ALLOC records its cause (R359, Table CUP-6). -/
def allocFail (ctx cause : Nat) : Act := acts [
  put F.CUP_FAIL_CAUSE cause, put F.CUP_FAIL_CTX ctx, count F.CUP_FAIL_COUNT, event F.CUP_EVT_FAIL]

/-- The refusal of an ALLOC's SHADE, captured as a beat (R318). -/
def allocKeyRefused (c ctx : Nat) (d : List Word) : Act :=
  protCapture ⟨ctxMid ctx, 5, bits (dOps d 1) 8 4, ctx, false, c, 0, 0, 0, true⟩ 4 0x3F 0

/-- Make the object of an allocation, shade its granules, then go on with its index, address and size (R360 to R362). -/
def allocMake (ctx : Nat) (d : List Word) (o : AllocOut) (k : Nat → Nat → Nat → Act) : Act :=
  let shade := bits (dOps d 1) 8 4
  let mk := fun (obj base len : Nat) => modMobj obj fun m =>
    { MemObj.init with live := true, gen := m.gen, owner := ctx, typ := 3, base := base, len := len }
  match o with
  | .user obj e ps => acts [
      modCtx ctx fun x => { x with view := ps.zipIdx.foldl (fun v p => SMap.set 0 v (e + p.2) (p.1 + 1)) x.view },
      mk obj (4096 * e) (4096 * ps.length),
      forEach ps fun p => shadeRange (64 * p) 64 shade,
      k obj (2 ^ 56 + 4096 * e) (4096 * ps.length)]
  | .priv obj g n => acts [mk obj (64 * g) (64 * n), shadeRange g n shade, k obj (2 ^ 56 + 64 * g) (64 * n)]
  | _ => .skip

/-- Write the bytes in hand of the current descriptor to DST, then complete it (R162, R362). -/
def putResult (c : Nat) : Nat → Act
  | 0 => .skip
  | fuel + 1 => .ask fun s =>
    match s.cur c with
    | none => .skip
    | some d =>
      if d.phase != .ready then .skip
      else match d.data with
        | none => descDone c stDONE
        | some bs => acts [writePiece c d (dDst d.words + d.off) bs.length bs, putResult c fuel]

/-- The result of an ALLOC under a stop goes on to DST with no row of its own (R268). -/
def resultOn (c : Nat) : Act := .ask fun s => forSome (s.cur c) fun d =>
  when_ (dOp d.words == 0x38 && d.data.isSome && ((s.chan c).stopPend == 3 || (s.chan c).bitten)) (acts [
    renew c, putResult c 40, settleStop c])

/-- The granted operation belongs to this channel's current descriptor still. -/
def State.cupMine (s : State) (o : CupOp) : Bool :=
  match s.cur o.chan with
  | some d => d.phase == .cup && d.words == o.words
  | none => false

/-- An ALLOC ends in the Cupboard. -/
def allocEnd (o : CupOp) : Act := .ask fun s =>
  let c := o.chan
  let r := s.allocOut o.ctx o.words
  let lost := (s.ctx o.ctx).losing.isSome || (s.ctx o.ctx).st != .live
  match r with
  | .fail cause => acts [allocFail o.ctx cause, when_ (s.cupMine o) (acts [descDone c stALLOC_FAIL, settleStop c])]
  | .key => acts [allocKeyRefused c o.ctx o.words, when_ (s.cupMine o) (acts [descDone c stPROT_FAULT, settleStop c])]
  | r => allocMake o.ctx o.words r fun obj addr size =>
      if lost then acts [memFree obj, event F.CUP_EVT_UNWIND, .ask fun s =>
        when_ (s.cupMine o) (abortChan c stCTX_LOST stCTX_LOST)]
      else .ask fun s => when_ (s.cupMine o) <| acts [
        modCur c fun d => { d with
          phase := .ready, data := some (leBytes 4 (handle 4 (s.mobj obj).gen obj) ++ leBytes 4 size ++ leBytes 8 addr) },
        putResult c 40, settleStop c]

/-- A FREE ends in the Cupboard (R363). -/
def freeEnd (o : CupOp) : Act := .ask fun s => acts [
  forSome (s.memOf (dOps o.words 0)) memDestroyReq, when_ (s.cupMine o) (acts [descDone o.chan stDONE, settleStop o.chan])]

/-- CUPBOARD_OPERATION_END: the operation granted ends, and the request that ranks first is granted (R358). -/
def cupEndAct : Act := .ask fun s =>
  forSome s.cup.op fun o => acts [
    modCup fun k => { k with op := none },
    if dOp o.words == 0x38 then allocEnd o else freeEnd o,
    .ask fun s => when_ s.cup.op.isNone (arbitrate 0x20 s.cupAsking cupGrant)]

/-- SCRUB_DONE: the granules passed to the scrubber longest ago are zeros of shade 0 and free again; it writes one beat, half a
granule, in a core clock (R364). -/
def scrubAct : Act := .ask fun s =>
  forSome s.cup.scrub.head? fun r => acts [
    advanceTo (s.cup.scrubAt + 2 * r.2),
    internalWrite 0 (64 * r.1) (List.replicate (64 * r.2) 0),
    shadeRange r.1 r.2 0,
    .ask fun s => modCup fun k => { k with scrub := k.scrub.tail, scrubAt := s.clk }]

/-! ### The Lamplighter (R51 to R55) -/

/-- The entry that fires next: one whose target wheel time has reached before one whose target is ahead (R55), then the
earliest target, then the lowest index (R53). -/
def State.lampNext (s : State) : Option LampEnt :=
  let due := s.lamp.entries.filter (fun e => wtAtOrAfter s.now e.target)
  (if due.isEmpty then s.lamp.entries else due).foldl (fun best e => match best with
    | none => some e
    | some b => if wtBefore e.target b.target || (e.target == b.target && e.idx < b.idx) then some e else some b) none

/-- An entry fires: its submission starts, its descriptor executes, or its wait ends; a LATE fire counts (R55, R173). Its
place goes to a parked channel (R52). -/
def lampFireEnt (e : LampEnt) : Act := .ask fun s =>
  let late := e.forced || (match e.since with | some t => s.clk > t + 2 | none => false)
  let c := e.chan
  let mark := modCur c fun d => { d with late := late, fired := true }
  acts [
    modLamp fun l => { l with
      entries := l.entries.filter (· != e), used := l.used - 1, firedAt := s.clk, fired := if l.firedAt == s.clk then l.fired + 1 else 1 },
    lampRearm,
    when_ late lateFire,
    match (s.chan c).park with
    | .start => acts [
        modChan c fun x => { x with subs := match x.subs with
                                           | sub :: rest => { sub with start := 0 } :: rest
                                           | [] => [] },
        startNext c]
    | .class2 => acts [mark, makeQueued c]
    | .wheel => acts [mark, releaseWait c stDONE]
    | _ => .skip]

/-- An entry fires in this core clock, or in the next when four have fired in it (R53). -/
def lampFireSlot (e : LampEnt) : Act := .ask fun s => acts [
  when_ (s.lamp.firedAt == s.clk && s.lamp.fired ≥ 4) (tickBy 1),
  .ask fun s => forSome (s.lamp.entries.find? (fun x => x.idx == e.idx && x.chan == e.chan)) lampFireEnt]

/-- LAMPLIGHTER_FIRE: wheel time reaches the earliest target and its entry fires, at the earliest in the core clock after it
was armed (R55); nothing fires after PWRFAIL# (R273). -/
def lampFireAct : Act := .ask fun s =>
  when_ (!s.pwr.off && !s.pfHeld) <|
    forSome s.lampNext fun e => acts [advanceToWheel e.target, advanceTo (e.armed + 1), lampFireSlot e]

/-- ALLOC reaches the Cupboard (R166, R358), or goes on writing its result. -/
def allocBody (c : Nat) : Act := .ask fun s => forSome (s.cur c) fun d =>
  if d.data.isSome then putResult c 40 else cupRequest c

end Sys2Proof.Machine
end

