-- ==== Sys2Proof/Machine/Queues.lean ====
section
/-!
DEFINITION. Doorbell pages and queues: the doorbells of R134, holds (R355), fence kicks (R372), the reading of
submission entries (R135, R136), the writing of completion records (R137, R138, R181 to R184), ring faults (R554) and
the unwinding of a lost context (R555).
-/

namespace Sys2Proof.Machine

/-! ### Doorbell pages (R134, R152, R155) -/

/-- A doorbell page that serves writes: the host link is up, the context is LIVE or LOST, and no stop of the whole device
ignores doorbells (R152, R272, R273). -/
def State.pageLive (s : State) (n : Nat) : Bool :=
  !s.pwr.off && s.linkUp && !s.refusing && decide (n < 64) && ((s.ctx n).st == .live || (s.ctx n).st == .lost)

/-- A refused doorbell operation (R134, R143): counted, with the slot of a queue doorbell. -/
def dbRefuse (n : Nat) (slot : Option Nat) : Act :=
  modCtx n fun x => { x with dberr := min (x.dberr + 1) 0xFFFF, dbslot := slot.getD x.dbslot }

/-- A new SQ tail that R134 accepts. -/
def Queue.tailOk (q : Queue) (v : Nat) : Bool :=
  let d := (v + 65536 - q.sqHead) % 65536
  d ≤ 2 ^ q.log2 && (q.sqTail + 65536 - q.sqHead) % 65536 ≤ d

/-- A new CQ head that R134 accepts. -/
def Queue.headOk (q : Queue) (v : Nat) : Bool :=
  (v + 65536 - q.cqHead) % 65536 ≤ (q.cqTail + 65536 - q.cqHead) % 65536

/-- Channels whose held-back records have places again, or are due no more, go on (R137). -/
def ringWake : Act := .ask fun s => forEach s.chanList fun c => .ask fun s =>
  if (s.chan c).dest.isSome then arrive c
  else match (s.chan c).park with
  | .ring _ => when_ ((s.chan c).st == .parked && (s.ringBlocked c).isNone)
      (if (s.chan c).run.isNone then startNext c else makeQueued c)
  | _ => .skip

/-- Put an accepted SQ tail in place. -/
def setTail (q v : Nat) : Act := modQueue q fun x => { x with sqTail := v }

/-- Put an accepted CQ head in place: places become free. -/
def setHead (q v : Nat) : Act := acts [modQueue q fun x => { x with cqHead := v }, ringWake]

/-- A queue doorbell of a page: `ok` judges the new value and `go` takes it. -/
def queueDb (n slot : Nat) (v : Word) (be : Nat) (ok : Queue → Nat → Bool) (go : Nat → Nat → Act) : Act := .ask fun s =>
  when_ (s.pageLive n) <|
    forSome (s.slotQueue n slot) fun q =>
      let x := v.toNat % 65536
      if be == 15 && ok (s.queue q) x then go q x else dbRefuse n (some slot)

/-- A kick (R372, R377, R379). -/
def kickAct (n : Nat) (v : Word) (be : Nat) : Act := .ask fun s =>
  when_ (s.pageLive n) <|
    let bad := acts [dbRefuse n none, count F.FEN_CNT_KICK_BAD, event F.FEN_EVT_KICK_BAD]
    if be != 15 then bad
    else match s.fenceOf v.toNat with
      | none => bad
      | some i =>
        let f := s.fence i
        if !f.usable n || f.broken || (f.destroy && !f.proxy) then bad
        else if f.proxy then fenForward i (!isDevCtx n) .kick .kick
        else fenceInc i

/-- A page may hold a memory object or fence of an owner and importers (R141, R355). -/
def mayHold (n owner imported : Nat) : Bool := n == 0 || owner == n || bitAt imported n

/-- The object a hold names. -/
inductive HoldOn where
  | mem (i : Nat)
  | fen (i : Nat)
  deriving DecidableEq, Repr

/-- The live object that a handle names. -/
def State.holdOn (s : State) (h : Nat) : Option HoldOn :=
  match s.memOf h with
  | some i => some (.mem i)
  | none => (s.fenceOf h).map .fen

/-- A CTX_REF write (R143, R355). -/
def refAct (n : Nat) (v : Word) (be : Nat) : Act := .ask fun s =>
  when_ (s.pageLive n) <|
    if be != 15 then dbRefuse n none
    else match s.holdOn v.toNat with
      | some (.mem i) =>
        let m := s.mobj i
        if mayHold n m.owner 0 && !bitAt m.holds n && !m.destroy && m.cnt < 2 ^ 32 - 1 then
          modMobj i fun m => { m with holds := setBit m.holds n }
        else dbRefuse n none
      | some (.fen i) =>
        let f := s.fence i
        if mayHold n (if f.proxy then 0x7F else f.owner) f.imported && !bitAt f.holds n && (f.proxy || !f.destroy) &&
            f.cnt < 2 ^ 32 - 1 then modFence i fun f => { f with holds := setBit f.holds n }
        else dbRefuse n none
      | none => dbRefuse n none

/-- A CTX_UNREF write (R143, R355). -/
def unrefAct (n : Nat) (v : Word) (be : Nat) : Act := .ask fun s =>
  when_ (s.pageLive n) <|
    if be != 15 then dbRefuse n none
    else match s.holdOn v.toNat with
      | some (.mem i) =>
        if bitAt (s.mobj i).holds n then acts [modMobj i fun m => { m with holds := clrBit m.holds n }, memTryFree i]
        else dbRefuse n none
      | some (.fen i) =>
        if bitAt (s.fence i).holds n then acts [modFence i fun f => { f with holds := clrBit f.holds n }, fenceTryFree i]
        else dbRefuse n none
      | none => dbRefuse n none

/-- A doorbell of context 64 through the control port: SLOT and value are kept; a refused value is recorded nowhere (R138). -/
def devDb (off : Nat) (v : Word) (ok : Queue → Nat → Bool) (go : Nat → Nat → Act) : Act := .ask fun s =>
  acts [
    putWord 0 off (BitVec.ofNat 32 (bits v.toNat 16 8 * 2 ^ 16)),
    when_ (!s.refusing) <| forSome (s.slotQueue 64 (bits v.toNat 16 8)) fun q =>
      when_ (ok (s.queue q) (v.toNat % 65536)) (go q (v.toNat % 65536))]

/-- A write to DEV_SQ_DB. -/
def sqDbWrite (v : Word) : Act := devDb 0x040 v Queue.tailOk setTail

/-- A write to DEV_CQ_DB. -/
def cqDbWrite (v : Word) : Act := devDb 0x044 v Queue.headOk setHead

/-! ### Ring faults (R554) -/

/-- A submission-ring read or a record write of a queue faults at an address. -/
def ringFault (q status addr : Nat) : Act := .ask fun s =>
  let n := (s.queue q).ctx
  let h := handle 2 (s.queue q).gen q
  when_ ((s.queue q).live && (s.ctx n).st != .dying) <| acts [
    modQueue q fun x => { x with faulted := true, reading := false },
    .upd (.due (s.due.filter (·.queue != q))),
    ringWake,
    captureFault n status 0 h addr,
    if isDevCtx n then postErr ⟨0x06, 0, ctxMid n, status, none, n, addr, h⟩ else loseCtx n 256]

/-! ### Reading submission entries (R135, R136) -/

/-- The queue's context is one whose queues are read (R144, R152, R555). -/
def State.queueRead (s : State) (q : Nat) : Bool :=
  let x := s.queue q
  let k := s.ctx x.ctx
  x.live && !x.destroying && !x.faulted && x.sqHead != x.sqTail && !s.pfHeld && !s.pwr.off && !s.pwr.quiesced &&
    ((k.st == .live && k.losing.isNone) || k.st == .lost) &&
    (match x.blockedOn with
      | some c => (s.chan c).subs.length < 16
      | none => true)

/-- The device passes an entry: SQ head moves on. -/
def headOn (q : Nat) : Act := modQueue q fun x =>
  { x with sqHead := (x.sqHead + 1) % 65536, blockedOn := none, reading := false }

/-- An entry completes without being accepted (R135, R196). -/
def entryEnd (q tag chanW status : Nat) : Act := .ask fun s => acts [
  addDue ⟨q, none, tag, status, true, true, s.now.toNat, 0, hIdx chanW % 256, hGen chanW, false, [], 10, 2, wtAdd s.now 4096⟩,
  headOn q]

/-- Judge the 16 bytes of an entry (R135, R136, R150, R264, R558). -/
def judgeEntry (q : Nat) (bs : List Byte) : Act := .ask fun s =>
  let n := (s.queue q).ctx
  let chanW := ofLe (bs.take 4)
  let tag := ofLe ((bs.drop 4).take 4)
  let start : WTime := BitVec.ofNat 48 (ofLe ((bs.drop 8).take 6))
  let first := ofLe ((bs.drop 14).take 2)
  if (s.ctx n).st == .lost then entryEnd q tag chanW stCTX_LOST
  else match s.chanOf chanW with
    | none => entryEnd q tag chanW stBAD_HANDLE
    | some c =>
      let x := s.chan c
      if x.ctx != n then entryEnd q tag chanW stBAD_HANDLE
      else if (first == 0xFFFF && !x.resValid) || (first != 0xFFFF && !x.inBlock first) then entryEnd q tag chanW stBAD_DESC
      else if x.st == .dying then entryEnd q tag chanW stABORTED
      else if x.st == .stopped || (x.st == .halted && first != 0xFFFF) then entryEnd q tag chanW stSTOPPED
      else if x.subs.length ≥ 16 then modQueue q fun y => { y with blockedOn := some c, reading := false }
      else acts [
        headOn q,
        modSubs c (· ++ [⟨c, tag, start, first, q⟩]),
        when_ (x.st == .idle || x.st == .halted) (startNext c)]

/-- The address of a ring position. -/
def ringAt (ring log2 k : Nat) : Nat := ring + 16 * (k % 2 ^ log2)

/-- A submission entry is read: context 64's from staging through an engine's cache, which one being the model's choice (R290,
log 81); another context's from the host, whose answer the row may carry when the read holds a tag (R300, log 12). -/
def entryAct (q : Nat) (entry : List Byte) : Act := .ask fun s =>
  let x := s.queue q
  let a := ringAt x.sqRing x.log2 x.sqHead
  when_ (s.queueRead q) <|
    if opSel a == 1 then acts [
      cacheRead s.internalReq 0 0 (opAddr a) 16, .ask fun s => judgeEntry q (s.cohBytes 0 (opAddr a) 16)]
    else if x.reading then .skip
    else match s.xlate x.ctx (opAddr a) false with
      | .fault => ringFault q stXLATE_FAULT a
      | .miss => startWalk (.sq q) x.ctx (opAddr a) false s.internalReq
      | .hit phys _ => acts [
          modQueue q fun y => { y with reading := true },
          raiseRead ⟨.ring q, phys, 16, false, false, s.internalReq, s.tlb.find? (·.maps x.ctx (opAddr a))⟩,
          when_ (entry.length == 16) (.ask fun s => forSome (s.host.reads.find? (fun r => !r.dead && r.purpose == .ring q)) fun r =>
            acts [dropRead r, judgeEntry q entry])]

/-! ### Writing completion records (R137, R138, R181, R196) -/

/-- The 16 bytes of a record (Table DSC-6). -/
def Due.bytes16 (d : Due) (phase : Bool) : List Byte :=
  leBytes 4 d.tag ++ leBytes 4 (d.status + 2 ^ 8 * b2n phase + 2 ^ 9 * b2n d.isEnd + 2 ^ 12 * d.chanIdx + 2 ^ 20 * d.chanGen) ++
    leBytes 4 d.wt.toNat ++ leBytes 1 (d.wt.toNat / 2 ^ 32) ++ leBytes 3 d.bytes

/-- A record has been written: the counter moves on, an end record of another status than DONE or DONE_LATE is traced,
a record marked for interrupt is announced, and a channel whose last due record it was reaches its state (R258). -/
def recorded (d : Due) (bs : List Byte) : Act := .ask fun s =>
  let n := (s.queue d.queue).ctx
  acts [
    .upd (.due (s.due.erase d)),
    modQueue d.queue fun x => { x with cqTail := (x.cqTail + 1) % 65536 },
    when_ (d.isEnd && d.status != stDONE && d.status != stDONE_LATE) (traceRec 4 bs),
    when_ d.intr (if n == 64 then event F.DEV_CQ_EVT_EVT else raiseVec (n + 1)),
    forSome d.chan arrive]

/-- A record waits: for an earlier record of the same channel in another queue (R258), or for peers that have not acknowledged
its chain's writes (R184). -/
def State.recordHeld (s : State) (d : Due) : Bool :=
  (d.own && (s.due.takeWhile (· != d)).any (fun e => e.own && e.chanIdx == d.chanIdx && e.chanGen == d.chanGen)) ||
    s.zhn.outs.any (fun o => d.acks.contains o.opId)

/-- Records go out no more once the power-fail drain has ended (R275), but those of a device reset accepted later. -/
def State.pfClosed (s : State) : Bool := s.pfHeld && s.pwr.pf.isNone && !s.resetRecords

/-- The oldest record due to a queue is written, once the writes it reports are accepted (R184) and a place is free (R137). -/
def recordAct (q : Nat) : Act := .ask fun s =>
  match s.due.find? (·.queue == q) with
  | none => .skip
  | some d =>
    let x := s.queue q
    let n := x.ctx
    let a := ringAt x.cqRing x.log2 x.cqTail
    let bs := d.bytes16 (x.cqTail / 2 ^ x.log2 % 2 == 0)
    let req : FReq := ⟨d.eng, d.tier, d.l, s.now, 1⟩
    let eng := if d.eng < 4 then d.eng else 0
    let flush := when_ (d.eng < 4) (flushEngine eng)
    when_ (!s.pwr.off && s.ringRoom q 0 && !s.recordHeld d) <|
      if opSel a == 1 then acts [flush, cacheRead req eng 0 (opAddr a) 16, engineWrite req eng 0 (opAddr a) bs, recorded d bs]
      else match s.xlate n (opAddr a) true with
        | .fault => ringFault q stXLATE_FAULT a
        | .miss => startWalk (.cq q) n (opAddr a) true req
        | .hit phys _ => when_ (s.linkUp && !s.pfClosed) (acts [
            flush, postWrite req .record phys bs false false n, recorded d bs])

/-! ### The unwinding of a lost context (R555) -/

/-- The Cupboard performs a granted operation of a context. -/
def State.cupBusyFor (s : State) (n : Nat) : Bool :=
  match s.cup.op with
  | some o => o.ctx == n
  | none => false

/-- Release a context's Lamplighter entries. -/
def lampReleaseCtx (n : Nat) : Act := lampDrop (fun _ ctx => ctx == n)

/-- The CTX_LOST entry of a context whose loss channel `c` began (Table ERR-5). -/
def ctxLostEntry (n c : Nat) : Act := .ask fun s =>
  match (s.ctx n).fault with
  | none => .skip
  | some f => if c ≥ 256 then postErr ⟨0x0F, 0, ctxMid n, f.status, none, n, f.addr, f.chan⟩
      else postErr ⟨0x0F, 0, ctxMid n, f.status, some c, n, f.addr, f.desc + 2 ^ 16 * (s.chan c).faultOff⟩

/-- Steps 3 and 4 of R555. -/
def unwindAct (n : Nat) : Act := .ask fun s =>
  match (s.ctx n).losing with
  | none => .skip
  | some c => when_ ((s.ctx n).st == .live && !s.cupBusyFor n) <| acts [
      forEach (s.chanList.filter (fun d => (s.chan d).ctx == n && (s.chan d).run.isSome)) fun d =>
        acts [holdRefs n d, abortChan d stCTX_LOST stCTX_LOST],
      .ask fun s => acts [
        modCtx n fun x => { x with st := .lost, losing := none, heldRefs := [] },
        chairAbandon s.self (ctxMid n), lampReleaseCtx n, forEach (s.ctx n).heldRefs dropRef],
      raiseVec (n + 1),
      when_ (s.flag F.ERR_CTL_LOG_CTX) (ctxLostEntry n c)]

end Sys2Proof.Machine
end

