-- ==== Sys2Proof/Machine/Engines.lean ====
section
/-!
DEFINITION. Engines: ranking and the elder grant (R200, R212), dispatch (R209 to R211), fetching and completing
descriptors (R174, R177), stops (R256 to R268), and the Snuffer (R215, R216, R222).
-/

namespace Sys2Proof.Machine

/-! ### Dispatch (R204, R209 to R211) -/

/-- A channel runs on an engine, which reads its record (R290); what it wrote on the one it left is accepted first (R175). -/
def runOn (e c : Nat) : Act := .ask fun s => acts [
  when_ ((s.chan c).engine != e) (flushEngine (s.chan c).engine),
  modChan c fun x => { x with st := .running, engine := e },
  grantBegin e c,
  .ask fun s => cacheRead (s.engReq c 1) e 1 (0x80000 + 64 * c) 64]

/-- ENGINE_DISPATCH: an idle engine in dispatch decides in a core clock of its own among the requests raised before it (R204,
R211); none runs after PWRFAIL# or in STANDBY (R273, R538, R563). -/
def dispatchAct (e : Nat) : Act := .ask fun s =>
  let asking := s.asking e
  when_ (!s.pwr.off && !s.pfHeld && !s.pwr.standby && !s.pwr.quiesced && e < 4 && (s.engine e).chan.isNone &&
    !bitAt (s.fld F.ERR_ENG_OFF) e && !asking.isEmpty) (acts [tickBy 1, arbitrate e asking (runOn e)])

/-- The Snuffer limit in force (R215, R621). -/
def State.snufLimit (s : State) : Nat := max 256 (s.fld F.ARB_SNUF_LIMIT)

/-- A channel waits for a host read it has issued, and its Snuffer count stands (R215). -/
def State.readWait (s : State) (c : Nat) : Bool := s.host.reads.any (fun r => !r.dead && r.purpose.chan? == some c)

/-- The channel whose grant on an engine has reached the Snuffer limit (R215). -/
def State.biteDue (s : State) (e : Nat) : Option Nat :=
  match (s.engine e).chan with
  | some c => if !s.readWait c && (s.engine e).granted + (s.engine e).excused + s.snufLimit ≤ s.clk then some c else none
  | none => none

/-- The channel stands at a burst boundary (R185): between descriptors, or with no burst in hand. -/
def Chan.atBoundary (x : Chan) (burst : List Word → Nat) : Bool :=
  match x.run with
  | none => true
  | some r => match r.cur with
    | none => true
    | some d => match d.phase with
      | .done _ => true
      | .ready => d.data.isNone && (d.off % max (burst d.words) 1 == 0 || !isMoveOp (dOp d.words))
      | _ => false

/-- BURST_LIMIT_EXPIRY: the owner of an engine's grant has moved its burst limit and goes on asking with a renewed issue time
(R201, R208); whether that counts as becoming QUEUED the spec leaves open, and its Q stays (DESIGN CHOICE, log 83).  A bite in
that clock overtakes it (R218). -/
def expiryAct (e : Nat) : Act := .ask fun s =>
  forSome (s.engine e).chan fun c =>
    when_ ((s.chan c).st == .running && s.grantSpent c && (s.biteDue e).isNone && (s.chan c).atBoundary (s.burstBytes c)) <| acts [
      leaveEngine c,
      modChan c fun x => { x with st := .queued, run := x.run.map (fun r => { r with i := s.now }) }]

/-! ### Fetch and completion -/

/-- DESCRIPTOR_FETCH: the slots of a channel that is QUEUED or RUNNING fill (R177, R178, R210); an index outside the block
fails its take (R174). -/
def fetchAct (c : Nat) : Act := .ask fun s =>
  when_ (!s.pwr.off && !s.pwr.standby && ((s.chan c).st == .running || (s.chan c).st == .queued)) <| acts [
    when_ ((s.chan c).st == .running) (settle c),
    fetchCopies c,
    .ask fun s =>
      let x := s.chan c
      forSome x.run fun r =>
        when_ (x.st == .running && x.stopPend != 2 && r.cur.isNone && x.copies.isEmpty && !x.inBlock r.next)
          (acts [take c r.next (List.replicate 16 0), settle c])]

/-- DESCRIPTOR_COMPLETE: the current descriptor's completion condition is met and the chain passes on (R174). -/
def completeAct (c : Nat) : Act := .ask fun s =>
  when_ (!s.pwr.off && ((s.chan c).st == .running || (s.chan c).st == .queued)) (settle c)

/-! ### Stops (R256 to R268, R277, R278) -/

/-- No chain runs, and a record of the channel waits to be written (R278). -/
def Chan.ringIdle (x : Chan) : Bool :=
  x.st == .parked && x.run.isNone && (x.dest.isSome || match x.park with
    | .ring _ => true
    | _ => false)

/-- The pending stop of a channel acts where it can. -/
def stopTry (c : Nat) : Act := .ask fun s =>
  let x := s.chan c
  let live := x.st == .queued || x.st == .parked || x.st == .running
  when_ (live && x.stopPend ≥ 2) <|
    if x.ringIdle then acts [
      dropSubs c (if x.stopPend == 3 then s.abortStatus c else stSTOPPED), modChan c fun x => { x with stopWT := s.now },
      stopTo c (x.dest.getD .idle)]
    else if x.stopPend == 3 then when_ (!s.atomicBusy c) (abortChan c (s.abortStatus c) (s.abortStatus c))
    else acts [dropWaiting c, when_ (x.run.isNone) (haltAt c (s.resumePlace c).1 (s.resumePlace c).2), haltIdle c]

/-- An accepted stop request (R257): 1 DRAIN, 2 HALT, 3 ABORT. -/
def stopReq (c mode : Nat) : Act := .ask fun s =>
  let x := s.chan c
  when_ ((x.st == .queued || x.st == .running || x.st == .parked) && x.stopPend < mode) <| acts [
    modChan c fun x => { x with stopPend := mode }, stopTry c]

/-- A DEV_STOP write with a mode, or with none that R256 accepts. -/
def devStop (p : Path) (v : Word) (c gen : Nat) (mode : Option Nat) : Act := pathWrite p 0x050 v <| .ask fun s =>
    let x := s.chan c
    let dev := x.ctx == 64 || x.ctx == 65
    match mode with
    | some m =>
      if x.st == .free || x.gen != gen || (p == .bar0 && dev) then acts [count F.DEV_STOP_CNT_REFUSED, event F.DEV_STOP_EVT_REFUSED]
      else stopReq c m
    | none => acts [count F.DEV_STOP_CNT_REFUSED, event F.DEV_STOP_EVT_REFUSED]

/-- HALT_AT_BURST_BOUNDARY: a running channel with a pending HALT reaches its boundary (R261, R262). -/
def haltBoundary (c : Nat) : Act := .ask fun s =>
  when_ (!s.pwr.off && (s.chan c).st == .running && (s.chan c).stopPend == 2) <| acts [
    settle c,
    .ask fun s =>
      let x := s.chan c
      when_ (x.st == .running && x.stopPend == 2) <|
        forSome x.run fun r => match r.cur with
          | none => haltAt c r.next (r.resume.getD 0)
          | some d =>
            let op := dOp d.words
            let between := d.data.isNone && d.off % max (s.burstBytes c d.words) 1 == 0 &&
              (d.phase == .ready || d.phase == .hostData || d.phase == .walk)
            if isMoveOp op then when_ between (haltAt c d.idx d.off)
            else if op == 0x10 || op == 0x11 then when_ (d.data.isNone && !s.haltWaits c) (haltAt c d.idx d.off)
            else when_ ((isWaitOp op || isCtlOp op) && d.phase == .ready) (haltAt c d.idx 0)]

/-! ### The Snuffer (R215, R216, R222, Table ARB-5) -/

/-- A bite is counted and, when none is captured, captured (R222). -/
def biteCapture (chan : Option Nat) (mid res : Nat) (priv : Bool) : Act := .ask fun s => acts [
  when_ (!s.flag F.ARB_EVT_BITE) (acts [
    putWord 0 0x250 (BitVec.ofNat 32 (chan.getD 0 + 2 ^ 8 * mid + 2 ^ 16 * res + 2 ^ 31)),
    putWord 0 0x254 (BitVec.ofNat 32 s.now.toNat), putWord 0 0x258 (BitVec.ofNat 32 (s.now.toNat / 2 ^ 32))]),
  event F.ARB_EVT_BITE, count F.ARB_CNT0_BITES, when_ priv (event F.ARB_EVT_PRIV)]

/-- A bitten window access faults with cause 5 and returns 0 when it is a read (R98; log 13). -/
def windowBitten (p : Path) : Act := .ask fun s => acts [
  winFault p 5, winAdvance p,
  match (s.port p).held with
  | some h => when_ (h.reg == some .win) (acts [heldWaits p h.since, gotWord p 0, readGo p 18])
  | none => acts [
      modPort p fun x => { x with held := some ⟨none, s.clk, s.now, 0x108, 1, false, 15, 15, []⟩, reply := [], cpls := [] },
      gotWord p 0, readDone p]]

/-- A channel holds a resource (Table ARB-7): an engine's grant that has reached the limit, or has not moved on and will; a
fabric port whose last grant was its engine's; a lane with a frame of its EMIT on the wire. -/
def State.holds (s : State) (c res : Nat) : Bool :=
  let e := (s.chan c).engine
  if res < 4 then res == e && (s.engine e).chan == some c && !s.readWait c
  else if 0x30 ≤ res then (match (s.lane (res - 0x30)).tx with
    | some t => t.1.ofChan c
    | none => false)
  else (s.fport res).owner.any (·.idx == e) && (s.engine e).chan == some c

/-- A bitten channel stops under ABORT with SNUFFED when the count of its grant reaches the limit (R215, R216); an operation
that ABORT does not cut ends first (R268). -/
def biteChan (c res : Nat) : Act := .ask fun s =>
  let e := (s.chan c).engine
  when_ (s.holds c res) <| acts [
    when_ (res < 4) (advanceTo ((s.engine e).granted + (s.engine e).excused + s.snufLimit)),
    when_ (0x10 ≤ res && res < 0x30) (acts [advanceTo ((s.fport res).first + s.snufLimit), portDrop res]),
    biteCapture (some c) (ctxMid (s.chan c).ctx) res (isDevCtx (s.chan c).ctx),
    .ask fun s =>
      if s.atomicBusy c then acts [queueAt c .none, modChan c fun x => { x with bitten := true }]
      else faultChan c stSNUFFED (match s.cur c with
        | some d => d.off
        | none => 0)]

/-- The bites that are due (R215, R218). -/
def dueBites : Act := forEach (List.range 4) fun e => .ask fun s => forSome (s.biteDue e) fun c => biteChan c e

/-- The port of a path's window access: a bank, the object store, or the trace buffer (R285). -/
def State.windowRes (s : State) (p : Path) : Option Nat :=
  let a := s.fldI (pathInst p) F.WIN_ADDR_ADDR / 4 * 4
  match s.fldI (pathInst p) F.WIN_CTL_SPACE with
  | 1 => some 0x20
  | 2 => some (resOf 0 a)
  | 5 => some 0x25
  | _ => none

/-- A bank, and any port that holds device memory: banks, the object-store controller and the directory. -/
def isBank (res : Nat) : Bool := 0x10 ≤ res && res < 0x20
def isMemRes (res : Nat) : Bool := 0x10 ≤ res && res ≤ 0x21

/-- SNUFFER_BITE: the access of another owner than a channel is the one that the row names (log 13). -/
def biteAct (res : Nat) (owner : BiteOwner) : Act := .ask fun s => when_ (!s.pwr.off) <|
  match owner with
  | .chan c => biteChan c res
  | .window p => when_ (!s.pathDead p && (s.windowRes p == some res || res == 0x21))
      (acts [portDrop res, biteCapture none (pathMid p) res false, windowBitten p])
  | .hostIn write => when_ (s.linkUp && (isBank res || res == 0x21)) (acts [
      portDrop res, biteCapture none 0x40 res false, bar4Refused,
      when_ (!write) (modBar fun x => { x with cpls := [⟨4, []⟩] })])
  | .zhnIn h => when_ (isMemRes res) (acts [
      portDrop res, biteCapture none (4 + h.src) res false, count F.PEL_CNT1_REFUSED,
      zAnswer 0x12 h.src h.opId (leBytes 1 2)])
  | .governor => when_ (isMemRes res) (acts [portDrop res, biteCapture none 0x02 res true, postErr ⟨0x07, 6, 0x02, 0, none, 0x7F, 0, res⟩])
  | .internal => when_ (0x10 ≤ res && res < 0x30)
      (acts [portDrop res, biteCapture none 0x03 res true, postErr ⟨0x07, 6, 0x03, 0, none, 0x7F, 0, res⟩])

/-- The word that a write to DEV_STOP carries (R256). -/
def stopWord (c gen mode : Nat) : Word := BitVec.ofNat 32 (c % 256 + 2 ^ 8 * (gen % 4096) + 2 ^ 20 * mode)

end Sys2Proof.Machine
end

