-- ==== Sys2Proof/Machine/Teardown.lean ====
section
/-!
DEFINITION. Tearing contexts, channels and queues down (R144, R146, R147, R356, R365).
-/

namespace Sys2Proof.Machine

/-- Discard the reads and walks made for a queue's rings. -/
def killRing (q : Nat) : Act := dropReads (fun p => p == .ring q || p.walksFor (.sq q) || p.walksFor (.cq q))

/-- Records due to a queue are written no more. -/
def dropDue (q : Nat) : Act := .ask fun s => acts [.upd (.due (s.due.filter (·.queue != q))), ringWake]

/-- The live queues of a context. -/
def State.queuesOf (s : State) (n : Nat) : List Nat := s.queues.keys.filter (fun q => (s.queue q).live && (s.queue q).ctx == n)

/-- The channels of a context. -/
def State.chansOf (s : State) (n : Nat) : List Nat :=
  s.chanList.filter (fun c => (s.chan c).st != .free && (s.chan c).ctx == n)

/-- A channel under teardown becomes DYING and stops under ABORT; an atomic operation ends first (R268). -/
def dyingChan (c status : Nat) : Act := acts [
  modChan c fun x => { x with st := .dying, dest := none },
  .ask fun s => if s.atomicBusy c then modChan c fun x => { x with stopPend := 3 } else abortChan c status status]

/-- Steps 1 and 2 of R144 begin: the context is DYING, its queues are read no longer, its channels stop with no records. -/
def ctxDie (n : Nat) : Act := .ask fun s => acts [
  forEach (s.chansOf n) (holdRefs n),
  modCtx n fun x => { x with st := .dying, losing := none },
  forEach (s.queuesOf n) fun q => acts [killRing q, dropDue q],
  forEach (s.chansOf n) fun c => dyingChan c stABORTED]

/-- The device issues no further access for a context (R144 step 2). -/
def State.ctxQuiet (s : State) (n : Nat) : Bool := (s.chansOf n).all (fun c => (s.chan c).run.isNone)

/-- Clear a context's HOLD and IMPORTED bits, returning each hold (R356). -/
def dropHolds (n : Nat) : Act := .ask fun s => acts [
  forEach s.mems.keys fun i => .ask fun s => when_ (bitAt (s.mobj i).holds n)
    (acts [modMobj i fun m => { m with holds := clrBit m.holds n }, memTryFree i]),
  forEach s.fences.keys fun i => .ask fun s => when_ (bitAt (s.fence i).holds n || bitAt (s.fence i).imported n)
    (acts [modFence i fun f => { f with holds := clrBit f.holds n, imported := clrBit f.imported n }, fenceTryFree i])]

/-- Step 6 of R144: Cupboard allocations are freed whatever their count (R365). -/
def unwindCup (n : Nat) : Act := .ask fun s =>
  forEach (s.mems.keys.filter (fun i => (s.mobj i).live && (s.mobj i).typ == 3 && (s.mobj i).owner == n)) fun i => acts [
    when_ ((s.mobj i).unattr != 0) (event F.CUP_EVT_UNWIND), memFree i]

/-- Step 7: objects owned by the context are marked for destruction. -/
def destroyOwned (n : Nat) : Act := .ask fun s => acts [
  forEach (s.mems.keys.filter (fun i => (s.mobj i).live && (s.mobj i).owner == n)) memDestroyReq,
  forEach (s.fences.keys.filter (fun i => (s.fence i).live && !(s.fence i).proxy && (s.fence i).owner == n)) fenceDestroyReq]

/-- Steps 3 to 8 of R144. -/
def teardown (n : Nat) : Act := .ask fun s => acts [
  lampReleaseCtx n,
  chairAbandon s.self (ctxMid n),
  forEach (s.ctx n).heldRefs dropRef, modCtx n fun x => { x with heldRefs := [] },
  unwindCup n, destroyOwned n, dropHolds n,
  .ask fun s => acts [
    forEach (s.chansOf n) chanFree,
    forEach (s.queuesOf n) queueFree,
    .upd (.tlb (s.tlb.filter (·.ctx != n)))]]

/-- Step 9: the index becomes FREE with its generation advanced; its key set is key 0 alone (R311). -/
def ctxFree (n : Nat) : Act := acts [
  putWord n 0x2B8 1,
  takeFreeSeq fun k => modCtx n fun x => { Ctx.init with gen := (x.gen + 1) % 4096, freedAt := k }]

/-- A mailbox command still waits for a context to be quiet. -/
def State.jobWaits (s : State) (w : JobWait) : Bool :=
  (match s.jobScp with
    | some j => j.wait == w
    | none => false) ||
  (match s.jobBar with
    | some j => j.wait == w
    | none => false)

/-- CTX_TEARDOWN_COMPLETE: steps 3 to 9, once CTX_DESTROY has finished and no granted Cupboard operation runs. -/
def teardownAct (n : Nat) : Act := .ask fun s =>
  when_ (!s.pwr.off && !isDevCtx n && (s.ctx n).st == .dying && s.ctxQuiet n && !s.cupBusyFor n && !s.jobWaits (.ctxQuiet n))
    (acts [teardown n, ctxFree n, raiseVec (n + 1)])

end Sys2Proof.Machine
end

