-- ==== Sys2Proof/Machine/HostRows.lean ====
section
/-!
DEFINITION. The host link's rows: completions and timeouts of the device's reads (R482, R483), MSI-X messages (R488),
BAR4 and unsupported requests (R475 to R479), TLB invalidation (R128), and function resets (R491, R492).
-/

namespace Sys2Proof.Machine

/-! ### Completions -/

/-- A channel whose request has been answered goes on. -/
def chanResume (c : Nat) : Act := acts [
  modCur c fun d => { d with phase := .ready },
  .ask fun s => match s.cur c with
    | some d => if isMoveOp (dOp d.words) then moveOn c
        else when_ (dOp d.words == 0x38 && d.data.isSome)
          (if (s.chan c).st == .running then acts [putResult c 40, settleStop c] else resultOn c)
    | none => .skip]

/-- The completion of a flush read: FENCE_NEXT or SIGNAL goes on (R176), and a stop that waited for it. -/
def flushDone (c : Nat) : Act := .ask fun s => forSome (s.cur c) fun d => acts [
  modRun c fun r => { r with hostWrote := none },
  match d.after with
  | some st => modCur c fun d => { d with phase := .done st, after := none }
  | none => acts [modCur c fun d => { d with phase := .ready }, signalGo c],
  settleStop c]

/-- A flush read fails: the descriptor completes with HOST_ERR (R176). -/
def flushFail (c : Nat) : Act := acts [
  modRun c fun r => { r with hostWrote := none },
  .ask fun s => modCur c fun d => { d with
    phase := .done stHOST_ERR, after := none, doneWT := s.now, addr := dDst d.words },
  settleStop c]

/-- An access that waited for a walk faults with a status at a virtual address (R125, R554). -/
def walkFault (w : Who) (va status : Nat) : Act := .ask fun s =>
  match w with
  | .chan c => forSome (s.cur c) fun d => accessFault c status d.off va
  | .sq q => ringFault q status va
  | .cq q => ringFault q status va

/-- What the walk reads of a requester carry (R202): a ring read's serve no descriptor, a record's do as the record. -/
def State.walkReq (s : State) : Who → FReq
  | .chan c => s.engReq c 1
  | .sq _ => s.internalReq
  | .cq q => match s.due.find? (·.queue == q) with
    | some d => ⟨d.eng, d.tier, d.l, s.now, 1⟩
    | none => s.internalReq

/-- A walk has its leaf: who waited for it goes on. -/
def walkEnd (w : Who) : Act := match w with
  | .chan c => chanResume c
  | _ => .skip

/-- A read has ended with all its data. -/
def readEnd (r : HRead) (bs : List Byte) : Act := .ask fun s =>
  match r.purpose with
  | .walk who ctx va level write w =>
    let e := ofLe bs
    (match walkEntry level e write w with
      | .next table => raiseRead ⟨.walk who ctx va (level + 1) write (w && bitAt e 1), table + walkIndex (level + 1) va, 8,
          false, false, s.walkReq who, none⟩
      | .leaf page ns => acts [
          tlbPut ⟨ctx, level == 2, if level == 2 then va / 2 ^ 21 else va / 2 ^ 12, page, w && bitAt e 1, ns⟩, walkNext, walkEnd who]
      | .bad => acts [walkNext, walkFault who va stXLATE_FAULT])
  | .data c => acts [modCur c fun d => { d with data := some bs }, chanResume c]
  | .flush c => flushDone c
  | .ring q => if s.queueRead q then judgeEntry q bs else modQueue q fun x => { x with reading := false }

/-- A read has failed (R483). -/
def readFail (r : HRead) : Act := .ask fun s =>
  match r.purpose with
  | .walk who _ va .. => acts [walkNext, walkFault who va stHOST_ERR]
  | .data c => forSome (s.cur c) fun d => faultChan c stHOST_ERR d.off
  | .flush c => flushFail c
  | .ring q => ringFault q stHOST_ERR (ringAt (s.queue q).sqRing (s.queue q).log2 (s.queue q).sqHead)

/-- The Snuffer does not count the clocks a channel waited for its read (R215); one that it no longer waits for excuses none. -/
def excuse (r : HRead) : Act := when_ (!r.dead) <| forSome r.purpose.chan? fun c => forEach (List.range 4) fun e => .ask fun s =>
  when_ ((s.engine e).chan == some c) (modEngine e fun x => { x with excused := x.excused + (s.clk - max r.since x.granted) })

/-- HOST_COMPLETION: status 0 is Successful Completion. -/
def completionAct (tag status : Nat) (poison : Bool) (data : List Byte) : Act := .ask fun s =>
  when_ (!s.pwr.off && s.linkUp) <|
    match s.host.reads.find? (·.tag == tag) with
    | none => acts [count F.HLK_CNT2_UNEXP, event F.HLK_EVT_UNEXP, aerLog .unexpectedCompletion]
    | some r =>
      if status != 0 || poison then acts [
        when_ poison poisoned,
        dropRead r, excuse r, when_ (!r.dead) (readFail r)]
      else
        let got := r.got ++ data
        if got.length < r.len then
          modHost fun h => { h with reads := h.reads.map (fun x => if x.tag == tag then { x with got := got } else x) }
        else acts [dropRead r, excuse r, when_ (!r.dead) (readEnd r (got.take r.len))]

/-- COMPLETION_TIMEOUT (R482): no range of PCI Express is shorter than 50 µs. -/
def timeoutAct (tag : Nat) : Act := .ask fun s =>
  when_ (!s.pwr.off && s.linkUp) <|
    forSome (s.host.reads.find? (·.tag == tag)) fun r => acts [
      advanceTo (r.since + usClocks 50),
      dropRead r, excuse r, count F.HLK_CNT0_CTO, event F.HLK_EVT_CTO, aerLog .completionTimeout, when_ (!r.dead) (readFail r)]

/-! ### BAR4 (R477 to R479) and unsupported requests (R475) -/

/-- A BAR4 access to staging as the protection unit sees it. -/
def State.bar4Access (s : State) (addr len : Nat) (wr : Bool) : Access :=
  ⟨0x40, 4, s.fld F.PRT_CTL_BAR4_KEY, 0, false, 0xFF, 0, addr, len, wr⟩

/-- The pieces of a byte range at 64-byte boundaries, as offset and length (log 15). -/
def cplPieces : Nat → Nat → Nat → List (Nat × Nat)
  | 0, _, _ => []
  | fuel + 1, addr, len =>
    if len == 0 then [] else
    let n := min len (toBoundary addr 64)
    (addr, n) :: cplPieces fuel (addr + n) (len - n)

/-- BAR4_READ: behind a posted write that still waits, it waits too (R474). -/
def bar4ReadAct (addr len : Nat) : Act := .ask fun s =>
  when_ (!s.pwr.off && s.linkUp && addr + len ≤ 0x200000) <|
    if s.writeWaits then barQueue (.rd4 addr len) else
    let acc := s.bar4Access addr len false
    let refused := s.firstRefused acc
    let good := match refused with
      | some (k, _) => k
      | none => len
    acts [
      (match refused with
        | some (k, .refuse cause region shade) => acts [protCapture (acc.beatAt k) cause region shade, bar4Refused]
        | _ => .skip),
      touchRead s.hostReq none 0 addr good,
      .ask fun s =>
        let done := ((cplPieces (len / 64 + 2) addr len).filter (fun p => p.1 + p.2 ≤ addr + good)).map
          (fun p => (⟨0, s.cohBytes 0 p.1 p.2⟩ : Cpl))
        modBar fun x => { x with cpls := done ++ (if refused.isSome then [⟨4, []⟩] else []) }]

/-- BAR4_WRITE. -/
def bar4WriteAct (addr : Nat) (data : List Byte) (be : List Bool) (poison : Bool) : Act := .ask fun s =>
  when_ (!s.pwr.off && s.linkUp) <|
    if poison then poisonedWrite
    else when_ (decide (addr + data.length ≤ 0x200000)) <|
      let acc := s.bar4Access addr data.length true
      match s.firstRefused acc with
      | none => otherWriteBe s.hostReq 0 addr data be
      | some (k, .refuse cause region shade) => acts [
          otherWriteBe s.hostReq 0 addr (data.take k) be, protCapture (acc.beatAt k) cause region shade, bar4Refused]
      | some (k, _) => otherWriteBe s.hostReq 0 addr (data.take k) be

/-- BAR_UNSUPPORTED_REQUEST: a read is answered with Unsupported Request. -/
def barUrAct (write : Bool) : Act := .ask fun s =>
  when_ (!s.pwr.off && s.linkUp) <| acts [
    count F.HLK_CNT2_UR, event F.HLK_EVT_UR, aerLog .unsupportedRequest, when_ (!write) (modBar fun x => { x with cpls := [⟨1, []⟩] })]

/-! ### TLB invalidation (R128) -/

/-- A leaf lies in the scope of an invalidation. -/
def Tlb.inScope (t : Tlb) (scope ctx vpn : Nat) : Bool :=
  scope == 2 || (t.ctx == ctx && (scope == 1 || t.vpn == (if t.big then vpn / 512 else vpn)))

/-- A walk that an invalidation overtakes starts again after it (R128, R151). -/
def Purpose.again? (p : Purpose) (q : Who → FReq) : Option WalkReq := match p with
  | .walk who ctx va _ write _ => some ⟨who, ctx, va, write, q who⟩
  | _ => none

/-- Walks in progress are discarded; they wait, first in line, for the invalidation to end (R128). -/
def walksAgain : Act := .ask fun s => modHost fun h =>
  let ps := (h.reads.filter (!·.dead)).map (·.purpose) ++ h.waits.map (·.purpose)
  { h with
    reads := h.reads.map (fun r => if r.purpose.isWalk then { r with dead := true } else r),
    waits := h.waits.filter (fun r => !r.purpose.isWalk),
    walkq := ps.filterMap (·.again? s.walkReq) ++ h.walkq }

/-- A write to HLK_TLB_INV. -/
def tlbInvAct (v : Word) : Act := .ask fun s =>
  let ctx := bits v.toNat 0 7
  let scope := bits v.toNat 8 2
  let vpn := s.fld F.HLK_TLB_VA_VPN
  if s.tlbInv.isSome then put F.HLK_TLB_INV_OVR 1
  else acts [
    when_ (bitAt v.toNat 30) (put F.HLK_TLB_INV_OVR 0),
    put F.HLK_TLB_INV_CTX ctx, put F.HLK_TLB_INV_SCOPE scope,
    if scope == 3 || (scope ≤ 1 && ctx > 63) then put F.HLK_TLB_INV_OVR 1
    else acts [
      .upd (.tlb (s.tlb.filter (fun t => !t.inScope scope ctx vpn))), walksAgain, .upd (.tlbInv (some (scope, ctx, vpn)))]]

/-- TLB_INVALIDATE_DONE: the invalidation ends once no read that used a matching leaf waits for its grant, and the misses that
waited for it are walked (R128). -/
def tlbInvDone : Act := .ask fun s => when_ (!s.pwr.off) <| forSome s.tlbInv fun b =>
  when_ (!(s.host.waits.any (fun r => r.leaf.any (·.inScope b.1 b.2.1 b.2.2)))) (acts [.upd (.tlbInv none), walkNext])

/-! ### Function resets (R122, R271, R491, R492) -/

/-- The BAR0 bank and latches take their reset values (R110, R579). -/
def bar0BankReset : Act := acts [
  .upd (.keepRegs (fun k => !(0x1000 ≤ k && k < 0x2000 && ((0x0C0 ≤ k - 0x1000 && k - 0x1000 < 0x180) ||
    k - 0x1000 == 0x194 || k - 0x1000 == 0x2DC)))),
  .upd (.bar PathPort.init),
  .ask fun s => .upd (.jobBar (s.jobBar.map (fun j => { j with discard := true })))]

/-- A channel of contexts 0 to 63 stops at PERST# (R271): frames sent run to their end (R269). -/
def perstChan (c : Nat) : Act := acts [
  modChan c fun x => { x with st := .dying, dest := none }, orphanEmit c, abortChan c stABORTED stABORTED]

/-- A context is torn down at a function reset, with no access to the host and no record (R122, R271). -/
def perstCtx (n : Nat) : Act := .ask fun s =>
  when_ ((s.ctx n).st != .free) <| acts [
    modCtx n fun x => { x with st := .dying, losing := none },
    forEach (s.queuesOf n) dropDue,
    forEach (s.chansOf n) perstChan,
    teardown n,
    if n == 0 then modCtx 0 fun x => { Ctx.init with st := .dying, gen := x.gen, freedAt := x.freedAt } else ctxFree n]

/-- A PTM dialogue in progress fails (R490). -/
def ptmFail : Act := .ask fun s =>
  when_ s.ptm.start.isSome (acts [modPtm fun p => { p with start := none }, put F.WHL_PTM_CTL_FAIL 1])

/-- The host link as a function reset leaves it (R491): `up` is whether the link itself stays up. -/
def HostLink.reset (h : HostLink) (up perst : Bool) : HostLink :=
  if up && h.link then { HostLink.init with link := true, gen := h.gen, width := h.width, perst := h.perst || perst, fr := true }
  else { HostLink.init with link := false, perst := h.perst || perst, fr := true }

/-- The highest speed a training may reach (R495, R621). -/
def State.maxGen (s : State) : Nat :=
  let g := s.fld F.HLK_CTL_MAX_GEN
  if 1 ≤ g && g ≤ 4 then g else 4

/-- The link trains when it is down; one that stayed up keeps its speed and width (R495). -/
def linkTrain (gen width : Nat) : Act := .ask fun s => when_ (!s.host.link) <|
  modHost fun h => { h with link := true, gen := max 1 (min gen s.maxGen), width := width % 16 }

/-- FUNCTION_RESET_START with a cause of Table ERR-5. -/
def frStart (cause : Nat) : Act := .ask fun s =>
  if s.host.fr then
    modHost fun h => { h with perst := h.perst || cause == 0, link := h.link && (cause != 0 && cause != 2) }
  else acts [
    when_ ((match s.cup.op with
      | some o => decide (o.ctx < 64)
      | none => false)) cupEndAct,
    chairUnwait (.path .bar0),
    modHost fun h => h.reset (cause == 3 || cause == 4 || cause == 5) (cause == 0),
    forEach (List.range 64) perstCtx,
    bar0BankReset,
    putWord 0 0x918 0, putWord 0 0x91C 0,
    .upd (.tlbInv none),
    ptmFail,
    event F.HLK_EVT_DOWN,
    postPlain 0x0C 15 cause 0]

/-- The end of a function reset: context 0 is LIVE again with its generation advanced (R122, R492). -/
def frEnd (c : HostCfg) : Act := .ask fun s =>
  when_ (s.host.fr && !s.pwr.standby && !s.pwr.entering) <| acts [
    linkTrain c.gen c.width,
    modHost fun h => { h with fr := false, perst := false },
    modCtx 0 fun x => { Ctx.init with st := .live, gen := (x.gen + 1) % 4096 },
    putWord 0 0x918 0, putWord 0 0x91C 0,
    event F.HLK_EVT_UP,
    modHost fun h => { h with
      roEn := c.roEn, tag10 := c.tag10, extTag := c.extTag, mps := c.mps % 8, mrrs := c.mrrs % 8, ptmEn := c.ptmEn,
      msixEn := c.msixEn, fmask := c.fmask }]

end Sys2Proof.Machine
end

