-- ==== Sys2Proof/Machine/Mailbox.lean ====
section
/-!
DEFINITION. The command mailbox (R100 to R105, Tables SCP-5 and SCP-6) and the commands on contexts, queues, channels,
memory objects, fences, staging views, chair tables and engines (R121 to R147, R333, R351 to R379, R560 to R564).
-/

namespace Sys2Proof.Machine

/-! ### The protocol -/

/-- Mailbox results (Table SCP-6). -/
def mbOK : Nat := 0x00
def mbBAD_OP : Nat := 0x01
def mbBAD_ARG : Nat := 0x02
def mbBAD_HANDLE : Nat := 0x03
def mbNO_RIGHT : Nat := 0x04
def mbNO_SPACE : Nat := 0x05
def mbWRONG_STATE : Nat := 0x06

/-- The other path. -/
def otherPath : Path → Path
  | .scp => .bar0
  | .bar0 => .scp

/-- Change a path's command in progress. -/
def modJob (p : Path) (f : Option Job → Option Job) : Act := .ask fun s =>
  match p with
  | .scp => .upd (.jobScp (f s.jobScp))
  | .bar0 => .upd (.jobBar (f s.jobBar))

/-- The result of the command in progress, its result words, and what its end waits for. -/
def answer (p : Path) (result : Nat) (res : List Nat) (w : JobWait) : Act :=
  modJob p fun j => j.map (fun j => { j with result := result, res := res.map (BitVec.ofNat 32), wait := w })

/-- A command that ends with a result other than OK and changes nothing. -/
def refuse (p : Path) (result : Nat) : Act := answer p result [] .none

/-- An argument word as latched at the CMD_OP write. -/
def State.arg (s : State) (p : Path) (i : Nat) : Nat := (s.word (pathInst p) (0x0C0 + 4 * i)).toNat

/-- A CMD_OP write (R100, R104): ignored after step 1 of R272; OVERRUN while BUSY; a command behind the other path's begins
when that one has finished (R105); WRONG_STATE after PWRFAIL# (R273). -/
def mailOp (p : Path) (op seq : Nat) (body : (Nat → Nat) → Act) : Act :=
  pathWrite p 0x0D8 (BitVec.ofNat 32 (op % 256 + 2 ^ 8 * (seq % 256))) <| .ask fun s =>
  let behind := (s.job (otherPath p)).isSome
  if s.pwr.seq.isSome || s.pwr.quiesced then .skip
  else if s.busy p then putI (pathInst p) F.CMD_STAT_OVERRUN 1
  else acts [
    modJob p fun _ => some ⟨op % 256, (List.range 6).map (s.arg p), seq % 256, mbOK, [], .none, false, behind⟩,
    when_ (!behind) (if s.pfHeld then refuse p mbWRONG_STATE else body (s.arg p))]

/-- What the end of a command waits for has come about. -/
def State.waitOver (s : State) : JobWait → Bool
  | .none => true
  | .ctxQuiet n => s.ctxQuiet n
  | .queueQuiet q => !(s.chanList.any (fun c => (s.chan c).run.isSome &&
      (match (s.chan c).subs.head? with
        | some sub => sub.queue == q
        | none => false)))
  | .importRsp .. => false
  | .viewSet .. => true

/-- The result words a command returns (R100). -/
def putResults (inst : Nat) (res : List Word) : Act :=
  forEach res.zipIdx fun r => putWord inst (0x0E4 + 4 * r.2) r.1

/-- CMD_WAIT_TIMEOUT: a held CMD_WAIT read returns at 50 µs with BUSY still 1 (R101). -/
def waitTimeoutAct (p : Path) : Act := .ask fun s =>
  when_ (s.heldOn p .cmdWait) <| forSome (s.port p).held fun h =>
    acts [advanceTo (h.since + usClocks 50), readRelease p]

/-! ### Contexts (R121, R123, R144, R561) -/

/-- The free index freed longest ago below a bound (R119). -/
def freeIndex (lo hi : Nat) (free : Nat → Bool) (freedAt : Nat → Nat) : Option Nat :=
  pickFree (((List.range (hi - lo)).map (· + lo)).filterMap (fun i => if free i then some (freedAt i, i) else none))

/-- CTX_CREATE.  CMD_ARG3 to CMD_ARG5, which it does not list, are not looked at (DESIGN CHOICE, log 84). -/
def ctxCreate (p : Path) (a : Nat → Nat) : Act := .ask fun s =>
  let root := a 1 + 2 ^ 32 * a 2
  if a 0 > 2 || root % 2 ^ 13 != 0 || root ≥ 2 ^ 52 then refuse p mbBAD_ARG
  else match freeIndex 1 64 (fun i => (s.ctx i).st == .free) (fun i => (s.ctx i).freedAt) with
    | none => refuse p mbNO_SPACE
    | some n => acts [
        putWord n 0x2B8 1,
        modCtx n fun x => { Ctx.init with st := .live, gen := x.gen, freedAt := x.freedAt, mode := a 0, root := root },
        answer p mbOK [handle 1 (s.ctx n).gen n] .none]

/-- CTX_DESTROY. -/
def ctxDestroy (p : Path) (a : Nat → Nat) : Act := .ask fun s =>
  match s.ctxOf (a 0) with
  | none => refuse p mbBAD_HANDLE
  | some n =>
    if isDevCtx n then refuse p mbNO_RIGHT
    else if (s.ctx n).st == .dying then refuse p mbWRONG_STATE
    else acts [ctxDie n, answer p mbOK [] (.ctxQuiet n)]

/-- CTX_REINIT. -/
def ctxReinit (p : Path) (a : Nat → Nat) : Act := .ask fun s =>
  match s.ctxOf (a 0) with
  | none => refuse p mbBAD_HANDLE
  | some n =>
    if isDevCtx n then refuse p mbNO_RIGHT
    else if (s.ctx n).st != .lost then refuse p mbWRONG_STATE
    else acts [
      modCtx n fun x => { x with st := .live, fault := none, dberr := 0, dbslot := 0 },
      .upd (.tlb (s.tlb.filter (·.ctx != n))),
      forEach (s.chansOf n) fun c => modChan c fun x => { x with pace := 0 },
      forEach (s.queuesOf n) fun q => modQueue q fun x => { x with faulted := false },
      answer p mbOK [] .none]

/-! ### Queues (R132, R146) -/

/-- A ring address of a context's queue: virtual, or, for context 64, wholly in staging (R132). -/
def ringOk (n addr depth : Nat) : Bool :=
  addr % 64 == 0 && (opSel addr == 0 || (opSel addr == 1 && n == 64 && opAddr addr + 16 * depth ≤ 0x200000))

/-- The lowest free doorbell slot of a context. -/
def State.freeSlot (s : State) (n : Nat) : Option Nat := (List.range 256).find? (fun k => (s.slotQueue n k).isNone)

/-- QUEUE_CREATE. -/
def queueCreate (p : Path) (a : Nat → Nat) : Act := .ask fun s =>
  match s.ctxOf (a 0) with
  | none => refuse p mbBAD_HANDLE
  | some n =>
    let sq := a 2 + 2 ^ 32 * a 3
    let cq := a 4 + 2 ^ 32 * a 5
    if !(4 ≤ a 1 && a 1 ≤ 12 && ringOk n sq (2 ^ a 1) && ringOk n cq (2 ^ a 1)) then refuse p mbBAD_ARG
    else if (s.ctx n).st != .live then refuse p mbWRONG_STATE
    else match freeIndex 0 1024 (fun i => !(s.queue i).live) (fun i => (s.queue i).freedAt), s.freeSlot n with
      | some q, some slot => acts [
          modQueue q fun x => { Queue.init with
            live := true, gen := x.gen, freedAt := x.freedAt, ctx := n, log2 := a 1, sqRing := sq, cqRing := cq, slot := slot },
          answer p mbOK [handle 2 (s.queue q).gen q, slot] .none]
      | _, _ => refuse p mbNO_SPACE

/-- A channel gives up a queue under destruction: submissions not started go, and a chain the queue started stops under
ABORT (R146). -/
def queueLeave (q c : Nat) : Act := .ask fun s =>
  let x := s.chan c
  let mine := match x.subs.head? with
    | some sub => sub.queue == q
    | none => false
  if x.run.isSome then acts [
    modSubs c fun l => l.take 1 ++ (l.drop 1).filter (·.queue != q),
    when_ mine (if s.atomicBusy c then modChan c fun x => { x with stopPend := 3 } else abortChan c stABORTED stABORTED)]
  else acts [
    modSubs c (·.filter (·.queue != q)),
    when_ (mine && x.st == .parked && x.park == .start) (acts [lampRelease c, startNext c])]

/-- QUEUE_DESTROY. -/
def queueDestroy (p : Path) (a : Nat → Nat) : Act := .ask fun s =>
  match s.queueOf (a 0) with
  | none => refuse p mbBAD_HANDLE
  | some q =>
    if (s.queue q).destroying then refuse p mbWRONG_STATE
    else acts [
      modQueue q fun x => { x with destroying := true, blockedOn := none, reading := false },
      killRing q,
      forEach s.chanList (queueLeave q),
      dropDue q,
      queueSettle,
      answer p mbOK [] (.queueQuiet q)]

/-! ### Channels (R139, R147, R560) -/

/-- CHAN_CREATE's attribute words lie in range (Table CTX-6). -/
def chanArgsOk (a1 a2 a3 : Nat) : Bool :=
  a1 < 2 ^ 15 && bits a1 0 8 != 0 && bits a1 12 3 ≤ 4 && a2 < 2 ^ 9 && bits a2 0 8 ≤ 191 && 1 ≤ a3 && a3 ≤ 8192

/-- The base of the lowest free run of n descriptors. -/
def State.freeBlock (s : State) (n : Nat) : Option Nat := ((freeRuns 0 s.descBlocks).find? (fun r => n ≤ r.2)).map Prod.fst

/-- A new channel at an index: IDLE, its block zeros. -/
def chanMake (c n base a1 a2 a3 : Nat) : Act := .ask fun s => acts [
  .upd (.descUsed (s.descUsed + a3)),
  otherWrite s.internalReq 1 (64 * base) (List.replicate (64 * a3) 0),
  modChan c fun x => { Chan.init with
    st := .idle, gen := x.gen, freedAt := x.freedAt, ctx := n, burst := bits a1 0 8,
    engines := if bits a1 8 4 == 0 then 15 else bits a1 8 4, pfMax := if bits a1 12 3 == 0 then 4 else bits a1 12 3,
    paceWick := bits a2 0 8, paceEn := bitAt a2 8, base := base, count := a3 }]

/-- CHAN_CREATE.  CMD_ARG4 and CMD_ARG5, which it does not list, are not looked at (DESIGN CHOICE, log 84). -/
def chanCreate (p : Path) (a : Nat → Nat) : Act := .ask fun s =>
  match s.ctxOf (a 0) with
  | none => refuse p mbBAD_HANDLE
  | some n =>
    if !chanArgsOk (a 1) (a 2) (a 3) then refuse p mbBAD_ARG
    else if (s.ctx n).st != .live then refuse p mbWRONG_STATE
    else match freeIndex 0 256 (fun i => (s.chan i).st == .free) (fun i => (s.chan i).freedAt), s.freeBlock (a 3) with
      | some c, some base => acts [
          chanMake c n base (a 1) (a 2) (a 3), answer p mbOK [handle 3 (s.chan c).gen c, base] .none]
      | _, _ => refuse p mbNO_SPACE

/-- CHAN_DESTROY. -/
def chanDestroy (p : Path) (a : Nat → Nat) : Act := .ask fun s =>
  match s.chanOf (a 0) with
  | none => refuse p mbBAD_HANDLE
  | some c =>
    if (s.chan c).st == .dying then refuse p mbWRONG_STATE
    else acts [dyingChan c stABORTED, answer p mbOK [] .none]

/-- CHAN_REINIT. -/
def chanReinit (p : Path) (a : Nat → Nat) : Act := .ask fun s =>
  match s.chanOf (a 0) with
  | none => refuse p mbBAD_HANDLE
  | some c =>
    let x := s.chan c
    if p == .bar0 && (x.ctx == 64 || x.ctx == 65) then refuse p mbNO_RIGHT
    else if !(x.st == .idle || x.st == .halted || x.st == .stopped) then refuse p mbWRONG_STATE
    else acts [
      modChan c fun x => { x with st := .idle, resValid := false, faultDesc := 0, faultOff := 0, pace := 0 },
      answer p mbOK [] .none]

/-! ### Memory objects and references (R141 to R143, R353, R354) -/

/-- MEM_CREATE's description of an object is in range for a context (Table CUP-3). -/
def memArgsOk (n typ base len : Nat) : Bool :=
  base % 4096 == 0 && len != 0 && len % 4096 == 0 &&
  match typ with
  | 0 => n < 64 && base + len ≤ 2 ^ 40
  | 1 => !isDevCtx n && base + len ≤ 2 ^ 21
  | 2 => isDevCtx n && base + len ≤ 2 ^ 21
  | _ => false

/-- The driver part of a context's view: entries below this (Table CUP-2). -/
def driverPart (mode : Nat) : Nat := if mode == 0 then 512 else if mode == 2 then 256 else 0

/-- MEM_CREATE. -/
def memCreate (p : Path) (a : Nat → Nat) : Act := .ask fun s =>
  let base := a 2 + 2 ^ 32 * a 3
  let rel := s.fenceOf (a 5)
  match s.ctxOf (a 0) with
  | none => refuse p mbBAD_HANDLE
  | some n =>
    if !memArgsOk n (a 1) base (a 4) then refuse p mbBAD_ARG
    else if a 5 != 0 && (match rel with
        | some f => !(s.fence f).usable n
        | none => true) then refuse p mbBAD_HANDLE
    else if (s.ctx n).st != .live then refuse p mbWRONG_STATE
    else if a 1 == 1 && driverPart (s.ctx n).mode * 4096 < base + a 4 then refuse p mbNO_RIGHT
    else if (match rel with
        | some f => (s.fence f).destroy
        | none => false) then refuse p mbWRONG_STATE
    else if (match rel with
        | some f => decide ((s.fence f).cnt ≥ 2 ^ 32 - 1)
        | none => false) then refuse p mbNO_SPACE
    else match s.freeMemIndex with
      | none => refuse p mbNO_SPACE
      | some i => acts [
          forSome rel fun f => modFence f fun x => { x with unattr := x.unattr + 1 },
          modMobj i fun m => { MemObj.init with
            live := true, gen := m.gen, freedAt := m.freedAt, owner := n, typ := a 1, base := base, len := a 4, release := a 5 },
          answer p mbOK [handle 4 (s.mobj i).gen i] .none]

/-- MEM_DESTROY. -/
def memDestroy (p : Path) (a : Nat → Nat) : Act := .ask fun s =>
  match s.memOf (a 0) with
  | none => refuse p mbBAD_HANDLE
  | some i =>
    if (s.mobj i).destroy then refuse p mbWRONG_STATE
    else acts [memDestroyReq i, answer p mbOK [] .none]

/-- Mailbox REF (R141, R143, R355). -/
def refOp (p : Path) (a : Nat → Nat) : Act := .ask fun s =>
  match s.holdOn (a 0) with
  | none => refuse p mbBAD_HANDLE
  | some (.mem i) =>
    let m := s.mobj i
    if m.destroy then refuse p mbWRONG_STATE
    else if m.cnt ≥ 2 ^ 32 - 1 then refuse p mbNO_SPACE
    else acts [modMobj i fun m => { m with unattr := m.unattr + 1 }, answer p mbOK [m.cnt + 1] .none]
  | some (.fen i) =>
    let f := s.fence i
    if f.destroy && !f.proxy then refuse p mbWRONG_STATE
    else if f.cnt ≥ 2 ^ 32 - 1 then refuse p mbNO_SPACE
    else acts [modFence i fun f => { f with unattr := f.unattr + 1 }, answer p mbOK [f.cnt + 1] .none]

/-- Mailbox UNREF (R141, R143, R355). -/
def unrefOp (p : Path) (a : Nat → Nat) : Act := .ask fun s =>
  match s.holdOn (a 0) with
  | none => refuse p mbBAD_HANDLE
  | some (.mem i) =>
    let m := s.mobj i
    if m.unattr == 0 then refuse p mbWRONG_STATE
    else acts [modMobj i fun m => { m with unattr := m.unattr - 1 }, answer p mbOK [m.cnt - 1] .none, memTryFree i]
  | some (.fen i) =>
    let f := s.fence i
    if f.unattr == 0 then refuse p mbWRONG_STATE
    else acts [modFence i fun f => { f with unattr := f.unattr - 1 }, answer p mbOK [f.cnt - 1] .none, fenceTryFree i]

/-! ### Fences (R367, R371, R374 to R378) -/

/-- The free fence index that was freed longest ago (R119). -/
def State.freeFence (s : State) : Option Nat :=
  freeIndex 0 4096 (fun i => !(s.fence i).live) (fun i => (s.fence i).freedAt)

/-- FENCE_CREATE. -/
def fenceCreate (p : Path) (a : Nat → Nat) : Act := .ask fun s =>
  match s.ctxOf (a 0) with
  | none => refuse p mbBAD_HANDLE
  | some n =>
    if (s.ctx n).st != .live then refuse p mbWRONG_STATE
    else match s.freeFence with
      | none => refuse p mbNO_SPACE
      | some i => acts [
          modFence i fun f => { Fence.init with
            live := true, gen := f.gen, freedAt := f.freedAt, owner := n, value := BitVec.ofNat 64 (a 1 + 2 ^ 32 * a 2) },
          answer p mbOK [handle 5 (s.fence i).gen i] .none]

/-- FENCE_DESTROY. -/
def fenceDestroy (p : Path) (a : Nat → Nat) : Act := .ask fun s =>
  match s.fenceOf (a 0) with
  | none => refuse p mbBAD_HANDLE
  | some i =>
    if (s.fence i).proxy then refuse p mbNO_RIGHT
    else if (s.fence i).destroy then refuse p mbWRONG_STATE
    else acts [fenceDestroyReq i, answer p mbOK [] .none]

/-- An export token (Table CUP-5). -/
def token (home idx nonce : Nat) : Nat := idx % 4096 + 2 ^ 12 * (home % 4) + 2 ^ 16 * nonce

/-- FENCE_EXPORT: the first one draws the NONCE, a free value (log 6). -/
def fenceExport (p : Path) (a : Nat → Nat) : Act := .ask fun s =>
  match s.fenceOf (a 0) with
  | none => refuse p mbBAD_HANDLE
  | some i =>
    let f := s.fence i
    if f.proxy || f.destroy then refuse p mbWRONG_STATE
    else acts [
      when_ (f.nonce == 0) (drawFree fun k => modFence i fun f => { f with nonce := Config.nonce k % 65535 + 1 }),
      .ask fun s => answer p mbOK [token s.self i (s.fence i).nonce] .none]

/-- A token that matches no fence (R375). -/
def tokenBad (p : Path) : Act := acts [count F.FEN_CNT_TOKEN_BAD, event F.FEN_EVT_TOKEN_BAD, refuse p mbBAD_ARG]

/-- A context's use of an imported fence: the HOLD it would take fits its count (R375). -/
def Fence.importOk (f : Fence) (n : Nat) : Bool := isDevCtx n || bitAt f.holds n || f.cnt < 2 ^ 32 - 1

/-- Set a user context's IMPORTED and HOLD bits. -/
def importBits (i n : Nat) : Act := when_ (!isDevCtx n) <|
  modFence i fun f => { f with imported := setBit f.imported n, holds := setBit f.holds n }

/-- The proxy of a home fence. -/
def State.proxyOf (s : State) (home idx : Nat) : Option Nat :=
  s.fences.keys.find? (fun i => (s.fence i).live && (s.fence i).proxy && !(s.fence i).broken && (s.fence i).home == home &&
    (s.fence i).homeIdx == idx)

/-- The fence a token names at its home (R375). -/
def State.tokenFence (s : State) (idx nonce : Nat) : Option Nat :=
  let f := s.fence idx
  if f.live && !f.proxy && !f.destroy && nonce != 0 && f.nonce == nonce then some idx else none

/-- Ask a present home for the import of its fence (R376). -/
def importAsk (p : Path) (n tok : Nat) : Act := .ask fun s =>
  let home := bits tok 12 2
  match s.proxyOf home (bits tok 0 12), s.freeFence with
  | none, none => refuse p mbNO_SPACE
  | _, _ => acts [
      answer p mbOK [] (.importRsp s.zhn.nextOp n tok),
      zForward home 0x20 false (.imp p) (fenBody (bits tok 0 12) (fenOpCode (.imp 0)) (BitVec.ofNat 64 (bits tok 16 16)))]

/-- FENCE_IMPORT. -/
def fenceImport (p : Path) (a : Nat → Nat) : Act := .ask fun s =>
  let tok := a 0
  let home := bits tok 12 2
  let idx := bits tok 0 12
  let nonce := bits tok 16 16
  let here := home == s.self
  if bits tok 14 2 != 0 || nonce == 0 then tokenBad p
  else if here && (s.tokenFence idx nonce).isNone then tokenBad p
  else if !here && (s.peer home).route.isNone then refuse p mbBAD_ARG
  else match s.ctxOf (a 1) with
    | none => refuse p mbBAD_HANDLE
    | some n =>
      if (s.ctx n).st != .live then refuse p mbWRONG_STATE
      else if !here then importAsk p n tok
      else if !(s.fence idx).importOk n then refuse p mbNO_SPACE
      else acts [importBits idx n, answer p mbOK [handle 5 (s.fence idx).gen idx] .none]

/-! ### Staging views, chair tables and engines (R130, R131, R333, R351, R352, R563) -/

/-- A staging page lies in the Cupboard's pool (R352). -/
def State.inPool (s : State) (page : Nat) : Bool :=
  s.fld F.CUP_POOL_BASE ≤ page && page < s.fld F.CUP_POOL_BASE + s.fld F.CUP_POOL_PAGES

/-- The checks STAGE_MAP and STAGE_UNMAP share; the entry takes its value when the command finishes (R131). -/
def stageOp (p : Path) (a : Nat → Nat) (argOk right : Bool) (v : Nat) : Act := .ask fun s =>
  match s.ctxOf (a 0) with
  | none => refuse p mbBAD_HANDLE
  | some n =>
    if a 1 > 511 || !argOk || isDevCtx n then refuse p mbBAD_ARG
    else if (s.ctx n).st == .dying then refuse p mbWRONG_STATE
    else if a 1 ≥ driverPart (s.ctx n).mode || !right then refuse p mbNO_RIGHT
    else answer p mbOK [] (.viewSet n (a 1) v)

/-- STAGE_MAP. -/
def stageMap (p : Path) (a : Nat → Nat) : Act := .ask fun s =>
  let page := bits (a 2) 0 9
  stageOp p a (a 2 == page + 2 ^ 16 * bits (a 2) 16 1) (!s.inPool page) (page + 512 * bits (a 2) 16 1 + 1)

/-- STAGE_UNMAP. -/
def stageUnmap (p : Path) (a : Nat → Nat) : Act := stageOp p a true true 0

/-- CHAIRTAB_OPEN. -/
def chairtabOpen (p : Path) (a : Nat → Nat) : Act := .ask fun s =>
  match s.ctxOf (a 0) with
  | none => refuse p mbBAD_HANDLE
  | some n =>
    if a 1 > 15 then refuse p mbBAD_ARG
    else if (s.ctx n).st == .dying then refuse p mbWRONG_STATE
    else if !s.admits (a 1) n then refuse p mbNO_RIGHT
    else answer p mbOK [handle 6 (s.ctx n).gen (16 * n + a 1)] .none

/-- ENGINE_REINIT: the engine's buffer is flushed and its line cache emptied. -/
def engineReinit (p : Path) (a : Nat → Nat) : Act := .ask fun s =>
  if p == .bar0 then refuse p mbNO_RIGHT
  else if a 0 > 3 then refuse p mbBAD_ARG
  else if !(bitAt (s.fld F.ERR_ENG_OFF) (a 0) && s.engineIdle (a 0)) then refuse p mbWRONG_STATE
  else acts [flushEngine (a 0), modEngine (a 0) fun x => { x with cache := [], excl := [], wcb := [] }, answer p mbOK [] .none]

/-- BAD_OP: an opcode not in Table SCP-5 (R103). -/
def badOp (p : Path) : Act := refuse p mbBAD_OP

/-- The opcodes of Table SCP-5. -/
def opInTable (op : Nat) : Bool :=
  [0x01, 0x02, 0x03, 0x08, 0x09, 0x10, 0x11, 0x12, 0x18, 0x19, 0x1A, 0x1B, 0x20, 0x21, 0x22, 0x23, 0x28, 0x29, 0x30, 0x38,
    0x39].contains op

end Sys2Proof.Machine
end

