-- ==== Sys2Proof/Machine/Writes.lean ====
section
/-!
DEFINITION. How a write acts on a register field by field (R17, R18, R581, R584, R585), with the lock bits of Table
REG-3, and the selectors that say which instance a register access reaches (R582).
-/

namespace Sys2Proof.Machine

/-- The instance of a register that an access of a path reaches now (R582). -/
def State.instOf (s : State) (p : Path) (off : Nat) : Nat :=
  if off == 0x024 then s.fld F.CHR_TAB_SEL_TABLE
  else if off == 0x318 || off == 0x31C || off == 0x320 then s.fld F.GOV_RAIL_SEL_RAIL
  else if off == 0x2B8 then s.fld F.PRT_CKEY_IDX_CTX
  else if off == 0x384 then s.fld F.WCK_SEL_PIN
  else bankOf p off

/-- The lock bit that governs the RWL fields of an offset (Table REG-3). -/
def lockField (off : Nat) : Fld :=
  if off == 0x024 then F.CHR_TAB_CFG_LOCK
  else if off < 0x200 then F.WHL_CTL_LOCK
  else if off < 0x240 then F.KND_CTL_LOCK
  else if off < 0x280 then F.ARB_CTL_LOCK
  else if off < 0x2C0 then F.PRT_CTL_LOCK
  else if off < 0x300 then F.CUP_CTL_LOCK
  else if off < 0x340 then F.GOV_CTL_LOCK
  else if off < 0x3C0 then F.WCK_CTL_LOCK
  else if off < 0x800 then F.ERR_CTL_LOCK
  else if off < 0x900 then F.LAN_CTL_LOCK.lane ((off - 0x800) / 32)
  else if off < 0x940 then F.HLK_CTL_LOCK
  else F.PEL_CTL_LOCK

/-- The RWL fields of a register instance are locked. -/
def State.locked (s : State) (inst off : Nat) : Bool := s.fldI (if off == 0x024 then inst else 0) (lockField off) == 1

/-- What a field holds after a write of a word, by its access type. -/
def RField.next (f : RField) (locked : Bool) (old v : Nat) : Nat :=
  let w := f.hi + 1 - f.lo
  let o := bits old f.lo w
  let x := bits v f.lo w
  match f.acc with
  | .ro => o
  | .rw => x
  | .wo => 0
  | .w1c => o - (o &&& x)
  | .rwl => if locked then o else x
  | .lock => o ||| x

/-- The word a register holds after a write: each field by its own access type, and a CLR register 0 (R584, R585). -/
def writeNext (off : Nat) (locked : Bool) (old v : Nat) : Nat :=
  match regFind off with
  | none => 0
  | some r => if r.clr then 0 else (r.flds.map (fun f => f.next locked old v * 2 ^ f.lo)).sum

/-- A write with no effect beyond its fields. -/
def plainWrite (inst off : Nat) (v : Word) : Act := .ask fun s =>
  withAlert inst off (putWord inst off (BitVec.ofNat 32 (writeNext off (s.locked inst off) (s.word inst off).toNat v.toNat)))

/-- Event bits written with 1 reopen the captures of their blocks (R222, R328, R466, Table CHR-4). -/
def captureClear (off : Nat) (v : Word) : Act :=
  if off == 0x284 then when_ (bitAt v.toNat 0) (forEach [0x294, 0x298, 0x29C, 0x2A0] fun o => putWord 0 o 0)
  else if off == 0x24C then when_ (bitAt v.toNat 0) (put F.ARB_SNUF_CAP0_VALID 0)
  else if off == 0x030 then when_ (bitAt v.toNat 1) (put F.CHR_CAP_VALID 0)
  else if off == 0x35C then when_ (bitAt v.toNat 0) (put F.PMB_CAP_VALID 0)
  else .skip

/-- A write of a path to a register whose fields say all it does. -/
def fieldWrite (p : Path) (off : Nat) (v : Word) : Act := .ask fun s =>
  acts [captureClear off v, plainWrite (s.instOf p off) off v]

end Sys2Proof.Machine
end

