-- ==== Sys2Proof/Machine/Prot.lean ====
section
/-!
DEFINITION. The protection unit's rows: region entries (R320, R321), shades written through the register map (R315 to
R317, R588), and the unit's enable with the stalls of a disabled unit (R323, R324).
-/

namespace Sys2Proof.Machine

/-! ### Region entries -/

/-- A PRT_RGN_IDX write with COMMIT = 0: the holding copy takes entry IDX (R320). -/
def regionSelect (idx : Nat) : Act := .ask fun s => acts [
  put F.PRT_RGN_IDX_IDX idx,
  putWord 0 0x28C (s.word (idx + 1) 0x28C), putWord 0 0x290 (s.word (idx + 1) 0x290)]

/-- A PRT_RGN_IDX write with COMMIT = 1: entry IDX takes the holding copy, unless it is locked (R320, R321). -/
def regionCommit (idx : Nat) : Act := .ask fun s => acts [
  put F.PRT_RGN_IDX_IDX idx,
  if s.fldI (idx + 1) F.PRT_RGN_ATTR_LOCK == 1 then event F.PRT_EVT_LOCKED
  else acts [putWord (idx + 1) 0x28C (s.word 0 0x28C), putWord (idx + 1) 0x290 (s.word 0 0x290)]]

/-- A write to PRT_RGN_IDX. -/
def rgnIdxWrite (v : Word) : Act :=
  if bitAt v.toNat 31 then regionCommit (bits v.toNat 0 5) else regionSelect (bits v.toNat 0 5)

/-! ### Shades -/

/-- A shade write while a fill runs (R316, R588). -/
def shadeOverrun : Act := event F.PRT_EVT_SHD_OVR

/-- A write to PRT_SHD_DATA sets eight shades (R315). -/
def shdDataWrite (v : Word) : Act := .ask fun s =>
  if s.filling then shadeOverrun
  else forSome s.shdGroup fun g => acts [
    forEach (List.range 8) fun i => .upd (.shade (g + i) (bits v.toNat (4 * i) 4)), shdAdvance]

/-- A write to PRT_SHD_ADDR. -/
def shdAddrWrite (p : Path) (v : Word) : Act := .ask fun s =>
  if s.filling then shadeOverrun else fieldWrite p 0x2A8 v

/-- A write to PRT_SHD_FILL starts a fill, which stops at the end of the space (R316). -/
def shdFillWrite (v : Word) : Act := .ask fun s =>
  if s.filling then shadeOverrun
  else acts [
    put F.PRT_SHD_FILL_COUNT (bits v.toNat 0 16), put F.PRT_SHD_FILL_SHADE (bits v.toNat 16 4),
    let n := min (bits v.toNat 0 16) (s.shdSpace - s.fld F.PRT_SHD_ADDR_GRAN)
    when_ (s.shdGroup.isSome && n != 0) <| acts [
      .upd (.fillLeft n), .upd (.fillEnd (s.clk + (n + 7) / 8 + 1)),
      .upd (.fillAt (s.fld F.PRT_SHD_ADDR_GRAN + if s.flag F.PRT_SHD_ADDR_SPACE then 32768 else 0))]]

/-- SHADE_FILL_DONE: the fill runs to its end, eight granules a core clock, and BUSY clears (R316). -/
def fillDone : Act := .ask fun s => advanceTo s.fillEnd

/-! ### Disabling and enabling -/

/-- A stalled beat of a channel is checked again (R323): refused, it faults; else its channel asks for dispatch. -/
def stallCheck (c : Nat) : Act := .ask fun s => forSome (s.cur c) fun d =>
  let sel := opSel d.addr
  match s.reach c d.words sel (opAddr d.addr) 1 d.data.isSome with
  | .stall => .skip
  | .fault st => accessFault c st d.off d.addr
  | .refuse acc cause region shade => acts [protCapture acc cause region shade, accessFault c stPROT_FAULT d.off d.addr]
  | .go .. | .view _ => acts [modChan c fun x => { x with park := .none }, resultOn c]

/-- Every stalled beat is checked again in the next core clock, under the full order of Table PRT-3 (R323). -/
def stallWake : Act := .ask fun s => when_ (s.chanList.any (fun c => (s.chan c).park == .stall)) <| acts [
  tickBy 1, forEach s.chanList fun c => .ask fun s => when_ ((s.chan c).park == .stall) (stallCheck c)]

/-- A write to PRT_CTL; one that sets EN ends the stalls. -/
def prtCtlWrite (p : Path) (v : Word) : Act := acts [
  fieldWrite p 0x280 v, .ask fun s => when_ (s.flag F.PRT_CTL_EN) stallWake]

/-- The stalled beat of a channel is refused with cause DISABLED, at its physical place (R324). -/
def stallRefuse (c : Nat) : Act := .ask fun s => forSome (s.cur c) fun d =>
  let ctx := (s.chan c).ctx
  let sel := opSel d.addr
  let wr := d.data.isSome
  match (if sel == 1 then s.viewAddr ctx (opAddr d.addr) wr else .inl (opAddr d.addr)) with
  | .inr st => accessFault c st d.off d.addr
  | .inl a => acts [
      protCapture (s.chanAccess c d.words (sel - 1) a 1 wr) 5 0x3F 0, accessFault c stPROT_FAULT d.off d.addr]

/-- DISABLED_STALL_TIMEOUT: a stall has lasted 20 µs. -/
def stallTimeout (c : Nat) : Act := .ask fun s =>
  when_ (!s.pwr.off && (s.chan c).park == .stall)
    (acts [advanceTo ((s.chan c).parkedAt + usClocks 20), stallRefuse c])

end Sys2Proof.Machine
end

