-- ==== Sys2Proof/Machine/Wheel.lean ====
section
/-!
DEFINITION. The wheel tracker's rows (R35 to R49, R60 to R73), the generator's period (R40) and PTM dialogues (R58, R59,
R490).
-/

namespace Sys2Proof.Machine

/-! ### Edges and their errors (R44, R73) -/

/-- Acceptance windows are open: ACQUIRE, LOCKED and COAST (R44). -/
def Wheel.windowed (w : Wheel) : Bool := w.st == .locked || w.st == .coast || w.st == .acquire

/-- Spacings are measured toward R43: IDLE, LOST, and ACQUIRE entered by a change of source (R73). -/
def Wheel.measures (w : Wheel) : Bool := w.st == .idle || w.st == .lost || (w.st == .acquire && !w.qual)

/-- Device wheel time some eighths of a core clock ago, in 2^-20 angle unit; while it is held it does not move. -/
def Wheel.valueBack (w : Wheel) (back8 : Nat) : Nat :=
  w.time.toNat * 2 ^ 20 + w.frac + (if w.hold == 0 then 2 ^ 68 - back8 * (if w.slewLeft == 0 then w.inc else w.speed) / 8 % 2 ^ 68 else 0)

/-- The phase error of an edge: the nearest angle 0x000 less device wheel time at the edge (R44). -/
def Wheel.phaseErr (w : Wheel) (back8 : Nat) : Int :=
  let ang : Nat := w.valueBack back8 / 2 ^ 20 % 4096
  if ang > 2048 then 4096 - (ang : Int) else -(ang : Int)

/-- The cycle of the angle 0x000 nearest to an edge (R44). -/
def Wheel.edgeCycle (w : Wheel) (back8 : Nat) : Nat := (w.valueBack back8 / 2 ^ 20 + 2047) / 4096 % 2 ^ 36

/-- WHL_TRK as it is in force at the expected sync of a cycle: a write acts from the next expected sync on (R70). -/
def State.trkAt (s : State) (cyc : Nat) : Nat :=
  let word := (s.word 0 0x188).toNat
  match s.wheel.trkOld with
  | some (old, k) => let d := (k + 2 ^ 36 - cyc) % 2 ^ 36
    if d != 0 && d ≤ 2 ^ 35 then old else word
  | none => word

/-- Window half-width in angle units (R44). -/
def State.winAt (s : State) (cyc : Nat) : Nat := 4 * bits (s.trkAt cyc) 16 8

/-- LOCK_TOL, 0 acting as 1 (R621). -/
def State.lockTolAt (s : State) (cyc : Nat) : Nat := max 1 (bits (s.trkAt cyc) 8 8)

/-- JUMP_MIN (R45). -/
def State.jumpMinAt (s : State) (cyc : Nat) : Nat := bits (s.trkAt cyc) 24 8

/-- A spacing in eighths of a core clock lies in the supported range, 400 ns to 5 µs (R38). -/
def spacingOk (sp : Nat) : Bool := 2560 ≤ sp && sp ≤ 32000

/-- Three spacings agree within ±1% of one another (R43, R66). -/
def agree (l : List Nat) : Bool :=
  let hi := l.foldl max 0
  let lo := l.foldl min 0xFFFFFFFF
  l.length == 3 && (hi - lo) * 100 ≤ lo

/-- The mean of three spacings as a period in 1/16 core clock; rounded down, which the spec leaves open (DESIGN CHOICE, log 39). -/
def meanPeriod (l : List Nat) : Nat := 2 * l.sum / 3

/-- A spacing lies within ±2% of a period estimate (R62, R66). -/
def near2 (sp est : Nat) : Bool := (if 2 * sp ≤ est then est - 2 * sp else 2 * sp - est) * 50 ≤ est

/-! ### Phase corrections (R45, R67) -/

/-- An armed entry lies between two wheel times, both excluded (R67). -/
def LampEnt.passed (e : LampEnt) (old new : WTime) : Bool := wtBefore old e.target && wtBefore e.target new

/-- Entries fire one after another at once, four in a core clock (R53, R67); none after PWRFAIL# (R273). -/
def fireNow (l : List LampEnt) : Act := forEach l fun e => .ask fun s => when_ (!s.pfHeld) (lampFireSlot e)

/-- Put an entry among others in the order in which they fire: earliest target, then lowest index (R53). -/
def fireInsert (e : LampEnt) : List LampEnt → List LampEnt
  | [] => [e]
  | b :: rest => if wtBefore e.target b.target || (e.target == b.target && e.idx < b.idx) then e :: b :: rest
      else b :: fireInsert e rest

/-- Entries in the order in which they fire. -/
def firingOrder (l : List LampEnt) : List LampEnt := l.foldr fireInsert []

/-- Entries a forward jump passes over fire at once as LATE, or move to the same angle after the new time (R67). -/
def jumpEntries (hit : LampEnt → Bool) (new : WTime) : Act := .ask fun s =>
  let l := s.lamp.entries.filter hit
  if s.flag F.WHL_CTL_JUMP_POLICY then acts [
    countBy F.WHL_CNT1_MOVED l.length,
    modLamp fun x => { x with entries := x.entries.map (fun e =>
      if hit e then { e with target := nextAngle new (e.target.toNat % 4096), since := none, forced := false } else e) }]
  else acts [
    modLamp fun x => { x with entries := x.entries.map (fun e => if hit e then { e with since := some s.clk, forced := true } else e) },
    fireNow (firingOrder l)]

/-- Eighths of a sync's error that pass into wheel time (Table WHL-3). -/
def bwShare (bw : Nat) : Nat := match bw with | 0 => 1 | 1 => 2 | 2 => 4 | _ => 6

/-- Cycles in which a step of up to ±2% settles (Table WHL-3). -/
def bwSettle (bw : Nat) : Nat := match bw with | 0 => 8 | 1 => 6 | 2 => 4 | _ => 3

/-- A free value in a range. -/
def inRange (free lo hi : Nat) : Nat := lo + free % (hi - lo + 1)

/-- Wheel time takes up an amount of angle smoothly over the next half cycle (R45). -/
def Wheel.slewBy (w : Wheel) (x : Int) : Wheel :=
  let n := (2 ^ 31 + w.inc - 1) / max w.inc 1
  { w with slew := (x * 2 ^ 20).tdiv n, slewLeft := n }

/-- The part of an error that is absorbed by the next sync: a free value of at least half of Table WHL-3's share, and of no
more than the error; `all` leaves none (log 76). -/
def sharePart (free bw e : Nat) (all : Bool) : Nat := if all then e else inRange free (min e (e * bwShare bw / 16)) e

/-- A number with the sign of another. -/
def signed (e : Int) (n : Nat) : Int := if e < 0 then -(n : Int) else n

/-- The loop takes up a small error at an alignment over the following cycles; the estimate stays (R43, R45, R66). -/
def absorb (e : Int) : Act := .ask fun s => drawFree fun k =>
  let part := signed e (sharePart (Config.loopPhase k e (s.fld F.WHL_TRK_BW)) (s.fld F.WHL_TRK_BW) e.natAbs false)
  modWheel fun w => { w.slewBy part with resid := e - part, unset := 0 }

/-- The period that makes the present error of the one expected, over the cycles since the last good sync. -/
def Wheel.implied (w : Wheel) (e : Int) : Nat :=
  ((w.est : Int) * (4096 - (e - w.resid).tdiv (w.miss + 1)) / 4096).toNat

/-- The loop corrects its estimate and phase at a good sync (R44, R48, R65): the estimate moves toward the period that
explains the error, freely while the tracker is settled, at least half way while it is not, and all the way by the
last cycle that Table WHL-3 allows; the phase likewise (log 76). -/
def loopCorrect (e : Int) (fine : Bool) : Act := .ask fun s => drawFree fun k =>
  let bw := s.fld F.WHL_TRK_BW
  modWheel fun w =>
    let imp := w.implied e
    let settled := fine && (if imp ≤ w.est then w.est - imp else imp - w.est) * 2000 ≤ w.est
    let n := if settled then 0 else w.unset + 1
    let all := n + 1 ≥ bwSettle bw
    let d := if imp ≤ w.est then w.est - imp else imp - w.est
    let move := if all && !settled then d else inRange (Config.loopPeriod k w.est e bw) (if settled then 0 else (d + 1) / 2) d
    let est := max 1 (if imp ≤ w.est then w.est - move else w.est + move)
    let part := signed e (sharePart (Config.loopPhase k e bw) bw e.natAbs (all && !settled))
    { Wheel.slewBy { w with est := est } part with resid := e - part, unset := n }

/-- A discontinuity of wheel time is noted (R55). -/
def Wheel.disc (w : Wheel) (clk : Nat) (after : WTime) : Wheel := { w with discClk := clk, discFrom := w.time, discTo := after }

/-- The tracker aligns its phase to an edge with error e, nearest to the angle 0x000 of a cycle (R45). -/
def align (e : Int) (cyc : Nat) : Act := .ask fun s => acts [
  modWheel fun w => { w with err := e, judged := cyc },
  if e.natAbs ≤ s.jumpMinAt cyc then absorb e
  else if e < 0 then acts [
    modWheel fun w => { w.disc s.clk w.time with hold := e.natAbs * 2 ^ 20, slewLeft := 0, resid := 0, unset := 0 },
    whlEvent F.WHL_EVT_JUMP false]
  else acts [
    modWheel fun w =>
      { w.disc s.clk (wtAdd w.time e.natAbs) with
        time := wtAdd w.time e.natAbs, hold := 0, slewLeft := 0, resid := 0, unset := 0 },
    whlEvent F.WHL_EVT_JUMP false,
    jumpEntries (·.passed s.now (wtAdd s.now e.natAbs)) (wtAdd s.now e.natAbs)]]

/-- The follower adopts its head's wheel time, which stood at an angle 0x000 at the edge (R39, R508). The spec takes no
phase error here; WHL_PERIOD.ERR then reads 0 (DESIGN CHOICE, log 77). -/
def adopt (wt : WTime) (back8 : Nat) : Act := .ask fun s =>
  let t := wt.toNat * 2 ^ 20 + back8 * s.wheel.inc / 8
  let new : WTime := BitVec.ofNat 48 (t / 2 ^ 20)
  acts [
    modWheel fun w =>
      { w.disc s.clk new with
        time := new, frac := t % 2 ^ 20, hold := 0, slewLeft := 0, resid := 0, unset := 0, adopted := true, err := 0,
        judged := wt.toNat / 4096, trkOld := none },
    jumpEntries (fun e => wtBefore e.target new) new]

/-! ### Edges by tracker state -/

/-- The tracker enters a state with its counts cleared. -/
def Wheel.enter (w : Wheel) (st : Trk) (miss : Nat) : Wheel :=
  { w with st := st, miss := miss, good := 0, bad := 0, lastEdge := none, spacings := [], qual := true, resid := 0, unset := 0 }

/-- The governor's window has not been LOCKED throughout (Table GOV-4). -/
def notLocked : Act := modGov fun g => { g with lockedAll := false }

/-- A resync candidate that no qualifying edge follows counts as stray (R62). -/
def loneCandidate : Act := .ask fun s =>
  when_ (s.wheel.st == .coast && s.wheel.lastEdge.isSome) (count F.WHL_CNT0_STRAY)

/-- A change of source: ACQUIRE on the new one, with wheel time running on at the present estimate (R69, R508). The windows
of expected syncs already begun are not judged on it. -/
def sourceChange : Act := acts [
  loneCandidate,
  modWheel fun w => { w.enter .acquire 0 with qual := false, judged := w.time.toNat / 4096 },
  notLocked]

/-- An edge while spacings are measured (R43, R73); `wt` is a peer's wheel time. R39's first acquisition is the first one
by a peer's marks, whether or not the pin was acquired before: the spec leaves that open (DESIGN CHOICE, log 77). -/
def acqEdge (te8 back8 : Nat) (wt : Option WTime) : Act := .ask fun s =>
  let w := s.wheel
  match w.lastEdge with
  | none => modWheel fun w => { w with lastEdge := some te8 }
  | some l =>
    let sps := ((te8 - l) :: w.spacings).take 3
    if !spacingOk (te8 - l) then acts [
      modWheel fun w => { w with lastEdge := some te8, spacings := [] }, whlEvent F.WHL_EVT_RANGE true]
    else if agree sps then acts [
      modWheel fun w => { w.enter .acquire 0 with est := meanPeriod sps },
      match wt, w.adopted with
      | some t, false => adopt t back8
      | _, _ => align (w.phaseErr back8) (w.edgeCycle back8)]
    else modWheel fun w => { w with lastEdge := some te8, spacings := sps }

/-- An edge in COAST: a resync candidate, or part of a step (R62, R66, R73). -/
def coastEdge (te8 back8 : Nat) : Act := .ask fun s =>
  let w := s.wheel
  match w.lastEdge with
  | none => modWheel fun w => { w with lastEdge := some te8 }
  | some l =>
    let sp := te8 - l
    let sps := (sp :: w.spacings).take 3
    if !spacingOk sp then acts [
      count F.WHL_CNT0_STRAY, modWheel fun w => { w with lastEdge := some te8, spacings := [] }]
    else if near2 sp w.est then acts [modWheel fun w => w.enter .locked 0, align (w.phaseErr back8) (w.edgeCycle back8)]
    else acts [
      count F.WHL_CNT0_STRAY,
      if agree sps && sps.all (fun x => !near2 x w.est) then acts [
        modWheel fun w => { w.enter .acquire 0 with est := meanPeriod sps },
        whlEvent F.WHL_EVT_STEP true,
        align (w.phaseErr back8) (w.edgeCycle back8)]
      else modWheel fun w => { w with lastEdge := some te8, spacings := sps }]

/-- A good sync is measured for the governor (Table GOV-2). -/
def measureSync (e : Nat) (fine : Bool) : Act := .ask fun s => when_ s.gov.measuring <| modGov fun g =>
  { g with jitMax := max g.jitMax e, jitSum := g.jitSum + e, jitN := g.jitN + 1, lag := g.lag + b2n (!fine) }

/-- A good sync in ACQUIRE or LOCKED (R44, R46, R47, R61). -/
def goodSync (e : Int) (cyc : Nat) : Act := .ask fun s =>
  let fine : Bool := e.natAbs ≤ s.lockTolAt cyc
  acts [
    measureSync e.natAbs fine,
    loopCorrect e fine,
    modWheel fun w => if fine then { w with err := e, miss := 0, good := w.good + 1, bad := 0 }
      else { w with err := e, miss := 0, good := 0, bad := w.bad + 1 },
    .ask fun s =>
      let w := s.wheel
      if w.st == .acquire && w.good ≥ 16 then modWheel fun w => w.enter .locked 0
      else when_ (w.st == .locked && w.bad ≥ 16)
        (acts [modWheel fun w => w.enter .acquire 0, notLocked, whlEvent F.WHL_EVT_UNLOCK true])]

/-- The next expected sync has no edge in its window (R60, R61, R63). -/
def missOne : Act := .ask fun s =>
  let w := s.wheel
  when_ w.windowed <| acts [
    modWheel fun w => { w with judged := (w.judged + 1) % 2 ^ 36 },
    if w.miss + 1 ≥ 65 then acts [
      loneCandidate,
      modWheel fun w => { w.enter .lost 65 with
        genP := w.est, nomPend := some (s.fld F.WHL_NOMINAL_PERIOD), nomFrom := (w.time.toNat / 4096 + 1) % 2 ^ 36 },
      notLocked, whlEvent F.WHL_EVT_LOST true]
    else if w.st == .locked then acts [
      modWheel fun w => w.enter .coast 1, notLocked, whlEvent F.WHL_EVT_COAST false]
    else modWheel fun w => { w with miss := w.miss + 1, good := 0 }]

/-- Expected syncs not judged whose windows have closed at a wheel time (R44). -/
def State.closedWindows (s : State) (t : Nat) : Nat :=
  let c := (t + 2 ^ 48 - s.winAt (s.wheel.judged + 1) - 1) / 4096 % 2 ^ 36
  let d := (c + 2 ^ 36 - s.wheel.judged) % 2 ^ 36
  if d < 2 ^ 35 then d else 0

/-- Windows that have closed with no edge are missing syncs before a later edge is judged (R44). -/
def missClosed (t : Nat) : Act := .ask fun s => when_ s.wheel.windowed (rep (min (s.closedWindows t) 66) missOne)

/-- A source edge that fell some eighths of a core clock ago. -/
def edgeAt (te8 back8 : Nat) (wt : Option WTime) : Act := .ask fun s => acts [
  missClosed (s.wheel.valueBack back8 / 2 ^ 20),
  .ask fun s =>
    let w := s.wheel
    let e := w.phaseErr back8
    let cyc := w.edgeCycle back8
    let inside : Bool := w.windowed && e.natAbs ≤ s.winAt cyc
    if w.st == .master then .skip
    else acts [
      when_ inside (modWheel fun w => { w with judged := cyc, miss := if w.st == .acquire && !w.qual then 0 else w.miss }),
      if w.measures then acqEdge te8 back8 wt
      else if w.st == .coast then coastEdge te8 back8
      else if inside then goodSync e cyc
      else when_ (w.st == .locked) (count F.WHL_CNT0_STRAY)]]

/-- SYNC_EDGE: an edge of WHL_SYNC falls some eighths of a core clock from now; it is judged in the first core clock at or
after it when it is an active one (R35, R37). -/
def syncEdgeAct (dt8 : Nat) (rising : Bool) : Act := .ask fun s =>
  when_ (!s.pwr.off) <| acts [
    tickBy ((dt8 + 7) / 8),
    when_ (!s.flag F.WHL_CTL_SRC && rising != s.flag F.WHL_CTL_POL)
      (edgeAt (8 * s.clk + dt8) ((dt8 + 7) / 8 * 8 - dt8) none)]

/-- SYNC_MISSING: the window of the next expected sync closes with no edge (R44, R60, R61, R63). -/
def syncMissingAct : Act := .ask fun s =>
  when_ (!s.pwr.off && s.wheel.windowed) <| acts [
    advanceToWheel (BitVec.ofNat 48 ((s.wheel.judged + 1) * 4096 + s.winAt (s.wheel.judged + 1) + 1)), missOne]

/-- HOLD_RELEASE: the source has advanced by the error and wheel time runs on (R45). -/
def holdReleaseAct : Act := .ask fun s =>
  when_ (!s.pwr.off && s.wheel.hold != 0) (tickBy ((s.wheel.hold + s.wheel.inc - 1) / max s.wheel.inc 1))

/-! ### The generator (R40, R63) -/

/-- The next period of a generator on its way to a nominal one: at most 2% from the present (R40). -/
def nomStep (p target : Nat) : Nat := if target > p then min target (p + p / 50) else max target (p - p / 50)

/-- Wheel time at which the generator may next take a period: the angle 0x000 of `nomFrom`, or the next once that is
past (R40). -/
def Wheel.nomAt (w : Wheel) : WTime :=
  let t : WTime := BitVec.ofNat 48 (w.nomFrom * 4096)
  if wtBefore w.time t then t else angleFrom w.time 0

/-- NOMINAL_APPLY: at angle 0x000 the generator takes its written period, or a step toward it, once in a cycle. -/
def nominalApplyAct : Act := .ask fun s =>
  when_ (!s.pwr.off && (s.wheel.st == .idle || s.wheel.st == .lost || s.wheel.st == .master)) <|
    forSome s.wheel.nomPend fun t => acts [
      advanceToWheel s.wheel.nomAt,
      modWheel fun w =>
        let p := nomStep w.genP t
        { w with genP := p, nomPend := if p == t then none else some t, nomFrom := (w.time.toNat / 4096 + 1) % 2 ^ 36 }]

/-- A write to WHL_NOMINAL: refused outside the supported range (R40); a locked register ignores it (R581). -/
def nominalWrite (p : Path) (v : Word) : Act := .ask fun s =>
  let x := v.toNat % 65536
  if s.flag F.WHL_CTL_LOCK then .skip
  else if 0x1400 ≤ x && x ≤ 0xFA00 then acts [fieldWrite p 0x184 v, modWheel fun w =>
    { w with nomPend := some x, nomFrom := (w.time.toNat / 4096 + 1) % 2 ^ 36 }]
  else whlEvent F.WHL_EVT_RANGE true

/-- A write to WHL_CTL: a change of SRC restarts acquisition (R69), and OUT_EN waits for angle 0x000 (R36). -/
def whlCtlWrite (p : Path) (v : Word) : Act := .ask fun s0 => acts [
  fieldWrite p 0x180 v,
  .ask fun s =>
    if s.wheel.st == .master then
      when_ (s.flag F.WHL_CTL_OUT_EN && !s0.flag F.WHL_CTL_OUT_EN) (modWheel fun w => { w with outWait := true })
    else when_ (s.flag F.WHL_CTL_SRC != s0.flag F.WHL_CTL_SRC) sourceChange]

/-! ### PTM (R58, R59, R490) -/

/-- A dialogue starts; with PTM Enable 0 it fails at once (R490). One in progress goes on (R59). -/
def ptmStart : Act := .ask fun s =>
  when_ s.ptm.start.isNone <|
    if s.linkUp && s.host.ptmEn then
      modPtm fun x => { x with start := some s.clk, sample := s.now, valid := s.wheel.st == .locked || s.wheel.st == .master }
    else put F.WHL_PTM_CTL_FAIL 1

/-- A write to WHL_PTM_CTL: a new INTERVAL is counted from the write (R58). -/
def ptmCtlWrite (p : Path) (v : Word) : Act := .ask fun s0 => acts [
  fieldWrite p 0x1B0 v,
  .ask fun s => when_ (s.fld F.WHL_PTM_CTL_INTERVAL != s0.fld F.WHL_PTM_CTL_INTERVAL) (modPtm fun x => { x with anchor := s.now }),
  when_ (bitAt v.toNat 0) ptmStart]

/-- PTM_INTERVAL: INTERVAL cycles after the last such start, or after INTERVAL was written, the device starts a dialogue by
itself (R58). -/
def ptmIntervalAct : Act := .ask fun s =>
  let n := s.fld F.WHL_PTM_CTL_INTERVAL
  when_ (!s.pwr.off && n != 0) <|
    let t := wtAdd s.ptm.anchor (4096 * n)
    acts [advanceToWheel t, modPtm fun x => { x with anchor := t }, ptmStart]

/-- PTM_RESPONSED: the dialogue ends with its pair (R58). -/
def ptmResponse (host : DWord) : Act := .ask fun s =>
  when_ (!s.pwr.off && s.linkUp && s.ptm.start.isSome) <| acts [
    put F.WHL_PTM_WLO_W_LO (s.ptm.sample.toNat % 2 ^ 32), put F.WHL_PTM_WHI_W_HI (s.ptm.sample.toNat / 2 ^ 32),
    put F.WHL_PTM_WHI_VALID (b2n s.ptm.valid),
    put F.WHL_PTM_HLO_H_LO (host.toNat % 2 ^ 32), put F.WHL_PTM_HHI_H_HI (host.toNat / 2 ^ 32),
    put F.WHL_PTM_CTL_SEQ (s.fld F.WHL_PTM_CTL_SEQ + 1),
    modPtm fun x => { x with start := none }]

/-- PTM_TIMEOUT: 100 µs after its first Request a dialogue fails (R490). -/
def ptmTimeoutAct : Act := .ask fun s =>
  when_ (!s.pwr.off) <| forSome s.ptm.start fun t => acts [advanceTo (t + usClocks 100), ptmFail]

end Sys2Proof.Machine
end

