-- ==== Sys2Proof/Machine/Lanes.lean ====
section
/-!
DEFINITION. The Enran lanes (14): what is on TX, credits and sequence numbers, resends, turns, received frames, training,
HOLD and lane loss, with the Kindle frames among them (R230 to R237).
-/

namespace Sys2Proof.Machine

/-! ### TX (R411, R417) -/

/-- Core clocks that some characters of 8 ns take, rounded up. -/
def charClocks (n : Nat) : Nat := (n * 64 + 9) / 10

/-- Core clocks a frame takes on the wire (R411). -/
def TxFrame.clocks (f : TxFrame) : Nat := charClocks (7 + f.payload.length)

/-- ADDR, CMD, LEN byte and payload of a frame (Table ENR-3). -/
def frameChars (addr cmd seq : Nat) (payload : List Byte) : List Byte :=
  BitVec.ofNat 8 addr :: BitVec.ofNat 8 cmd :: BitVec.ofNat 8 (payload.length + 32 * seq) :: payload

/-- A TX frame with its CRC. -/
def TxFrame.sealed (f : TxFrame) : TxFrame := { f with crc := crc16 (frameChars f.addr f.cmd f.seq f.payload) }

/-- A frame whose EOF has left awaits its ACK window; a BCAST frame has none (R417, R434). -/
def settleTx (l : Nat) : Act := .ask fun s =>
  forSome (s.lane l).tx fun t => when_ ((s.lane l).busyTo ≤ s.clk)
    (modLane l fun x => { x with tx := none, unacked := if t.1.who == .bcast then x.unacked else x.unacked ++ [t.1] })

/-- The character boundary at which no frame is on TX. -/
def txFree (l : Nat) : Act := .ask fun s => acts [advanceTo (s.lane l).busyTo, settleTx l]

/-- A BCAST frame goes out: ADDR 0x80, SEQ 0, no credit (R412, R414, R420). -/
def startBcast (l cmd : Nat) (payload : List Byte) : Act := .ask fun s =>
  let f : TxFrame := { who := .bcast, addr := 0x80, cmd := cmd, payload := payload, seq := 0, retries := 0, cls := 0, l := s.now,
                       i := s.now, eng := 0, placed := none, crc := 0 }
  modLane l fun x => { x with tx := some (f.sealed, false), busyTo := s.clk + f.clocks }

/-- Characters other than a unicast frame go out. -/
def txChars (l n : Nat) : Act := .ask fun s => modLane l fun x => { x with busyTo := s.clk + charClocks n }

/-- HOLD frames are called for (R272, R273). -/
def State.holdCalled (s : State) : Bool := s.refusing

/-- A lane takes a state, which is traced (Table ERR-7). -/
def setLaneSt (l : Nat) (st : LaneSt) : Act := .ask fun s => acts [
  traceRec 6 (leBytes 1 l ++ leBytes 1 (s.lane l).st.code ++ leBytes 1 st.code), modLane l fun x => { x with st := st }]

/-- A lane's event and counter fields. -/
def laneEvent (l : Nat) (f : Fld) : Act := event (f.lane l)
def laneCount (l : Nat) (f : Fld) : Act := count (f.lane l)

/-! ### Frames of channels and of the Kindle entry -/

/-- A frame of the Kindle entry with a number. -/
def TxFrame.ofEntry (f : TxFrame) (k : Nat) : Bool := f.who == .kindle k

/-- The lane still has a frame of an entry to start, on the wire, or unacknowledged. -/
def Lane.entryLeft (x : Lane) (k : Nat) : Bool :=
  x.kq.any (·.ofEntry k) || (match x.tx with
    | some t => t.1.ofEntry k
    | none => false) || x.unacked.any (·.ofEntry k) || x.resend.any (·.ofEntry k)

/-- Lanes that hold back an entry's KND_ACK. -/
def State.entryLanes (s : State) (e : KEntry) : Nat :=
  (List.range 8).foldl (fun m l => if (s.lane l).entryLeft e.num || bitAt e.lost l then m + 2 ^ l else m) 0

/-- The trace record of a request's answer (Table ERR-7). -/
def kindleTrace : Act := .ask fun s => traceRec 2 (leBytes 4 (s.word 0 0x21C).toNat)

/-- The entry in progress is answered with KND_ACK once every frame of it is acknowledged (R228); withdrawn, it ends with
no answer (R247). -/
def kindleCheck : Act := .ask fun s =>
  forSome s.kindle.entry fun e => when_ (s.entryLanes e == 0) <| acts [
    modKindle fun k => { k with entry := none, ack := !e.withdrawn },
    when_ (!e.withdrawn) (acts [put F.KND_LAST_RESULT 0, put F.KND_LAST_ANS (s.clk - e.start)]),
    kindleTrace]

/-- The transmitter is within a Kindle entry: frames to start, or one of Kindle on the wire (R231). -/
def Lane.inEntry (x : Lane) : Bool :=
  !x.kq.isEmpty || (match x.tx with
    | some t => (match t.1.who with
        | .kindle _ => true
        | _ => false)
    | none => false)

/-- The SOF of the frame that an EMIT loaded last has left: the engine loads the next one when it has a credit for it, and
leaves the channel when it has none, when no frame is left, or when a stop is pending (R209, R262). -/
def emitStarted (f : TxFrame) : Act :=
  match f.who with
  | .emit c n => .ask fun s => forSome (s.cur c) fun d =>
      when_ (d.phase == .lane && d.sent == n + 1 && (s.chan c).st == .running) <|
        let more := decide (d.sent < emitCount d.words) && (s.chan c).stopPend < 2
        acts [when_ more (modCur c fun d => { d with phase := .ready }), when_ (!(more && s.emitReady d.words)) (queueAt c .none)]
  | _ => .skip

/-- Load a frame's SOF: a first sending takes a credit and a SEQ (R414, R420). -/
def startFrame (l : Nat) (f : TxFrame) (again : Bool) : Act := .ask fun s =>
  let x := s.lane l
  let f := if again then f else { f with seq := SMap.get 0 x.txSeq f.pc }
  acts [
    modLane l fun x => { x with
      tx := some (f.sealed, again), busyTo := s.clk + f.clocks },
    when_ (!again) (acts [
      modLane l fun x => { x with
        txSeq := SMap.set 0 x.txSeq f.pc ((f.seq + 1) % 8), credits := SMap.set 4 x.credits f.pc (x.credit f.pc - 1) },
      emitStarted f])]

/-- The first SOF of an entry on a lane: KND_LAT (Table KND-8). -/
def kindleLat : Act := .ask fun s => forSome s.kindle.entry fun e =>
  let n := min (s.clk - e.start) 255
  acts [put F.KND_LAT_SOF_LAST n, when_ (s.fld F.KND_LAT_SOF_MAX < n) (put F.KND_LAT_SOF_MAX n)]

/-- Start the next frame of the Kindle entry. -/
def startKindle (l : Nat) : Act := .ask fun s =>
  match (s.lane l).kq with
  | [] => .skip
  | f :: rest => when_ (1 ≤ (s.lane l).credit f.pc) <| acts [
      when_ (s.lane l).kfirst kindleLat,
      modLane l fun x => { x with kq := rest, kfirst := false },
      startFrame l f false]

/-- A placed frame is sent as unplaced (R233). -/
def State.unplaces (s : State) : Bool :=
  (s.wheel.st == .idle || s.wheel.st == .lost) && s.flag F.KND_CTL_UNPLACE_LOST

/-- A Kindle frame waits for its placement. -/
def State.placedWaits (s : State) (f : TxFrame) : Bool := f.placed.isSome && !s.unplaces

/-! ### LANE_FRAME_START (R230, R231, R234 to R237, R418) -/

/-- The values an EMIT frame's request carries. -/
def TxFrame.rank (f : TxFrame) : Rank := ⟨classTier f.cls, f.l, f.i, f.eng⟩

/-- Start the waiting frame of a channel. -/
def startWaiting (l c : Nat) : Act := .ask fun s =>
  forSome ((s.lane l).waiting.find? (·.ofChan c)) fun f => acts [
    modLane l fun x => { x with waiting := x.waiting.filter (fun g => !g.ofChan c) }, startFrame l f false]

/-- Waiting frames of channels, express or not, whose phase controller has a credit. -/
def Lane.asking (x : Lane) (express : Bool) : List (Nat × Rank) :=
  (x.waiting.filter (fun f => (f.cls == 3) == express && x.emitCan f.pc)).filterMap (fun f => match f.who with
    | .emit c _ => some (c, f.rank)
    | _ => none)

/-- An aborted frame is sent again from its SOF (R236). -/
def startAborted (l : Nat) (f : TxFrame) : Act := acts [
  modLane l fun x => { x with aborted := x.aborted.erase f }, startFrame l f false]

/-- Start a frame of the lane's channels: an express one (R237), an aborted one, ahead of every other of the normal arbiter
(R236), or the one that arbiter grants.  An aborted CLASS 3 frame goes ahead of the other express frames (DESIGN CHOICE, log
44). -/
def startNormal (l : Nat) : Act := .ask fun s =>
  let x := s.lane l
  match x.aborted.find? (fun f => f.cls == 3 && x.emitCan f.pc), pickRank Rank.before (x.asking true), x.aborted.find? (·.cls != 3) with
  | some f, _, _ => startAborted l f
  | none, some w, _ => acts [lateGrant w.2.l 1, startWaiting l w.1]
  | none, none, some f => when_ (x.emitCan f.pc) (startAborted l f)
  | none, none, none => arbitrate (8 + l) (x.asking false) (startWaiting l)

/-- The lane takes part in the Kindle entry in progress. -/
def State.entryOn (s : State) (l : Nat) : Bool := match s.kindle.entry with
  | some e => bitAt e.lanes l
  | none => false

/-- The lane's next frame: the first Kindle frame, if its phase controller has a credit, resends, further Kindle frames,
then, behind an answer that is owed (R231), resends and frames of channels; once HOLD is called for only a Kindle entry of the
lane runs on (R249, R274).  An idle lane's normal arbiter decides in a core clock of its own (R204). -/
def frameStart (l : Nat) : Act := .ask fun s0 => when_ (!s0.pwr.off && (s0.lane l).st == .trained) <| acts [
  txFree l,
  .ask fun s =>
    let x := s.lane l
    let waits := match x.kq with
      | f :: _ => s.placedWaits f
      | [] => false
    let first := x.kfirst && (match x.kq with
      | f :: _ => waits || 1 ≤ x.credit f.pc
      | [] => false)
    if first then when_ (!waits) (startKindle l)
    else match x.resend with
    | f :: rest => when_ ((!s.holdCalled || s.entryOn l) && (!x.kq.isEmpty || x.owed.isNone))
        (acts [modLane l fun x => { x with resend := rest }, startFrame l f true])
    | [] =>
      if !x.kq.isEmpty then when_ (!waits) (startKindle l)
      else when_ (x.owed.isNone && x.turn.isNone && !s.holdCalled)
        (acts [when_ ((s0.lane l).busyTo ≤ s0.clk) (tickBy 1), startNormal l])]

/-- PLACED_FRAME: wheel time reaches a placed frame's angle (R232). -/
def placedFrame (l : Nat) : Act := .ask fun s => when_ (!s.pwr.off && (s.lane l).st == .trained) <| acts [
  txFree l,
  .ask fun s =>
    let x := s.lane l
    let ref := if x.kfirst then (s.kindle.entry.map (·.wt)).getD s.now else x.eofWT
    match x.kq with
    | f :: _ => when_ (s.placedWaits f && (x.kfirst || x.resend.isEmpty)) <|
        forSome f.placed fun a => acts [advanceToWheel (angleFrom ref a), startKindle l]
    | [] => .skip]

/-! ### Loss of a lane (R437, R439) -/

/-- A lane wick takes a level (R430); wick triggers do not act after PWRFAIL# (R273). -/
def setLaneWick (b : Nat) (level : Bool) : Act := .ask fun s =>
  when_ (bitAt s.laneWicks b != level) <| acts [
    .upd (.laneWicks (if level then setBit s.laneWicks b else clrBit s.laneWicks b)),
    when_ (!s.pfHeld) (wickEdge (64 + b) level)]

/-- An EMIT ends with LANE_ERR. -/
def emitFail (c : Nat) : Act := .ask fun s => match s.cur c with
  | some d => when_ (dOp d.words == 0x10) (acts [descDone c stLANE_ERR, settleStop c])
  | none => .skip

/-- The channels whose EMIT frames a lane holds. -/
def Lane.emitChans (x : Lane) : List Nat :=
  ((x.tx.toList.map Prod.fst ++ x.waiting ++ x.aborted ++ x.resend ++ x.unacked).filterMap (fun f => match f.who with
    | .emit c _ => if c < 256 then some c else none
    | _ => none)).eraseDups

/-- LOCK begins (R431). -/
def laneLock (l : Nat) : Act := acts [
  setLaneSt l .lock,
  .ask fun s => modLane l fun x => { x with pcs := 0, trainAt := s.clk + charClocks 1024, disc := 0 }]

/-- The lane goes down; `post` names the phase controller of a final failure (R419). -/
def laneDown (l : Nat) (post : Option Nat) (reinit : Bool) : Act := .ask fun s =>
  let x := s.lane l
  when_ (x.st != .hold) <| acts [
    modKindle fun k => { k with entry := k.entry.map (fun e =>
      if x.entryLeft e.num then { e with lost := setBit e.lost l } else e) },
    modLane l fun x => { x with
      tx := none, waiting := [], aborted := [], resend := [], unacked := [], turn := none, owed := none, rxbuf := [],
      kq := [], kfirst := false, trainAt := 0, busyTo := s.clk },
    forEach (List.range 16) fun p => setLaneWick (16 * l + p) false,
    when_ (x.st != .down) (setLaneSt l .down),
    when_ (x.st == .trained) (laneEvent l F.LAN_EVT_DOWN),
    forSome post fun pc => acts [laneEvent l F.LAN_EVT_FAIL, postPlain 0x0B 14 (l + 16 * pc) 0],
    forEach x.emitChans emitFail,
    .ask fun s => when_ (!s.pwr.entering && !s.pwr.standby &&
      (reinit || (s.fldI 0 (F.LAN_CTL_EN.lane l) == 1 && s.fldI 0 (F.LAN_CTL_AUTO.lane l) == 1))) (laneLock l)]

/-! ### Acknowledgement and resending (R417 to R420) -/

/-- The frame whose ACK window is open: the oldest one sent and not judged. -/
def openWindow (l : Nat) (k : TxFrame → Act) : Act := acts [
  settleTx l,
  .ask fun s => when_ ((s.lane l).unacked.isEmpty && (s.lane l).tx.isSome) (txFree l),
  .ask fun s => when_ (!s.pwr.off && ((s.lane l).st == .trained || (s.lane l).st == .hold)) <|
    forSome (s.lane l).unacked.head? k]

/-- A frame of an EMIT is acknowledged: its descriptor's bytes count, and its last frame completes it (R159, R161). -/
def emitAcked (c : Nat) : Act := .ask fun s => match s.cur c with
  | some d => when_ (dOp d.words == 0x10) <|
      let n := bits (dOps d.words 0) 16 5
      acts [
        modCur c fun d => { d with off := d.off + n }, addBytes c n,
        when_ (decide (dLen d.words ≤ d.off + n)) (descDone c stDONE), settleStop c]
  | none => .skip

/-- Frames that wait on a lane for a credit raise their requests when it comes (R201, Table ARB-1). -/
def framesRaised (l : Nat) (a : Act) : Act := .ask fun s0 => acts [a, .ask fun s => modLane l fun x => { x with
  waiting := x.waiting.map (fun f => if x.emitCan f.pc && !(s0.lane l).emitCan f.pc then { f with i := s.now } else f) }]

/-- ACK_RECEIVED. -/
def ackReceived (l : Nat) : Act := raised <| framesRaised l <| openWindow l fun f => acts [
  modLane l fun x => { x with unacked := x.unacked.filter (fun g => !g.same f), resend := x.resend.filter (fun g => !g.same f) },
  creditBack l f.pc,
  match f.who with
  | .emit c _ => when_ (c < 256) (emitAcked c)
  | .kindle _ => kindleCheck
  | .bcast => .skip]

/-- The frames to one phase controller that a missed frame takes along, in their order. -/
def Lane.goBack (x : Lane) (f : TxFrame) : List TxFrame :=
  ((x.unacked ++ x.resend ++ x.tx.toList.map Prod.fst).filter (fun g => g.pc == f.pc && !g.same f)).foldl
    (fun acc g => if acc.any (·.same g) then acc else acc ++ [g]) []

/-- The frame is to be resent already: listed, or its resend is on the wire. -/
def Lane.dueAgain (x : Lane) (f : TxFrame) : Bool :=
  x.resend.any (·.same f) || (match x.tx with
    | some t => t.1.same f
    | none => false)

/-- ACK_WINDOW_MISSED. -/
def windowMissed (l : Nat) : Act := openWindow l fun f => .ask fun s => acts [
  modLane l fun x => { x with unacked := x.unacked.tail },
  when_ (!(s.lane l).dueAgain f && (s.lane l).st == .trained) <|
    if f.retries ≥ 3 then laneDown l (some f.pc) false
    else acts [
      modLane l fun x => { x with
        resend := x.resend.filter (fun g => g.pc != f.pc) ++ [{ f with retries := f.retries + 1 }] ++ x.goBack f },
      laneCount l F.LAN_CNT0_RETRIES, laneEvent l F.LAN_EVT_RETRY]]

/-! ### Turns (R421, R422) -/

/-- The next phase controller in round robin. -/
def Lane.nextTurn (x : Lane) : Nat :=
  (((List.range 16).map (fun i => (x.lastTurn + 1 + i) % 16)).find? (bitAt x.pcs)).getD 0

/-- A SAMPLE of a channel waits to write the record of a lane's phase controller. -/
def State.sampleBusy (s : State) (l pc : Nat) (t : WTime) (c : Nat) : Bool :=
  match s.cur c with
  | some d => dOp d.words == 0x11 && bits (dSrc d.words) 4 3 == l && bits (dSrc d.words) 0 4 == pc && d.data.isSome &&
      d.sent == 0 && wtBefore d.takeWT t
  | none => false

/-- Frames of the receive buffer that no SAMPLE will take leave it. -/
def rxSweep (l : Nat) : Act := .ask fun s => modLane l fun x => { x with
  rxbuf := x.rxbuf.filter (fun t => s.chanList.any (s.sampleBusy l (t.addr % 16) t.wt)) }

/-- TURN_GRANT. -/
def turnGrant (l : Nat) : Act := acts [
  txFree l, rxSweep l,
  .ask fun s =>
    let x := s.lane l
    let clear := x.turn.isNone && x.owed.isNone && x.unacked.isEmpty && x.resend.isEmpty && !x.inEntry && x.rxbuf.length < 4
    let grant := fun pc => acts [
      txChars l 2, modLane l fun x => { x with turn := some pc, lastTurn := pc }]
    when_ (!s.pwr.off && clear) <|
      if x.st == .trained then
        when_ (s.fldI 0 (F.LAN_CTL_TURNS.lane l) == 1 && x.pcs != 0 && !s.holdCalled) (grant x.nextTurn)
      else when_ (x.st == .discover && x.disc < 16)
        (acts [grant x.disc, modLane l fun x => { x with disc := x.disc + 1 }])]

/-- TURN_LAPSE: no SOF within 8 character times. -/
def turnLapse (l : Nat) : Act := .ask fun s => when_ (!s.pwr.off && (s.lane l).turn.isSome) <| acts [
  advanceTo ((s.lane l).busyTo + charClocks 8), settleTx l, modLane l fun x => { x with turn := none }]

/-! ### Received frames (R425 to R430) -/

/-- What an intact RX frame is taken as (Tables ENR-4, ENR-5): its sender is the phase controller the turn names. -/
inductive RxKind where
  | telemetry | request | hello
  deriving DecidableEq, Repr

/-- Judge ADDR, CMD, LEN and payload of an intact frame from a phase controller in a lane state. -/
def rxKind (st : LaneSt) (pc : Nat) (chars : List Byte) : Option RxKind :=
  let c := fun i => (chars.getD i 0).toNat
  let n := c 2 % 32
  if c 0 != 0x40 + pc then none
  else if c 1 == 1 && 8 ≤ n && n ≤ 16 && st == .trained then some .telemetry
  else if c 1 == 2 && n == 1 && c 3 < 4 && st == .trained then some .request
  else if c 1 == 3 && n == 4 && st == .discover then some .hello
  else none

/-- An RX frame ends the turn.  One with a CRC error is counted and gets no answer; an intact one in sequence is taken or held
off, or acknowledged and discarded when it breaks the tables; one before it is a duplicate (R425, R427). -/
def rxFrame (l : Nat) (chars : List Byte) (crc : Nat) (taken : RxKind → Nat → Act) : Act := acts [
  settleTx l, rxSweep l,
  .ask fun s =>
    let x := s.lane l
    when_ (!s.pwr.off && (x.st == .trained || x.st == .discover)) <| forSome x.turn fun t =>
      let exp := SMap.get 0 x.rxSeq t
      let seq := (chars.getD 2 0).toNat / 32
      let bump := modLane l fun x => { x with rxSeq := SMap.set 0 x.rxSeq t ((exp + 1) % 8) }
      let owe := fun (ack : Bool) => modLane l fun x => { x with owed := some ack }
      let badFrame := acts [laneCount l F.LAN_CNT1_BADFRAME, laneEvent l F.LAN_EVT_BADFRAME]
      acts [
        modLane l fun x => { x with turn := none },
        if chars.length != 3 + (chars.getD 2 0).toNat % 32 || crc != crc16 chars then
          acts [laneCount l F.LAN_CNT0_CRC_RX, laneEvent l F.LAN_EVT_CRC_RX]
        else if seq != exp && (seq + 1) % 8 != exp then badFrame
        else match rxKind x.st t chars with
          | none => acts [owe true, badFrame, when_ (seq == exp) bump]
          | some k =>
            if seq != exp then owe true
            else if k != .hello && x.rxbuf.length ≥ 4 then acts [owe false, laneEvent l F.LAN_EVT_RXFULL]
            else acts [owe true, bump, taken k t]]]

/-- A SAMPLE waits for a frame. -/
def State.sampleWaits (s : State) (l pc c : Nat) : Bool :=
  match s.cur c with
  | some d => dOp d.words == 0x11 && d.phase == .frame && bits (dSrc d.words) 4 3 == l && bits (dSrc d.words) 0 4 == pc
  | none => false

/-- A record in the layout of Table DSC-8. -/
def sampleRecord (l : Nat) (t : Telem) (stale : Bool) : List Byte :=
  leBytes 6 t.wt.toNat ++ leBytes 1 t.addr ++ leBytes 1 (l + 128 * b2n stale) ++ leBytes 1 t.cmd ++
    leBytes 1 t.payload.length ++ leBytes 6 0 ++ t.payload ++ List.replicate (16 - t.payload.length) 0

/-- A telemetry frame is taken: the lane's latest, the governor's, and every waiting SAMPLE's; one that writes its last
record finds it in the receive buffer (R162, R389, R429). -/
def telemTaken (l pc : Nat) (t : Telem) : Act := .ask fun s => acts [
  modLane l fun x => { x with
    telem := SMap.set [] x.telem pc [t],
    rxbuf := if s.chanList.any (s.sampleBusy l pc t.wt) then x.rxbuf ++ [t] else x.rxbuf },
  when_ s.gov.measuring (modGov fun g =>
    let k := 16 * l + pc
    { g with iSum := SMap.set 0 g.iSum k (SMap.get 0 g.iSum k + ofLe (t.payload.take 2)),
             iCnt := SMap.set 0 g.iCnt k (SMap.get 0 g.iCnt k + 1) }),
  raised (forEach (s.chanList.filter (s.sampleWaits l pc)) fun c =>
    modCur c fun d => { d with data := some (sampleRecord l t false), phase := .ready })]

/-- A REQUEST frame's wick (R430). -/
def requestTaken (l pc : Nat) (b : Byte) : Act :=
  let w := 16 * l + pc
  if bitAt b.toNat 1 then acts [setLaneWick w true, tickBy 1, setLaneWick w false]
  else setLaneWick w (bitAt b.toNat 0)

/-- An RX frame is taken (Table ENR-5): telemetry with the wheel time of its SOF (R429), a request, or a HELLO (R431). -/
def rxTaken (l : Nat) (chars : List Byte) (wt : WTime) (k : RxKind) (pc : Nat) : Act :=
  match k with
  | .telemetry => telemTaken l pc ⟨wt, 0x40 + pc, 0x01, chars.drop 3⟩
  | .request => requestTaken l pc (chars.getD 3 0)
  | .hello => modLane l fun x => { x with pcs := setBit x.pcs pc }

/-- A frame's characters and CRC arrive on RX. -/
def rxArrives (l : Nat) (chars : List Byte) (crc : Nat) : Act := .ask fun s => rxFrame l chars crc (rxTaken l chars s.now)

/-- An intact RX frame of a phase controller arrives. -/
def rxIntact (l pc cmd seq : Nat) (payload : List Byte) : Act :=
  let chars := frameChars (0x40 + pc) cmd seq payload
  rxArrives l chars (crc16 chars)

/-- An RX frame with a code error, or cut by ABORT, gets no answer. -/
def rxSpoiled (l : Nat) (a : Act) : Act := .ask fun s =>
  when_ (!s.pwr.off && ((s.lane l).st == .trained || (s.lane l).st == .discover) && (s.lane l).turn.isSome) <| acts [
    settleTx l, modLane l fun x => { x with turn := none }, a]

/-- BAD_RX_FRAME. -/
def badFrameAct (l : Nat) (b : BadFrame) : Act :=
  match b with
  | .frame chars crc => rxArrives l chars crc
  | .code => rxSpoiled l (acts [laneCount l F.LAN_CNT1_CODE, laneEvent l F.LAN_EVT_CODE,
      laneCount l F.LAN_CNT0_CRC_RX, laneEvent l F.LAN_EVT_CRC_RX])
  | .abort => rxSpoiled l .skip

/-- RX_ANSWER: deferred past the lane's last Kindle frame (R231, R425). -/
def rxAnswer (l : Nat) : Act := .ask fun s =>
  let x := s.lane l
  when_ (!s.pwr.off && x.owed.isSome && x.kq.isEmpty) <| acts [
    txFree l, modLane l fun x => { x with owed := none }, txChars l 1]

/-! ### Training (R431) and HOLD (R434, R435) -/

/-- LANE_TRAINING: a lane not trained since reset begins LOCK; LOCK ends, the training frame goes out, and discovery
begins. -/
def laneTraining (l : Nat) : Act := acts [
  .ask fun s => when_ ((s.lane l).st == .down && (s.lane l).trainAt == 0 && !s.pwr.off && !s.pwr.standby &&
    s.fldI 0 (F.LAN_CTL_EN.lane l) == 1 && (s.lane l).pcs == 0 && (s.lane l).disc == 0) (laneLock l),
  .ask fun s => when_ (!s.pwr.off && (s.lane l).st == .lock) <| acts [
    advanceTo (s.lane l).trainAt, setLaneSt l .discover, startBcast l 0xF0 [],
    modLane l fun x => { x with trainAt := 0, disc := 0, pcs := 0, rxSeq := [], turn := none, owed := none }]]

/-- DISCOVER_END. -/
def discoverEnd (l : Nat) : Act := acts [
  txFree l,
  .ask fun s =>
    let x := s.lane l
    let en := s.fldI 0 (F.LAN_CTL_EN.lane l) == 1 && s.fldI 0 (F.LAN_CTL_AUTO.lane l) == 1
    when_ (!s.pwr.off && x.st == .discover && x.disc == 16 && x.turn.isNone && x.owed.isNone) <|
      if x.pcs != 0 then acts [
        modLane l fun x => { x with credits := [], txSeq := [], rxSeq := [] },
        setLaneSt l .trained, laneEvent l F.LAN_EVT_TRAINED]
      else acts [
        setLaneSt l .down,
        when_ en (modLane l fun x => { x with trainAt := s.clk + usClocks 1000 })]]

/-- RETRAIN_TIMER. -/
def retrainTimer (l : Nat) : Act := .ask fun s =>
  when_ (!s.pwr.off && !s.pwr.standby && (s.lane l).st == .down && (s.lane l).trainAt != 0) <| acts [
    advanceTo (s.lane l).trainAt,
    if s.fldI 0 (F.LAN_CTL_EN.lane l) == 1 && s.fldI 0 (F.LAN_CTL_AUTO.lane l) == 1 then laneLock l
    else modLane l fun x => { x with trainAt := 0 }]

/-- A write to LAN_CTL: clearing EN takes the lane down, setting it trains one that is down (R431, R437). -/
def lanCtlWrite (p : Path) (l : Nat) (v : Word) : Act := .ask fun s0 => acts [
  fieldWrite p (0x800 + 32 * l) v,
  .ask fun s =>
    let was := s0.fldI 0 (F.LAN_CTL_EN.lane l) == 1
    let is_ := s.fldI 0 (F.LAN_CTL_EN.lane l) == 1
    if was && !is_ then laneDown l none false
    else when_ (is_ && !was && (s.lane l).st == .down && !s.pwr.standby && !s.pwr.entering) (laneLock l)]

/-- The payload of a HOLD frame: LEN 9 to 15 act as 8 (R434). -/
def State.holdPayload (s : State) (l : Nat) : List Byte :=
  (leBytes 4 (s.fldI 0 (F.LAN_HOLD1_PAY_LO.lane l)) ++ leBytes 4 (s.fldI 0 (F.LAN_HOLD2_PAY_HI.lane l))).take
    (s.fldI 0 (F.LAN_HOLD0_LEN.lane l))

/-- A lane sends its HOLD frame: it is trained, HOLD is called for, and no Kindle entry that it takes part in waits for its
answer. -/
def State.holdReady (s : State) (l : Nat) : Bool :=
  !s.pwr.off && s.holdCalled && (s.lane l).st == .trained && !s.entryOn l && (s.lane l).kq.isEmpty

/-- The HOLD frame starts, when enabled, once the frame on the wire has ended (R274, R434). -/
def holdStart (l : Nat) : Act := acts [
  txFree l,
  .ask fun s => when_ (s.lane l).owed.isSome (rxAnswer l),
  txFree l,
  .ask fun s => when_ (s.fldI 0 (F.LAN_HOLD0_EN.lane l) == 1) (startBcast l (s.fldI 0 (F.LAN_HOLD0_CMD.lane l)) (s.holdPayload l))]

/-- The lane enters HOLD behind its HOLD frame (R435). -/
def holdEnter (l : Nat) : Act := acts [
  .ask fun s => advanceTo (s.lane l).busyTo, setLaneSt l .hold, modLane l fun x => { x with turn := none }]

/-- HOLD frames of some lanes. -/
def holdFrames (ls : List Nat) : Act := .ask fun s =>
  let ready := ls.filter s.holdReady
  acts [forEach ready holdStart, forEach ready holdEnter]

/-- HOLD_FRAME. -/
def holdFrame (l : Nat) : Act := holdFrames [l]

/-! ### LANE_REINIT (R437, R562, R564) -/

/-- LANE_REINIT. -/
def laneReinit (p : Path) (a : Nat → Nat) : Act := .ask fun s =>
  if p == .bar0 then refuse p mbNO_RIGHT
  else if a 0 > 7 then refuse p mbBAD_ARG
  else if s.fldI 0 (F.LAN_CTL_EN.lane (a 0)) == 0 then refuse p mbWRONG_STATE
  else acts [laneDown (a 0) none true, answer p mbOK [] .none]

/-! ### EMIT (R161, R269) -/

/-- Read n bytes of a descriptor's device-memory operand; `off` is the byte offset a fault reports (R269, R270). -/
def readBuf (c : Nat) (d : Cur) (full off n : Nat) (acc : List Byte) (k : List Byte → Act) : Nat → Act
  | 0 => .skip
  | fuel + 1 => .ask fun s =>
    let sel := opSel full
    if n == 0 then k acc
    else match s.reach c d.words sel (opAddr full) (s.pieceLen c sel (opAddr full) n) false with
      | .go a m => acts [
          touchRead (s.operandReq c d.words) (some (s.chan c).engine) (sel - 1) a m,
          .ask fun s => readBuf c d (full + m) (off + m) (n - m) (acc ++ s.cohBytes (sel - 1) a m) k fuel]
      | .fault st => accessFault c st off full
      | .refuse acc cause region shade => acts [protCapture acc cause region shade, accessFault c stPROT_FAULT off full]
      | .stall => beatStall c full
      | .view e => viewWait c e

/-- EMIT loads its next frame into the lane's TX buffer, or completes at once with LANE_ERR when its phase controller is not
present (R433); with no credit for it the channel leaves its engine (R209), and a pending stop is not overtaken (R262). -/
def emitBody (c : Nat) : Act := .ask fun s => forSome (s.cur c) fun d =>
  let l := emitLane d.words
  let pc := emitPc d.words
  let n := emitLen d.words
  let first := max d.sent (d.off / max n 1)
  if (s.chan c).stopPend ≥ 2 then .skip
  else if (s.lane l).st != .trained || !bitAt (s.lane l).pcs pc then
    descDone c stLANE_ERR
  else if !s.emitReady d.words then queueAt c .none
  else readBuf c d (dSrc d.words + first * n) (first * n) n [] (fun bs => .ask fun s => acts [
    modCur c fun d => { d with sent := first + 1, phase := .lane },
    portBeat (s.engReq c 1) (0x28 + l), movedBytes c 32,
    modLane l fun x => { x with waiting := x.waiting ++ [
      { who := .emit c first, addr := 16 * bits (dOps d.words 0) 8 4 + pc, cmd := bits (dOps d.words 0) 0 8, payload := bs,
        seq := 0, retries := 0, cls := dClass d.words, l := d.l, i := s.now, eng := (s.chan c).engine, placed := none,
        crc := 0 }] }]) 20

/-! ### SAMPLE (R162, R186) -/

/-- A SAMPLE's ring index. -/
def sampleIdx (d : Cur) : Nat := bits (dOps d.words 1) 0 16

/-- Where its next record goes. -/
def sampleDst (d : Cur) : Nat := dDst d.words + 32 * (sampleIdx d % 2 ^ bits (dOps d.words 0) 0 4) + d.off % 32

/-- A record has been written: WR_INDEX advances in the descriptor. -/
def sampleIndex (c : Nat) (d : Cur) : Act := .ask fun s =>
  let v := (sampleIdx d + 1) % 2 ^ 16
  let a := 64 * d.idx + 0x34
  acts [
    cacheRead (s.engReq c 1) (s.chan c).engine 1 a 4,
    engineWrite (s.engReq c 1) (s.chan c).engine 1 a (leBytes 4 v), dropCopies c 1 a 4,
    modCur c fun d => { d with words := d.words.set 13 (BitVec.ofNat 32 v) }]

/-- The next frame for a SAMPLE: the receive buffer's oldest, or, once it is stale (`sent` is 1), the lane's latest or
zeros. -/
def sampleNext (c : Nat) : Act := .ask fun s => forSome (s.cur c) fun d =>
  let l := bits (dSrc d.words) 4 3
  let pc := bits (dSrc d.words) 0 4
  let give := fun bs => modCur c fun d => { d with data := some bs }
  if d.sent != 0 then
    match (SMap.get [] (s.lane l).telem pc).head? with
    | some t => give (sampleRecord l t true)
    | none => give (leBytes 7 0 ++ leBytes 1 128 ++ leBytes 24 0)
  else match (s.lane l).rxbuf.find? (fun t => t.addr % 16 == pc && wtBefore d.takeWT t.wt) with
    | some t => acts [modLane l fun x => { x with rxbuf := x.rxbuf.erase t }, give (sampleRecord l t false)]
    | none => acts [modCur c fun d => { d with phase := .frame }, queueAt c .none]

/-- Write records while there are any; a pending HALT acts between two of them (R262), and a grant ends at its limit (R208). -/
def sampleGo (c : Nat) : Nat → Act
  | 0 => .skip
  | fuel + 1 => .ask fun s => match s.cur c with
    | none => .skip
    | some d =>
      if d.phase != .ready || (s.chan c).st == .parked then .skip
      else match d.data with
        | some bs => acts [
            writePiece c d (sampleDst d) bs.length bs,
            .ask fun s => (match s.cur c with
              | some e => when_ (d.phase == .ready && e.data.isNone && e.off != d.off) (sampleIndex c e)
              | none => .skip),
            sampleGo c fuel]
        | none =>
          if dLen d.words ≤ d.off then descDone c stDONE
          else if (s.chan c).stopPend == 2 then .skip
          else if (s.chan c).st == .running then underGrant c (acts [sampleNext c, sampleGo c fuel])
          else acts [sampleNext c, sampleGo c fuel]

/-- Steps enough for every record of a ring. -/
def sampleFuel (d : Cur) : Nat := 40 * (dLen d.words / 32 + 1)

/-- SAMPLE. -/
def sampleBody (c : Nat) : Act := .ask fun s => forSome (s.cur c) fun d => sampleGo c (sampleFuel d)

/-- SAMPLE_STALE: the latest-service time passes before a record's frame arrives. -/
def sampleStale (c : Nat) : Act := .ask fun s => forSome (s.cur c) fun d =>
  when_ (!s.pwr.off && dOp d.words == 0x11 && d.phase == .frame) <| acts [
    advanceToWheel (wtAdd d.l 1),
    modCur c fun d => { d with late := true, sent := 1, phase := .ready },
    sampleGo c (sampleFuel d)]

end Sys2Proof.Machine
end

