-- ==== Sys2Proof/Machine/Kindle.lean ====
section
/-!
DEFINITION. Kindle (07): requests and their answers (R224 to R229, R235 to R241, R247 to R249), and loads of the Kindle image
under a chair (R242 to R246, R253, R254).
-/

namespace Sys2Proof.Machine

/-! ### Slots (Tables KND-6, KND-7) -/

/-- A record of a slot's frame area: ADDR, CMD, LEN, PLACED, ANGLE and its payload. -/
structure KRec where
  addr : Nat
  cmd : Nat
  len : Nat
  placed : Bool
  angle : Nat
  payload : List Byte
  deriving DecidableEq, Repr

/-- The record at an offset of a slot. -/
def recAt (slot : List Byte) (o : Nat) : KRec :=
  let w := ofLe ((slot.drop o).take 4)
  ⟨bits w 0 8, bits w 8 8, bits w 16 5, bitAt w 21, bits w 22 10, (slot.drop (o + 4)).take (bits w 16 5)⟩

/-- Bytes a record takes in the frame area. -/
def KRec.size (r : KRec) : Nat := 4 + (r.len + 3) / 4 * 4

/-- The records of a slot, and the offset past the last. -/
def slotRecs (slot : List Byte) : Nat → Nat → List KRec × Nat
  | 0, o => ([], o)
  | n + 1, o =>
    let r := recAt slot o
    let rest := slotRecs slot n (o + r.size)
    (r :: rest.1, rest.2)

/-- A slot's header fields. -/
def slotValid (slot : List Byte) : Bool := bitAt (ofLe (slot.take 4)) 0
def slotN (slot : List Byte) : Nat := bits (ofLe (slot.take 4)) 4 4
def slotUsed (slot : List Byte) : Nat := bits (ofLe (slot.take 4)) 8 7

/-- The check of a slot: the LOAD_ERR code of its first failure, 0 for none (Table KND-7, R412). -/
def slotCheck (slot : List Byte) : Nat :=
  let h := ofLe (slot.take 4)
  let n := slotN slot
  let rs := slotRecs slot n 0x10
  if !slotValid slot then 0
  else if bits h 1 3 != 0 || bits h 15 17 != 0 || n == 0 || n > 8 then 1
  else if slotUsed slot > 64 || rs.2 != 0x10 + slotUsed slot then 2
  else if rs.1.any (fun r => r.len > 16) then 3
  else if rs.1.any (fun r => r.addr ≥ 0x40) then 4
  else if rs.1.any (fun r => (rs.1.filter (fun q => q.addr % 16 == r.addr % 16)).length > 2) then 5
  else 0

/-- Lane-memory address of a slot. -/
def slotAddr (lane bank e : Nat) : Nat := 0x2000 * lane + 0x800 * bank + 0x80 * e

/-- A slot of a bank. -/
def State.slot (s : State) (lane bank e : Nat) : List Byte := s.readBytes .lane (slotAddr lane bank e) 128

/-! ### Requests -/

/-- Whether a request is refused at recognition: before an image is ARMED (R29, R536), with no lane armed, in STANDBY, and after
PWRFAIL# or an accepted reset (R226, R272).  The pin's level is not kept: PWRFAIL# counts as asserted while DEV_PF_STAT.HELD is
1 (DESIGN CHOICE, log 56). -/
def State.kindleRefuses (s : State) : Bool :=
  s.armedMask == 0 || s.fld F.BOOT_STAT_PHASE != 4 || s.pwr.standby || s.pwr.entering || s.refusing

/-- The answer KND_NAK, with the lanes it names. -/
def kindleNak : Act := acts [
  modKindle fun k => { k with nak := true }, put F.KND_LAST_RESULT 1, event F.KND_EVT_NAK, count F.KND_CNT0_NAKS]

/-- What a Kindle start meets on a lane's wire: a unicast frame is cut (Table KND-2, R236, R239). -/
def kindleCut (l : Nat) : Act := raised <| framesRaised l <| acts [
  settleTx l,
  .ask fun s => forSome (s.lane l).tx fun t =>
    let kind := match t.1.who with
      | .kindle _ => true
      | _ => false
    acts [
      count F.KND_CNT1_ABORTS,
      modLane l fun x => { x with tx := none, busyTo := s.clk + charClocks 2 },
      if t.2 then modLane l fun x => { x with resend := t.1 :: x.resend.filter (fun g => !g.same t.1) }
      else acts [cutFirst l t.1, when_ (!kind) (modLane l fun x => { x with aborted := t.1 :: x.aborted })]]]

/-- The earlier entry is superseded: its frames that have not started are dropped (R239). -/
def kindleSupersede : Act := .ask fun s => when_ s.kindle.entry.isSome <| acts [
  forEach (List.range 8) fun l => acts [
    .ask fun s => when_ (match (s.lane l).tx with
      | some t => (match t.1.who with
          | .kindle _ => decide (s.clk < (s.lane l).busyTo)
          | _ => false)
      | none => false) (kindleCut l),
    modLane l fun x => { x with kq := [], kfirst := false }],
  modKindle fun k => { k with entry := none }]

/-- The bank a request uses: the one before a flip of the same core clock (R245). -/
def State.bankNow (s : State) : Nat :=
  if s.kindle.flippedAt == some s.clk then 1 - s.fld F.KND_STAT_BANK else s.fld F.KND_STAT_BANK

/-- The frames of a lane's slot, in the order of its records; one to a phase controller that is not present is not sent
(R230, R433). -/
def State.entryFrames (s : State) (l e num : Nat) : List TxFrame :=
  let slot := s.slot l s.bankNow e
  if !slotValid slot then []
  else ((slotRecs slot (slotN slot) 0x10).1.filter (fun r => bitAt (s.lane l).pcs (r.addr % 16))).map (fun r =>
    { who := .kindle num, addr := r.addr, cmd := r.cmd, payload := r.payload, seq := 0, retries := 0, cls := 0, l := s.now,
      i := s.now, eng := 0, placed := if r.placed then some (4 * r.angle) else none, crc := 0 })

/-- A lane's slot has a frame that cannot be sent. -/
def State.entryLost (s : State) (l e : Nat) : Bool :=
  let slot := s.slot l s.bankNow e
  slotValid slot && (slotRecs slot (slotN slot) 0x10).1.any (fun r => !bitAt (s.lane l).pcs (r.addr % 16))

/-- Start an entry on every armed lane (R227, R235). -/
def kindleStart (mag : Nat) (dir : Bool) : Act := .ask fun s =>
  let e := 8 * b2n dir + mag
  let num := s.kindle.num + 1
  let ls := (List.range 8).filter (bitAt s.armedMask)
  let on := ls.filter (fun l => slotValid (s.slot l s.bankNow e))
  if on.isEmpty then acts [
    modKindle fun k => { k with num := num, ack := true },
    put F.KND_LAST_RESULT 0, put F.KND_LAST_EMPTY 1, kindleTrace]
  else acts [
    modKindle fun k => { k with
      num := num,
      entry := some { num := num, mag := mag, dir := dir, start := s.clk, wt := s.now, lanes := on.foldl (fun m l => m + 2 ^ l) 0, answered := false,
                      withdrawn := false, lost := ls.foldl (fun m l => if s.entryLost l e then m + 2 ^ l else m) 0 } },
    forEach on fun l =>
      let fs := s.entryFrames l e num
      when_ (!fs.isEmpty) (acts [kindleCut l, modLane l fun x => { x with kq := fs, kfirst := true }])]

/-- KND_REQUEST: a rising edge of KND_REQ (R224). -/
def kindleRequest (mag : Nat) (dir : Bool) : Act := .ask fun s =>
  when_ (!s.pwr.off && !s.kindle.req) <| acts [
    modKindle fun k => { k with req := true },
    count F.KND_CNT0_REQS,
    when_ (s.gov.measuring && dir) (modGov fun g => { g with kreq := g.kreq + 1 }),
    putWord 0 0x21C (BitVec.ofNat 32 (mag + 8 * b2n dir + 16)),
    putWord 0 0x220 (BitVec.ofNat 32 s.now.toNat), putWord 0 0x224 (BitVec.ofNat 32 (s.now.toNat / 2 ^ 32)),
    put F.KND_LAT_SOF_LAST 0,
    if s.kindleRefuses then acts [kindleNak, kindleTrace] else acts [kindleSupersede, kindleStart mag dir]]

/-- KND_REQ_FALL: the answer pin goes low; a request with no answer yet is withdrawn (R225, R247). -/
def kindleFall : Act := .ask fun s => when_ (!s.pwr.off && s.kindle.req) <| acts [
  modKindle fun k => { k with req := false, ack := false, nak := false },
  forSome s.kindle.entry fun e => when_ (!e.withdrawn) <| acts [
    modKindle fun k => { k with entry := some { e with withdrawn := true } },
    count F.KND_CNT1_WITHDRAWN, event F.KND_EVT_WITHDRAWN]]

/-- KND_MARK: the 795th core clock after recognition (R228, R229). -/
def kindleMark : Act := .ask fun s => when_ (!s.pwr.off) <| forSome s.kindle.entry fun e => acts [
  advanceTo (e.start + 795),
  .ask fun s =>
    let ls := s.entryLanes e
    acts [
      forEach (List.range 8) fun l => modLane l fun x => { x with kq := [], kfirst := false },
      modKindle fun k => { k with entry := none },
      put F.KND_LAST_NAK_LANES ls,
      when_ (!e.withdrawn) (acts [
        kindleNak, put F.KND_LAST_ANS 795, postPlain 0x03 5 (ls + 2 ^ 8 * e.mag + 2 ^ 11 * b2n e.dir) 0]),
      kindleTrace]]

/-! ### Loads (R242 to R244) -/

/-- The image's read of a slot as the protection unit sees it. -/
def State.imgAccess (s : State) (i : Nat) : Access :=
  ⟨3, 2, s.fld F.KND_CTL_IMG_KEY, 0, false, 0xFF, 0, s.fld F.KND_IMG_BASE * 0x4000 + 128 * i, 128, false⟩

/-- Copy the slots of the image from one on into the shadow banks, until a read is refused (R244). -/
def kindleCopy : Nat → Nat → Act
  | 0, _ => .skip
  | fuel + 1, i => .ask fun s =>
    let a := s.imgAccess i
    match s.firstRefused a with
    | some (k, .refuse cause region shade) => acts [
        protCapture (a.beatAt k) cause region shade, modKindle fun k => { k with loadErr := 6, loadAt := i }]
    | _ => acts [
        touchRead s.internalReq none 0 a.addr 128,
        .ask fun s => storeBytes .lane (slotAddr (i / 16) (1 - s.fld F.KND_STAT_BANK) (i % 16)) (s.cohBytes 0 a.addr 128),
        kindleCopy fuel (i + 1)]

/-- The Kindle chair. -/
def State.kindleChair (s : State) : Nat := 8 * s.fld F.KND_CHAIR_TABLE + s.fld F.KND_CHAIR_CHAIR

/-- A write of KND_LOAD with GO = 1 (R242). -/
def kindleGo (p : Path) : Act := .ask fun s =>
  if s.flag F.KND_CHAIR_EN && s.owns s.kindleChair s.self (pathMid p) && s.kindle.load.isNone && !s.flag F.KND_STAT_FLIP_PEND then acts [
    modKindle fun k => { k with load := some (pathMid p), loadErr := 0, loadAt := 0, loadChair := s.kindleChair },
    kindleCopy 128 0]
  else event F.KND_EVT_REFUSED

/-- The first slot of the shadow banks that fails the check, with its code. -/
def State.shadowFails (s : State) : Option (Nat × Nat) :=
  ((List.range 128).map (fun i => (i, slotCheck (s.slot (i / 16) (1 - s.fld F.KND_STAT_BANK) (i % 16))))).find? (·.2 != 0)

/-- A failed load: the shadow banks hold undefined content (R244). -/
def kindleLoadFail (code i : Nat) : Act := .ask fun s => acts [
  put F.KND_STAT_LOAD_ERR code, put F.KND_STAT_ERR_LANE (i / 16), put F.KND_STAT_ERR_ENTRY (i % 16),
  event F.KND_EVT_LOAD_ERR, postPlain 0x04 5 (code + 2 ^ 8 * (i / 16) + 2 ^ 12 * (i % 16)) 0,
  drawFree fun k => forEach (List.range 8) fun l =>
    storeBytes .lane (slotAddr l (1 - s.fld F.KND_STAT_BANK) 0) ((List.range 2048).map (fun b => Config.shadowByte (k * 16384 + 2048 * l + b)))]

/-- KND_LOAD_CHECKED: the copy and the check end (R243). -/
def kindleChecked : Act := .ask fun s => when_ (!s.pwr.off && s.kindle.load.isSome) <| acts [
  modKindle fun k => { k with load := none },
  if s.kindle.loadErr != 0 then kindleLoadFail s.kindle.loadErr s.kindle.loadAt
  else match s.shadowFails with
    | some f => kindleLoadFail f.2 f.1
    | none => acts [
        put F.KND_STAT_LOAD_ERR 0, put F.KND_STAT_ERR_LANE 0, put F.KND_STAT_ERR_ENTRY 0, put F.KND_STAT_FLIP_PEND 1]]

/-- KND_FLIP: with no entry in progress the shadow banks become active (R243). -/
def kindleFlip : Act := .ask fun s =>
  when_ (!s.pwr.off && s.flag F.KND_STAT_FLIP_PEND && s.kindle.entry.isNone) <| acts [
    modKindle fun k => { k with flippedAt := some s.clk },
    put F.KND_STAT_BANK (1 - s.fld F.KND_STAT_BANK), put F.KND_STAT_ACTIVE_VALID 1, put F.KND_STAT_FLIP_PEND 0,
    event F.KND_EVT_LOAD_DONE]

end Sys2Proof.Machine
end

