-- ==== Sys2Proof/Machine/Governor.lean ====
section
/-!
DEFINITION. The governor (13): windows and their measurements, the decision rules, limits, reverts, phase changes under the
Kindle chair, PMBus current reads, and the decision log.
-/

namespace Sys2Proof.Machine

/-! ### Rails and profiles (R396, R407) -/

/-- Register fields of a rail. -/
def State.minph (s : State) (r : Nat) : Nat := s.fldI r F.GOV_RAIL_CFG0_MINPH
def State.maxph (s : State) (r : Nat) : Nat := s.fldI r F.GOV_RAIL_CFG0_MAXPH
def State.homeph (s : State) (r : Nat) : Nat := s.fldI r F.GOV_RAIL_CFG0_HOMEPH
/-- The present phase count of a rail. -/
def State.phases (s : State) (r : Nat) : Nat := SMap.get 0 s.gov.phases r

/-- Staging address of a rail's profile. -/
def State.profAddr (s : State) (r : Nat) : Nat := 4096 * s.fld F.GOV_PHASE_PROF + 256 * r

/-- A number in a profile. -/
def profNum (bs : List Byte) (o n : Nat) : Nat := ofLe ((bs.drop o).take n)
/-- Positions of a profile, and whether its rail's current is read over PMBus. -/
def profN (bs : List Byte) : Nat := bits (profNum bs 0 1) 0 4
def profPmb (bs : List Byte) : Bool := bitAt (profNum bs 1 1) 0
/-- Lane and phase controller of a position, as 16 * lane + address. -/
def profPos (bs : List Byte) (p : Nat) : Nat := 16 * bits (profNum bs (0x11 + 16 * p) 1) 0 3 + bits (profNum bs (0x10 + 16 * p) 1) 0 4

/-- Go through rails, keeping the used ones with their profiles (Table GOV-1 and the text under it). -/
def usedRails : List Nat → List (Nat × List Byte) → (List (Nat × List Byte) → Act) → Act
  | [], acc, k => k acc
  | r :: rest, acc, k => .ask fun s =>
    if 1 ≤ s.minph r && s.minph r ≤ s.maxph r then
      govRead (s.profAddr r) 256 fun o => match o with
        | some bs => usedRails rest (if s.maxph r ≤ profN bs then acc ++ [(r, bs)] else acc) k
        | none => usedRails rest acc k
    else usedRails rest acc k

/-! ### The decision log (R399, Table GOV-5) -/

/-- A decision record's fields. -/
structure GovRec where
  wt : WTime
  kind : Nat
  outcome : Nat
  rail : Nat
  cause : Nat
  knob : Nat
  old : Nat
  new : Nat
  meas0 : Word
  meas1 : Word
  iavg : Nat
  thresh : Nat
  deriving DecidableEq, Repr

/-- Its 32 bytes. -/
def GovRec.bytes32 (r : GovRec) (seq : Nat) : List Byte :=
  leBytes 6 r.wt.toNat ++ leBytes 2 seq ++ leBytes 1 r.kind ++ leBytes 1 r.outcome ++ leBytes 1 (r.rail + 16 * r.cause) ++
    leBytes 1 r.knob ++ leBytes 2 r.old ++ leBytes 2 r.new ++ leBytes 4 r.meas0.toNat ++ leBytes 4 r.meas1.toNat ++
    leBytes 2 (min r.iavg 65535) ++ leBytes 2 (min r.thresh 65535) ++ leBytes 4 0

/-- Write a record and its trace copy. -/
def govRecord (r : GovRec) : Act := .ask fun s =>
  let seq := s.fld F.GOV_LOG_WR_WR
  let lg := min 12 (max 4 (s.fld F.GOV_LOG_LOG2))
  let bs := r.bytes32 seq
  acts [
    when_ (s.fld F.GOV_LOG_LOG2 != 0) (acts [
      govWrite 0 (4096 * s.fld F.GOV_LOG_BASE + 32 * (seq % 2 ^ lg)) bs, put F.GOV_LOG_WR_WR (seq + 1)]),
    traceRec 3 ((bs.drop 8).take 8 ++ (bs.drop 0x18).take 4)]

/-- The length of a window in angle units (R387). -/
def State.windowUnits (s : State) : Nat := 2 ^ (12 + min 15 (max 6 (s.fld F.GOV_CTL_WINDOW)))
/-- The window end that the present wheel time has reached, or passed within a core clock. -/
def State.windowWT (s : State) : WTime := BitVec.ofNat 48 (s.now.toNat / s.windowUnits * s.windowUnits)

/-- A record that carries the last window's measurements. -/
def winRecord (wt : WTime) (kind outcome rail knob old new iavg thresh : Nat) : Act := .ask fun s =>
  govRecord ⟨wt, kind, outcome, rail, 0, knob, old, new, s.word 0 0x324, s.word 0 0x328, iavg, thresh⟩

/-! ### Knobs (Table GOV-1) -/

/-- Limits of the burst cap, the prefetch depth and the bandwidth. -/
def State.burstLim (s : State) : Nat × Nat := (max 1 (s.fld F.GOV_LIM_ARB_BURST_MIN), s.fld F.GOV_LIM_ARB_BURST_MAX)
def State.pfLim (s : State) : Nat × Nat := (max 1 (s.fld F.GOV_LIM_ARB_PF_MIN), min 4 (s.fld F.GOV_LIM_ARB_PF_MAX))
def State.bwLim (s : State) : Nat × Nat := (s.fld F.GOV_LIM_ARB_BW_MIN, s.fld F.GOV_LIM_ARB_BW_MAX)

/-- A single knob: its KIND, value, authority bit and limits. -/
structure Knob where
  kind : Nat
  fld : Fld
  auth : Fld

/-- The knobs that act at once. -/
def knobBurst : Knob := ⟨1, F.ARB_BURST_CAP, F.GOV_AUTH_BURST⟩
def knobPf : Knob := ⟨2, F.GOV_CTL_PF_NOW, F.GOV_AUTH_PF⟩
def knobBw : Knob := ⟨3, F.WHL_TRK_BW, F.GOV_AUTH_BW⟩

/-- A value lies within limits. -/
def inLim (v : Nat) (lim : Nat × Nat) : Bool := lim.1 ≤ v && v ≤ lim.2

/-- A decision of a knob (R391, R392, R400): applied, advised, frozen or overridden, and logged. -/
def knobDecide (k : Knob) (new : Nat) : Act := .ask fun s =>
  let old := s.fld k.fld
  let out := if s.flag F.GOV_CTL_FREEZE then 2 else if !s.flag k.auth then 1
    else if k.kind == 3 && s.gov.bwWritten == s.clk + 1 then 3 else 0
  acts [
    when_ (out == 0) (acts [put k.fld new, event F.GOV_EVT_DECIDE]),
    when_ (out == 1 || out == 2) (event F.GOV_EVT_ADVISE),
    winRecord s.windowWT k.kind out 0 0 old new 0 0]

/-- The nearest bound of a knob's limits. -/
def clampLim (v : Nat) (lim : Nat × Nat) : Nat := max lim.1 (min lim.2 v)

/-- A knob that new limits move at this window end (R393). -/
def State.limMoves (s : State) (k : Knob) (lim : Nat × Nat) : Bool :=
  s.gov.limPend && !s.flag F.GOV_CTL_FREEZE && s.flag k.auth && s.fld k.fld != clampLim (s.fld k.fld) lim

/-- A knob under authority moves to the nearest bound of new limits (R393). -/
def knobLimit (k : Knob) (lim : Nat × Nat) : Act := .ask fun s =>
  let old := s.fld k.fld
  let new := clampLim old lim
  when_ (s.limMoves k lim) (acts [put k.fld new, winRecord s.windowWT 6 0 0 k.kind old new 0 0])

/-! ### Measurements (R388 to R390) -/

/-- A fraction in 256ths. -/
def frac256 (n d : Nat) : Nat := if d == 0 then 0 else min 255 (n * 256 / d)

/-- GOV_MEAS0 and GOV_MEAS1 of the window that ends now. -/
def State.meas0 (s : State) : Nat :=
  let g := s.gov
  frac256 (SMap.get 0 g.hist 0) (g.hist.map Prod.snd).sum + 2 ^ 8 * frac256 g.occ (s.clk - g.winStart) +
    2 ^ 16 * frac256 g.fstall g.busy + 2 ^ 24 * min g.kreq 255
def State.meas1 (s : State) : Nat :=
  let g := s.gov
  min g.jitMax 4095 + 2 ^ 12 * min (if g.jitN == 0 then 0 else g.jitSum / g.jitN) 4095 + 2 ^ 24 * min g.lag 255

/-- A LINEAR11 word of amperes in 1/8 A, toward zero; below zero it is 0. -/
def linear11 (w : Nat) : Nat :=
  let m := bits w 0 11
  let e := bits w 11 5
  if m ≥ 1024 then 0 else if e ≥ 16 then m * 8 / 2 ^ (32 - e) else m * 8 * 2 ^ e

/-- A rail's IAVG, or none for NODATA. -/
def State.iavg (s : State) (r : Nat) (bs : List Byte) : Option Nat :=
  let g := s.gov
  if profPmb bs then
    let v := SMap.get 0 g.pmbIavg r
    if v == 0 then none else some (v - 1)
  else if (List.range (s.phases r)).any (fun p => SMap.get 0 g.iCnt (profPos bs p) == 0) then none
  else
    let q := (List.range (profN bs)).foldl (fun (acc : Nat × Nat) p =>
      let c := SMap.get 0 g.iCnt (profPos bs p)
      if c == 0 then acc else (acc.1 * c + SMap.get 0 g.iSum (profPos bs p) * acc.2, acc.2 * c)) (0, 1)
    some (min (q.1 / q.2) 65535)

/-- Counting restarts for the next window; a PMBus chain still running belongs to no window any more. -/
def windowRestart : Act := .ask fun s => modGov fun g => { g with
  measuring := true, winStart := s.clk, hist := [], occ := 0, busy := 0, fstall := 0, kreq := 0, jitMax := 0, jitSum := 0,
  jitN := 0, lag := 0, lockedAll := s.wheel.st == .locked, iSum := [], iCnt := [], pmbIavg := [], pmbGot := 0,
  pmbRail := g.pmbRail.map (fun r => r % 16 + 16) }

/-! ### PMBus current reads (R390) -/

/-- TAG of a rail's PMBus chain; the log's SEQs stay below. -/
def pmbTag (r : Nat) : Nat := 0x10000 + r

/-- Take the end of the PMBus chain in progress, if it has come. -/
def pmbCollect : Act := .ask fun s => forSome s.gov.pmbRail fun m =>
  let r := m % 16
  forSome (s.gov.ended.find? (fun e => e.1 == pmbTag r)) fun e => acts [
    modGov fun g => { g with pmbRail := none, ended := g.ended.filter (fun x => x.1 != pmbTag r) },
    when_ (m < 16 && (e.2 == stDONE || e.2 == stDONE_LATE)) (govRead (s.profAddr r + 9) 2 fun o => match o with
      | some bs => modGov fun g => { g with pmbIavg := SMap.set 0 g.pmbIavg r (min (linear11 (ofLe bs)) 65535 + 1) }
      | none => .skip)]

/-- The phase channel is usable (R398). -/
def State.phaseChan (s : State) : Option Nat :=
  let c := s.fld F.GOV_PHASE_CHAN
  let x := s.chan c
  if x.ctx == 65 && (x.st == .idle || x.st == .queued) && x.count ≥ 4 && x.subs.length < 16 then some c else none

/-- A descriptor of the governor: the words of an opcode with CLASS 1, KEY 0xF and DEADLINE 0x1000. -/
def govDesc (op len src dst next o0 : Nat) : List Byte :=
  leBytes 4 (op + 0xF * 2 ^ 16 + 2 ^ 20) ++ leBytes 4 len ++ leBytes 8 src ++ leBytes 8 dst ++ leBytes 4 0x1000 ++
    leBytes 4 0 ++ leBytes 8 0 ++ leBytes 4 next ++ leBytes 4 0 ++ leBytes 4 o0 ++ leBytes 12 0

/-- Submit a chain of the phase channel (R397). -/
def govSubmit (c tag first : Nat) : Act := .ask fun s => acts [
  modSubs c (· ++ [⟨c, tag, 0, first, 1024⟩]),
  when_ ((s.chan c).st == .idle) (startNext c)]

/-- PMBUS_CURRENT_READ: one rail's chain, when it is that rail's turn. -/
def pmbusRead (r : Nat) : Act := acts [
  pmbCollect,
  .ask fun s => when_ (!s.pwr.off && !s.pfHeld && !s.pwr.standby && s.gov.measuring && s.gov.pmbRail.isNone) <|
    usedRails (List.range 16) [] fun rs =>
      let todo := rs.filter (fun x => profPmb x.2 && !bitAt s.gov.pmbGot x.1)
      match todo with
      | [] => .skip
      | (r0, bs) :: _ => when_ (r0 == r) <| acts [
          modGov fun g => { g with pmbGot := setBit g.pmbGot r },
          forSome s.phaseChan fun c =>
            let b := (s.chan c).base
            let a := s.profAddr r
            let dst := 4 * 2 ^ 56 + bits (profNum bs 1 1) 1 1 + 2 ^ 8 * bits (profNum bs 2 1) 0 7
            acts [
              govWrite 0 (a + 4) (leBytes 1 0 ++ leBytes 1 (profNum bs 3 1)), govWrite 0 (a + 8) (leBytes 1 0x8C),
              govWrite 0 (a + 12) (leBytes 1 0x79),
              govWrite 1 (64 * (b + 1)) (govDesc 0x12 2 (2 ^ 56 + a + 4) dst (b + 2) (2 + 2 ^ 16)),
              govWrite 1 (64 * (b + 2)) (govDesc 0x12 3 (2 ^ 56 + a + 8) dst (b + 3) (1 + 2 * 2 ^ 8 + 3 * 2 ^ 16)),
              govWrite 1 (64 * (b + 3)) (govDesc 0x12 3 (2 ^ 56 + a + 12) dst 0xFFFFFFFF (1 + 2 * 2 ^ 8 + 3 * 2 ^ 16)),
              modGov fun g => { g with pmbRail := some r },
              govSubmit c (pmbTag r) (b + 1)]]]

/-! ### Phase changes (R397, R398) -/

/-- The count a job moves its rail to. -/
def State.jobNew (s : State) (j : PhaseJob) : Nat := if j.up then s.phases j.rail + 1 else s.phases j.rail - 1

/-- A job's record. -/
def jobRecord (j : PhaseJob) (outcome cause old new : Nat) : Act :=
  govRecord ⟨j.wt, j.kind, outcome, j.rail, cause, j.knob, old, new, j.meas0, j.meas1, j.iavg, j.thresh⟩

/-- The governor gives the Kindle chair; a refused internal give is a device-level fault (R340, R405). -/
def govGive (j : PhaseJob) : Act := forSome j.chair fun n => .ask fun s =>
  if !s.owns n s.self 0x02 then postPlain 0x09 13 n 0
  else if s.tabRemote (n / 8) then
    zForward (s.tab (n / 8) F.CHR_TAB_CFG_HOME) 0x30 false .chairOther (chrBody n 2 0x02 0 s.now)
  else chairFree n

/-- A change fails with a cause; the third failure in succession blocks the rail, unless it does not count (R398, R404). -/
def phaseFail (j : PhaseJob) (cause : Nat) (counts : Bool) : Act := .ask fun s =>
  let r := j.rail
  let n := s.fldI r F.GOV_RAIL_STAT_FAILS + 1
  let blocks := counts && n ≥ 3
  acts [
    modGov fun g => { g with job := none },
    govGive j,
    event F.GOV_EVT_PHASE_FAIL,
    when_ counts (putI r F.GOV_RAIL_STAT_FAILS (min n 3)),
    jobRecord j 4 (if blocks then 5 else cause) (s.phases r) (s.jobNew j),
    when_ blocks (acts [
      putI r F.GOV_RAIL_STAT_BLOCKED 1, event F.GOV_EVT_BLOCK, postPlain 0x0A 9 r cause])]

/-- Submit the EMIT of a change (R396, R397). -/
def phaseSubmit (j : PhaseJob) : Act := .ask fun s =>
  match s.phaseChan with
  | none => phaseFail j 3 true
  | some c =>
    let p := if j.up then s.phases j.rail else s.phases j.rail - 1
    let a := s.profAddr j.rail + 0x10 + 16 * p
    govRead a 12 fun o => match o with
      | none => phaseFail j 4 true
      | some bs =>
        let cmd := profNum bs (if j.up then 2 else 3) 1
        let addr := profNum bs 0 1
        let lane := bits (profNum bs 1 1) 0 3
        acts [
          govWrite 1 (64 * (s.chan c).base) (govDesc 0x10 4 (2 ^ 56 + a + if j.up then 4 else 8)
            (3 * 2 ^ 56 + 16 * lane + addr % 16) 0xFFFFFFFF (cmd + 2 ^ 8 * (addr / 16) + 4 * 2 ^ 16)),
          modGov fun g => { g with job := some (j, .chain), ended := g.ended.filter (fun x => x.1 ≥ 0x10000) },
          govSubmit c (s.fld F.GOV_LOG_WR_WR) (s.chan c).base]

/-- The next reversion step: the lowest used rail that is not at HOMEPH (R394). -/
def State.revertJob (s : State) (rs : List (Nat × List Byte)) : Option PhaseJob :=
  (rs.find? (fun x => s.phases x.1 != s.homeph x.1 && s.fldI x.1 F.GOV_RAIL_STAT_BLOCKED == 0)).map (fun x =>
    ⟨x.1, s.phases x.1 < s.homeph x.1, 5, 4, 0, 0, s.now, s.word 0 0x324, s.word 0 0x328, s.clk, none⟩)

/-- Take the Kindle chair for a change, wait for it, or fail (R338, R398). -/
def phaseTake (j : PhaseJob) : Act := .ask fun s =>
  let n := s.kindleChair
  let t := n / 8
  let j := { j with since := s.clk }
  let mine := { j with chair := some n }
  let wait := modGov fun g => { g with job := some (mine, .chair) }
  let queue := modChair n fun x => { x with waiters := x.waiters ++ [(.gov, s.now)] }
  if !s.flag F.KND_CHAIR_EN then phaseSubmit j
  else if !s.admits t 65 then acts [chairDeny, phaseFail j 2 true]
  else if s.owns n s.self 0x02 then phaseSubmit mine
  else if s.tabDown t then acts [wait, queue]
  else if s.tabRemote t then acts [
    wait, queue, zForward (s.tab t F.CHR_TAB_CFG_HOME) 0x30 false .chairOther (chrBody n 1 0x02 0 s.now)]
  else if !(s.chair n).held && !(s.chair n).abandoned then acts [chairSit n s.self 0x02 0, phaseSubmit mine]
  else acts [wait, queue]

/-- PHASE_CHANGE: the next change begins, or the one that waits for its chair and now owns it goes on. -/
def phaseChange : Act := .ask fun s => when_ (!s.pwr.off && !s.pfHeld && !s.pwr.standby && !s.pwr.entering) <|
  match s.gov.job with
  | some (j, .chair) => forSome j.chair fun n => when_ (s.owns n s.self 0x02) (phaseSubmit j)
  | some (_, .chain) => .skip
  | none => match s.gov.jobs with
    | j :: rest => acts [modGov fun g => { g with jobs := rest }, phaseTake j]
    | [] => when_ s.gov.reverting <| usedRails (List.range 16) [] fun rs => .ask fun s => match s.revertJob rs with
      | some j => phaseTake j
      | none => modGov fun g => { g with reverting := false }

/-- PHASE_CHANGE_END: the chain of the change in progress has ended. -/
def phaseChangeEnd : Act := .ask fun s => when_ (!s.pwr.off && !s.pfHeld) <|
  match s.gov.job with
  | some (j, .chain) =>
    forSome (s.gov.ended.find? (fun e => e.1 < 0x10000)) fun e => acts [
      modGov fun g => { g with ended := g.ended.filter (fun x => x.1 ≥ 0x10000) },
      if e.2 == stDONE || e.2 == stDONE_LATE then acts [
        modGov fun g => { g with job := none, phases := SMap.set 0 g.phases j.rail (s.jobNew j) },
        putI j.rail F.GOV_RAIL_STAT_FAILS 0,
        govGive j,
        when_ (j.kind == 4) (event F.GOV_EVT_DECIDE),
        jobRecord j 0 0 (s.phases j.rail) (s.jobNew j)]
      else if e.2 == stSTOPPED && (s.pwr.entering || s.pwr.standby) then phaseFail j 3 false
      else phaseFail j 4 true]
  | _ => .skip

/-- A decided change whose frame has not been sent fails at STANDBY entry, and does not count (R404). -/
def standbyFail (j : PhaseJob) : Act := .ask fun s =>
  match j.chair with
  | some n => if s.owns n s.self 0x02 then phaseFail j 3 false
    else acts [chairUnwait .gov, phaseFail { j with chair := none } 3 false]
  | none => phaseFail j 3 false

/-- The halt of STANDBY entry takes effect on the governor's changes (R404). -/
def govStandby : Act := acts [
  phaseChangeEnd,
  .ask fun s => match s.gov.job with
    | some (j, .chair) => standbyFail j
    | _ => .skip,
  .ask fun s => acts [modGov fun g => { g with jobs := [] }, forEach s.gov.jobs standbyFail]]

/-- The governor's internal take times out (R338, R398). -/
def govTakeLimit : Act := .ask fun s => when_ (!s.pfHeld) <| match s.gov.job with
  | some (j, .chair) => acts [
      advanceTo (j.since + usClocks (max 1 (s.fld F.CHR_DLIM_LIMIT))), count F.CHR_CNT_TIMEOUT, chairUnwait .gov,
      phaseFail { j with chair := none } 1 true]
  | _ => .skip

/-! ### Decisions (R391 to R393, Table GOV-3) -/

/-- H (R391). -/
def State.hyst (s : State) : Nat := max 1 (s.fld F.GOV_CTL_HYST)

/-- A knob's rules: the tighten rule's step, else the relax rule's once its condition has held H times; a step that leaves
the limits, or moves nothing, is no decision, and a knob that its limits have moved makes none in that window. -/
def knobRules (k : Knob) (lim : Nat × Nat) (moved tighten : Bool) (up : Nat) (relax : Bool) (down : Nat) (cnt : Nat)
    (setCnt : Nat → Act) : Act := .ask fun s =>
  let old := s.fld k.fld
  let ok := fun new => !moved && new != old && inLim new lim
  if tighten && ok up then acts [setCnt 0, knobDecide k up]
  else if !relax then setCnt 0
  else if cnt + 1 ≥ s.hyst && ok down then acts [setCnt 0, knobDecide k down]
  else setCnt (min (cnt + 1) 15)

/-- The burst, prefetch and bandwidth rules. -/
def knobsDecide (mBurst mPf mBw : Bool) : Act := acts [
  .ask fun s =>
    let cap := s.fld F.ARB_BURST_CAP
    knobRules knobBurst s.burstLim mBurst (s.fld F.GOV_MEAS0_LATE > s.fld F.GOV_THR_LATE_HI) (max (cap / 2) s.burstLim.1)
      (s.fld F.GOV_MEAS0_LATE == 0 && s.fld F.GOV_MEAS0_OCC < s.fld F.GOV_THR_OCC_LO) (min (2 * cap) s.burstLim.2)
      s.gov.hBurst (fun n => modGov fun g => { g with hBurst := n }),
  .ask fun s =>
    let d := s.fld F.GOV_CTL_PF_NOW
    knobRules knobPf s.pfLim mPf (s.fld F.GOV_MEAS0_FSTALL > s.fld F.GOV_THR_FS_HI) (d + 1)
      (s.fld F.GOV_MEAS0_FSTALL < s.fld F.GOV_THR_FS_HI / 4) (d - 1)
      s.gov.hPf (fun n => modGov fun g => { g with hPf := n }),
  .ask fun s =>
    let b := s.fld F.WHL_TRK_BW
    let setC := fun n => modGov fun g => { g with hBw := n }
    if !s.gov.lockedAll then setC 0
    else knobRules knobBw s.bwLim mBw (4 ≤ s.fld F.GOV_MEAS1_LAG) (b + 1)
      (s.fld F.GOV_MEAS1_LAG < 4 && s.fld F.GOV_MEAS1_JIT_MEAN > s.fld F.GOV_THR_JIT_HI) (b - 1) s.gov.hBw setC]

/-- Phase moves have authority (R392). -/
def State.phaseAuth (s : State) (r : Nat) : Bool := s.flag F.GOV_AUTH_PHASE && bitAt (s.fld F.GOV_AUTH_RAILS) r

/-- A decided change takes its place in ascending rail order (R397). -/
def queueJob (j : PhaseJob) : Act := modGov fun g => { g with
  jobs := g.jobs.filter (fun x => x.rail < j.rail) ++ j :: g.jobs.filter (fun x => j.rail ≤ x.rail) }

/-- A phase decision: a change to carry out, or a record alone. -/
def phaseDecide (r iavg thresh : Nat) (up : Bool) : Act := .ask fun s =>
  let k := s.phases r
  let out := if s.flag F.GOV_CTL_FREEZE then 2 else if !s.phaseAuth r then 1 else 0
  if out == 0 then
    queueJob ⟨r, up, 4, 0, iavg, thresh, s.windowWT, s.word 0 0x324, s.word 0 0x328, s.clk, none⟩
  else acts [event F.GOV_EVT_ADVISE, winRecord s.windowWT 4 out r 0 k (if up then k + 1 else k - 1) iavg thresh]

/-- The phase rules of a rail. -/
def phaseRules (r : Nat) : Act := .ask fun s =>
  let k := s.phases r
  let i := s.fldI r F.GOV_RAIL_STAT_IAVG
  let add := k * s.fldI r F.GOV_RAIL_CFG1_IPH_ADD
  let shed := (k - 1) * s.fldI r F.GOV_RAIL_CFG1_IPH_SHED
  let setC := fun n => modGov fun g => { g with hPhase := SMap.set 0 g.hPhase r n }
  let cnt := SMap.get 0 s.gov.hPhase r
  if s.fldI r F.GOV_RAIL_STAT_NODATA == 1 || s.fldI r F.GOV_RAIL_STAT_BLOCKED == 1 then setC 0
  else if i > add && inLim (k + 1) (s.minph r, s.maxph r) then acts [setC 0, phaseDecide r i add true]
  else if !(i < shed && s.fld F.GOV_MEAS0_KREQ == 0) then setC 0
  else if cnt + 1 ≥ s.hyst && inLim (k - 1) (s.minph r, s.maxph r) then acts [setC 0, phaseDecide r i shed false]
  else setC (min (cnt + 1) 15)

/-- A rail under authority moves one phase toward its limits (R393). -/
def phaseLimit (r : Nat) : Act := .ask fun s =>
  queueJob ⟨r, s.phases r < s.minph r, 6, 4, 0, 0, s.windowWT, s.word 0 0x324, s.word 0 0x328, s.clk, none⟩

/-- No phase change is in progress or due: this window end may decide phase moves (R397). -/
def State.phasesFree (s : State) : Bool := s.gov.job.isNone && s.gov.jobs.isEmpty && !s.gov.reverting

/-- The limit moves pending since a write to GOV_LIM_ARB or GOV_RAIL_CFG0, for rails that decide no change (R393). -/
def limitMoves (rs : List (Nat × List Byte)) : Act := .ask fun s => when_ (s.gov.limPend && !s.flag F.GOV_CTL_FREEZE) <|
  let out := rs.filter (fun x => s.phaseAuth x.1 && !inLim (s.phases x.1) (s.minph x.1, s.maxph x.1) &&
    s.fldI x.1 F.GOV_RAIL_STAT_BLOCKED == 0)
  acts [
    knobLimit knobBurst s.burstLim, knobLimit knobPf s.pfLim, knobLimit knobBw s.bwLim,
    when_ s.phasesFree (forEach out fun x => phaseLimit x.1),
    modGov fun g => { g with limPend := !out.isEmpty }]

/-- The phase decisions of a window end, of the rails that their limits do not move. -/
def phasesDecide (rs : List (Nat × List Byte)) : Act := .ask fun s =>
  let moved := s.gov.jobs.map (·.rail)
  forEach (rs.filter (fun x => !moved.contains x.1)) fun x => phaseRules x.1

/-- The measurement registers show the window that ends. -/
def showWindow (rs : List (Nat × List Byte)) : Act := .ask fun s => acts [
  putWord 0 0x324 (BitVec.ofNat 32 s.meas0), putWord 0 0x328 (BitVec.ofNat 32 s.meas1),
  modGov fun g => { g with shownHist := g.hist },
  forEach rs fun x => match s.iavg x.1 x.2 with
    | some i => acts [putI x.1 F.GOV_RAIL_STAT_NODATA 0, putI x.1 F.GOV_RAIL_STAT_IAVG i]
    | none => acts [putI x.1 F.GOV_RAIL_STAT_NODATA 1, putI x.1 F.GOV_RAIL_STAT_IAVG 0]]

/-- The next window end after the present wheel time (R387). -/
def State.windowEnd (s : State) : WTime := BitVec.ofNat 48 ((s.now.toNat / s.windowUnits + 1) * s.windowUnits)

/-- WINDOW_END. -/
def windowEndAct : Act := .ask fun s => when_ (!s.pwr.off && !s.pfHeld && !s.pwr.standby && !s.pwr.entering) <| acts [
  advanceToWheel s.windowEnd,
  .ask fun s => when_ (s.flag F.GOV_CTL_EN) <|
    if !s.gov.measuring then windowRestart
    else acts [
      pmbCollect,
      usedRails (List.range 16) [] fun rs => acts [
        showWindow rs,
        .ask fun s => acts [
          limitMoves rs,
          knobsDecide (s.limMoves knobBurst s.burstLim) (s.limMoves knobPf s.pfLim) (s.limMoves knobBw s.bwLim),
          when_ s.phasesFree (phasesDecide rs)],
        windowRestart]]]

/-! ### GOV_CTL (R394, R395) -/

/-- The prefetch depth's home, within 1 to 4 (Table GOV-1). -/
def State.pfHome (s : State) : Nat := max 1 (min 4 (s.fld F.GOV_HOME_PF))

/-- Every hysteresis counter restarts. -/
def hystRestart : Act := modGov fun g => { g with hBurst := 0, hPf := 0, hBw := 0, hPhase := [] }

/-- A reversion of one knob. -/
def knobRevert (k : Knob) (new : Nat) : Act := .ask fun s =>
  when_ (s.fld k.fld != new) (acts [winRecord s.now 5 0 0 k.kind (s.fld k.fld) new 0 0, put k.fld new])

/-- A write of 1 to GOV_CTL.REVERT. -/
def revertAct : Act := .ask fun s => acts [
  knobRevert knobBurst (s.fld F.GOV_HOME_BURST), knobRevert knobPf s.pfHome, knobRevert knobBw (s.fld F.GOV_HOME_BW),
  hystRestart, modGov fun g => { g with jobs := [], reverting := true }]

/-- EN goes from 0 to 1 (R395). -/
def govEnable : Act := .ask fun s => acts [
  put F.ARB_BURST_CAP (s.fld F.GOV_HOME_BURST), put F.GOV_CTL_PF_NOW s.pfHome, put F.WHL_TRK_BW (s.fld F.GOV_HOME_BW),
  hystRestart, modGov fun g => { g with measuring := false },
  usedRails (List.range 16) [] fun rs => forEach rs fun x =>
    modGov fun g => { g with phases := SMap.set 0 g.phases x.1 (s.homeph x.1) }]

/-- A write to GOV_CTL. -/
def govCtlWrite (p : Path) (v : Word) : Act := .ask fun s0 => acts [
  fieldWrite p 0x300 v,
  .ask fun s => acts [
    when_ (s.flag F.GOV_CTL_EN && !s0.flag F.GOV_CTL_EN) govEnable,
    when_ (!s.flag F.GOV_CTL_EN) (modGov fun g => { g with measuring := false, jobs := [] })],
  when_ (bitAt v.toNat 2) revertAct]

end Sys2Proof.Machine
end

