-- ==== Sys2Proof/Machine/Pmbus.lean ====
section
/-!
DEFINITION. PMBus and AVSBus transactions of PMB_XFER and of the alert response (R442 to R455, R464, R466), and the pin wicks
(R456 to R463).
-/

namespace Sys2Proof.Machine

/-! ### PMB_XFER's fields -/

/-- Bus index of a PMB_XFER: PMBus port, or 2 + AVSBus interface. -/
def busOf (d : List Word) : Nat := if opSel (dDst d) == 5 then 2 + bits (opAddr (dDst d)) 0 1 else bits (opAddr (dDst d)) 0 1
def pmbWr (d : List Word) : Nat := bits (dOps d 0) 0 8
def pmbRd (d : List Word) : Nat := bits (dOps d 0) 8 8
def pmbForm (d : List Word) : Nat := bits (dOps d 0) 16 4
def pmbAddr (d : List Word) : Nat := if opSel (dDst d) == 5 then 0 else bits (opAddr (dDst d)) 8 7

/-- EN of a bus. -/
def State.busEn (s : State) (k : Nat) : Bool :=
  match k with
  | 0 => s.flag F.PMB0_CTL_EN
  | 1 => s.flag F.PMB1_CTL_EN
  | 2 => s.flag F.AVS0_CTL_EN
  | _ => s.flag F.AVS1_CTL_EN

/-- The segments of a GROUP buffer fill it exactly (R447). -/
def groupOk : Nat → List Byte → Bool
  | 0, _ => false
  | fuel + 1, bs =>
    match bs with
    | a :: n :: rest => a.toNat < 128 && 1 ≤ n.toNat && n.toNat ≤ rest.length &&
        ((rest.drop n.toNat).isEmpty || groupOk fuel (rest.drop n.toNat))
    | _ => false

/-- The buffer keeps the rules that are checked at execution (R447, R454). -/
def bufOk (d : List Word) (bs : List Byte) : Bool :=
  if opSel (dDst d) == 5 then
    let b := (bs.getD 0 0).toNat
    b < 16 && (b != 15 || pmbForm d ≤ 1)
  else pmbForm d != 7 || groupOk 256 bs

/-! ### What a transaction sends (Tables PMW-2, PMW-3, R445 to R448) -/

/-- PEC is on: an ARA has none. -/
def pmbPec (d : List Word) : Bool := bitAt (dOps d 0) 20 && opSel (dDst d) == 4 && pmbForm d != 8

/-- A part of a transaction with the PEC that covers it (R448). -/
def withPec (pec : Bool) (bs : List Byte) : List Byte := if pec then bs ++ [BitVec.ofNat 8 (crc8 bs)] else bs

/-- The segments of a GROUP, each to its own address with its own PEC (R447, R448). -/
def groupWire (pec : Bool) : Nat → List Byte → List Byte
  | 0, _ => []
  | fuel + 1, bs =>
    match bs with
    | a :: n :: rest => withPec pec (BitVec.ofNat 8 (2 * a.toNat) :: rest.take n.toNat) ++ groupWire pec fuel (rest.drop n.toNat)
    | _ => []

/-- The bytes the device sends for a descriptor with its write bytes in hand; an AVSBus frame carries them (R454, R455). -/
def pmbWire (d : List Word) (bs : List Byte) : List Byte :=
  let w : Byte := BitVec.ofNat 8 (2 * pmbAddr d)
  let r : Byte := BitVec.ofNat 8 (2 * pmbAddr d + 1)
  let block := w :: bs.take 1 ++ [BitVec.ofNat 8 (bs.length - 1)] ++ bs.drop 1
  if opSel (dDst d) == 5 then bs
  else match pmbForm d with
    | 0 | 1 => withPec (pmbPec d) (w :: bs)
    | 2 => [r]
    | 3 | 5 => w :: bs ++ [r]
    | 4 => withPec (pmbPec d) block
    | 6 => block ++ [r]
    | 7 => groupWire (pmbPec d) 256 bs
    | _ => [0x19]

/-! ### PMB_NAK (R466) -/

/-- Capture and count a PMB_NAK. -/
def nakCapture (d : List Word) (cause byte : Nat) : Act := .ask fun s => acts [
  when_ (!s.flag F.PMB_CAP_VALID) (putWord 0 0x360 (BitVec.ofNat 32
    (cause + 2 ^ 4 * b2n (opSel (dDst d) == 5) + 2 ^ 5 * (busOf d % 2) + 2 ^ 8 * pmbAddr d + 2 ^ 16 * (byte % 256) + 2 ^ 31))),
  event F.PMB_EVT_NAK, count F.PMB_CNT_NAKS]

/-- The current descriptor ends with PMB_NAK. -/
def nakDesc (c cause byte : Nat) : Act := .ask fun s => forSome (s.cur c) fun d =>
  acts [nakCapture d.words cause byte, descDone c stPMB_NAK, settleStop c]

/-! ### The port arbiter (Table ARB-1) -/

/-- The channels that wait for a bus. -/
def State.busWaiters (s : State) (k : Nat) : List Nat := s.chanList.filter (fun c =>
  match s.cur c with
  | some d => dOp d.words == 0x12 && d.phase == .bus && busOf d.words == k && (s.pmbp k).user != some (.chan c)
  | none => false)

/-- A waiting PMB_XFER's rank; as its fixed index, which the spec does not give, it has its engine's number (DESIGN CHOICE, log
83). -/
def State.busRank (s : State) (c : Nat) : Rank :=
  match s.cur c with
  | some d => ⟨classTier (dClass d.words), d.l, ((s.chan c).run.map (·.i)).getD s.now, (s.chan c).engine⟩
  | none => ⟨3, 0, 0, 0⟩

/-- The port wants to issue an ARA (R453, R465). -/
def State.araWants (s : State) (k : Nat) : Bool :=
  let p := s.pmbp k
  k < 2 && p.araOn && p.aras < 8 && (p.alert || p.aras == 0) && s.busEn k && !s.pfHeld

/-- Requesters of a bus; 256 stands for the port's own ARA, ranked as device internal (Table ARB-3). -/
def State.busAsking (s : State) (k : Nat) : List (Nat × Rank) :=
  (s.busWaiters k).map (fun c => (c, s.busRank c)) ++
    (if s.araWants k then [(256, ⟨2, wtAdd (s.pmbp k).araAt 4096, (s.pmbp k).araAt, 10⟩)] else [])

/-- An idle bus serves its next requester, whose bytes go out (R163); one that finds its port disabled ends at once (R452). -/
def busTry (k : Nat) : Nat → Act
  | 0 => .skip
  | fuel + 1 => .ask fun s => when_ (s.pmbp k).user.isNone <|
      arbitrate (16 + k) (s.busAsking k) fun g =>
        if g == 256 then modPmbp k fun p => { p with user := some .ara, aras := p.aras + 1, wire := [0x19] }
        else if s.busEn k then modPmbp k fun p => { p with
          user := some (.chan g), wire := match s.cur g with
                                          | some d => pmbWire d.words (d.data.getD [])
                                          | none => [] }
        else acts [nakDesc g 10 0, busTry k fuel]

/-- A request has been raised at a bus: an idle one decides in the next core clock (R204). -/
def busRaise (k : Nat) : Act := .ask fun s => when_ (s.pmbp k).user.isNone (acts [tickBy 1, busTry k 300])

/-! ### PMB_XFER (R445) -/

/-- Store read bytes from an offset of the buffer on, then complete (R445). -/
def busStore (c status : Nat) : Nat → Act
  | 0 => .skip
  | fuel + 1 => .ask fun s => forSome (s.cur c) fun d =>
    match d.data with
    | none => acts [descDone c status, settleStop c]
    | some bs =>
      let full := dSrc d.words + d.sent
      let sel := opSel full
      match s.reach c d.words sel (opAddr full) (s.pieceLen c sel (opAddr full) bs.length) true with
      | .go a m => acts [
          engineWrite (s.operandReq c d.words) (s.chan c).engine (sel - 1) a (bs.take m), dropCopies c (sel - 1) a m, addBytes c m,
          modCur c fun d => { d with sent := d.sent + m, data := if (bs.drop m).isEmpty then none else some (bs.drop m) },
          busStore c status fuel]
      | .fault st => accessFault c st d.sent full
      | .refuse acc cause region shade => acts [protCapture acc cause region shade, accessFault c stPROT_FAULT d.sent full]
      | .stall => acts [modCur c fun d => { d with after := some status, phase := .ready }, beatStall c full]
      | .view e => acts [modCur c fun d => { d with after := some status, phase := .ready }, viewWait c e]

/-- PMB_XFER executes: it reads its write bytes and waits for its bus with no engine (R209, R445). -/
def pmbBody (c : Nat) : Act := .ask fun s => forSome (s.cur c) fun d =>
  match d.after with
  | some st => acts [modCur c fun d => { d with after := none }, busStore c st 300]
  | none => readBuf c d (dSrc d.words) 0 (pmbWr d.words) [] (fun bs =>
      if !s.busEn (busOf d.words) then nakDesc c 10 0
      else if !bufOk d.words bs then nakDesc c 7 0
      else acts [modCur c fun d => { d with phase := .bus, data := some bs }, queueAt c .none, busRaise (busOf d.words)]) 300

/-- Bytes a transaction stores, from those its target sent, with its cause when they break R446 or the PEC behind them does not
cover what went before (R448); of the row's causes those that the device itself judges say nothing. -/
def busRead (d : List Word) (wire : List Byte) (cause : Nat) (data : List Byte) : List Byte × Nat :=
  let byte := fun i => data.getD i 0xFF
  let n := pmbRd d
  let first := fun k => (List.range k).map byte
  let resp := BitVec.ofNat 8 ((byte 0).toNat % 32)
  if opSel (dDst d) == 5 then
    if cause == 8 || cause == 9 then ([resp], cause)
    else if cause == 5 || cause == 6 then ([], cause)
    else (resp :: (first n).tail, 0)
  else if cause == 1 || cause == 2 || cause == 5 || cause == 6 then ([], cause)
  else
    let pec := fun (bs : List Byte) => if pmbPec d && pmbRd d != 0 && crc8 (wire ++ bs) != (byte bs.length).toNat then 3 else 0
    if pmbForm d == 5 || pmbForm d == 6 then
      let cnt := (byte 0).toNat
      let bs := first (1 + min cnt (n - 1))
      (bs, if cnt == 0 || cnt > n - 1 then 4 else pec bs)
    else (first n, pec (first n))

/-- A channel's transaction has ended. -/
def busEnd (c : Nat) (wire : List Byte) (cause byte : Nat) (data : List Byte) : Act := .ask fun s => forSome (s.cur c) fun d =>
  let r := busRead d.words wire cause data
  acts [
    when_ (r.2 != 0) (nakCapture d.words r.2 byte),
    modCur c fun d => { d with sent := pmbWr d.words, data := if r.1.isEmpty then none else some r.1 },
    busStore c (if r.2 == 0 then stDONE else stPMB_NAK) 300]

/-- An ARA has ended (R453). -/
def araEnd (k cause : Nat) (data : List Byte) : Act := .ask fun s =>
  let f := fun (x y : Fld) => if k == 0 then x else y
  if cause == 0 then acts [
    put (f F.PMB0_ARA_ADDR F.PMB1_ARA_ADDR) ((data.getD 0 0xFF).toNat / 2), put (f F.PMB0_ARA_VALID F.PMB1_ARA_VALID) 1,
    count (f F.PMB0_ARA_COUNT F.PMB1_ARA_COUNT), modPmbp k fun p => { p with araAt := s.now }]
  else modPmbp k fun p => { p with araOn := false }

/-- The transaction on a bus ends with a cause of Table PMW-5 or 0; `clear` says that a bus clear went before (R451). -/
def transactionEnd (k cause : Nat) (clear : Bool) (byte : Nat) (data : List Byte) : Act := .ask fun s =>
  when_ (!s.pwr.off) <| forSome (s.pmbp k).user fun u => raised <| acts [
    when_ (clear && k < 2) (count F.PMB_CNT_STUCK),
    when_ (cause == 6) (event F.PMB_EVT_STUCK),
    modPmbp k fun p => { p with user := none, wire := [] },
    match u with
    | .chan c => busEnd c (s.pmbp k).wire cause byte data
    | .ara => araEnd k cause data
    | .orphan => .skip,
    busTry k 300]

/-! ### SMBALERT# (R453) -/

/-- SMBALERT: the pin falls. -/
def alertFall (k : Nat) : Act := .ask fun s => when_ (!s.pwr.off && !(s.pmbp k).alert) <| acts [
  modPmbp k fun p => { p with
    alert := true, aras := 0, araAt := s.now,
    araOn := s.flag (if k == 0 then F.PMB0_CTL_ARA_AUTO else F.PMB1_CTL_ARA_AUTO) && s.busEn k && !s.pfHeld },
  event (if k == 0 then F.PMB_EVT_ALERT0 else F.PMB_EVT_ALERT1),
  .ask fun s => when_ (s.araWants k) (busRaise k)]

/-- SMBALERT_RELEASE: the pin is high. -/
def alertRise (k : Nat) : Act := .ask fun s => when_ (!s.pwr.off && (s.pmbp k).alert) <|
  modPmbp k fun p => { p with alert := false, araOn := p.araOn && p.aras == 0 }

/-! ### Pin wicks -/

/-- FUNC and PARK of a pin. -/
def State.wckFunc (s : State) (w : Nat) : Nat := s.fldI w F.WCK_CFG_FUNC
def State.wckPark (s : State) (w : Nat) : Nat := s.fldI w F.WCK_CFG_PARK

/-- The output bit of a pin. -/
def State.wckOut (s : State) (w : Nat) : Bool :=
  bitAt (if w < 32 then s.fld F.WCK_OUT0_OUT else s.fld F.WCK_OUT1_OUT) (w % 32)

/-- The pad of a pin takes a level; its logical level follows unless it is parked or being switched (R456, R457, R459). -/
def padTo (w : Nat) (level : Bool) : Act := .ask fun s =>
  let x := s.wick w
  acts [
    modWick w fun x => { x with pad := level },
    when_ (x.parkEnd.isNone && s.wckFunc w != 0 && x.level != level) (acts [
      modWick w fun x => { x with level := level }, when_ (!s.pfHeld) (wickEdge w level)])]

/-- The pad a pin drives when its function begins or its output bit changes (Table PMW-4); OUT_OD released is pulled up. -/
def padDrive (w : Nat) : Act := .ask fun s =>
  when_ ((s.wick w).parkEnd.isNone && (s.wckFunc w == 2 || s.wckFunc w == 3)) (padTo w (s.wckOut w))

/-- A write to WCK_CFG (R456, R459, R461, R462). -/
def wckCfgWrite (v : Word) : Act := .ask fun s =>
  let w := s.fld F.WCK_SEL_PIN
  let func := bits v.toNat 0 3
  let park := bits v.toNat 4 2
  if s.flag F.WCK_CTL_LOCK || func ≥ 4 then event F.WCK_EVT_LOCKED
  else acts [
    putI w F.WCK_CFG_FUNC func, putI w F.WCK_CFG_PARK park,
    when_ (func != s.wckFunc w) (modWick w fun x => { x with
      parkEnd := some (s.clk + 5), pad := if park == 0 then false else if park == 1 then true else x.pad })]

/-- Level conditions of channels parked on a pin, judged at the end of a switch (R463). -/
def wickJudge (w : Nat) : Act := .ask fun s => forEach s.chanList fun c => .ask fun s =>
  match (s.chan c).park with
  | .wick w' cond => when_ ((s.chan c).st == .parked && w' == w && s.wickMeets w cond) (releaseWait c stDONE)
  | _ => .skip

/-- PARK_END: the switch of a pin ends; the edge detector is seeded with its level (R459). -/
def parkEndAct (w : Nat) : Act := .ask fun s => when_ (!s.pwr.off) <| forSome (s.wick w).parkEnd fun t => acts [
  advanceTo t,
  modWick w fun x => { x with
    parkEnd := none, pad := if s.wckFunc w == 2 || s.wckFunc w == 3 then s.wckOut w else x.pad },
  modWick w fun x => { x with level := s.wckFunc w != 0 && x.pad },
  when_ (!s.pfHeld) (wickJudge w)]

end Sys2Proof.Machine
end

