-- ==== Sys2Proof/Machine/Zheyn.lean ====
section
/-!
DEFINITION. The Zheyn link (R499 to R520): ports and packets, presence and routes, the wheel's marks, peer memory,
fences and shared chairs across devices, forwarded errors, and the loss of a link or a peer.  The packing of bodies
is log 10.
-/

namespace Sys2Proof.Machine

/-! ### Peers -/

/-- Change what is known of a peer. -/
def modPeer (p : Nat) (f : Peer → Peer) : Act :=
  modZhn fun z => { z with peers := SMap.set Peer.init z.peers p (f (SMap.get Peer.init z.peers p)) }

/-- No peer has been seen through a port. -/
def forgetSeen (port : Nat) : Act := forEach (List.range 4) fun p =>
  modPeer p fun x => if port == 0 then { x with seen0 := none } else { x with seen1 := none }

/-! ### Heads, routes and presence (R500, R505, R512) -/

/-- The device follows the wheel of another (R505). -/
def State.follows (s : State) : Bool := s.flag F.WHL_CTL_SRC && s.wheel.st != .master

/-- A head other than the last one followed acts as a change of source (R508, R69). -/
def headCheck : Act := .ask fun s =>
  forSome s.headNow fun h => when_ (s.zhn.head != some h) <| acts [
    when_ (s.zhn.head.isSome && s.follows) sourceChange,
    modZhn fun z => { z with head := some h }]

/-- A candidate that is not the head, or a head that learns of a second MASTER (R505). -/
def conflictCheck : Act := .ask fun s =>
  let other := s.presentPeers.any (fun p => (s.peer p).master)
  when_ (s.wheelCand && (s.headNow != some s.self || (s.wheel.st == .master && other))) (event F.PEL_EVT_CONFLICT)

/-- A home sends its current values to every subscriber again (R512). -/
def fenRetell : Act := .ask fun s =>
  forEach (s.fences.keys.filter (fun i => (s.fence i).live && !(s.fence i).proxy && (s.fence i).subs != 0)) fun i => fenTell i false

/-- The chairs of tables that a peer is home to read free when it comes back (R345). -/
def mirrorClear (p : Nat) : Act := .ask fun s => forEach (List.range 16) fun t =>
  when_ (s.tabRemote t && s.tab t F.CHR_TAB_CFG_HOME == p) <|
    modZhn fun z => { z with mirror := z.mirror.filter (fun e => e.1 / 8 != t) }

/-- How long a HELLO counts: 50 µs (R500). -/
def helloLife : Nat := usClocks 50

/-! ### Losses (R345, R379, R511, R516, R517) -/

/-- A peer access of a channel ends with a status at its present piece (R511). -/
def peerFault (c status : Nat) (wr : Bool) : Act := .ask fun s =>
  forSome (s.cur c) fun d => when_ (d.phase == .peer) <|
    accessFault c status d.off (if wr then dstAt d.words d.off else srcAt d.words d.off)

/-- An outstanding operation goes. -/
def outGone (o : ZOut) : Act := modZhn fun z => { z with outs := z.outs.filter (fun x => x.opId != o.opId) }

/-- A channel's fence or chair operation is over: what waited for it goes on. -/
def channelTold (c : Nat) (ph : Phase) (status : Nat) : Act := .ask fun s =>
  forSome (s.cur c) fun d => when_ (d.phase == ph) (acts [descDone c status, settleStop c])

/-- What an outstanding operation comes to when its peer is lost. -/
def outLost (o : ZOut) : Act := acts [outGone o, match o.what with
  | .rd c => peerFault c stABORTED false
  | .wr c => peerFault c stABORTED true
  | .signal c => channelTold c .fenceRsp stABORTED
  | .chair c => channelTold c .chairRsp stDONE
  | .imp p => refuse p mbBAD_ARG
  | .wrLate | .kick | .free | .chairPath _ _ | .chairOther => .skip]

/-- A peer is lost (Table ZHN-2). -/
def losePeer (p : Nat) : Act := acts [
  modPeer p fun x => { x with present := false, seen0 := none, seen1 := none, master := false, cand := false },
  modZhn fun z => { z with done := z.done.filter (·.src != p), stalled := z.stalled.filter (·.h.src != p) },
  .ask fun s => forEach (s.zhn.outs.filter (·.peer == p)) outLost,
  .ask fun s => forEach (s.fences.keys.filter (fun i => (s.fence i).live && (s.fence i).proxy && (s.fence i).home == p)) fun i =>
    acts [proxyBreak i, modFence i fun f => { f with homeIdx := 4096 }],
  .ask fun s => forEach (s.fences.keys.filter (fun i => (s.fence i).live && bitAt (s.fence i).subs p)) fun i => acts [
    modFence i fun f => { f with subs := clrBit f.subs p }, fenceDropUnattr i],
  .ask fun s => forEach s.chairs.keys fun n => modChair n fun x => { x with
    waiters := x.waiters.filter (fun w => match w.1 with
      | .peer id _ _ => id != p
      | _ => true) },
  .ask fun s => forEach (((s.chairs.keys.filter (fun n => (s.chair n).held && (s.chair n).peer == p)).map
    (fun n => (s.chair n).mid)).eraseDups) (chairAbandon p),
  mirrorClear p, kindleChairCheck,
  fenRetell, headCheck,
  .ask fun s => postPlain 0x0D 16 p s.presentMask,
  event F.PEL_EVT_PEER_LOST]

/-- A link goes down (R511, R516, R517): its packets go over the other route where there is one; peer accesses with no
route left end. -/
def linkDown (port : Nat) : Act := .ask fun s0 =>
  let z0 := s0.zport port
  when_ z0.ready <| acts [
    modZport port fun z => { z with ready := false, up := false, queue := [], unacked := [], pingOut := false },
    forgetSeen port,
    when_ z0.up (event F.PEL_EVT_LINK_DOWN),
    forEach (z0.unacked ++ z0.queue) fun k => .ask fun s =>
      when_ (k.typ ≥ 0x10) (forSome (s.peer k.dst).route fun r => zQueue r.1 k),
    .ask fun s => forEach s.zhn.outs fun o => match o.what with
      | .rd _ | .wr _ | .wrLate => when_ ((s.peer o.peer).route.isNone) (outLost o)
      | _ => .skip,
    fenRetell]

/-! ### Receiving (R501, R502) -/

/-- A bad packet is discarded and counted (R502, R519). -/
def zBad : Act := count F.PEL_CNT0_CRC

/-- The other port. -/
def otherPort (port : Nat) : Nat := 1 - port % 2

/-- A port is enabled and exchanges packets. -/
def State.portOpen (s : State) (port : Nat) : Bool := !s.pwr.off && port < 2 && (s.zport port).ready

/-- The next expected packet of a port has arrived and is acknowledged (R502). -/
def zTaken (port : Nat) : Act := modZport port fun z => { z with rxSeq := (z.rxSeq + 1) % 256 }

/-- A packet with this device's own PEER_ID as its source (R501). -/
def idClash (port : Nat) : Act := acts [
  event F.PEL_EVT_IDCLASH, modZport port fun z => { z with clash := true }, forgetSeen port,
  .ask fun s => forEach (s.presentPeers.filter (fun p => (s.peer p).route.isNone)) losePeer]

/-- A packet of this device that has come round a ring: both ports are UP and it has passed two devices or more, as no
packet of another device in a legal line has (R499, R500). -/
def State.cameRound (s : State) (h : ZHdr) : Bool := s.zhn.p0.up && s.zhn.p1.up && h.hops ≥ 2

/-- Send a packet on its way out of the other port, one hop further (R500). -/
def zPass (h : ZHdr) (urgent : Bool) (typ : Nat) (body : List Byte) : Act :=
  zPut (otherPort h.port) urgent ⟨typ, h.dst % 4, h.src % 4, h.user, min (h.hops + 1) 3, 0, h.opId, body, 0, 0, 0⟩

/-- A received packet: out of sequence it is discarded; with this device's own source it is discarded too; else it acts. -/
def zRecv (h : ZHdr) (act : Act) : Act := .ask fun s =>
  when_ (s.portOpen h.port) <|
    if h.lseq != (s.zport h.port).rxSeq then zBad
    else acts [zTaken h.port, if h.src == s.self then idClash h.port else act]

/-- A packet for one device: delivered there, forwarded elsewhere. -/
def zDeliver (h : ZHdr) (typ : Nat) (body : List Byte) (act : Act) : Act := zRecv h <| .ask fun s =>
  if h.dst == s.self then act else zPass h false typ body

/-- An operation of a peer: one answered before gets the same answer and is not performed again (R503). -/
def zOnce (h : ZHdr) (act : Act) : Act := .ask fun s =>
  match s.zhn.done.find? (fun d => d.src == h.src && d.opId == h.opId) with
  | some d => zSend d.ans.typ h.src false h.opId d.ans.body
  | none => act

/-! ### HELLO packets (R500) -/

/-- A HELLO seen on a port still counts. -/
def freshSeen (clk : Nat) (x : Option (Nat × Nat)) : Option (Nat × Nat) := x.filter (fun e => clk ≤ e.1 + helloLife)

/-- The body of a HELLO: flags, HOPS, present mask. -/
def helloBody (master cand : Bool) (hops mask : Nat) : List Byte :=
  leBytes 1 (b2n master + 2 * b2n cand) ++ leBytes 1 hops ++ leBytes 1 mask

/-- Send a HELLO out of a port. -/
def sendHello (port : Nat) : Act := .ask fun s =>
  zQueue port ⟨0x01, 0, s.self, false, 0, 0, 0, helloBody (s.wheel.st == .master) s.wheelCand 0 s.presentMask, 0, 0, 0⟩

/-- A HELLO of a peer on a port (R500). -/
def peerSeen (h : ZHdr) (master cand : Bool) : Act := .ask fun s0 =>
  let was := s0.peer h.src
  let seen := some (s0.clk, h.hops)
  acts [
    modPeer h.src fun p => { p with
      present := true, at_ := s0.clk, master := master, cand := cand,
      seen0 := if h.port == 0 then seen else freshSeen s0.clk p.seen0,
      seen1 := if h.port == 0 then freshSeen s0.clk p.seen1 else seen },
    when_ (!was.present) (acts [mirrorClear h.src, event F.PEL_EVT_PEER_UP]),
    .ask fun s => when_ (was.present && (s.peer h.src).route.map Prod.fst != was.route.map Prod.fst) fenRetell,
    headCheck, conflictCheck]

/-- A HELLO packet. -/
def helloRecv (h : ZHdr) (master cand : Bool) (mask : Nat) : Act := .ask fun s =>
  when_ (s.portOpen h.port) <|
    if h.lseq != (s.zport h.port).rxSeq then zBad
    else acts [
      zTaken h.port,
      modZport h.port fun z => { z with up := true },
      if h.src == s.self then .ask fun s => when_ (!s.cameRound h) (idClash h.port)
      else acts [
        when_ (!(s.zport h.port).clash && h.src < 4) (peerSeen h master cand),
        when_ (h.hops < 3) (zPass h false 0x01 (helloBody master cand (h.hops + 1) mask))]]

/-! ### Ports (R500, R502, R507, R517) -/

/-- ZHN_PORT_TRAINING: 1,024 IDLE characters of 4 ns, then HELLOs. -/
def portTrainAct (port : Nat) : Act := .ask fun s =>
  when_ (!s.pwr.off && port < 2 && bitAt (s.fld F.PEL_CTL_EN) port && !(s.zport port).up) <| acts [
    tickBy 3277,
    modZport port fun z => { ZPort.init with ready := true, delay8 := z.delay8 },
    sendHello port]

/-- ZHN_LOCK_LOSS: character lock has been lost for 1 µs (R517). -/
def lockLossAct (port : Nat) : Act := .ask fun s =>
  when_ (s.portOpen port) (acts [tickBy (usClocks 1), linkDown port])

/-- ZHN_ACK: packets up to a sequence number are acknowledged (R502). -/
def zAckAct (port lseq : Nat) : Act := .ask fun s =>
  when_ (s.portOpen port && (s.zport port).unacked.any (·.lseq == lseq)) <|
    modZport port fun z =>
      ({ z with unacked := (z.unacked.dropWhile (fun k => k.lseq != lseq)).drop 1 } : ZPort).pump s.clk

/-- ZHN_RESEND: 1 µs after its EOP the first unacknowledged packet is sent again with all that follow; a third resend
that failed takes the link down (R502). -/
def resendAct (port : Nat) : Act := .ask fun s =>
  when_ (s.portOpen port) <| forSome (s.zport port).unacked.head? fun k => acts [
    advanceTo (k.sentAt + usClocks 1),
    .ask fun s =>
      if k.tries ≥ 3 then linkDown port
      else acts [
        modZport port fun z => { z with unacked := z.unacked.map (fun x => { x with tries := x.tries + 1, sentAt := s.clk }) },
        count F.PEL_CNT0_RETRIES, event F.PEL_EVT_RETRY]]

/-- HELLO_TIMER: 10 µs after the last one (R500). -/
def helloTimerAct : Act := .ask fun s => when_ (!s.pwr.off) <| acts [
  forSome s.zhn.helloAt fun t => advanceTo (t + usClocks 10),
  .ask fun s => modZhn fun z => { z with helloAt := some s.clk },
  forEach [0, 1] sendHello]

/-- PEER_LOST: 50 µs after the last HELLO of a peer (R500, R517). -/
def peerLostAct (p : Nat) : Act := .ask fun s =>
  when_ (!s.pwr.off && (s.peer p).present && p != s.self && p < 4) (acts [advanceTo ((s.peer p).at_ + helloLife), losePeer p])

/-- PING: sent when a port is UP and every 1 ms after that to measure its link, or received and answered with the turnaround, in 1/8 core clock (R507). -/
def pingAct (port : Nat) (received : Bool) (turn8 : Nat) : Act := .ask fun s =>
  let pkt := fun (typ : Nat) (body : List Byte) => zQueue port ⟨typ, 0, s.self, false, 0, 0, 0, body, 0, 0, 0⟩
  when_ (s.portOpen port && (s.zport port).up) <|
    if received then acts [zTaken port, pkt 0x03 (leBytes 2 turn8)]
    else acts [
      forSome (s.zport port).pingAt fun t => advanceTo (t + usClocks 1000),
      .ask fun s => modZport port fun z => { z with pingOut := true, pingAt := some s.clk }, pkt 0x02 []]

/-- PONG: D = (round trip − T) / 2 (R507). -/
def pongAct (port trip8 turn8 : Nat) : Act := .ask fun s =>
  when_ (s.portOpen port) <| acts [
    zTaken port,
    modZport port fun z => if z.pingOut then { z with pingOut := false, delay8 := (trip8 - turn8) / 2 } else z]

/-! ### Marks (R506, R508) -/

/-- The body of a MARK: WT and CORR, in 1/8 core clock. -/
def markBody (wt : WTime) (corr8 : Nat) : List Byte := leBytes 6 wt.toNat ++ leBytes 2 corr8

/-- Wheel time reached angle 0x000 in this core clock. -/
def Wheel.atZero (w : Wheel) : Bool := w.time.toNat % 4096 * 2 ^ 20 + w.frac < w.inc

/-- MARK_SEND: the head's wheel reaches angle 0x000. -/
def markSendAct : Act := .ask fun s =>
  when_ (!s.pwr.off && s.headNow == some s.self) <| acts [
    when_ (!s.wheel.atZero) (advanceToWheel (nextAngle s.now 0)),
    forEach [0, 1] fun port => .ask fun s => when_ (s.zport port).up <|
      zPut port true ⟨0x04, 0, s.self, false, 0, 0, 0, markBody s.now 0, 0, 0, 0⟩]

/-- MARK: forwarded with the delays added, of which its time in this device is a free value (R506); an edge for a follower, when it came by the route to the head. -/
def markRecv (h : ZHdr) (wt : WTime) (corr8 : Nat) : Act := .ask fun s =>
  when_ (s.portOpen h.port) <|
    if h.lseq != (s.zport h.port).rxSeq then zBad
    else acts [
      zTaken h.port,
      if h.src == s.self then when_ (!s.cameRound h) (idClash h.port)
      else
        let d := (s.zport h.port).delay8
        acts [
          when_ (h.hops < 3) (drawFree fun k => zPass h true 0x04 (markBody wt (corr8 + d + 8 * Config.markWait k))),
          when_ (s.follows && s.headNow == some h.src && (s.peer h.src).route.map Prod.fst == some h.port)
            (edgeAt (8 * s.clk - (d + corr8)) (d + corr8) (some wt))]]

/-! ### Peer memory (R309, R510, R511) -/

/-- Bytes of a peer selector's space. -/
def peerSpace (sel : Nat) : Nat := if sel == 1 then 0x200000 else if sel == 2 then 0xC0000 else 0

/-- A refused inbound request (R510). -/
def zRefuse (h : ZHdr) : Act := acts [count F.PEL_CNT1_REFUSED, zAnswer 0x12 h.src h.opId (leBytes 1 1)]

/-- The protection unit's view of an inbound request. -/
def zAccess (h : ZHdr) (m : ZMem) (wr : Bool) : Access :=
  ⟨4 + h.src, midClass (4 + h.src) h.user, m.key, 0, true, 0xFF, m.sel - 1, m.offset, m.len, wr⟩

/-- What an inbound request's port requests carry (Table ARB-3, R510). -/
def zReq (h : ZHdr) (m : ZMem) : FReq := ⟨7 + h.port, m.tier % 4, m.l, m.i, 2⟩

/-- The next n bytes of a request are performed: a read answers with all of its bytes at its end. -/
def ZStall.perform (k : ZStall) (n : Nat) : Act :=
  when_ (k.wr && n != 0) (otherWrite (zReq k.h k.m) (k.m.sel - 1) (k.m.offset + k.off) ((k.data.drop k.off).take n))

/-- The whole request has been performed and is answered: a write once it is stored (R511). -/
def ZStall.answer (k : ZStall) : Act :=
  if k.wr then zAnswer 0x12 k.h.src k.h.opId (leBytes 1 0)
  else acts [
    touchRead (zReq k.h k.m) none (k.m.sel - 1) k.m.offset k.m.len,
    .ask fun s => zAnswer 0x12 k.h.src k.h.opId (leBytes 1 0 ++ s.cohBytes (k.m.sel - 1) k.m.offset k.m.len)]

/-- The part of a request that is not yet performed, as the protection unit sees it. -/
def ZStall.rest (k : ZStall) : Access :=
  let a := zAccess k.h k.m k.wr
  { a with addr := a.addr + k.off, len := a.len - k.off }

/-- Perform what is left of a request, up to a beat that is refused or stalls (R323, R327). -/
def ZStall.go (k : ZStall) : Act := .ask fun s =>
  match s.firstRefused k.rest with
  | none => acts [k.perform k.rest.len, k.answer]
  | some (off, .refuse cause region shade) => acts [
      k.perform off, protCapture (k.rest.beatAt off) cause region shade, zRefuse k.h]
  | some (off, _) => acts [k.perform off, modZhn fun z => { z with stalled := z.stalled ++ [{ k with off := k.off + off }] }]

/-- Serve an inbound request (R510); one that stalls already is not begun again. -/
def zServe (h : ZHdr) (m : ZMem) (wr : Bool) (data : List Byte) : Act := zOnce h <| .ask fun s =>
  if m.len == 0 || m.len > 64 || peerSpace m.sel < m.offset + m.len then zRefuse h
  else when_ (!s.zhn.stalled.any (fun k => k.h.src == h.src && k.h.opId == h.opId)) (ZStall.go ⟨h, m, wr, data, 0, s.clk⟩)

/-- Stalled accesses of peers are checked again in the core clock after that of the write which enables the unit (R323). -/
def zStallWake (clk : Nat) : Act := .ask fun s => when_ (s.flag F.PRT_CTL_EN && !s.zhn.stalled.isEmpty) <| acts [
  advanceTo (clk + 1), modZhn fun z => { z with stalled := [] }, forEach s.zhn.stalled ZStall.go]

/-- The oldest stall of a peer's access has lasted 20 µs: its beat is refused with cause DISABLED (R324). -/
def zStallTimeout : Act := .ask fun s => when_ (!s.pwr.off) <| forSome s.zhn.stalled.head? fun k => acts [
  advanceTo (k.since + usClocks 20), modZhn fun z => { z with stalled := z.stalled.tail },
  protCapture (k.rest.beatAt 0) 5 0x3F 0, zRefuse k.h]

/-- A write to PRT_CTL: one that sets EN has every stalled beat checked again. -/
def protEnable (p : Path) (v : Word) : Act := .ask fun s => acts [prtCtlWrite p v, zStallWake s.clk]

/-- The body of a memory request as it was received. -/
def zMemBody (m : ZMem) (bs : List Byte) : List Byte := memBody (m.offset + m.sel * 2 ^ 40) m.mid m.key m.tier m.l m.i m.len bs

/-- MEM_RD. -/
def memRdRecv (h : ZHdr) (m : ZMem) : Act := zDeliver h 0x10 (zMemBody m []) (zServe h m false [])

/-- MEM_WR: acknowledged once it is stored. -/
def memWrRecv (h : ZHdr) (m : ZMem) (data : List Byte) : Act := zDeliver h 0x11 (zMemBody m data) <|
  if data.length != m.len then zBad else zServe h m true data

/-- The outstanding operation a response answers. -/
def State.outOf (s : State) (h : ZHdr) : Option ZOut := s.zhn.outs.find? (fun o => o.peer == h.src && o.opId == h.opId)

/-- MEM_RSP: the access completes with its data, or ends with PROT_FAULT. -/
def memRspRecv (h : ZHdr) (status : Nat) (data : List Byte) : Act := zDeliver h 0x12 (leBytes 1 status ++ data) <| .ask fun s =>
  forSome (s.outOf h) fun o => match o.what with
    | .rd c =>
      if status != 0 then acts [outGone o, peerFault c stPROT_FAULT false]
      else forSome (s.cur c) fun d =>
        if data.length != d.sent then zBad
        else acts [outGone o, modCur c fun d => { d with data := some data }, chanResume c]
    | .wr c =>
      if status != 0 then acts [outGone o, peerFault c stPROT_FAULT true]
      else forSome (s.cur c) fun d => acts [outGone o, wrote c d.sent, chanResume c]
    | .wrLate => outGone o
    | _ => .skip

/-- PEER_RESPONSE_TIMEOUT: RSP_TO microseconds, 0 acting as 1 (R511). -/
def rspTimeoutAct (opId : Nat) : Act := .ask fun s => when_ (!s.pwr.off) <|
  forSome (s.zhn.outs.find? (·.opId == opId)) fun o =>
    let late := advanceTo (o.since + usClocks (max 1 (s.fld F.PEL_CTL_RSP_TO)))
    match o.what with
    | .rd _ | .wr _ | .wrLate => acts [late, count F.PEL_CNT1_TIMEOUT, outLost o]
    | _ => .skip

/-! ### Fences across devices (R376 to R379, R512) -/

/-- Answer a fence operation: 0 performed, 1 refused, 2 the count is full. -/
def fenAnswer (h : ZHdr) (idx status : Nat) : Act := .ask fun s =>
  zAnswer 0x22 h.src h.opId (fenBody idx status (s.fence idx).value)

/-- A fence operation at the home. -/
def fenOpAt (h : ZHdr) (idx : Nat) (op : FenOp) : Act := .ask fun s =>
  let f := s.fence idx
  let mine := f.live && !f.proxy && bitAt f.subs h.src
  match op with
  | .imp nonce => match s.tokenFence idx nonce with
    | none => acts [count F.FEN_CNT_TOKEN_BAD, event F.FEN_EVT_TOKEN_BAD, fenAnswer h idx 1]
    | some _ =>
      if mine then fenAnswer h idx 0
      else if f.cnt ≥ 2 ^ 32 - 1 then fenAnswer h idx 2
      else acts [modFence idx fun f => { f with subs := setBit f.subs h.src, unattr := f.unattr + 1 }, fenAnswer h idx 0]
  | .signal v => if mine then acts [fenceSet idx v, fenAnswer h idx 0] else fenAnswer h idx 1
  | .kick => if mine then acts [fenceInc idx, fenAnswer h idx 0] else fenAnswer h idx 1
  | .resub => if mine then acts [zSend 0x21 h.src false 0 (fenBody idx 0 f.value), fenAnswer h idx 0] else fenAnswer h idx 1
  | .free =>
    if mine then acts [modFence idx fun f => { f with subs := clrBit f.subs h.src }, fenceDropUnattr idx, fenAnswer h idx 0]
    else fenAnswer h idx 1

/-- FEN_OP. -/
def fenOpRecv (h : ZHdr) (idx : Nat) (op : FenOp) : Act :=
  zDeliver h 0x20 (fenBody idx (fenOpCode op) (fenOpValue op)) (zOnce h (fenOpAt h idx op))

/-- FEN_UPD: a proxy takes its home's value, or breaks (R377, R379); with no such proxy it is discarded (R515). -/
def fenUpdRecv (h : ZHdr) (idx : Nat) (v : DWord) (dead : Bool) : Act :=
  zDeliver h 0x21 (fenBody idx (b2n dead) v) <| .ask fun s => forSome (s.proxyOf h.src idx) fun i =>
    if dead then proxyBreak i
    else when_ (v != (s.fence i).value) (acts [modFence i fun f => { f with value := v }, wakeFence i])

/-- The importing device's end of an import the home has accepted (R376). -/
def importDone (p : Path) (n tok : Nat) (v : DWord) : Act := .ask fun s =>
  let home := bits tok 12 2
  let idx := bits tok 0 12
  let undo := zForward home 0x20 false .free (fenBody idx (fenOpCode .free) 0)
  match s.proxyOf home idx with
  | some i =>
    if (s.ctx n).st != .live then refuse p mbWRONG_STATE
    else if !(s.fence i).importOk n then refuse p mbNO_SPACE
    else acts [importBits i n, answer p mbOK [handle 5 (s.fence i).gen i] .none]
  | none =>
    if (s.ctx n).st != .live then acts [undo, refuse p mbWRONG_STATE]
    else match s.freeFence with
      | none => acts [undo, refuse p mbNO_SPACE]
      | some i => acts [
          modFence i fun f => { Fence.init with
            live := true, gen := f.gen, freedAt := f.freedAt, proxy := true, home := home, homeIdx := idx, value := v },
          importBits i n, answer p mbOK [handle 5 (s.fence i).gen i] .none]

/-- FEN_RSP. -/
def fenRspRecv (h : ZHdr) (status : Nat) (v : DWord) : Act := zDeliver h 0x22 (fenBody 0 status v) <| .ask fun s =>
  forSome (s.outOf h) fun o => match o.what with
    | .signal c => acts [outGone o, channelTold c .fenceRsp (if status == 0 then stDONE else stABORTED)]
    | .imp p => acts [outGone o, match ((s.job p).map Job.wait : Option JobWait) with
        | some (.importRsp op n tok) => when_ (op == o.opId) <|
            if status == 0 then importDone p n tok v else refuse p (if status == 2 then mbNO_SPACE else mbBAD_ARG)
        | _ => .skip]
    | .kick | .free => outGone o
    | _ => .skip

/-! ### Chairs across devices (R344, R513) -/

/-- The home's answer to a chair operation. -/
def chrAnswer (h : ZHdr) (n : Nat) : Act := .ask fun s => zAnswer 0x31 h.src h.opId (leBytes 1 n ++ leBytes 4 (s.chairWord n))

/-- A chair operation at the home: admitted only for a table it marks SHARED (R344). -/
def chrOpAt (h : ZHdr) (n mid tag : Nat) (i : WTime) (op : ChrOp) : Act := .ask fun s =>
  let t := n / 8
  let x := s.chair n
  let owns := x.held && x.peer == h.src && x.mid == mid
  let w : Sitter := .peer h.src mid h.opId
  if n ≥ 128 || s.tab t F.CHR_TAB_CFG_SHARED != 1 || s.tabRemote t then chrAnswer h n
  else match op with
    | .sit => acts [chairSit n h.src mid tag, chrAnswer h n]
    | .wait =>
      if owns then chrAnswer h n
      else if x.waiters.any (·.1 == w) then .skip
      else if !x.held && w.eligible x.abandoned then acts [chairSit n h.src mid tag, chrAnswer h n]
      else acts [modChair n fun x => { x with waiters := x.waiters ++ [(w, i)] }, chairTell n]
    | .give => acts [when_ owns (chairFree n), chrAnswer h n]
    | .cancel =>
      if tag == 1 && owns then acts [
        modChair n fun x => { x with held := false, peer := 0, mid := 0, tag := 0, abandoned := true },
        kindleChairGone n, event F.CHR_EVT_ABANDON, chairTell n, chairPass n, chrAnswer h n]
      else acts [
        modChair n fun x => { x with waiters := x.waiters.filter (fun e => match e.1 with
          | .peer id m _ => !(id == h.src && m == mid && e.2 == i)
          | _ => true) },
        chrAnswer h n]

/-- The code of a chair operation (log 10). -/
def chrOpCode : ChrOp → Nat
  | .sit => 0 | .wait => 1 | .give => 2 | .cancel => 3

/-- CHR_OP. -/
def chrOpRecv (h : ZHdr) (n mid tag : Nat) (i : WTime) (op : ChrOp) : Act :=
  zDeliver h 0x30 (chrBody n (chrOpCode op) mid tag i) (zOnce h (chrOpAt h n mid tag i op))

/-- The mirror of a shared chair takes its home's state; a local waiter whose pair owns the chair holds it (R338, R513). -/
def mirrorSet (src n : Nat) (w : Word) : Act := .ask fun s =>
  when_ (n < 128 && s.tabRemote (n / 8) && s.tab (n / 8) F.CHR_TAB_CFG_HOME == src) <| acts [
    modZhn fun z => { z with mirror := SMap.set 0 z.mirror n w.toNat },
    .ask fun s =>
      let served := (s.chair n).waiters.filter (fun e => s.owns n s.self (s.sitterMid e.1))
      acts [
        modChair n fun x => { x with waiters := x.waiters.filter (fun e => !served.contains e) },
        forEach served fun e => match e.1 with
          | .path p => readRelease p
          | .chan c => releaseWait c stDONE
          | .gov | .peer .. => .skip],
    kindleChairCheck]

/-- CHR_RSP. -/
def chrRspRecv (h : ZHdr) (n : Nat) (w : Word) : Act := zDeliver h 0x31 (leBytes 1 n ++ leBytes 4 w.toNat) <| .ask fun s => acts [
  mirrorSet h.src n w,
  forSome (s.outOf h) fun o => match o.what with
    | .chair c => acts [outGone o, channelTold c .chairRsp stDONE]
    | .chairPath .. | .chairOther => outGone o
    | _ => .skip]

/-- CHR_UPD. -/
def chrUpdRecv (h : ZHdr) (n : Nat) (w : Word) : Act :=
  zDeliver h 0x32 (leBytes 1 n ++ leBytes 4 w.toNat) (mirrorSet h.src n w)

/-! ### Forwarded errors (R514, R550) -/

/-- ERR: posted with a local SEQ, FWD = 1 and PEER the sender's, while this device's own ERR_FWD is 1. -/
def errRecv (h : ZHdr) (entry : List Byte) : Act := zDeliver h 0x40 entry <| .ask fun s =>
  if entry.length != 32 then zBad
  else when_ (s.flag F.PEL_CTL_ERR_FWD) <| postBytes fun seq =>
    leBytes 2 seq ++ (entry.drop 2).take 1 ++ leBytes 1 ((entry.getD 3 0).toNat % 32 + 32 * h.src + 128) ++ entry.drop 4

/-- A received packet is intact and the next expected one: its LEN, reserved fields and CRC-32 hold (R502, R519). -/
def packetIntact (bytes : List Byte) (crc rxSeq : Nat) : Bool :=
  let b := fun i => (bytes.getD i 0).toNat
  bytes.length == 8 + b 3 && b 1 < 128 && b 6 == 0 && b 7 == 0 && b 2 == rxSeq && crc == crc32 bytes

/-- ZHN_BAD_PACKET: discarded unanswered and counted; an intact packet in sequence is none. -/
def badPacketAct (port : Nat) (b : BadPacket) : Act := .ask fun s => when_ (s.portOpen port) <|
  match b with
  | .packet bytes crc => when_ (!packetIntact bytes crc (s.zport port).rxSeq) zBad
  | .code => zBad

end Sys2Proof.Machine
end

