-- ==== Sys2Proof/Machine/RegWrite.lean ====
section
/-!
DEFINITION. Writes to the registers outside the mailbox, the windows, the chair registers, the BOOT block and the power
keys: each register whose write does more than set its fields (Table REG-5), and every other one field by field.
-/

namespace Sys2Proof.Machine

/-! ### Single registers -/

/-- A write to CUP_POOL (R366); a locked one is ignored (R581). -/
def cupPoolWrite (p : Path) (v : Word) : Act := .ask fun s =>
  let live := s.mems.any (fun e => e.2.live && e.2.typ == 3)
  if s.flag F.CUP_CTL_LOCK then .skip
  else if !s.flag F.CUP_CTL_EN && !live && s.cup.scrub.isEmpty then fieldWrite p 0x2C0 v
  else event F.CUP_EVT_POOL_DENY

/-- A write to ERR_RD: accepted when it does not pass ERR_WR (R549). -/
def errRdWrite (v : Word) : Act := .ask fun s =>
  let old := s.fld F.ERR_RD_RD
  when_ ((v.toNat % 65536 + 65536 - old) % 65536 ≤ (s.fld F.ERR_WR_WR + 65536 - old) % 65536) (put F.ERR_RD_RD v.toNat)

/-- FREEZE: recording stops (R570). -/
def traceFreeze : Act := put F.TRC_STAT_FROZEN 1

/-- THAW: recording goes on, except after PWRFAIL#; the first record after a reset's freeze is a RESET record (R570). -/
def traceThaw : Act := .ask fun s => when_ (!s.pfHeld) <| acts [
  put F.TRC_STAT_FROZEN 0,
  when_ s.boot.thawRec (acts [modBoot fun b => { b with thawRec := false }, traceRec 7 (leBytes 1 (s.fld F.BOOT_STAT_LAST_RESET))])]

/-- A write to TRC_CTL; with both bits set it freezes (log 16). -/
def trcCtlWrite (p : Path) (v : Word) : Act := acts [
  fieldWrite p 0x9C0 v, when_ (bitAt v.toNat 2) traceThaw, when_ (bitAt v.toNat 1) traceFreeze]

/-- A write to PEL_CTL: a port whose EN it clears goes down (R517). -/
def pelCtlWrite (p : Path) (v : Word) : Act := acts [
  fieldWrite p 0x940 v,
  .ask fun s => forEach [0, 1] fun port => when_ (!bitAt (s.fld F.PEL_CTL_EN) port) (linkDown port)]

/-- A write to CHR_TAB_CFG: a table that leaves DOWN by it has all its chairs free (R345), and a Kindle load whose chair is
owned no more fails (R244). -/
def tabCfgWrite (p : Path) (v : Word) : Act := .ask fun s0 =>
  let t := s0.fld F.CHR_TAB_SEL_TABLE
  acts [
    fieldWrite p 0x024 v,
    .ask fun s => when_ (s0.tabDown t && !s.tabDown t) <| acts [
      modZhn fun z => { z with mirror := z.mirror.filter (fun e => e.1 / 8 != t) },
      when_ (!s.tabRemote t) <| forEach ((List.range 8).map (· + 8 * t)) fun n => acts [
        modChair n fun c => { c with held := false, peer := 0, mid := 0, tag := 0, abandoned := false }, chairPass n]],
    kindleChairCheck]

/-- A write to WHL_TRK is in force from the next expected sync on (R70); the governor's move of BW in the same clock is
lost (R400). -/
def trkWrite (p : Path) (v : Word) : Act := .ask fun s =>
  let cyc := s.wheel.time.toNat / 4096
  acts [
    modWheel fun w => { w with trkOld := match w.trkOld with
      | some (o, k) => if k == (cyc + 1) % 2 ^ 36 then some (o, k) else some ((s.word 0 0x188).toNat, (cyc + 1) % 2 ^ 36)
      | none => some ((s.word 0 0x188).toNat, (cyc + 1) % 2 ^ 36) },
    fieldWrite p 0x188 v, modGov fun g => { g with bwWritten := s.clk + 1 }]

/-- A write to ARB_CTL: one that reaches ELDER_N clears every elder-grant counter (R213). -/
def arbCtlWrite (p : Path) (v : Word) : Act := .ask fun s => acts [
  fieldWrite p 0x240 v, when_ (!s.flag F.ARB_CTL_LOCK) (.upd (.wipe .elder))]

/-- A write to GOV_LIM_ARB or to a rail's limits: LIMIT moves are due (R393). -/
def limWrite (p : Path) (off : Nat) (v : Word) : Act := acts [fieldWrite p off v, modGov fun g => { g with limPend := true }]

/-- A write to GOV_RAIL_CFG0 ends the rail's block (R398). -/
def railWrite (p : Path) (v : Word) : Act := .ask fun s =>
  let r := s.fld F.GOV_RAIL_SEL_RAIL
  acts [limWrite p 0x318 v, putI r F.GOV_RAIL_STAT_BLOCKED 0, putI r F.GOV_RAIL_STAT_FAILS 0]

/-- A write to WCK_OUT0 or WCK_OUT1: output pins take their bits. -/
def wckOutWrite (p : Path) (off : Nat) (v : Word) : Act := acts [
  fieldWrite p off v, forEach (List.range 32) fun i => padDrive (i + if off == 0x390 then 0 else 32)]

/-! ### All of them -/

/-- A write to a register of these blocks. -/
def blockWrite (p : Path) (off : Nat) (v : Word) : Act := .ask fun s =>
  match off with
  | 0x024 => tabCfgWrite p v
  | 0x074 => put F.DEV_TAGS_LOW s.tagsFree
  | 0x180 => whlCtlWrite p v
  | 0x184 => nominalWrite p v
  | 0x188 => trkWrite p v
  | 0x1AC => acts [fieldWrite p off v, lampRearm]
  | 0x1A8 => put F.WHL_LL_HWM s.lamp.entries.length
  | 0x1B0 => ptmCtlWrite p v
  | 0x210 => when_ (bitAt v.toNat 0) (kindleGo p)
  | 0x228 => put F.KND_LAT_SOF_MAX 0
  | 0x240 => arbCtlWrite p v
  | 0x280 => protEnable p v
  | 0x288 => rgnIdxWrite v
  | 0x2A8 => shdAddrWrite p v
  | 0x2AC => shdDataWrite v
  | 0x2B0 => shdFillWrite v
  | 0x2B8 => when_ (s.fld F.PRT_CKEY_IDX_CTX != 0) (fieldWrite p off v)
  | 0x2C0 => cupPoolWrite p v
  | 0x300 => govCtlWrite p v
  | 0x308 => limWrite p off v
  | 0x318 => railWrite p v
  | 0x34C => put F.PMB0_ARA_VALID 0
  | 0x350 => put F.PMB1_ARA_VALID 0
  | 0x384 => wckCfgWrite v
  | 0x390 => wckOutWrite p off v
  | 0x394 => wckOutWrite p off v
  | 0x3C8 => errRdWrite v
  | 0x924 => tlbInvAct v
  | 0x940 => pelCtlWrite p v
  | 0x9C0 => trcCtlWrite p v
  | _ =>
    if 0x800 ≤ off && off < 0x900 && off % 32 == 0 then lanCtlWrite p ((off - 0x800) / 32) v
    else fieldWrite p off v

/-- Core clocks after its last write at which a line is flushed; a WCB_AGE of 0 acts as 1 (R293). -/
def State.wcbAge (s : State) : Nat := 16 * max 1 (s.fld F.DEV_MEM_CTL_WCB_AGE)

/-- WCB_IDLE_FLUSH: the line of an engine written longest ago reaches its age; every line that old is flushed. -/
def wcbIdleAct (e : Nat) : Act := .ask fun s => when_ (!s.pwr.off && e < 4) <|
  match (s.engine e).wcb with
  | [] => .skip
  | l :: rest => acts [
      advanceTo ((rest.foldl (fun t x => min t x.last) l.last) + s.wcbAge),
      .ask fun s => forEach ((s.engine e).wcb.filter (fun x => x.last + s.wcbAge ≤ s.clk)) (flushLine e)]

end Sys2Proof.Machine
end

