-- ==== Sys2Proof/Machine/Reset.lean ====
section
/-!
DEFINITION. The reset itself: what a cold, warm or device reset keeps (R524, Table BOOT-3, R579, R566), and the straps
(R526).
-/

namespace Sys2Proof.Machine

/-- Kinds of reset, as LAST_RESET has them. -/
def rkCold : Nat := 0
def rkWarm : Nat := 1
def rkDevice : Nat := 2

/-! ### Registers -/

/-- A word with only its set lock and the fields that lock freezes, every other field at its reset value (R581). -/
def lockedWord (off : Nat) (w : Word) : Word :=
  let rst := (regReset off).toNat
  match regFind off with
  | none => regReset off
  | some r => BitVec.ofNat 32 ((r.flds.map (fun f =>
      let n := f.hi + 1 - f.lo
      (if f.acc == .rwl || f.acc == .lock then bits w.toNat f.lo n else bits rst f.lo n) * 2 ^ f.lo)).sum)

/-- Offsets whose words a device reset keeps whole: the WHL block, the record of PWRFAIL#, TRC_STAT (R579). -/
def keptOff (off : Nat) : Bool :=
  (0x180 ≤ off && off < 0x200) || (0x05C ≤ off && off < 0x06C) || off == 0x9C4

/-- What a register instance holds after a device reset, given its present word (R579). -/
def State.deviceWord (s : State) (key : Nat) (w : Word) : Word :=
  let off := keyOff key
  let inst := key / 0x1000
  if keptOff off then w
  else if off == 0x28C || off == 0x290 then
    (if inst != 0 && s.fldI inst F.PRT_RGN_ATTR_LOCK == 1 then w else regReset off)
  else if off == 0x024 then (if s.fldI inst F.CHR_TAB_CFG_LOCK == 1 then w else regReset off)
  else if (off < 0x0C0 || 0x180 ≤ off) && s.locked inst off then lockedWord off w
  else regReset off

/-- The registers after a reset of a kind. -/
def resetRegs (kind : Nat) : Act := .ask fun s =>
  let kept : List (Nat × Word) :=
    if kind == rkDevice then s.regs.map (fun e => (e.1, s.deviceWord e.1 e.2))
    else if kind == rkWarm then [(0x9C4, s.word 0 0x9C4)]
    else []
  acts [
    .upd (.keepRegs (fun _ => false)),
    forEach kept fun e => .upd (.reg e.1 e.2),
    put F.DEV_PF_STAT_HELD 0,
    put F.KND_CTL_ARM 0, put F.GOV_CTL_EN 0,
    when_ (kind != rkCold) (put F.TRC_STAT_FROZEN 1)]

/-! ### Everything else -/

/-- The tables of objects, chairs, lanes and engines empty; memories are zeroed by INIT (R525). -/
def resetTables (kind : Nat) : Act := acts [
  forEach [.queues, .chans, .mems, .fences, .engines, .elder, .ports, .wbq, .chairs, .lanes, .ctxs] (fun w => .upd (.wipe w)),
  when_ (kind == rkCold) (forEach [.stag, .objs, .lanemem, .shades, .errq, .trace, .pmb, .wicks] (fun w => .upd (.wipe w))),
  .upd (.freeSeq 0), .upd (.fillLeft 0), .upd (.fillAt 0), .upd (.fillEnd 0), .upd (.due []), .upd (.tlb []), .upd (.tlbInv none),
  .upd (.descUsed 0),
  .upd (.laneWicks 0), .upd (.cup Cup.init), .upd (.gov Gov.init)]

/-- The blocks that a device reset leaves running, or whose pins keep their levels. -/
def resetBlocks (kind : Nat) : Act := .ask fun s => acts [
  (if kind == rkDevice then acts [.upd (.lamp ⟨[], [], 0, 0, 0⟩),
      modHost fun h => { h with outq := [], reads := [], waits := [], walkq := [], tagsUsed := 0 }]
   else acts [
    .upd (.wheel (Wheel.init s.straps.master)), .upd (.lamp ⟨[], [], 0, 0, 0⟩), .upd (.ptm ⟨none, 0, false, 0⟩),
    .upd (.host { HostLink.init with perst := s.host.perst })]),
  .upd (.zhn { Zhn.init with nextOp := if kind == rkCold then 0 else s.zhn.nextOp }),
  .upd (.kindle { State.reset.kindle with req := s.kindle.req }),
  when_ (kind == rkCold) (.upd (.tap Tap.init)),
  modOtp fun o => { o with
    hold := [], burning := o.burning && kind != rkCold, words := if o.burning && kind == rkCold then [] else o.words },
  .upd (.pwr State.reset.pwr),
  .upd (.boot { State.reset.boot with resetEnd := s.clk, kind := kind, thawRec := kind != rkCold, started := kind == rkDevice && s.boot.started }),
  forEach (List.range 4) fun p => modPmbp p fun x => { PmbPort.init with alert := x.alert },
  forEach (List.range 64) fun w => .ask fun s => modWick w fun x => { x with parkEnd := none, level := s.wckFunc w != 0 && x.pad }]

/-- The mailboxes and the paths: nothing of them outlives a cold or warm reset; a device reset answers held reads, with
the registers as it leaves them (R348). -/
def resetPaths (kind : Nat) : Act := acts [
  .upd (.jobScp none), .upd (.jobBar none),
  if kind == rkDevice then acts [readRelease .scp, readRelease .bar0]
  else acts [.upd (.scp State.reset.scp), .upd (.bar State.reset.bar)]]

/-- A reset; a cold or warm one samples the straps (R526). -/
def resetGo (kind : Nat) (straps : Option Straps) : Act := acts [
  forSome straps fun x => .upd (.straps { x with bootSrc := x.bootSrc % 4, peerId := x.peerId % 4 }),
  resetRegs kind, resetTables kind, resetBlocks kind, resetPaths kind]

/-! ### The rows (R522, R523, R614) -/

/-- COLD_RESET: it ends with every supply in range, and the straps are sampled. -/
def coldAct (x : Straps) : Act := acts [tickBy (usClocks 1200), resetGo rkCold (some x)]

/-- SUPPLY_TRIP: the device is OFF until a cold reset ends. -/
def supplyTripAct : Act := .ask fun s => acts [
  modPwr fun _ => { State.reset.pwr with off := true, pin := .hiZ },
  modKindle fun k => { k with ack := false, nak := false },
  when_ s.host.link (modHost fun h => { h with link := false })]

/-- WARM_RESET: RESET# was low for some time, while the supplies are in range (R523); a length the board must not produce
acts or not (log 6). -/
def warmAct (lowNs : Nat) (x : Straps) : Act := .ask fun s =>
  let go := acts [tickBy (lowNs * 4 / 5), resetGo rkWarm (some x)]
  when_ (!s.pwr.off || s.pwr.clockLost) <|
    if lowNs < 100 then .skip
    else if lowNs < 1000 then drawFree fun k => when_ (Config.shortReset k) go
    else go

end Sys2Proof.Machine
end

