-- ==== Sys2Proof/Machine/Boot.lean ====
section
/-!
DEFINITION. The boot image (18): reading it, its checks (R531, R532, Table BOOT-6), applying its sections (R533, R545), arming
(R534, R535), failed loads (R542) and the OTP (R540).
-/

namespace Sys2Proof.Machine

/-! ### The image -/

/-- The boot buffer in staging. -/
def bootBase : Nat := 0x180000

/-- A little-endian field of n bytes at an offset. -/
def imgLe (img : List Byte) (o n : Nat) : Nat := ofLe ((img.drop o).take n)

/-- Header fields (Table BOOT-9). -/
def imgLen (hdr : List Byte) : Nat := imgLe hdr 0x08 4
def imgNsect (hdr : List Byte) : Nat := imgLe hdr 0x0C 2
def imgSeq (hdr : List Byte) : Nat := imgLe hdr 0x14 4

/-- The checks of the header, in order: an ERR code, or 0 (Table BOOT-6). -/
def headerErr (hdr : List Byte) : Nat :=
  let cmd := imgLe hdr 0x10 1
  let n := imgLen hdr
  if imgLe hdr 0 4 != 0x42415849 then 0x01
  else if imgLe hdr 0x3C 4 != crc32 (hdr.take 0x3C) then 0x02
  else if imgLe hdr 4 2 != 1 || imgLe hdr 6 2 != 0x40 || !(cmd == 0x03 || cmd == 0x0B || cmd == 0x6B) ||
      imgLe hdr 0x0E 2 != 0 || imgLe hdr 0x12 2 != 0 || (hdr.drop 0x18).take 36 != List.replicate 36 0 then 0x03
  else if n < 0x48 || n > 0x80000 || n % 4 != 0 then 0x0B
  else 0

/-- A section: TYPE, its reserved field, payload, and whether its CRC is right. -/
structure Sect where
  typ : Nat
  rsv : Nat
  body : List Byte
  crcOk : Bool
  deriving DecidableEq, Repr

/-- The section at the front of some bytes, and the bytes behind it; none when it overruns them. -/
def sectAt (bs : List Byte) : Option (Sect × List Byte) :=
  let n := imgLe bs 4 4
  if bs.length < 12 || bs.length < 12 + n then none
  else some (⟨imgLe bs 0 2, imgLe bs 2 2, (bs.drop 8).take n, imgLe bs (8 + n) 4 == crc32 (bs.take (8 + n))⟩, bs.drop (12 + n))

/-- The sections from an offset on, and whether the last one overruns the image. -/
def sects : Nat → List Byte → List Sect × Bool
  | 0, bs => ([], !bs.isEmpty)
  | fuel + 1, bs =>
    if bs.isEmpty then ([], false)
    else match sectAt bs with
      | none => ([], true)
      | some (x, rest) => let r := sects fuel rest; (x :: r.1, r.2)

/-- Word k of a section's payload. -/
def Sect.w (x : Sect) (k : Nat) : Nat := imgLe x.body (4 * k) 4

/-- LEN is right for TYPE, and TYPE is known (Table BOOT-8). -/
def Sect.lenOk (x : Sect) : Bool :=
  let n := x.body.length
  match x.typ with
  | 1 => n == 12
  | 2 => n == 156
  | 3 => n % 16 == 0
  | 4 => n == if bitAt (x.w 32) 0 then 4228 else 132
  | 5 => n % 8 == 0 && 8 ≤ n && n ≤ 256
  | 6 => n == 16404
  | 7 => n % 4 == 0 && 8 ≤ n
  | 8 => n % 8 == 0
  | _ => false

/-- The first index, counting from 1, at which a check of a section given the one before it fails; 0 for none. -/
def firstBad (bad : Option Sect → Sect → Bool) : Nat → Option Sect → List Sect → Nat
  | _, _, [] => 0
  | i, p, x :: rest => if bad p x then i else firstBad bad (i + 1) (some x) rest

/-- A section breaks the layout: LEN, reserved field, order, or a repeat of types 1 to 6. -/
def badLayout (p : Option Sect) (x : Sect) : Bool :=
  !x.lenOk || x.rsv != 0 || (match p with
    | some y => decide (x.typ < y.typ) || (x.typ == y.typ && x.typ ≤ 6)
    | none => false)

/-- What a field of a locked block will hold once a section has been written (R581). -/
def State.afterImage (s : State) (f : Fld) (secs : List Sect) (typ k : Nat) : Nat :=
  match secs.find? (·.typ == typ) with
  | some x => if s.locked 0 f.off then s.fld f else bits (x.w k) f.lo f.width
  | none => s.fld f

/-- A copy reaches the boot buffer, or STAGE data is not in granules (ERR 0x0A). -/
def State.badReach (s : State) (secs : List Sect) (x : Sect) : Bool :=
  match x.typ with
  | 4 => bitAt (x.w 32) 0 && decide (bootBase < 4096 * s.afterImage F.GOV_PHASE_PROF secs 2 5 + 4096)
  | 6 => decide (bootBase < 0x4000 * s.afterImage F.KND_IMG_BASE secs 6 1 + 0x4000)
  | 7 =>
    let d := bits (x.w 0) 0 21
    d % 64 != 0 || (x.body.length - 8) % 64 != 0 || decide (bootBase < d + (x.body.length - 8))
  | _ => false

/-- The offsets of a REGS section's pairs. -/
def Sect.regOffs (x : Sect) : List Nat := (List.range (x.body.length / 8)).map (fun i => bits (x.w (2 * i)) 0 12)

/-- A REGS pair names a register whose write acts beyond its fields (ERR 0x09). -/
def badRegOff (off : Nat) : Bool :=
  (0x0C0 ≤ off && off < 0x180) || (0x400 ≤ off && off < 0x800) || (0x980 ≤ off && off < 0x9C0) || off > 0x9FF ||
    [0x010, 0x014, 0x018, 0x040, 0x044, 0x050, 0x210, 0x1B0].contains (off / 4 * 4)

/-- Entries of a CHANNELS section: context and argument words. -/
def Sect.chans (x : Sect) : List (Nat × Nat × Nat × Nat) :=
  (List.range (x.body.length / 16)).map (fun i => (x.w (4 * i), x.w (4 * i + 1), x.w (4 * i + 2), x.w (4 * i + 3)))

/-- A CHANNELS section breaks Table CTX-6 or its totals (ERR 0x08). -/
def badChans (x : Sect) : Bool :=
  decide (256 < x.chans.length) || decide (8192 < (x.chans.map (fun e => e.2.2.2)).sum) ||
    x.chans.any (fun e => !(e.1 == 64 || e.1 == 65) || !chanArgsOk e.2.1 e.2.2.1 e.2.2.2)

/-- The Kindle image of a section, and its first slot that fails Table KND-7, with the code. -/
def Sect.kndImage (x : Sect) : List Byte := x.body.drop 20
def kndFail (img : List Byte) : Option (Nat × Nat) :=
  ((List.range 128).map (fun i => (i, slotCheck ((img.drop (128 * i)).take 128)))).find? (·.2 != 0)

/-- The outcome of the checks of the sections and the hash. -/
structure BootErr where
  err : Nat
  sect : Nat
  /-- Slot and LOAD_ERR code of ERR 0x06. -/
  slot : Option (Nat × Nat)
  deriving DecidableEq, Repr

/-- The OTP digest as bytes (R532). -/
def State.otpDigest (s : State) : List Byte := (List.range 12).flatMap (fun k => leBytes 4 (SMap.get 0 s.otp.words k).toNat)

/-- The first failure among the sections and the hash, each check over every section before the next (R531). -/
def State.sectErr (s : State) (img : List Byte) : Option BootErr :=
  let r := sects (img.length / 12 + 1) (img.drop 0x40)
  let secs := r.1
  let only := fun (t : Nat) (bad : Sect → Bool) => firstBad (fun _ x => x.typ == t && bad x) 1 none secs
  let crc := firstBad (fun _ x => !x.crcOk) 1 none secs
  let lay := firstBad badLayout 1 none secs
  let reach := firstBad (fun _ x => s.badReach secs x) 1 none secs
  let regs := only 8 (fun x => x.regOffs.any badRegOff)
  let chn := only 3 badChans
  let knd := only 6 (fun x => (kndFail x.kndImage).isSome)
  if crc != 0 then some ⟨0x04, crc, none⟩
  else if lay != 0 then some ⟨0x05, lay, none⟩
  else if r.2 then some ⟨0x05, secs.length + 1, none⟩
  else if secs.length != imgNsect img then some ⟨0x05, 0, none⟩
  else if reach != 0 then some ⟨0x0A, reach, none⟩
  else if regs != 0 then some ⟨0x09, regs, none⟩
  else if chn != 0 then some ⟨0x08, chn, none⟩
  else if knd != 0 then some ⟨0x06, knd, (secs[knd - 1]?).bind (fun x => kndFail x.kndImage)⟩
  else if s.otp.hashEn && sha384 img != s.otpDigest then some ⟨0x07, 0, none⟩
  else none

/-! ### Failed loads (R542) -/

/-- A load fails. A flash load is tried again after 1 ms, three times in all; else, and after a control-port load, WAIT. -/
def bootFail (e : BootErr) : Act := .ask fun s => acts [
  put F.BOOT_STAT_ERR e.err, put F.BOOT_STAT_ERR_SECT (min e.sect 255),
  forSome e.slot fun x => acts [
    put F.KND_STAT_LOAD_ERR x.2, put F.KND_STAT_ERR_LANE (x.1 / 16), put F.KND_STAT_ERR_ENTRY (x.1 % 16)],
  event F.BOOT_EVT_FAIL,
  postPlain 0x0E 17 (e.err + 2 ^ 8 * min e.sect 255 + 2 ^ 16 * s.fld F.BOOT_STAT_TRIES) 0,
  if s.flag F.BOOT_STAT_SRC || s.fld F.BOOT_STAT_TRIES ≥ 3 then put F.BOOT_STAT_PHASE 5
  else acts [put F.BOOT_STAT_PHASE 1, modBoot fun b => { b with headerOk := false, waitAt := s.clk + usClocks 1000 }]]

/-- The phase of the boot loader. -/
def State.phase (s : State) : Nat := s.fld F.BOOT_STAT_PHASE

/-- A flash read in progress has returned all its bytes (R527). -/
def spiDone (bs : List Byte) (k : Act) : Act := .ask fun s => forSome s.boot.spi fun q =>
  when_ (!s.pwr.off && s.phase == 1 && bs.length == q.len) (acts [
    advanceTo (q.since + q.clocks), internalWrite 0 (bootBase + q.addr) bs, modBoot fun b => { b with spi := none }, k])

/-- BOOT_HEADER_READ: the 64 header bytes go into the buffer and are checked; then the body is read with the command and DIV of
the header (R528). -/
def headerAct (bs : List Byte) : Act := .ask fun s =>
  when_ (!s.boot.headerOk) <| spiDone bs <|
    if headerErr bs != 0 then bootFail ⟨headerErr bs, 0, none⟩
    else .ask fun s => modBoot fun b => { b with
      headerOk := true, spi := some ⟨imgLe bs 0x10 1, s.flashAddr, 0x40, imgLe bs 0x11 1, imgLen bs - 64, s.clk⟩ }

/-- The image in the buffer. -/
def State.bootImage (s : State) : List Byte :=
  let hdr := s.cohBytes 0 bootBase 64
  hdr ++ s.cohBytes 0 (bootBase + 64) (min (imgLen hdr) 0x80000 - 64)

/-- BOOT_BODY_READ: the rest of the image goes into the buffer (R528). -/
def bodyAct (bs : List Byte) : Act := .ask fun s => when_ s.boot.headerOk (spiDone bs (put F.BOOT_STAT_PHASE 2))

/-- A write of 1 to BOOT_CTL.GO over the control port: accepted in WAIT (R529). -/
def bootGo : Act := .ask fun s =>
  if s.phase == 5 && !s.pfHeld then acts [
    put F.BOOT_STAT_SRC 1, put F.BOOT_STAT_TRIES (min 3 (s.fld F.BOOT_STAT_TRIES + 1)),
    put F.BOOT_STAT_ERR 0, put F.BOOT_STAT_ERR_SECT 0, put F.BOOT_STAT_PHASE 2, modBoot fun b => { b with started := true }]
  else event F.BOOT_EVT_REFUSED

/-! ### APPLY (R533, R545) -/

/-- A register write of the boot loader: as a control-port write; ARM and EN are written as 0 and their image values are
kept (R533). -/
def bootWrite (off v : Nat) : Act :=
  if off == 0x200 then acts [
    modBoot fun b => { b with armImg := bitAt v F.KND_CTL_ARM.lo }, blockWrite .scp off (BitVec.ofNat 32 (clrBit v F.KND_CTL_ARM.lo))]
  else if off == 0x300 then acts [
    modBoot fun b => { b with govImg := bitAt v F.GOV_CTL_EN.lo }, blockWrite .scp off (BitVec.ofNat 32 (clrBit v F.GOV_CTL_EN.lo))]
  else blockWrite .scp off (BitVec.ofNat 32 v)

/-- Registers written in a row. -/
def bootWrites (l : List (Nat × Nat)) : Act := forEach l fun e => bootWrite e.1 e.2

/-- Data to staging, its granules shaded. -/
def bootStage (a : Nat) (bs : List Byte) (shade : Nat) : Act := acts [internalWrite 0 a bs, shadeRange (a / 64) (bs.length / 64) shade]

/-- CHANNELS: entry i becomes channel i, its block behind the earlier ones; an index or block in use is left alone. -/
def bootChans : Nat → Nat → List (Nat × Nat × Nat × Nat) → Act
  | _, _, [] => .skip
  | i, base, (n, a1, a2, a3) :: rest => acts [
      .ask fun s => when_ ((s.chan i).st == .free && s.descBlocks.all (fun b => base + a3 ≤ b.1 || b.1 + b.2 ≤ base))
        (chanMake i n base a1 a2 a3),
      bootChans (i + 1) (base + a3) rest]

/-- REGION: an entry is committed unless it is locked (R321). -/
def bootRegion (i lim att : Nat) : Act := .ask fun s =>
  if s.fldI (i + 1) F.PRT_RGN_ATTR_LOCK == 1 then event F.PRT_EVT_LOCKED
  else acts [putWord (i + 1) 0x28C (BitVec.ofNat 32 lim), putWord (i + 1) 0x290 (BitVec.ofNat 32 att)]

/-- Apply one section (Table BOOT-8). -/
def applySect (x : Sect) : Act :=
  match x.typ with
  | 1 => bootWrites [(0x184, x.w 0), (0x188, x.w 1), (0x180, x.w 2)]
  | 2 => acts [
      bootWrites [(0x304, x.w 0), (0x308, x.w 1), (0x30C, x.w 2), (0x310, x.w 3), (0x334, x.w 4), (0x33C, x.w 5)],
      forEach (List.range 16) fun r => bootWrites [(0x314, r), (0x318, x.w (6 + 2 * r)), (0x31C, x.w (7 + 2 * r))],
      bootWrite 0x300 (x.w 38)]
  | 3 => bootChans 0 0 x.chans
  | 4 => acts [
      forEach (List.range 8) fun l => bootWrites [
        (0x808 + 32 * l, x.w (4 * l)), (0x80C + 32 * l, x.w (4 * l + 1)), (0x810 + 32 * l, x.w (4 * l + 2)),
        (0x800 + 32 * l, x.w (4 * l + 3))],
      .ask fun s => when_ (bitAt (x.w 32) 0) (bootStage (4096 * s.fld F.GOV_PHASE_PROF) (x.body.drop 132) (bits (x.w 32) 4 4))]
  | 5 => forEach (List.range (x.body.length / 8)) fun i => bootRegion i (x.w (2 * i)) (x.w (2 * i + 1))
  | 6 => acts [
      bootWrites [(0x204, x.w 0), (0x208, x.w 1), (0x20C, x.w 2), (0x200, x.w 4)],
      forEach (List.range 128) fun i => storeBytes .lane (slotAddr (i / 16) 0 (i % 16)) ((x.kndImage.drop (128 * i)).take 128),
      .ask fun s => bootStage (0x4000 * s.fld F.KND_IMG_BASE) x.kndImage (bits (x.w 3) 0 4),
      put F.KND_STAT_BANK 0, put F.KND_STAT_ACTIVE_VALID 1]
  | 7 => bootStage (bits (x.w 0) 0 21) (x.body.drop 8) (bits (x.w 1) 0 4)
  | 8 => bootWrites ((List.range (x.body.length / 8)).map (fun i => (bits (x.w (2 * i)) 0 12, x.w (2 * i + 1))))
  | _ => .skip

/-- BOOT_CHECK_DONE: the image passes to APPLY, whose sections are applied in image order, or the load fails. -/
def checkDoneAct : Act := .ask fun s => when_ (!s.pwr.off && s.phase == 2) <|
  let img := s.bootImage
  let he := headerErr (img.take 64)
  if he != 0 then bootFail ⟨he, 0, none⟩
  else match s.sectErr img with
    | some e => bootFail e
    | none => acts [
        put F.BOOT_STAT_PHASE 3,
        modBoot fun b => { b with armImg := false, govImg := false, seq := BitVec.ofNat 32 (imgSeq img) },
        forEach (sects (img.length / 12 + 1) (img.drop 0x40)).1 applySect]

/-- BOOT_APPLY_DONE: the buffer is zeroed, ARM and EN take their image values even when locked, and the device is ARMED (R530,
R534). -/
def applyDoneAct : Act := .ask fun s => when_ (!s.pwr.off && s.phase == 3) <| acts [
  internalWrite 0 bootBase (List.replicate 0x80000 0),
  shadeRange (bootBase / 64) 0x2000 0,
  put F.KND_CTL_ARM (b2n s.boot.armImg),
  when_ s.boot.govImg (acts [put F.GOV_CTL_EN 1, govEnable]),
  put F.BOOT_SEQ_SEQ s.boot.seq.toNat,
  put F.BOOT_TIME_US (min ((s.clk - s.boot.resetEnd) / 800) 0xFFFFF),
  put F.BOOT_STAT_PHASE 4,
  event F.BOOT_EVT_DONE]

/-- BOOT_RETRY: 1 ms after a failed flash load. -/
def bootRetryAct : Act := .ask fun s => when_ (!s.pwr.off && s.phase == 1 && s.boot.waitAt != 0) <| acts [
  advanceTo s.boot.waitAt, flashLoad]

/-! ### OTP (R540) -/

/-- A write to BOOT_OTP_CTL: PROG under its key, over the control port, starts the burn. -/
def otpCtlWrite (p : Path) (v : Word) : Act := .ask fun s => when_ (bitAt v.toNat 4) <|
  if p == .bar0 || bits v.toNat 16 16 != 0x0B7A || s.otp.hashEn || s.otp.burning || s.pfHeld then event F.BOOT_EVT_REFUSED
  else modOtp fun o => { o with burning := true, words := o.hold }

/-- OTP_BURN_DONE. -/
def burnDoneAct : Act := .ask fun s =>
  when_ (!s.pwr.off && s.otp.burning) (modOtp fun o => { o with burning := false, hashEn := true })

/-- A write to BOOT_OTP_DATA: the selected word of the holding copy. -/
def otpDataWrite (v : Word) : Act := .ask fun s =>
  when_ (s.fld F.BOOT_OTP_SEL_WORD < 12) (modOtp fun o => { o with hold := SMap.set 0 o.hold (s.fld F.BOOT_OTP_SEL_WORD) v })

/-- A write to BOOT_CTL; GO from BAR0 is ignored (Table REG-2). -/
def bootCtlWrite (p : Path) (v : Word) : Act := acts [fieldWrite p 0x984 v, when_ (bitAt v.toNat 0 && p == .scp) bootGo]

end Sys2Proof.Machine
end

