-- ==== Sys2Proof/Machine/Power.lean ====
section
/-!
DEFINITION. The keyed sequences of a device reset and a power cycle (R272, R565 to R567, R572), STANDBY (R538, R539), PWRFAIL#
(R273 to R276, R552) and a clock failure (R568).
-/

namespace Sys2Proof.Machine

/-! ### Keyed sequences -/

/-- A cancelled sequence is reported (R565). -/
def keyBad : Act := acts [event F.ERR_EVT_KEYBAD, count F.ERR_CNT_KEYBAD]

/-- A device reset has been requested: channels of contexts 0 to 63 stop as under ABORT with DEV_RESET (R565); frames on the
wire run to their EOF (R272; log 72). -/
def resetAccepted : Act := acts [
  modPwr fun x => { x with rstKey := none, cycKey := none, seq := some true },
  .ask fun s => forEach s.chanList fun c => .ask fun s =>
    when_ (decide ((s.chan c).ctx < 64) && (s.chan c).st != .free && (s.chan c).st != .dying) <|
      if s.atomicBusy c then modChan c fun x => { x with stopPend := 3 }
      else acts [orphanEmit c, abortChan c stDEV_RESET stDEV_RESET]]

/-- A control-port write to DEV_RESET (R565); BAR0 writes are ignored. -/
def resetKeyWrite (p : Path) (v : Word) : Act := .ask fun s =>
  when_ (p == .scp && s.pwr.seq != some true) <|
    if v == 0xC1A0 then modPwr fun x => { x with rstKey := some s.clk }
    else if v == 0x0A1C && (match s.pwr.rstKey with
        | some t => decide (s.clk ≤ t + usClocks 100)
        | none => false) then resetAccepted
    else acts [modPwr fun x => { x with rstKey := none }, keyBad]

/-- A control-port write to DEV_PWRCYC (R567); an accepted device reset goes before it (R571). -/
def cycKeyWrite (p : Path) (v : Word) : Act := .ask fun s =>
  when_ (p == .scp && s.pwr.seq.isNone && !s.pwr.quiesced) <|
    if v == 0x50FF then modPwr fun x => { x with cycKey := some s.clk }
    else if v == 0xFF05 && (match s.pwr.cycKey with
        | some t => decide (s.clk ≤ t + usClocks 100)
        | none => false) then modPwr fun x => { x with cycKey := none, seq := some false }
    else acts [modPwr fun x => { x with cycKey := none }, keyBad]

/-- Steps 3 and 4 of R272. -/
def quiesceLanes : Act := holdFrames (List.range 8)

/-- DEVICE_RESET: once no Kindle entry is in progress (R272). -/
def deviceResetAct : Act := .ask fun s =>
  when_ (!s.pwr.off && s.pwr.seq == some true && s.kindle.entry.isNone) (acts [quiesceLanes, resetGo rkDevice none])

/-- PWRCYC_REQ: after steps 1 to 4 of R272 the pin goes low and stays so until a reset (R567). -/
def pwrcycReqAct : Act := .ask fun s =>
  when_ (!s.pwr.off && s.pwr.seq == some false && s.kindle.entry.isNone) <| acts [
    quiesceLanes, modPwr fun x => { x with seq := none, quiesced := true, pin := .low }]

/-! ### STANDBY -/

/-- STANDBY ends (R539, R404). -/
def standbyEnd : Act := acts [
  modPwr fun x => { x with standby := false, exitPend := false },
  put F.DEV_PWR_STANDBY 0,
  forEach (List.range 8) fun l => .ask fun s =>
    when_ (s.fldI 0 (F.LAN_CTL_EN.lane l) == 1 && (s.lane l).st == .down) (laneLock l),
  .ask fun s => forEach s.pwr.halts fun c => .ask fun s =>
    when_ ((s.chan c).st == .halted) (modChan c fun x => { x with
      st := .idle, resValid := false, faultDesc := 0, faultOff := 0, pace := 0 }),
  modPwr fun x => { x with halts := [] }]

/-- A write of 1 to DEV_PWR.STANDBY in ACTIVE or QUIET: steps 1 to 4 of R538. -/
def standbyBegin : Act := .ask fun s =>
  let devs := s.chanList.filter (fun c => (s.chan c).ctx == 64 || (s.chan c).ctx == 65)
  let stops := fun (c : Nat) => ((s.chan c).st == .queued || (s.chan c).st == .running || (s.chan c).st == .parked) &&
    decide ((s.chan c).stopPend < 2)
  acts [
    modPwr fun x => { x with entering := true, exitPend := false,
                             halts := devs.filter (fun c => (s.chan c).ctx == 65 && stops c) },
    put F.DEV_PWR_STANDBY 1,
    frStart 5,
    forEach devs fun c => stopReq c 2,
    modGov fun g => { g with measuring := false }]

/-- A control-port write to DEV_PWR: a write of 1 where STANDBY cannot be entered, or any while the device is held or a reset
is due, is ignored (R538, R541). -/
def pwrWrite (p : Path) (v : Word) : Act := .ask fun s =>
  when_ (p == .scp && !s.refusing) <|
    if bitAt v.toNat 8 then
      when_ (!s.pwr.entering && (s.pwrState == 1 || s.pwrState == 2)) standbyBegin
    else if s.pwr.entering then modPwr fun x => { x with exitPend := true }
    else when_ s.pwr.standby standbyEnd

/-- STANDBY_ENTERED: steps 5 and 6 of R538, once the Kindle entry is answered and the device contexts' channels have
halted. -/
def standbyEnteredAct : Act := .ask fun s =>
  let busy := fun (c : Nat) => ((s.chan c).ctx == 64 || (s.chan c).ctx == 65) && decide (2 ≤ (s.chan c).stopPend)
  when_ (!s.pwr.off && s.pwr.entering && s.kindle.entry.isNone && !s.chanList.any busy) <| acts [
    govStandby,
    forEach (List.range 8) fun l => acts [txFree l, laneDown l none false],
    modPwr fun x => { x with entering := false, standby := true },
    .ask fun s => when_ s.pwr.exitPend standbyEnd]

/-! ### PWRFAIL# -/

/-- A load under way stops (R541); sections already applied stay. -/
def pfLoad : Act := .ask fun s => when_ (s.phase != 4) <| acts [
  modBoot fun b => { b with spi := none, waitAt := 0, armImg := false, govImg := false },
  put F.BOOT_STAT_ERR 0x0C, put F.BOOT_STAT_ERR_SECT 0, put F.BOOT_STAT_PHASE 6,
  when_ (1 ≤ s.phase && s.phase ≤ 3) (acts [
    event F.BOOT_EVT_FAIL, postPlain 0x0E 17 (0x0C + 2 ^ 16 * s.fld F.BOOT_STAT_TRIES) 0])]

/-- The core clock of recognition (R273). -/
def pfRecognise : Act := .ask fun s => acts [
  modPwr fun x => { x with pfAfter := x.seq == some true },
  put F.DEV_PF_STAT_HELD 1,
  put F.DEV_PF_WT_LO_WT_LO (s.now.toNat % 2 ^ 32), put F.DEV_PF_WT_HI_WT_HI (s.now.toNat / 2 ^ 32),
  .ask fun s => traceRec 8 (leBytes 4 (s.word 0 0x05C).toNat),
  put F.TRC_STAT_FROZEN 1,
  .ask fun s =>
    let k := s.fld F.ERR_WR_WR
    acts [
      postPlain 0x05 0 (s.word 0 0x060).toNat 0,
      .ask fun s => modPwr fun x => { x with
        pf := some s.clk, pfEntry := if s.fld F.ERR_WR_WR == k then none else some k }],
  event F.DEV_STOP_EVT_PWRFAIL,
  pfLoad,
  modGov fun g => { g with measuring := false, job := none, jobs := [], ended := [] }]

/-- The next core clock: every RUNNING channel stops as under ABORT, with no end record (R273); frames sent run to their end
(R269). -/
def pfStop : Act := .ask fun s => forEach s.chanList fun c => .ask fun s =>
  when_ ((s.chan c).st == .running) <|
    if s.atomicBusy c then modChan c fun x => { x with stopPend := 3 }
    else acts [orphanEmit c, abortChan c stABORTED stABORTED]

/-- PWRFAIL: the pin's falling edge is recognised; a device that is held already takes no second one. -/
def pwrfailAct : Act := .ask fun s => when_ (!s.pwr.off && !s.pfHeld) (acts [pfRecognise, tickBy 1, pfStop])

/-- The PWRFAIL entry is completed in place (R552), while it still stands in the queue's ring. -/
def pfFinal (drained : Bool) : Act := .ask fun s => acts [
  forSome s.pwr.pfEntry fun k => when_ ((s.fld F.ERR_WR_WR + 65536 - k) % 65536 ≤ 256) <|
    storeBytes .errq (32 * (k % 256) + 16) (leBytes 8 (s.word 0 0x060).toNat ++ leBytes 8 (1 + 2 * b2n drained)),
  modPwr fun x => { x with pf := none, pfEntry := none }]

/-- The host writes have drained: the time that it took is that of the last one after recognition (R275). -/
def pfDrained : Act := .ask fun s => acts [
  put F.DEV_PF_STAT_DRAINED 1, put F.DEV_PF_STAT_DRAIN ((s.host.sentAt - s.pwr.pf.getD 0) / 8), pfFinal true]

/-- No host write waits, and no MSI-X message that nothing masks. -/
def State.allSent (s : State) : Bool := s.host.outq.isEmpty && s.host.unsent.isEmpty

/-- PWRFAIL_DRAINED. -/
def pwrfailDrainedAct : Act := .ask fun s => when_ (!s.pwr.off) <| forSome s.pwr.pf fun t =>
  when_ (s.allSent && decide (s.clk ≤ t + usClocks 5)) pfDrained

/-- Beats of 32 bytes that a host write takes. -/
def HWrite.beats (w : HWrite) : Nat := (w.addr % 32 + w.data.length + 31) / 32

/-- PWRFAIL_DRAIN_MARK: 5 µs after recognition what is unsent is discarded, and data and record writes are counted. -/
def drainMarkAct : Act := .ask fun s => when_ (!s.pwr.off) <| forSome s.pwr.pf fun t => acts [
  advanceTo (t + usClocks 5),
  .ask fun s =>
    let lost := s.host.outq.filter (·.kind != .msix)
    if s.allSent then pfDrained
    else acts [
      modHost fun h => { h with outq := [], pend := h.unsent.foldl clrBit h.pend },
      countBy F.DEV_PF_CNT_REQS lost.length, countBy F.DEV_PF_CNT_BEATS ((lost.map HWrite.beats).sum),
      when_ (!lost.isEmpty) (event F.DEV_STOP_EVT_PF_LOST),
      pfFinal false]]

/-! ### Clock failure -/

/-- CLOCK_FAILURE: nothing runs until a reset; with AUTO_CYC the pin goes low (R568). -/
def clockFailureAct : Act := .ask fun s => when_ (!s.pwr.off) <|
  modPwr fun x => { x with off := true, clockLost := true, pin := if s.flag F.ERR_CTL_AUTO_CYC then .low else x.pin }

end Sys2Proof.Machine
end

