-- ==== Sys2Proof/Machine/Tap.lean ====
section
/-!
DEFINITION. The boundary-scan port (R612).  No row of the table clocks it, and in operation TRST# is low, so that no step moves
it (log 75).
-/

namespace Sys2Proof.Machine

/-- IDCODE: version 0x1, part 0x6408, manufacturer field 0x3A5, and a 1 (R612). -/
def idcode : Word := 0x1640874B

/-- What the data register of the instruction in force captures; the cells of the boundary register are free. -/
def Tap.capture (t : Tap) (k : Nat) : Tap := { t with dr := match t.inst with
  | .bypass => [false]
  | .idcode => (List.range 32).map idcode.getLsbD
  | .sample | .extest => Config.boundaryCells k }

/-- One bit moves from TDI to TDO. -/
def Tap.shift (t : Tap) (tdi : Bool) : Tap := { t with dr := t.dr.drop 1 ++ [tdi] }

/-- The level of TDO while the data register is shifted. -/
def Tap.tdo (t : Tap) : Bool := t.dr.headD false

/-- The boundary register's latches take what was shifted in; under EXTEST they drive the pins. -/
def Tap.update (t : Tap) : Tap := match t.inst with
  | .sample | .extest => { t with latches := t.dr }
  | .bypass | .idcode => t

end Sys2Proof.Machine
end

