-- ==== Sys2Proof/Machine/Access.lean ====
section
/-!
DEFINITION. Register accesses as the two paths make them: control-port frames (R76 to R87, R107, R108, R589), BAR0 dwords with
the MSI-X table (R92, R472, R476), and the one write of any register (R584 to R586, Tables REG-2 and REG-5); and what BAR2
reads return (Table CTX-10).
-/

namespace Sys2Proof.Machine

/-! ### Writing a register -/

/-- A write to DEV_STOP: a MODE of 3 or a set reserved bit is refused (R256). -/
def stopWrite (p : Path) (v : Word) : Act :=
  let x := v.toNat
  let ok := bits x 20 2 != 3 && bits x 22 10 == 0
  devStop p v (bits x 0 8) (bits x 8 12) (if ok then some (bits x 20 2 + 1) else none)

/-- What the command of an opcode does (Table SCP-5), its arguments latched. -/
def mailBody (p : Path) (op : Nat) : (Nat → Nat) → Act :=
  match op with
  | 0x01 => ctxCreate p
  | 0x02 => ctxDestroy p
  | 0x03 => ctxReinit p
  | 0x08 => queueCreate p
  | 0x09 => queueDestroy p
  | 0x10 => chanCreate p
  | 0x11 => chanDestroy p
  | 0x12 => chanReinit p
  | 0x18 => memCreate p
  | 0x19 => memDestroy p
  | 0x1A => refOp p
  | 0x1B => unrefOp p
  | 0x20 => fenceCreate p
  | 0x21 => fenceDestroy p
  | 0x22 => fenceExport p
  | 0x23 => fenceImport p
  | 0x28 => stageMap p
  | 0x29 => stageUnmap p
  | 0x30 => chairtabOpen p
  | 0x38 => laneReinit p
  | 0x39 => engineReinit p
  | _ => fun _ => badOp p

/-- A write to CMD_OP: the command that Table SCP-5 gives the opcode. -/
def cmdOpWrite (p : Path) (v : Word) : Act := mailOp p (bits v.toNat 0 8) (bits v.toNat 8 8) (mailBody p (bits v.toNat 0 8))

/-- A path's command that waited for the other path's begins (R105). -/
def mailNext (p : Path) : Act := .ask fun s => forSome (s.job p) fun j => when_ j.second <| acts [
  modJob p fun k => k.map (fun k => { k with second := false }),
  if s.pfHeld then refuse p mbWRONG_STATE else mailBody p j.op (fun i => j.args.getD i 0)]

/-- STAGE_MAP and STAGE_UNMAP take effect on the view of a context that is not torn down (R129, R131). -/
def viewApply : JobWait → Act
  | .viewSet n entry v => .ask fun s =>
    acts [
      when_ ((s.ctx n).st == .live || (s.ctx n).st == .lost) (modCtx n fun x => { x with view := SMap.set 0 x.view entry v }),
      forEach s.chanList fun c => when_ ((s.chan c).park == .view n entry) (acts [
        modChan c fun x => { x with park := .none }, resultOn c])]
  | _ => .skip

/-- MAILBOX_DONE: the command of a path finishes, and one that waited for it begins (R100, R105, R110). -/
def mailDoneAct (p : Path) : Act := .ask fun s =>
  forSome (s.job p) fun j => when_ (s.waitOver j.wait && !j.second) <| acts [
    modJob p fun _ => none,
    viewApply j.wait,
    when_ (!j.discard) <| acts [
      putResults (pathInst p) j.res,
      putI (pathInst p) F.CMD_STAT_RESULT j.result,
      putI (pathInst p) F.CMD_STAT_SEQ j.seq,
      eventI (pathInst p) F.CMD_STAT_DONE_EVT,
      .ask fun s => when_ (s.heldOn p .cmdWait) (readRelease p)],
    mailNext (otherPath p)]

/-- A write to CHR_SIT[n]: a give with GIVE = 1, else a sit (Table CHR-4). -/
def sitWrite (p : Path) (n : Nat) (v : Word) : Act := if bitAt v.toNat 16 then giveAct p n else sitAct p n (v.toNat % 65536)

/-- The write of a path to a register: every register of the map, reserved offsets without effect (R17, R584). -/
def regWrite (p : Path) (off : Nat) (v : Word) : Act :=
  match off with
  | 0x010 => pwrWrite p v
  | 0x014 => resetKeyWrite p v
  | 0x018 => cycKeyWrite p v
  | 0x040 => when_ (p == .scp) (sqDbWrite v)
  | 0x044 => when_ (p == .scp) (cqDbWrite v)
  | 0x050 => stopWrite p v
  | 0x0D8 => cmdOpWrite p v
  | 0x108 => winWrite p v
  | 0x984 => bootCtlWrite p v
  | 0x998 => otpCtlWrite p v
  | 0x9A0 => otpDataWrite v
  | _ =>
    if 0x080 ≤ off && off < 0x0C0 then when_ (p == .scp) (fieldWrite p off v)
    else if 0x400 ≤ off && off < 0x600 then sitWrite p ((off - 0x400) / 4) v
    else if 0x600 ≤ off && off < 0x800 then .skip
    else blockWrite p off v

/-- One register write of a path (R586). -/
def writeReg (p : Path) (off : Nat) (v : Word) : Act := pathWrite p off v (regWrite p off v)

/-! ### BAR0 dwords -/

/-- A write to the MSI-X table: message address, data, and the mask bit of an entry; a new address has its low two bits
clear. -/
def msixWrite (a : Nat) (v : Word) : Act := .ask fun s =>
  let i := (a - 0x1000) / 16
  let e := s.msix i
  let new : Msix := match a % 16 / 4 with
    | 0 => { e with addr := e.addr / 2 ^ 32 * 2 ^ 32 + v.toNat / 4 * 4 }
    | 1 => { e with addr := e.addr % 2 ^ 32 + v.toNat * 2 ^ 32 }
    | 2 => { e with data := v }
    | _ => { e with masked := bitAt v.toNat 0 }
  modHost fun h => { h with table := SMap.set Msix.init h.table i new }

/-- A BAR0 write dword: one whose byte enables are not all set is ignored (R476). -/
def barWrite (off : Nat) (v : Word) (be : Nat) : Act := .ask fun s =>
  when_ (!s.pathDead .bar0) <|
    if s.bar.held.isSome then barQueue (.wr off v be)
    else if be % 16 != 15 then acts [count F.HLK_CNT0_PARTIAL, event F.HLK_EVT_PARTIAL]
    else if off < 0xC00 then writeReg .bar0 off v
    else when_ (0x1000 ≤ off && off < 0x1410) (msixWrite off v)

/-- A request of n dwords that BAR0 takes: at most 16, and one dword or one aligned quadword of the MSI-X table or pending
bit array (R475). -/
def barShapeOk (off n : Nat) : Bool :=
  let meets := fun (lo hi : Nat) => decide (off < hi) && decide (lo < off + 4 * n)
  decide (n ≤ 16) && (!(meets 0x1000 0x1410 || meets 0x2000 0x2010) || n == 1 || (n == 2 && off % 8 == 0))

/-- A BAR0 write request: its dwords in ascending order (R92); a poisoned one is discarded whole (R479). -/
def barWriteReq (off be : Nat) (ws : List (Word × Nat)) : Act := barDword be <|
  if !barShapeOk off ws.length then barUrAct true
  else forEach ws.zipIdx fun e => barWrite (off + 4 * e.2) e.1.1 e.1.2

/-- A write of one aligned word on a path, on BAR0 with the further dwords of its request. -/
def busWrite (p : Path) (off : Nat) (v : Word) (be : Nat) (more : List (Word × Nat)) : Act := when_ (off % 4 == 0) <|
  match p with
  | .scp => when_ (decide (off < 0xC00)) (writeReg .scp off v)
  | .bar0 => barWriteReq off be ((v, be) :: more)

/-- A register marked CLR (R585). -/
def isClr (off : Nat) : Bool := match regFind off with
  | some r => r.clr
  | none => false

/-! ### Control-port frames -/

/-- The control port replies a byte, and no data. -/
def scpReply (b : Nat) : Act := modScp fun x => { x with reply := leBytes 1 b, cpls := [] }

/-- The byte times of a frame before its reply: the BMC's bytes and the turnaround (R81, Table SCP-1). -/
def scpLead (n : Nat) : Act := modScp fun x => { x with lead := n, waits := 0 }

/-- Replies CRC_ERR and FRAME_ERR with their counts and events (Table SCP-7). -/
def scpCrcErr : Act := acts [scpReply 0x3C, count F.SCP_CNT0_CRC_ERR, event F.SCP_EVT_CRC]
def scpFrameErr : Act := acts [scpReply 0xC3, count F.SCP_CNT0_FRAME_ERR, event F.SCP_EVT_FRAME]

/-- A frame as its bytes say it (Tables SCP-1, SCP-2): OP, COUNT + 1, address, and the bytes behind the address. -/
structure Frame where
  op : Nat
  n : Nat
  addr : Nat
  rest : List Byte
  deriving DecidableEq, Repr

/-- Parse the bytes of a frame; none before its address is complete. -/
def frameOf : List Byte → Option Frame
  | c :: hi :: lo :: rest => some ⟨c.toNat / 16, c.toNat % 16 + 1, hi.toNat * 256 + lo.toNat, rest⟩
  | _ => none

/-- A write frame. -/
def Frame.isWrite (f : Frame) : Bool := f.op == 1 || f.op == 2

/-- OP 2 and OP 4 keep the address. -/
def Frame.fixed (f : Frame) : Bool := f.op == 2 || f.op == 4

/-- OP, address and range are legal (R79, R85). -/
def Frame.ok (f : Frame) : Bool :=
  1 ≤ f.op && f.op ≤ 4 && f.addr % 4 == 0 && f.addr + (if f.fixed then 4 else 4 * f.n) ≤ 0xC00

/-- Bytes behind the address that the BMC sends before the turnaround. -/
def Frame.need (f : Frame) : Nat := if f.isWrite then 4 * f.n + 1 else 1

/-- The CRC byte of a whole frame matches (R80). -/
def Frame.crcOk (f : Frame) (bytes : List Byte) : Bool :=
  crc8 (bytes.take (3 + f.need - 1)) == ((bytes.drop (3 + f.need - 1)).headD 0).toNat

/-- Word i of a write frame, most significant byte first (R78). -/
def Frame.word (f : Frame) (i : Nat) : Word := BitVec.ofNat 32 (ofLe (((f.rest.drop (4 * i)).take 4).reverse))

/-- The offset of word i. -/
def Frame.off (f : Frame) (i : Nat) : Nat := if f.fixed then f.addr else f.addr + 4 * i

/-- SCP_CS# rises before the frame CRC of a write (R107). -/
def scpCut : Act := acts [count F.SCP_CNT0_FRAME_ERR, event F.SCP_EVT_FRAME]

/-- A frame: its CRC is judged first, then OP, address and range; then its words are read or written (R83 to R86). -/
def scpFrame (bytes : List Byte) : Act := .ask fun s =>
  when_ (!s.pathDead .scp && s.scp.held.isNone) <| forSome (frameOf bytes) fun f =>
    if f.rest.length < f.need then when_ f.isWrite scpCut
    else acts [scpLead (3 + f.need + 1), if !f.crcOk bytes then scpCrcErr
      else if !f.ok then scpFrameErr
      else if f.isWrite then acts [
        forEach (List.range f.n) fun i => writeReg .scp (f.off i) (f.word i),
        scpReply 0x5A]
      else readStart .scp f.addr f.n f.fixed 15 15]

/-- The byte that SCP_MISO carries in byte time i of the frame (R81, R82). -/
def State.misoByte (s : State) (i : Nat) : Byte :=
  if i < s.scp.lead then 0xFF
  else if s.scp.held.isSome || i < s.scp.lead + s.scp.waits then 0xA5
  else s.scp.reply.getD (i - s.scp.lead - s.scp.waits) 0xFF

/-- A held read of the control port is withdrawn (R108, R347). -/
def scpWithdraw : Act := acts [
  chairUnwait (.path .scp), modScp fun x => { x with held := none },
  count F.SCP_CNT1_ABANDON, event F.SCP_EVT_ABANDON]

/-- SCP_CS# rises after some bytes of a frame, or while a read is held (R107 to R109). -/
def csRise (bytes : List Byte) : Act := .ask fun s =>
  when_ (!s.pwr.off) <|
    if s.scp.held.isSome then scpWithdraw
    else acts [
      match frameOf bytes with
      | some _ => scpFrame bytes
      | none => when_ (match bytes with
          | c :: _ => c.toNat / 16 == 1 || c.toNat / 16 == 2
          | [] => false) scpCut,
      .ask fun s => when_ s.scp.held.isSome scpWithdraw,
      modScp fun x => { PathPort.init with behind := x.behind }]

/-! ### Windows -/

/-- A window read reaches its 10 µs limit (R97, R98): a held one counted from its start, else one that begins here (log 13). -/
def winTimeout (p : Path) : Act := .ask fun s =>
  when_ (!s.pathDead p) <| match (s.port p).held with
    | some h => when_ (h.reg == some .win) (acts [advanceTo (h.since + usClocks 10), windowBitten p])
    | none => acts [tickBy (usClocks 10), windowBitten p]

/-! ### What BAR reads return (Tables HLK-2, CTX-10) -/

/-- Context states as CTX_STATE shows them (Table CTX-2). -/
def CtxSt.code : CtxSt → Nat
  | .free => 0 | .live => 1 | .lost => 2 | .dying => 3

/-- The live queue of a context in a doorbell slot. -/
def State.pageQueue (s : State) (n slot : Nat) : Option Queue := (s.slotQueue n slot).map s.queue

/-- A word of context n's doorbell page; a FREE or DYING context shows only CTX_STATE (R152). -/
def State.pageWord (s : State) (n off : Nat) : Nat :=
  let c := s.ctx n
  let f := c.fault.getD ⟨0, 0, 0, 0, 0⟩
  if off == 0xC00 then c.st.code + 2 ^ 8 * n + 2 ^ 16 * c.gen
  else if c.st == .free || c.st == .dying then 0
  else if off < 0x400 then ((s.pageQueue n (off / 4)).map (fun q => q.sqTail + 2 ^ 16 * q.sqHead)).getD 0
  else if off < 0x800 then ((s.pageQueue n ((off - 0x400) / 4)).map (fun q => q.cqHead + 2 ^ 16 * q.cqTail)).getD 0
  else match off with
    | 0xC04 => f.status + 2 ^ 16 * f.desc
    | 0xC08 => f.chan
    | 0xC0C => f.addr % 2 ^ 32
    | 0xC10 => f.addr / 2 ^ 32
    | 0xC14 => f.wt.toNat % 2 ^ 32
    | 0xC18 => f.wt.toNat / 2 ^ 32
    | 0xC1C => c.dberr + 2 ^ 16 * c.dbslot
    | _ => 0

/-- A read request of BAR0 or BAR2 (R92, R93, R475): a doorbell page answers at once, unless a posted write that arrived
before it still waits (R474). -/
def barRead (r : ReadReq) : Act := .ask fun s =>
  let n := if r.n == 0 then 1 else r.n
  when_ (!s.pathDead .bar0 && r.off % 4 == 0) <|
    if !(if r.bar2 then decide (n ≤ 16) else barShapeOk r.off n) then barUrAct false
    else if r.bar2 then
      if s.writeWaits then barQueue (.rd r)
      else
        let h : HeldRead := ⟨none, s.clk, s.now, r.off, n, false, r.fbe, r.lbe,
          (List.range n).map (fun i => BitVec.ofNat 32 (s.pageWord ((r.off + 4 * i) / 4096 % 64) ((r.off + 4 * i) % 4096)))⟩
        modBar fun x => { x with cpls := [⟨0, h.bytes⟩] }
    else if s.bar.held.isSome then barQueue (.rd r)
    else readStart .bar0 r.off n false r.fbe r.lbe

/-- The host accesses that waited behind a held BAR0 read act once it has completed, until one is held itself (R93). -/
def barDrain : Nat → Act
  | 0 => .skip
  | fuel + 1 => .ask fun s =>
    when_ s.bar.held.isNone <| forSome s.bar.behind.head? fun r => acts [
      modBar fun x => { x with behind := x.behind.drop 1 },
      (match r with
        | .wr off v be => barWrite off v be
        | .rd r => barRead r
        | .rd4 addr len => bar4ReadAct addr len),
      barDrain fuel]

/-- What a row does to a device that is on: its own effect, then what waited behind a BAR0 read that it let complete. -/
def row (a : Act) : Act := powered <| .ask fun s =>
  if s.bar.behind.isEmpty then a else acts [a, .ask fun s => barDrain s.bar.behind.length]

end Sys2Proof.Machine
end

