-- ==== Sys2Proof/Machine/RowsPort.lean ====
section
/-!
DEFINITION. The meanings of the rows of the register paths, protection, resets, boot and power: one definition for each constructor of Instr.
-/

namespace Sys2Proof.Machine

/-- SCP_READ (R79, R83), and the same register read over BAR0 or BAR2 (R90, R92; log 79). -/
def execScpRead (r : ReadCmd) (s : State) : Host.Outcome State Fault Refusal :=
  .next ((row (match r with
    | .frame bytes => scpFrame bytes
    | .bar q => barRead q)).run s)

/-- SCP_READ_FIXED (R79). -/
def execScpReadFixed (frame : List Byte) (s : State) : Host.Outcome State Fault Refusal := .next ((row (scpFrame frame)).run s)

/-- MAILBOX_DONE (R100). -/
def execMailboxDone (p : Path) (s : State) : Host.Outcome State Fault Refusal := .next ((row (mailDoneAct p)).run s)

/-- SCP_WRITE (R84). -/
def execScpWrite (frame : List Byte) (s : State) : Host.Outcome State Fault Refusal := .next ((row (scpFrame frame)).run s)

/-- SCP_WRITE_FIXED (R84). -/
def execScpWriteFixed (frame : List Byte) (s : State) : Host.Outcome State Fault Refusal := .next ((row (scpFrame frame)).run s)

/-- SCP_CS_RISE (R107, R108). -/
def execScpCsRise (bytes : List Byte) (s : State) : Host.Outcome State Fault Refusal := .next ((row (csRise bytes)).run s)

/-- REGISTER_WRITE (R584). -/
def execRegisterWrite (p : Path) (off : Nat) (v : Word) (x : WriteExt) (s : State) : Host.Outcome State Fault Refusal :=
  .next ((row (busWrite p off v x.be x.more)).run s)

/-- COUNTER_CLEAR (R585). -/
def execCounterClear (p : Path) (off : Nat) (v : Word) (be : Nat) (s : State) : Host.Outcome State Fault Refusal :=
  .next ((row (when_ (isClr off) (busWrite p off v be []))).run s)

/-- WHL_TIME_LO_READ (R57). -/
def execWhlTimeLoRead (p : Path) (s : State) : Host.Outcome State Fault Refusal := .next ((row (pathRead p 0x190)).run s)

/-- FEN_VAL_LO_READ (R386). -/
def execFenValLoRead (p : Path) (s : State) : Host.Outcome State Fault Refusal := .next ((row (pathRead p 0x2D8)).run s)

/-- WIN_DATA_READ (R95). -/
def execWinDataRead (p : Path) (s : State) : Host.Outcome State Fault Refusal := .next ((row (pathRead p 0x108)).run s)

/-- WIN_DATA_WRITE (R95). -/
def execWinDataWrite (p : Path) (v : Word) (s : State) : Host.Outcome State Fault Refusal :=
  .next ((row (pathWrite p 0x108 v (winWrite p v))).run s)

/-- WIN_READ_TIMEOUT (R98). -/
def execWinReadTimeout (p : Path) (s : State) : Host.Outcome State Fault Refusal := .next ((row (winTimeout p)).run s)

/-- CUP_POOL_WRITE (R366). -/
def execCupPoolWrite (p : Path) (v : Word) (s : State) : Host.Outcome State Fault Refusal :=
  .next ((row (pathWrite p 0x2C0 v (cupPoolWrite p v))).run s)

/-- ERR_RD_WRITE (R549). -/
def execErrRdWrite (p : Path) (v : Word) (s : State) : Host.Outcome State Fault Refusal :=
  .next ((row (pathWrite p 0x3C8 v (errRdWrite v))).run s)

/-- TRACE_FREEZE (R570): a TRC_CTL write with FREEZE = 1. -/
def execTraceFreeze (p : Path) (v : Word) (s : State) : Host.Outcome State Fault Refusal :=
  .next ((row (pathWrite p 0x9C0 (v ||| 2) (trcCtlWrite p (v ||| 2)))).run s)

/-- TRACE_THAW (R570): a TRC_CTL write with THAW = 1 and FREEZE = 0. -/
def execTraceThaw (p : Path) (v : Word) (s : State) : Host.Outcome State Fault Refusal :=
  .next ((row (pathWrite p 0x9C0 ((v ||| 4) &&& ~~~2) (trcCtlWrite p ((v ||| 4) &&& ~~~2)))).run s)

/-- WCB_IDLE_FLUSH (R293). -/
def execWcbIdleFlush (e : Nat) (s : State) : Host.Outcome State Fault Refusal := .next ((row (wcbIdleAct e)).run s)

/-- REGION_SELECT (R320). -/
def execRegionSelect (p : Path) (idx : Nat) (s : State) : Host.Outcome State Fault Refusal :=
  .next ((row (pathWrite p 0x288 (BitVec.ofNat 32 (idx % 32)) (regionSelect (idx % 32)))).run s)

/-- REGION_COMMIT (R320). -/
def execRegionCommit (p : Path) (idx : Nat) (s : State) : Host.Outcome State Fault Refusal :=
  .next ((row (pathWrite p 0x288 (BitVec.ofNat 32 (idx % 32 + 2 ^ 31)) (regionCommit (idx % 32)))).run s)

/-- PRT_SHD_DATA_WRITE (R315). -/
def execPrtShdDataWrite (p : Path) (v : Word) (s : State) : Host.Outcome State Fault Refusal :=
  .next ((row (pathWrite p 0x2AC v (shdDataWrite v))).run s)

/-- PRT_SHD_DATA_READ (R315). -/
def execPrtShdDataRead (p : Path) (s : State) : Host.Outcome State Fault Refusal := .next ((row (pathRead p 0x2AC)).run s)

/-- PRT_SHD_FILL (R316). -/
def execPrtShdFill (p : Path) (v : Word) (s : State) : Host.Outcome State Fault Refusal :=
  .next ((row (pathWrite p 0x2B0 v (shdFillWrite v))).run s)

/-- SHADE_FILL_DONE (R316). -/
def execShadeFillDone (s : State) : Host.Outcome State Fault Refusal := .next ((row (when_ (!s.pwr.off) fillDone)).run s)

/-- PROT_UNIT_ENABLE (R323). -/
def execProtUnitEnable (p : Path) (v : Word) (s : State) : Host.Outcome State Fault Refusal :=
  .next ((row (pathWrite p 0x280 v (protEnable p v))).run s)

/-- DISABLED_STALL_TIMEOUT (R324): of a channel's stalled beat, or of the oldest stalled access of a peer. -/
def execDisabledStallTimeout (chan : Option Nat) (s : State) : Host.Outcome State Fault Refusal :=
  .next ((row (match chan with
    | some c => stallTimeout c
    | none => zStallTimeout)).run s)

/-- COLD_RESET (R522). -/
def execColdReset (x : Straps) (s : State) : Host.Outcome State Fault Refusal := .next ((coldAct x).run s)

/-- SUPPLY_TRIP (R614). -/
def execSupplyTrip (s : State) : Host.Outcome State Fault Refusal := .next (supplyTripAct.run s)

/-- WARM_RESET (R523). -/
def execWarmReset (lowNs : Nat) (x : Straps) (s : State) : Host.Outcome State Fault Refusal := .next ((warmAct lowNs x).run s)

/-- INIT (R525). -/
def execInit (s : State) : Host.Outcome State Fault Refusal := .next ((row initAct).run s)

/-- BOOT_HEADER_READ (R528). -/
def execBootHeaderRead (bs : List Byte) (s : State) : Host.Outcome State Fault Refusal := .next ((row (headerAct bs)).run s)

/-- BOOT_BODY_READ (R528). -/
def execBootBodyRead (bs : List Byte) (s : State) : Host.Outcome State Fault Refusal := .next ((row (bodyAct bs)).run s)

/-- BOOT_CTL_GO (R529): ignored from BAR0 (Table REG-2). -/
def execBootCtlGo (p : Path) (s : State) : Host.Outcome State Fault Refusal :=
  .next ((row (.ask fun s => pathWrite p 0x984 (s.word 0 0x984 ||| 1) (when_ (p == .scp) bootGo))).run s)

/-- BOOT_CHECK_DONE (R531). -/
def execBootCheckDone (s : State) : Host.Outcome State Fault Refusal := .next ((row checkDoneAct).run s)

/-- BOOT_APPLY_DONE (R534). -/
def execBootApplyDone (s : State) : Host.Outcome State Fault Refusal := .next ((row applyDoneAct).run s)

/-- BOOT_RETRY (R542). -/
def execBootRetry (s : State) : Host.Outcome State Fault Refusal := .next ((row bootRetryAct).run s)

/-- OTP_PROGRAM (R540). -/
def execOtpProgram (p : Path) (v : Word) (s : State) : Host.Outcome State Fault Refusal :=
  .next ((row (pathWrite p 0x998 v (otpCtlWrite p v))).run s)

/-- OTP_BURN_DONE (R540). -/
def execOtpBurnDone (s : State) : Host.Outcome State Fault Refusal := .next ((row burnDoneAct).run s)

/-- DEV_RESET_KEY (R565). -/
def execDevResetKey (v : Word) (s : State) : Host.Outcome State Fault Refusal :=
  .next ((row (pathWrite .scp 0x014 v (resetKeyWrite .scp v))).run s)

/-- DEVICE_RESET (R272). -/
def execDeviceReset (s : State) : Host.Outcome State Fault Refusal := .next ((row deviceResetAct).run s)

/-- DEV_PWRCYC_KEY (R567). -/
def execDevPwrcycKey (v : Word) (s : State) : Host.Outcome State Fault Refusal :=
  .next ((row (pathWrite .scp 0x018 v (cycKeyWrite .scp v))).run s)

/-- PWRCYC_REQ (R567). -/
def execPwrcycReq (s : State) : Host.Outcome State Fault Refusal := .next ((row pwrcycReqAct).run s)

/-- STANDBY_ENTRY (R538): a control-port write of 1 to DEV_PWR.STANDBY. -/
def execStandbyEntry (s : State) : Host.Outcome State Fault Refusal := .next ((row (pathWrite .scp 0x010 0x100 (pwrWrite .scp 0x100))).run s)

/-- STANDBY_EXIT (R539): a control-port write of 0 to DEV_PWR.STANDBY. -/
def execStandbyExit (s : State) : Host.Outcome State Fault Refusal := .next ((row (pathWrite .scp 0x010 0 (pwrWrite .scp 0))).run s)

/-- STANDBY_ENTERED (R538). -/
def execStandbyEntered (s : State) : Host.Outcome State Fault Refusal := .next ((row standbyEnteredAct).run s)

/-- PWRFAIL (R273). -/
def execPwrfail (s : State) : Host.Outcome State Fault Refusal := .next ((row pwrfailAct).run s)

/-- PWRFAIL_DRAINED (R275). -/
def execPwrfailDrained (s : State) : Host.Outcome State Fault Refusal := .next ((row pwrfailDrainedAct).run s)

/-- PWRFAIL_DRAIN_MARK (R275). -/
def execPwrfailDrainMark (s : State) : Host.Outcome State Fault Refusal := .next ((row drainMarkAct).run s)

/-- CLOCK_FAILURE (R568). -/
def execClockFailure (s : State) : Host.Outcome State Fault Refusal := .next ((row clockFailureAct).run s)

end Sys2Proof.Machine
end

