-- ==== Sys2Proof/Machine/RowsMail.lean ====
section
/-!
DEFINITION. The meanings of the rows of the command mailbox: one definition for each constructor of Instr.
-/

namespace Sys2Proof.Machine

/-- CMD_WAIT_READ (R101). -/
def execCmdWaitRead (p : Path) (s : State) : Host.Outcome State Fault Refusal := .next ((row (pathRead p 0x0E0)).run s)

/-- CMD_WAIT_TIMEOUT (R101). -/
def execCmdWaitTimeout (p : Path) (s : State) : Host.Outcome State Fault Refusal := .next ((row (waitTimeoutAct p)).run s)

/-- CTX_CREATE (R123). -/
def execCtxCreate (p : Path) (seq : Nat) (s : State) : Host.Outcome State Fault Refusal :=
  .next ((row (mailOp p 0x01 seq (ctxCreate p))).run s)

/-- CTX_DESTROY (R144). -/
def execCtxDestroy (p : Path) (seq : Nat) (s : State) : Host.Outcome State Fault Refusal :=
  .next ((row (mailOp p 0x02 seq (ctxDestroy p))).run s)

/-- CTX_REINIT (R561). -/
def execCtxReinit (p : Path) (seq : Nat) (s : State) : Host.Outcome State Fault Refusal :=
  .next ((row (mailOp p 0x03 seq (ctxReinit p))).run s)

/-- QUEUE_CREATE (R132). -/
def execQueueCreate (p : Path) (seq : Nat) (s : State) : Host.Outcome State Fault Refusal :=
  .next ((row (mailOp p 0x08 seq (queueCreate p))).run s)

/-- QUEUE_DESTROY (R146). -/
def execQueueDestroy (p : Path) (seq : Nat) (s : State) : Host.Outcome State Fault Refusal :=
  .next ((row (mailOp p 0x09 seq (queueDestroy p))).run s)

/-- CHAN_CREATE (R139). -/
def execChanCreate (p : Path) (seq : Nat) (s : State) : Host.Outcome State Fault Refusal :=
  .next ((row (mailOp p 0x10 seq (chanCreate p))).run s)

/-- CHAN_DESTROY (R147). -/
def execChanDestroy (p : Path) (seq : Nat) (s : State) : Host.Outcome State Fault Refusal :=
  .next ((row (mailOp p 0x11 seq (chanDestroy p))).run s)

/-- CHAN_REINIT (R560). -/
def execChanReinit (p : Path) (seq : Nat) (s : State) : Host.Outcome State Fault Refusal :=
  .next ((row (mailOp p 0x12 seq (chanReinit p))).run s)

/-- MEM_CREATE (R353). -/
def execMemCreate (p : Path) (seq : Nat) (s : State) : Host.Outcome State Fault Refusal :=
  .next ((row (mailOp p 0x18 seq (memCreate p))).run s)

/-- MEM_DESTROY (R102, R363). -/
def execMemDestroy (p : Path) (seq : Nat) (s : State) : Host.Outcome State Fault Refusal :=
  .next ((row (mailOp p 0x19 seq (memDestroy p))).run s)

/-- REF (R141). -/
def execRef (p : Path) (seq : Nat) (s : State) : Host.Outcome State Fault Refusal := .next ((row (mailOp p 0x1A seq (refOp p))).run s)

/-- UNREF (R141). -/
def execUnref (p : Path) (seq : Nat) (s : State) : Host.Outcome State Fault Refusal :=
  .next ((row (mailOp p 0x1B seq (unrefOp p))).run s)

/-- FENCE_CREATE (R367). -/
def execFenceCreate (p : Path) (seq : Nat) (s : State) : Host.Outcome State Fault Refusal :=
  .next ((row (mailOp p 0x20 seq (fenceCreate p))).run s)

/-- FENCE_DESTROY (R371). -/
def execFenceDestroy (p : Path) (seq : Nat) (s : State) : Host.Outcome State Fault Refusal :=
  .next ((row (mailOp p 0x21 seq (fenceDestroy p))).run s)

/-- FENCE_EXPORT (R374). -/
def execFenceExport (p : Path) (seq : Nat) (s : State) : Host.Outcome State Fault Refusal :=
  .next ((row (mailOp p 0x22 seq (fenceExport p))).run s)

/-- FENCE_IMPORT (R375). -/
def execFenceImport (p : Path) (seq : Nat) (s : State) : Host.Outcome State Fault Refusal :=
  .next ((row (mailOp p 0x23 seq (fenceImport p))).run s)

/-- STAGE_MAP (R130). -/
def execStageMap (p : Path) (seq : Nat) (s : State) : Host.Outcome State Fault Refusal :=
  .next ((row (mailOp p 0x28 seq (stageMap p))).run s)

/-- STAGE_UNMAP (R131). -/
def execStageUnmap (p : Path) (seq : Nat) (s : State) : Host.Outcome State Fault Refusal :=
  .next ((row (mailOp p 0x29 seq (stageUnmap p))).run s)

/-- CHAIRTAB_OPEN (R333). -/
def execChairtabOpen (p : Path) (seq : Nat) (s : State) : Host.Outcome State Fault Refusal :=
  .next ((row (mailOp p 0x30 seq (chairtabOpen p))).run s)

/-- ENGINE_REINIT (R563). -/
def execEngineReinit (p : Path) (seq : Nat) (s : State) : Host.Outcome State Fault Refusal :=
  .next ((row (mailOp p 0x39 seq (engineReinit p))).run s)

/-- BAD_OP (R103): an opcode of the table belongs to its own row. -/
def execBadOp (p : Path) (op seq : Nat) (s : State) : Host.Outcome State Fault Refusal :=
  .next ((row (when_ (!opInTable (op % 256)) (mailOp p op seq (fun _ => badOp p)))).run s)

end Sys2Proof.Machine
end

