-- ==== Sys2Proof/Machine/RowsHost.lean ====
section
/-!
DEFINITION. The meanings of the rows of the host link, queues and teardown: one definition for each constructor of Instr.
-/

namespace Sys2Proof.Machine

/-- HOST_COMPLETION (R482). -/
def execHostCompletion (tag status : Nat) (poison : Bool) (data : List Byte) (s : State) : Host.Outcome State Fault Refusal :=
  .next ((row (completionAct tag status poison data)).run s)

/-- COMPLETION_TIMEOUT (R482). -/
def execCompletionTimeout (tag : Nat) (s : State) : Host.Outcome State Fault Refusal := .next ((row (timeoutAct tag)).run s)

/-- MSIX_SEND (R488). -/
def execMsixSend (v : Nat) (s : State) : Host.Outcome State Fault Refusal :=
  .next ((row (when_ (!s.pwr.off && v < 65) (sendMsix v))).run s)

/-- BAR4_READ (R477). -/
def execBar4Read (addr len : Nat) (s : State) : Host.Outcome State Fault Refusal := .next ((row (bar4ReadAct addr len)).run s)

/-- BAR4_WRITE (R477). -/
def execBar4Write (addr : Nat) (data : List Byte) (be : List Bool) (poison : Bool) (s : State) :
    Host.Outcome State Fault Refusal := .next ((row (bar4WriteAct addr data be poison)).run s)

/-- BAR_UNSUPPORTED_REQUEST (R475). -/
def execBarUnsupportedRequest (write : Bool) (s : State) : Host.Outcome State Fault Refusal := .next ((row (barUrAct write)).run s)

/-- TLB_INVALIDATE (R128). -/
def execTlbInvalidate (p : Path) (v : Word) (s : State) : Host.Outcome State Fault Refusal :=
  .next ((row (pathWrite p 0x924 v (tlbInvAct v))).run s)

/-- TLB_INVALIDATE_DONE: BUSY clears (R128). -/
def execTlbInvalidateDone (s : State) : Host.Outcome State Fault Refusal :=
  .next ((row (tlbInvDone)).run s)

/-- FUNCTION_RESET_START (R491). -/
def execFunctionResetStart (cause : Nat) (s : State) : Host.Outcome State Fault Refusal :=
  .next ((row (when_ (!s.pwr.off && cause < 5) (frStart cause))).run s)

/-- FUNCTION_RESET_END (R491). -/
def execFunctionResetEnd (c : HostCfg) (s : State) : Host.Outcome State Fault Refusal :=
  .next ((row (when_ (!s.pwr.off) (frEnd c))).run s)

/-- SQ_DB (R134). -/
def execSqDb (n slot : Nat) (v : Word) (be : Nat) (s : State) : Host.Outcome State Fault Refusal :=
  .next ((row (barDword be (queueDb n slot v be Queue.tailOk setTail))).run s)

/-- CQ_DB (R134). -/
def execCqDb (n slot : Nat) (v : Word) (be : Nat) (s : State) : Host.Outcome State Fault Refusal :=
  .next ((row (barDword be (queueDb n slot v be Queue.headOk setHead))).run s)

/-- DEV_SQ_DB (R138). -/
def execDevSqDb (v : Word) (s : State) : Host.Outcome State Fault Refusal :=
  .next ((row (pathWrite .scp 0x040 v (sqDbWrite v))).run s)

/-- DEV_CQ_DB (R138). -/
def execDevCqDb (v : Word) (s : State) : Host.Outcome State Fault Refusal :=
  .next ((row (pathWrite .scp 0x044 v (cqDbWrite v))).run s)

/-- FENCE_KICK (R372). -/
def execFenceKick (n : Nat) (v : Word) (be : Nat) (s : State) : Host.Outcome State Fault Refusal :=
  .next ((row (barDword be (kickAct n v be))).run s)

/-- CTX_REF (R355). -/
def execCtxRef (n : Nat) (v : Word) (be : Nat) (s : State) : Host.Outcome State Fault Refusal :=
  .next ((row (barDword be (refAct n v be))).run s)

/-- CTX_UNREF (R355). -/
def execCtxUnref (n : Nat) (v : Word) (be : Nat) (s : State) : Host.Outcome State Fault Refusal :=
  .next ((row (barDword be (unrefAct n v be))).run s)

/-- SUBMISSION_ENTRY_READ (R135). -/
def execSubmissionEntryRead (q : Nat) (entry : List Byte) (s : State) : Host.Outcome State Fault Refusal :=
  .next ((row (entryAct q entry)).run s)

/-- COMPLETION_RECORD_WRITE (R184). -/
def execCompletionRecordWrite (q : Nat) (s : State) : Host.Outcome State Fault Refusal := .next ((row (recordAct q)).run s)

/-- CTX_LOSS_UNWIND (R555). -/
def execCtxLossUnwind (n : Nat) (s : State) : Host.Outcome State Fault Refusal := .next ((row (unwindAct n)).run s)

/-- CTX_TEARDOWN_COMPLETE (R144). -/
def execCtxTeardownComplete (n : Nat) (s : State) : Host.Outcome State Fault Refusal := .next ((row (teardownAct n)).run s)

end Sys2Proof.Machine
end

