-- ==== Sys2Proof/Machine/RowsChan.lean ====
section
/-!
DEFINITION. The meanings of the rows of the engines, channels, descriptors and chairs: one definition for each constructor of Instr.
-/

namespace Sys2Proof.Machine

/-- ENGINE_DISPATCH (R209). -/
def execEngineDispatch (e : Nat) (s : State) : Host.Outcome State Fault Refusal := .next ((row (dispatchAct e)).run s)

/-- BURST_LIMIT_EXPIRY (R201). -/
def execBurstLimitExpiry (e : Nat) (s : State) : Host.Outcome State Fault Refusal := .next ((row (expiryAct e)).run s)

/-- DESCRIPTOR_FETCH (R177). -/
def execDescriptorFetch (c : Nat) (s : State) : Host.Outcome State Fault Refusal := .next ((row (fetchAct c)).run s)

/-- DESCRIPTOR_COMPLETE (R174). -/
def execDescriptorComplete (c : Nat) (s : State) : Host.Outcome State Fault Refusal := .next ((row (completeAct c)).run s)

/-- DEV_STOP_DRAIN (R260). -/
def execDevStopDrain (p : Path) (c gen : Nat) (s : State) : Host.Outcome State Fault Refusal :=
  .next ((row (devStop p (stopWord c gen 0) c gen (some 1))).run s)

/-- DEV_STOP_HALT (R261). -/
def execDevStopHalt (p : Path) (c gen : Nat) (s : State) : Host.Outcome State Fault Refusal :=
  .next ((row (devStop p (stopWord c gen 1) c gen (some 2))).run s)

/-- DEV_STOP_ABORT (R267). -/
def execDevStopAbort (p : Path) (c gen : Nat) (s : State) : Host.Outcome State Fault Refusal :=
  .next ((row (devStop p (stopWord c gen 2) c gen (some 3))).run s)

/-- HALT_AT_BURST_BOUNDARY (R261). -/
def execHaltAtBurstBoundary (c : Nat) (s : State) : Host.Outcome State Fault Refusal := .next ((row (haltBoundary c)).run s)

/-- SNUFFER_BITE (R215). -/
def execSnufferBite (res : Nat) (owner : BiteOwner) (s : State) : Host.Outcome State Fault Refusal :=
  .next ((row (biteAct res owner)).run s)

/-- WAIT_WHEEL (R164). -/
def execWaitWheel (c : Nat) (s : State) : Host.Outcome State Fault Refusal :=
  .next ((row (descRow c 0x20 (waitWheelBody c))).run s)

/-- WAIT_FENCE (R164, R368). -/
def execWaitFence (c : Nat) (s : State) : Host.Outcome State Fault Refusal :=
  .next ((row (descRow c 0x21 (waitFenceBody c))).run s)

/-- SIGNAL (R165). -/
def execSignal (c : Nat) (s : State) : Host.Outcome State Fault Refusal := .next ((row (descRow c 0x22 (signalBody c))).run s)

/-- WAIT_WICK (R164). -/
def execWaitWick (c : Nat) (s : State) : Host.Outcome State Fault Refusal :=
  .next ((row (descRow c 0x23 (waitWickBody c))).run s)

/-- NOP (R159). -/
def execNop (c : Nat) (s : State) : Host.Outcome State Fault Refusal := .next ((row (descRow c 0x3F (nopBody c))).run s)

/-- JUMP (R167). -/
def execJump (c : Nat) (s : State) : Host.Outcome State Fault Refusal := .next ((row (descRow c 0x40 (jumpBody c))).run s)

/-- LOOP (R167). -/
def execLoop (c : Nat) (s : State) : Host.Outcome State Fault Refusal := .next ((row (descRow c 0x41 (loopBody c))).run s)

/-- ALLOC (R166). -/
def execAlloc (c : Nat) (s : State) : Host.Outcome State Fault Refusal := .next ((row (descRow c 0x38 (allocBody c))).run s)

/-- FREE (R363). -/
def execFree (c : Nat) (s : State) : Host.Outcome State Fault Refusal := .next ((row (descRow c 0x39 (cupRequest c))).run s)

/-- CUPBOARD_OPERATION_END (R358). -/
def execCupboardOperationEnd (s : State) : Host.Outcome State Fault Refusal := .next ((row cupEndAct).run s)

/-- SCRUB_DONE (R364). -/
def execScrubDone (s : State) : Host.Outcome State Fault Refusal := .next ((row scrubAct).run s)

/-- LAMPLIGHTER_FIRE (R53). -/
def execLamplighterFire (s : State) : Host.Outcome State Fault Refusal := .next ((row lampFireAct).run s)

/-- LAMPLIGHTER_ARM (R52). -/
def execLamplighterArm (s : State) : Host.Outcome State Fault Refusal := .next ((row lampArmAct).run s)

/-- CHR_SIT (R335). -/
def execChrSit (p : Path) (n tag : Nat) (s : State) : Host.Outcome State Fault Refusal := .next ((row (chrSitAct p n tag)).run s)

/-- CHR_GIVE (R340). -/
def execChrGive (p : Path) (n : Nat) (s : State) : Host.Outcome State Fault Refusal := .next ((row (chrGiveAct p n)).run s)

/-- CHR_WAIT_READ (R337). -/
def execChrWaitRead (p : Path) (n : Nat) (s : State) : Host.Outcome State Fault Refusal := .next ((row (chrWaitAct p n)).run s)

/-- CHR_WAIT_TIMEOUT (R337). -/
def execChrWaitTimeout (p : Path) (s : State) : Host.Outcome State Fault Refusal := .next ((row (chrWaitTimeoutAct p)).run s)

/-- CHAIR_TAKE (R338). -/
def execChairTake (c : Nat) (s : State) : Host.Outcome State Fault Refusal :=
  .next ((row (descRow c 0x30 (chairTakeBody c))).run s)

/-- CHAIR_GIVE (R340). -/
def execChairGive (c : Nat) (s : State) : Host.Outcome State Fault Refusal :=
  .next ((row (descRow c 0x31 (chairGiveBody c))).run s)

/-- COPY (R160). -/
def execCopy (c bursts : Nat) (s : State) : Host.Outcome State Fault Refusal := .next ((row (moveRow c 0x01 bursts)).run s)

/-- FILL (R160). -/
def execFill (c bursts : Nat) (s : State) : Host.Outcome State Fault Refusal := .next ((row (moveRow c 0x02 bursts)).run s)

/-- GATHER (R160). -/
def execGather (c bursts : Nat) (s : State) : Host.Outcome State Fault Refusal := .next ((row (moveRow c 0x03 bursts)).run s)

/-- SCATTER (R160). -/
def execScatter (c bursts : Nat) (s : State) : Host.Outcome State Fault Refusal := .next ((row (moveRow c 0x04 bursts)).run s)

end Sys2Proof.Machine
end

