-- ==== Sys2Proof/Machine/RowsLane.lean ====
section
/-!
DEFINITION. The meanings of the rows of the wheel, lanes, Kindle, governor, PMBus and wicks: one definition for each constructor of Instr.
-/

namespace Sys2Proof.Machine

/-- SYNC_EDGE (R44). -/
def execSyncEdge (e : SyncEdge) (s : State) : Host.Outcome State Fault Refusal :=
  .next ((row (syncEdgeAct e.dt8 e.rising)).run s)

/-- SYNC_MISSING (R60). -/
def execSyncMissing (s : State) : Host.Outcome State Fault Refusal := .next ((row syncMissingAct).run s)

/-- HOLD_RELEASE (R45). -/
def execHoldRelease (s : State) : Host.Outcome State Fault Refusal := .next ((row holdReleaseAct).run s)

/-- NOMINAL_APPLY (R40). -/
def execNominalApply (s : State) : Host.Outcome State Fault Refusal := .next ((row nominalApplyAct).run s)

/-- WHL_CTL_SRC_CHANGE (R69). -/
def execWhlCtlSrcChange (p : Path) (v : Word) (s : State) : Host.Outcome State Fault Refusal :=
  .next ((row (pathWrite p 0x180 v (whlCtlWrite p v))).run s)

/-- PTM_REQUEST (R58). -/
def execPtmRequest (p : Path) (s : State) : Host.Outcome State Fault Refusal := .next ((row (.ask fun s => pathWrite p 0x1B0 (BitVec.ofNat 32 (s.fld F.WHL_PTM_CTL_INTERVAL * 2 ^ 8 + 1)) ptmStart)).run s)

/-- PTM_INTERVAL (R58). -/
def execPtmInterval (s : State) : Host.Outcome State Fault Refusal := .next ((row ptmIntervalAct).run s)

/-- PTM_RESPONSED (R490). -/
def execPtmResponsed (hostTime : DWord) (s : State) : Host.Outcome State Fault Refusal :=
  .next ((row (ptmResponse hostTime)).run s)

/-- PTM_TIMEOUT (R490). -/
def execPtmTimeout (s : State) : Host.Outcome State Fault Refusal := .next ((row ptmTimeoutAct).run s)

/-- EMIT (R161). -/
def execEmit (c : Nat) (s : State) : Host.Outcome State Fault Refusal := .next ((row (descRow c 0x10 (emitBody c))).run s)

/-- SAMPLE (R162). -/
def execSample (c : Nat) (s : State) : Host.Outcome State Fault Refusal := .next ((row (descRow c 0x11 (sampleBody c))).run s)

/-- SAMPLE_STALE (R162). -/
def execSampleStale (c : Nat) (s : State) : Host.Outcome State Fault Refusal := .next ((row (sampleStale c)).run s)

/-- ACK_RECEIVED (R417). -/
def execAckReceived (l : Nat) (s : State) : Host.Outcome State Fault Refusal := .next ((row (ackReceived (l % 8))).run s)

/-- ACK_WINDOW_MISSED (R418). -/
def execAckWindowMissed (l : Nat) (s : State) : Host.Outcome State Fault Refusal := .next ((row (windowMissed (l % 8))).run s)

/-- LANE_FRAME_START (R230). -/
def execLaneFrameStart (l : Nat) (s : State) : Host.Outcome State Fault Refusal := .next ((row (frameStart (l % 8))).run s)

/-- PLACED_FRAME (R232). -/
def execPlacedFrame (l : Nat) (s : State) : Host.Outcome State Fault Refusal := .next ((row (placedFrame (l % 8))).run s)

/-- TURN_GRANT (R421). -/
def execTurnGrant (l : Nat) (s : State) : Host.Outcome State Fault Refusal := .next ((row (turnGrant (l % 8))).run s)

/-- TURN_LAPSE (R422). -/
def execTurnLapse (l : Nat) (s : State) : Host.Outcome State Fault Refusal := .next ((row (turnLapse (l % 8))).run s)

/-- TELEMETRY (R429). -/
def execTelemetry (l pc seq : Nat) (payload : List Byte) (s : State) : Host.Outcome State Fault Refusal :=
  .next ((row (rxIntact (l % 8) (pc % 16) 1 (seq % 8) (payload.take 31))).run s)

/-- REQUEST (R430). -/
def execRequest (l pc seq : Nat) (b : Byte) (s : State) : Host.Outcome State Fault Refusal :=
  .next ((row (rxIntact (l % 8) (pc % 16) 2 (seq % 8) [b])).run s)

/-- HELLO (R431). -/
def execHello (l pc seq : Nat) (payload : List Byte) (s : State) : Host.Outcome State Fault Refusal :=
  .next ((row (rxIntact (l % 8) (pc % 16) 3 (seq % 8) (payload.take 31))).run s)

/-- RX_ANSWER (R425). -/
def execRxAnswer (l : Nat) (s : State) : Host.Outcome State Fault Refusal := .next ((row (rxAnswer (l % 8))).run s)

/-- LANE_TRAINING (R431). -/
def execLaneTraining (l : Nat) (s : State) : Host.Outcome State Fault Refusal := .next ((row (laneTraining (l % 8))).run s)

/-- DISCOVER_END (R431). -/
def execDiscoverEnd (l : Nat) (s : State) : Host.Outcome State Fault Refusal := .next ((row (discoverEnd (l % 8))).run s)

/-- RETRAIN_TIMER (R431). -/
def execRetrainTimer (l : Nat) (s : State) : Host.Outcome State Fault Refusal := .next ((row (retrainTimer (l % 8))).run s)

/-- LAN_CTL_EN_CLEAR (R437). -/
def execLanCtlEnClear (p : Path) (l : Nat) (v : Word) (s : State) : Host.Outcome State Fault Refusal :=
  .next ((row (pathWrite p (0x800 + 32 * (l % 8)) v (lanCtlWrite p (l % 8) v))).run s)

/-- HOLD_FRAME (R434). -/
def execHoldFrame (l : Nat) (s : State) : Host.Outcome State Fault Refusal := .next ((row (holdFrame (l % 8))).run s)

/-- BAD_RX_FRAME (R427). -/
def execBadRxFrame (l : Nat) (b : BadFrame) (s : State) : Host.Outcome State Fault Refusal :=
  .next ((row (badFrameAct (l % 8) b)).run s)

/-- LANE_REINIT (R562). -/
def execLaneReinit (p : Path) (seq : Nat) (s : State) : Host.Outcome State Fault Refusal :=
  .next ((row (mailOp p 0x38 seq (laneReinit p))).run s)

/-- KND_REQUEST (R224). -/
def execKndRequest (mag : Nat) (dir : Bool) (s : State) : Host.Outcome State Fault Refusal :=
  .next ((row (kindleRequest (mag % 8) dir)).run s)

/-- KND_REQ_FALL (R247). -/
def execKndReqFall (s : State) : Host.Outcome State Fault Refusal := .next ((row kindleFall).run s)

/-- KND_MARK (R228). -/
def execKndMark (s : State) : Host.Outcome State Fault Refusal := .next ((row kindleMark).run s)

/-- KND_LOAD_GO (R242). -/
def execKndLoadGo (p : Path) (s : State) : Host.Outcome State Fault Refusal := .next ((row (pathWrite p 0x210 1 (kindleGo p))).run s)

/-- KND_LOAD_CHECKED (R243). -/
def execKndLoadChecked (s : State) : Host.Outcome State Fault Refusal := .next ((row kindleChecked).run s)

/-- KND_FLIP (R243). -/
def execKndFlip (s : State) : Host.Outcome State Fault Refusal := .next ((row kindleFlip).run s)

/-- WINDOW_END (R387). -/
def execWindowEnd (s : State) : Host.Outcome State Fault Refusal := .next ((row windowEndAct).run s)

/-- PHASE_CHANGE (R397). -/
def execPhaseChange (s : State) : Host.Outcome State Fault Refusal := .next ((row phaseChange).run s)

/-- PHASE_CHANGE_END (R397). -/
def execPhaseChangeEnd (s : State) : Host.Outcome State Fault Refusal := .next ((row phaseChangeEnd).run s)

/-- PMBUS_CURRENT_READ (R390). -/
def execPmbusCurrentRead (rail : Nat) (s : State) : Host.Outcome State Fault Refusal := .next ((row (pmbusRead rail)).run s)

/-- REVERT (R394). -/
def execRevert (p : Path) (s : State) : Host.Outcome State Fault Refusal := .next ((row (.ask fun s => pathWrite p 0x300 (s.word 0 0x300 ||| 4) revertAct)).run s)

/-- GOV_CTL_EN_SET (R395). -/
def execGovCtlEnSet (p : Path) (v : Word) (s : State) : Host.Outcome State Fault Refusal :=
  .next ((row (pathWrite p 0x300 v (govCtlWrite p v))).run s)

/-- CHAIR_TAKE_TIMEOUT (R338): of a parked CHAIR_TAKE, or of the governor's internal take. -/
def execChairTakeTimeout (chan : Option Nat) (s : State) : Host.Outcome State Fault Refusal :=
  .next ((row (when_ (!s.pwr.off) (match chan with
    | some c => chairTakeLimit c
    | none => govTakeLimit))).run s)

/-- PMB_XFER (R444). -/
def execPmbXfer (c : Nat) (s : State) : Host.Outcome State Fault Refusal := .next ((row (descRow c 0x12 (pmbBody c))).run s)

/-- PMB_TRANSACTION_END (R445): bit 4 of `cause` says that a bus clear went before the transaction (R451). -/
def execPmbTransactionEnd (port : Nat) (avs : Bool) (cause badByte : Nat) (data : List Byte) (s : State) :
    Host.Outcome State Fault Refusal :=
  .next ((row (transactionEnd (port % 2 + 2 * b2n avs) (cause % 16) (bitAt cause 4) badByte data)).run s)

/-- PMB_TIMEOUT (R450). -/
def execPmbTimeout (port : Nat) (s : State) : Host.Outcome State Fault Refusal :=
  .next ((row (transactionEnd (port % 2) 5 false 0 [])).run s)

/-- SMBALERT (R453). -/
def execSmbalert (port : Nat) (s : State) : Host.Outcome State Fault Refusal := .next ((row (alertFall (port % 2))).run s)

/-- SMBALERT_RELEASE (R453). -/
def execSmbalertRelease (port : Nat) (s : State) : Host.Outcome State Fault Refusal := .next ((row (alertRise (port % 2))).run s)

/-- WICK_EDGE (R457). -/
def execWickEdge (wick : Nat) (level : Bool) (s : State) : Host.Outcome State Fault Refusal :=
  .next ((row (when_ (!s.pwr.off && wick < 64) (padTo wick level))).run s)

/-- WCK_CFG_SWITCH (R459). -/
def execWckCfgSwitch (p : Path) (v : Word) (s : State) : Host.Outcome State Fault Refusal :=
  .next ((row (pathWrite p 0x384 v (wckCfgWrite v))).run s)

/-- PARK_END (R459). -/
def execParkEnd (pin : Nat) (s : State) : Host.Outcome State Fault Refusal := .next ((row (parkEndAct (pin % 64))).run s)

end Sys2Proof.Machine
end

