-- ==== Sys2Proof/Machine/RowsZheyn.lean ====
section
/-!
DEFINITION. The meanings of the rows of the Zheyn link: one definition for each constructor of Instr.
-/

namespace Sys2Proof.Machine

/-- ZHN_HELLO (R500). -/
def execZhnHello (h : ZHdr) (master cand : Bool) (mask : Nat) (s : State) : Host.Outcome State Fault Refusal :=
  .next ((row (helloRecv h master cand mask)).run s)

/-- HELLO_TIMER (R500). -/
def execHelloTimer (s : State) : Host.Outcome State Fault Refusal := .next ((row helloTimerAct).run s)

/-- PEER_LOST (R517). -/
def execPeerLost (peer : Nat) (s : State) : Host.Outcome State Fault Refusal := .next ((row (peerLostAct peer)).run s)

/-- PING (R507). -/
def execPing (port : Nat) (received : Bool) (turn8 : Nat) (s : State) : Host.Outcome State Fault Refusal :=
  .next ((row (pingAct port received turn8)).run s)

/-- PONG (R507). -/
def execPong (port trip8 turn8 : Nat) (s : State) : Host.Outcome State Fault Refusal := .next ((row (pongAct port trip8 turn8)).run s)

/-- MARK (R508). -/
def execMark (h : ZHdr) (wt : WTime) (corr8 : Nat) (s : State) : Host.Outcome State Fault Refusal :=
  .next ((row (markRecv h wt corr8)).run s)

/-- MARK_SEND (R506). -/
def execMarkSend (s : State) : Host.Outcome State Fault Refusal := .next ((row markSendAct).run s)

/-- MEM_RD (R510). -/
def execMemRd (h : ZHdr) (m : ZMem) (s : State) : Host.Outcome State Fault Refusal := .next ((row (memRdRecv h m)).run s)

/-- MEM_WR (R510). -/
def execMemWr (h : ZHdr) (m : ZMem) (data : List Byte) (s : State) : Host.Outcome State Fault Refusal :=
  .next ((row (memWrRecv h m data)).run s)

/-- MEM_RSP (R511). -/
def execMemRsp (h : ZHdr) (status : Nat) (data : List Byte) (s : State) : Host.Outcome State Fault Refusal :=
  .next ((row (memRspRecv h status data)).run s)

/-- PEER_RESPONSE_TIMEOUT (R511). -/
def execPeerResponseTimeout (opId : Nat) (s : State) : Host.Outcome State Fault Refusal := .next ((row (rspTimeoutAct opId)).run s)

/-- FEN_OP (R512). -/
def execFenOp (h : ZHdr) (idx : Nat) (op : FenOp) (s : State) : Host.Outcome State Fault Refusal :=
  .next ((row (fenOpRecv h idx op)).run s)

/-- FEN_UPD (R377). -/
def execFenUpd (h : ZHdr) (idx : Nat) (v : DWord) (destroyed : Bool) (s : State) : Host.Outcome State Fault Refusal :=
  .next ((row (fenUpdRecv h idx v destroyed)).run s)

/-- FEN_RSP (R512). -/
def execFenRsp (h : ZHdr) (status : Nat) (v : DWord) (s : State) : Host.Outcome State Fault Refusal :=
  .next ((row (fenRspRecv h status v)).run s)

/-- CHR_OP (R513). -/
def execChrOp (h : ZHdr) (n mid tag : Nat) (i : WTime) (op : ChrOp) (s : State) : Host.Outcome State Fault Refusal :=
  .next ((row (chrOpRecv h n mid tag i op)).run s)

/-- CHR_RSP (R513). -/
def execChrRsp (h : ZHdr) (n : Nat) (w : Word) (s : State) : Host.Outcome State Fault Refusal := .next ((row (chrRspRecv h n w)).run s)

/-- CHR_UPD (R513). -/
def execChrUpd (h : ZHdr) (n : Nat) (w : Word) (s : State) : Host.Outcome State Fault Refusal := .next ((row (chrUpdRecv h n w)).run s)

/-- ERR (R514). -/
def execErr (h : ZHdr) (entry : List Byte) (s : State) : Host.Outcome State Fault Refusal := .next ((row (errRecv h entry)).run s)

/-- ZHN_RESEND (R502). -/
def execZhnResend (port : Nat) (s : State) : Host.Outcome State Fault Refusal := .next ((row (resendAct port)).run s)

/-- ZHN_ACK (R502). -/
def execZhnAck (port lseq : Nat) (s : State) : Host.Outcome State Fault Refusal := .next ((row (zAckAct port lseq)).run s)

/-- ZHN_PORT_TRAINING (R500). -/
def execZhnPortTraining (port : Nat) (s : State) : Host.Outcome State Fault Refusal := .next ((row (portTrainAct port)).run s)

/-- ZHN_LOCK_LOSS (R517). -/
def execZhnLockLoss (port : Nat) (s : State) : Host.Outcome State Fault Refusal := .next ((row (lockLossAct port)).run s)

/-- ZHN_BAD_PACKET (R502). -/
def execZhnBadPacket (b : BadArrival) (s : State) : Host.Outcome State Fault Refusal :=
  .next ((row (badPacketAct b.port b.bad)).run s)

end Sys2Proof.Machine
end

