-- ==== Sys2Proof/Machine/Dispatch.lean ====
section
/-!
DEFINITION. The one dispatch: each command to its meaning.  Host reads it arm by arm.
-/

namespace Sys2Proof.Machine

def exec (i : Instr) (s : State) : Host.Outcome State Fault Refusal :=
  match i with
  | .scpRead r => Sys2Proof.Machine.execScpRead r s
  | .scpReadFixed frame => Sys2Proof.Machine.execScpReadFixed frame s
  | .scpWrite frame => Sys2Proof.Machine.execScpWrite frame s
  | .scpWriteFixed frame => Sys2Proof.Machine.execScpWriteFixed frame s
  | .scpCsRise bytes => Sys2Proof.Machine.execScpCsRise bytes s
  | .registerWrite p off v x => Sys2Proof.Machine.execRegisterWrite p off v x s
  | .counterClear p off v be => Sys2Proof.Machine.execCounterClear p off v be s
  | .whlTimeLoRead p => Sys2Proof.Machine.execWhlTimeLoRead p s
  | .fenValLoRead p => Sys2Proof.Machine.execFenValLoRead p s
  | .winDataRead p => Sys2Proof.Machine.execWinDataRead p s
  | .winDataWrite p v => Sys2Proof.Machine.execWinDataWrite p v s
  | .winReadTimeout p => Sys2Proof.Machine.execWinReadTimeout p s
  | .cmdWaitRead p => Sys2Proof.Machine.execCmdWaitRead p s
  | .cmdWaitTimeout p => Sys2Proof.Machine.execCmdWaitTimeout p s
  | .ctxCreate p seq => Sys2Proof.Machine.execCtxCreate p seq s
  | .ctxDestroy p seq => Sys2Proof.Machine.execCtxDestroy p seq s
  | .ctxTeardownComplete ctx => Sys2Proof.Machine.execCtxTeardownComplete ctx s
  | .ctxReinit p seq => Sys2Proof.Machine.execCtxReinit p seq s
  | .queueCreate p seq => Sys2Proof.Machine.execQueueCreate p seq s
  | .queueDestroy p seq => Sys2Proof.Machine.execQueueDestroy p seq s
  | .chanCreate p seq => Sys2Proof.Machine.execChanCreate p seq s
  | .chanDestroy p seq => Sys2Proof.Machine.execChanDestroy p seq s
  | .chanReinit p seq => Sys2Proof.Machine.execChanReinit p seq s
  | .memCreate p seq => Sys2Proof.Machine.execMemCreate p seq s
  | .memDestroy p seq => Sys2Proof.Machine.execMemDestroy p seq s
  | .ref p seq => Sys2Proof.Machine.execRef p seq s
  | .unref p seq => Sys2Proof.Machine.execUnref p seq s
  | .fenceCreate p seq => Sys2Proof.Machine.execFenceCreate p seq s
  | .fenceDestroy p seq => Sys2Proof.Machine.execFenceDestroy p seq s
  | .fenceExport p seq => Sys2Proof.Machine.execFenceExport p seq s
  | .fenceImport p seq => Sys2Proof.Machine.execFenceImport p seq s
  | .stageMap p seq => Sys2Proof.Machine.execStageMap p seq s
  | .stageUnmap p seq => Sys2Proof.Machine.execStageUnmap p seq s
  | .chairtabOpen p seq => Sys2Proof.Machine.execChairtabOpen p seq s
  | .laneReinit p seq => Sys2Proof.Machine.execLaneReinit p seq s
  | .engineReinit p seq => Sys2Proof.Machine.execEngineReinit p seq s
  | .badOp p op seq => Sys2Proof.Machine.execBadOp p op seq s
  | .mailboxDone p => Sys2Proof.Machine.execMailboxDone p s
  | .devStopDrain p chan gen => Sys2Proof.Machine.execDevStopDrain p chan gen s
  | .devStopHalt p chan gen => Sys2Proof.Machine.execDevStopHalt p chan gen s
  | .devStopAbort p chan gen => Sys2Proof.Machine.execDevStopAbort p chan gen s
  | .haltAtBurstBoundary chan => Sys2Proof.Machine.execHaltAtBurstBoundary chan s
  | .devResetKey v => Sys2Proof.Machine.execDevResetKey v s
  | .deviceReset => Sys2Proof.Machine.execDeviceReset s
  | .devPwrcycKey v => Sys2Proof.Machine.execDevPwrcycKey v s
  | .pwrcycReq => Sys2Proof.Machine.execPwrcycReq s
  | .standbyEntry => Sys2Proof.Machine.execStandbyEntry s
  | .standbyExit => Sys2Proof.Machine.execStandbyExit s
  | .devSqDb v => Sys2Proof.Machine.execDevSqDb v s
  | .devCqDb v => Sys2Proof.Machine.execDevCqDb v s
  | .tlbInvalidate p v => Sys2Proof.Machine.execTlbInvalidate p v s
  | .tlbInvalidateDone => Sys2Proof.Machine.execTlbInvalidateDone s
  | .regionSelect p idx => Sys2Proof.Machine.execRegionSelect p idx s
  | .regionCommit p idx => Sys2Proof.Machine.execRegionCommit p idx s
  | .prtShdDataWrite p v => Sys2Proof.Machine.execPrtShdDataWrite p v s
  | .prtShdDataRead p => Sys2Proof.Machine.execPrtShdDataRead p s
  | .prtShdFill p v => Sys2Proof.Machine.execPrtShdFill p v s
  | .shadeFillDone => Sys2Proof.Machine.execShadeFillDone s
  | .protUnitEnable p v => Sys2Proof.Machine.execProtUnitEnable p v s
  | .disabledStallTimeout chan => Sys2Proof.Machine.execDisabledStallTimeout chan s
  | .kndRequest mag dir => Sys2Proof.Machine.execKndRequest mag dir s
  | .kndReqFall => Sys2Proof.Machine.execKndReqFall s
  | .kndMark => Sys2Proof.Machine.execKndMark s
  | .placedFrame lane => Sys2Proof.Machine.execPlacedFrame lane s
  | .kndLoadGo p => Sys2Proof.Machine.execKndLoadGo p s
  | .kndLoadChecked => Sys2Proof.Machine.execKndLoadChecked s
  | .kndFlip => Sys2Proof.Machine.execKndFlip s
  | .syncEdge e => Sys2Proof.Machine.execSyncEdge e s
  | .syncMissing => Sys2Proof.Machine.execSyncMissing s
  | .holdRelease => Sys2Proof.Machine.execHoldRelease s
  | .nominalApply => Sys2Proof.Machine.execNominalApply s
  | .whlCtlSrcChange p v => Sys2Proof.Machine.execWhlCtlSrcChange p v s
  | .lamplighterFire => Sys2Proof.Machine.execLamplighterFire s
  | .lamplighterArm => Sys2Proof.Machine.execLamplighterArm s
  | .markSend => Sys2Proof.Machine.execMarkSend s
  | .ptmRequest p => Sys2Proof.Machine.execPtmRequest p s
  | .ptmInterval => Sys2Proof.Machine.execPtmInterval s
  | .ptmResponsed hostTime => Sys2Proof.Machine.execPtmResponsed hostTime s
  | .ptmTimeout => Sys2Proof.Machine.execPtmTimeout s
  | .sqDb ctx slot v be => Sys2Proof.Machine.execSqDb ctx slot v be s
  | .cqDb ctx slot v be => Sys2Proof.Machine.execCqDb ctx slot v be s
  | .fenceKick ctx v be => Sys2Proof.Machine.execFenceKick ctx v be s
  | .ctxRef ctx v be => Sys2Proof.Machine.execCtxRef ctx v be s
  | .ctxUnref ctx v be => Sys2Proof.Machine.execCtxUnref ctx v be s
  | .submissionEntryRead queue entry => Sys2Proof.Machine.execSubmissionEntryRead queue entry s
  | .bar4Read addr len => Sys2Proof.Machine.execBar4Read addr len s
  | .bar4Write addr data be poison => Sys2Proof.Machine.execBar4Write addr data be poison s
  | .barUnsupportedRequest write => Sys2Proof.Machine.execBarUnsupportedRequest write s
  | .hostCompletion tag status poison data => Sys2Proof.Machine.execHostCompletion tag status poison data s
  | .completionTimeout tag => Sys2Proof.Machine.execCompletionTimeout tag s
  | .msixSend vec => Sys2Proof.Machine.execMsixSend vec s
  | .functionResetStart cause => Sys2Proof.Machine.execFunctionResetStart cause s
  | .functionResetEnd cfg => Sys2Proof.Machine.execFunctionResetEnd cfg s
  | .engineDispatch engine => Sys2Proof.Machine.execEngineDispatch engine s
  | .burstLimitExpiry engine => Sys2Proof.Machine.execBurstLimitExpiry engine s
  | .snufferBite res owner => Sys2Proof.Machine.execSnufferBite res owner s
  | .descriptorFetch chan => Sys2Proof.Machine.execDescriptorFetch chan s
  | .copy chan bursts => Sys2Proof.Machine.execCopy chan bursts s
  | .fill chan bursts => Sys2Proof.Machine.execFill chan bursts s
  | .gather chan bursts => Sys2Proof.Machine.execGather chan bursts s
  | .scatter chan bursts => Sys2Proof.Machine.execScatter chan bursts s
  | .emit chan => Sys2Proof.Machine.execEmit chan s
  | .sample chan => Sys2Proof.Machine.execSample chan s
  | .pmbXfer chan => Sys2Proof.Machine.execPmbXfer chan s
  | .waitWheel chan => Sys2Proof.Machine.execWaitWheel chan s
  | .waitFence chan => Sys2Proof.Machine.execWaitFence chan s
  | .signal chan => Sys2Proof.Machine.execSignal chan s
  | .waitWick chan => Sys2Proof.Machine.execWaitWick chan s
  | .chairTake chan => Sys2Proof.Machine.execChairTake chan s
  | .chairGive chan => Sys2Proof.Machine.execChairGive chan s
  | .alloc chan => Sys2Proof.Machine.execAlloc chan s
  | .free chan => Sys2Proof.Machine.execFree chan s
  | .nop chan => Sys2Proof.Machine.execNop chan s
  | .jump chan => Sys2Proof.Machine.execJump chan s
  | .loop chan => Sys2Proof.Machine.execLoop chan s
  | .cupboardOperationEnd => Sys2Proof.Machine.execCupboardOperationEnd s
  | .scrubDone => Sys2Proof.Machine.execScrubDone s
  | .descriptorComplete chan => Sys2Proof.Machine.execDescriptorComplete chan s
  | .completionRecordWrite queue => Sys2Proof.Machine.execCompletionRecordWrite queue s
  | .ctxLossUnwind ctx => Sys2Proof.Machine.execCtxLossUnwind ctx s
  | .chrSit p n tag => Sys2Proof.Machine.execChrSit p n tag s
  | .chrGive p n => Sys2Proof.Machine.execChrGive p n s
  | .chrWaitRead p n => Sys2Proof.Machine.execChrWaitRead p n s
  | .chrWaitTimeout p => Sys2Proof.Machine.execChrWaitTimeout p s
  | .chairTakeTimeout chan => Sys2Proof.Machine.execChairTakeTimeout chan s
  | .ackReceived lane => Sys2Proof.Machine.execAckReceived lane s
  | .ackWindowMissed lane => Sys2Proof.Machine.execAckWindowMissed lane s
  | .laneFrameStart lane => Sys2Proof.Machine.execLaneFrameStart lane s
  | .turnGrant lane => Sys2Proof.Machine.execTurnGrant lane s
  | .turnLapse lane => Sys2Proof.Machine.execTurnLapse lane s
  | .telemetry lane pc seq payload => Sys2Proof.Machine.execTelemetry lane pc seq payload s
  | .request lane pc seq payload => Sys2Proof.Machine.execRequest lane pc seq payload s
  | .hello lane pc seq payload => Sys2Proof.Machine.execHello lane pc seq payload s
  | .rxAnswer lane => Sys2Proof.Machine.execRxAnswer lane s
  | .laneTraining lane => Sys2Proof.Machine.execLaneTraining lane s
  | .discoverEnd lane => Sys2Proof.Machine.execDiscoverEnd lane s
  | .retrainTimer lane => Sys2Proof.Machine.execRetrainTimer lane s
  | .lanCtlEnClear p lane v => Sys2Proof.Machine.execLanCtlEnClear p lane v s
  | .holdFrame lane => Sys2Proof.Machine.execHoldFrame lane s
  | .windowEnd => Sys2Proof.Machine.execWindowEnd s
  | .phaseChange => Sys2Proof.Machine.execPhaseChange s
  | .phaseChangeEnd => Sys2Proof.Machine.execPhaseChangeEnd s
  | .pmbusCurrentRead rail => Sys2Proof.Machine.execPmbusCurrentRead rail s
  | .revert p => Sys2Proof.Machine.execRevert p s
  | .govCtlEnSet p v => Sys2Proof.Machine.execGovCtlEnSet p v s
  | .wickEdge wick level => Sys2Proof.Machine.execWickEdge wick level s
  | .wckCfgSwitch p v => Sys2Proof.Machine.execWckCfgSwitch p v s
  | .parkEnd pin => Sys2Proof.Machine.execParkEnd pin s
  | .pmbTransactionEnd port avs cause badByte data => Sys2Proof.Machine.execPmbTransactionEnd port avs cause badByte data s
  | .pmbTimeout port => Sys2Proof.Machine.execPmbTimeout port s
  | .smbalert port => Sys2Proof.Machine.execSmbalert port s
  | .zhnHello h master cand mask => Sys2Proof.Machine.execZhnHello h master cand mask s
  | .helloTimer => Sys2Proof.Machine.execHelloTimer s
  | .peerLost peer => Sys2Proof.Machine.execPeerLost peer s
  | .ping port received turnaround8 => Sys2Proof.Machine.execPing port received turnaround8 s
  | .pong port roundTrip8 turnaround8 => Sys2Proof.Machine.execPong port roundTrip8 turnaround8 s
  | .mark h wt corr8 => Sys2Proof.Machine.execMark h wt corr8 s
  | .memRd h m => Sys2Proof.Machine.execMemRd h m s
  | .memWr h m data => Sys2Proof.Machine.execMemWr h m data s
  | .memRsp h status data => Sys2Proof.Machine.execMemRsp h status data s
  | .peerResponseTimeout opId => Sys2Proof.Machine.execPeerResponseTimeout opId s
  | .fenOp h idx op => Sys2Proof.Machine.execFenOp h idx op s
  | .fenUpd h idx value destroyed => Sys2Proof.Machine.execFenUpd h idx value destroyed s
  | .fenRsp h status value => Sys2Proof.Machine.execFenRsp h status value s
  | .chrOp h chair mid tag issue op => Sys2Proof.Machine.execChrOp h chair mid tag issue op s
  | .chrRsp h chair state => Sys2Proof.Machine.execChrRsp h chair state s
  | .chrUpd h chair state => Sys2Proof.Machine.execChrUpd h chair state s
  | .err h entry => Sys2Proof.Machine.execErr h entry s
  | .zhnResend port => Sys2Proof.Machine.execZhnResend port s
  | .zhnAck port lseq => Sys2Proof.Machine.execZhnAck port lseq s
  | .pwrfail => Sys2Proof.Machine.execPwrfail s
  | .pwrfailDrained => Sys2Proof.Machine.execPwrfailDrained s
  | .pwrfailDrainMark => Sys2Proof.Machine.execPwrfailDrainMark s
  | .coldReset straps => Sys2Proof.Machine.execColdReset straps s
  | .supplyTrip => Sys2Proof.Machine.execSupplyTrip s
  | .warmReset lowNs straps => Sys2Proof.Machine.execWarmReset lowNs straps s
  | .init => Sys2Proof.Machine.execInit s
  | .bootHeaderRead bytes => Sys2Proof.Machine.execBootHeaderRead bytes s
  | .bootBodyRead bytes => Sys2Proof.Machine.execBootBodyRead bytes s
  | .bootCtlGo p => Sys2Proof.Machine.execBootCtlGo p s
  | .bootCheckDone => Sys2Proof.Machine.execBootCheckDone s
  | .bootApplyDone => Sys2Proof.Machine.execBootApplyDone s
  | .bootRetry => Sys2Proof.Machine.execBootRetry s
  | .otpProgram p v => Sys2Proof.Machine.execOtpProgram p v s
  | .otpBurnDone => Sys2Proof.Machine.execOtpBurnDone s
  | .cupPoolWrite p v => Sys2Proof.Machine.execCupPoolWrite p v s
  | .errRdWrite p v => Sys2Proof.Machine.execErrRdWrite p v s
  | .traceFreeze p v => Sys2Proof.Machine.execTraceFreeze p v s
  | .traceThaw p v => Sys2Proof.Machine.execTraceThaw p v s
  | .clockFailure => Sys2Proof.Machine.execClockFailure s
  | .sampleStale chan => Sys2Proof.Machine.execSampleStale chan s
  | .wcbIdleFlush engine => Sys2Proof.Machine.execWcbIdleFlush engine s
  | .zhnPortTraining port => Sys2Proof.Machine.execZhnPortTraining port s
  | .zhnLockLoss port => Sys2Proof.Machine.execZhnLockLoss port s
  | .zhnBadPacket b => Sys2Proof.Machine.execZhnBadPacket b s
  | .badRxFrame lane b => Sys2Proof.Machine.execBadRxFrame lane b s
  | .smbalertRelease port => Sys2Proof.Machine.execSmbalertRelease port s
  | .standbyEntered => Sys2Proof.Machine.execStandbyEntered s

end Sys2Proof.Machine
end

