-- ==== Sys2Proof/Machine/Tick.lean ====
section
/-!
DEFINITION. What one core clock does when no command waits: wheel time, the counts of clocks, a shade fill and the writeback
queues advance, a bite that is due falls (R215), the books are compared (R301), and one posted write leaves on a trained host
link (log 2).
-/

namespace Sys2Proof.Machine

/-! ### The books (R301, R306, Table STG-3) -/

/-- A book whose two copies differ: the event bit, once, with the entry that names the quantity and its holder (R306). -/
def bookBad (f : Fld) (holder : Nat) (differs : Bool) : Act := .ask fun s =>
  when_ (differs && !s.flag f) (acts [event f, postPlain 0x08 0 (2 ^ f.lo) holder])

/-- Frames that hold a credit of a phase controller. -/
def Lane.holders (x : Lane) (pc : Nat) : List TxFrame :=
  ((x.tx.map Prod.fst).toList ++ x.resend ++ x.unacked).filter (·.pc == pc)

/-- A trained lane with no frame out to a phase controller has all its credits; between an SOF and its answer the book need not
balance. -/
def Lane.creditOk (x : Lane) (pc : Nat) : Bool := x.st != .trained || !(x.holders pc).isEmpty || x.credit pc == 4

/-- Lines of a WCB that hold bytes. -/
def Engine.wcbLines (x : Engine) : Nat := (x.wcb.filter (·.mask != 0)).length

/-- The count of each book is compared with the sum of its holders. -/
def bookCheck : Act := .ask fun s => acts [
  forEach (List.range 128) fun i => bookBad F.DEV_BOOK_EVT_CREDIT i (!(s.lane (i / 16)).creditOk (i % 16)),
  bookBad F.DEV_BOOK_EVT_TAG 0 (s.host.tagsUsed != s.host.reads.length),
  forEach (List.range 17) fun b => bookBad F.DEV_BOOK_EVT_TOKEN b
    (decide (s.clk ≤ (s.fport (resOfBank b)).out ∧ s.clk != 0) != (s.tokenAt (resOfBank b)).isSome),
  forEach (List.range 4) fun e => bookBad F.DEV_BOOK_EVT_WCB e ((s.engine e).wcbUsed != (s.engine e).wcbLines),
  forEach s.chanList fun c => bookBad F.DEV_BOOK_EVT_PEND c ((s.chan c).pend != (s.chan c).subs.length),
  bookBad F.DEV_BOOK_EVT_LL 0 (s.lamp.used != s.lamp.entries.length),
  bookBad F.DEV_BOOK_EVT_DESC 0 (s.descUsed != (s.descBlocks.map Prod.snd).sum)]

/-! ### The tick -/

/-- Everything one idle core clock does. -/
def tickAct : Act := .ask fun s => when_ (!s.pwr.off) <| acts [
  tickBy 1, dueBites, bookCheck, .ask fun s => when_ s.host.link (modHost (HostLink.sendOne s.clk))]

/-- The state one idle core clock later. -/
def tick (s : State) : State := tickAct.run s

end Sys2Proof.Machine
end

