-- ==== Sys2Proof/WellFormed.lean ====
section
/-!
DEFINITION. Which commands are well formed: every operand in the range its rule or table gives it.  `exec` is total and
needs none of it; an operand out of range names nothing and the command then has no effect.
-/

namespace Sys2Proof

/-- A control-port frame of an OP: a command byte with that OP, and at most 16 words behind the address (R77, R79). -/
def frameWf (op : Nat) (f : List Byte) : Bool :=
  f.length ≤ 68 && (match f with
    | c :: _ => c.toNat / 16 == op
    | [] => false)

/-- A register offset, or a dword of the MSI-X table of BAR0 (R586, R476). -/
def offWf (p : Path) (off : Nat) : Bool :=
  off % 4 == 0 && (off < 0xC00 || (p == .bar0 && 0x1000 ≤ off && off < 0x1410))

/-- A read request of BAR0 or BAR2: dwords inside the BAR's 64 KiB, at most 1024 of them (R473, R475). -/
def ReadReq.wf (r : ReadReq) : Bool :=
  r.off % 4 == 0 && r.off + 4 * r.n ≤ 0x10000 && 1 ≤ r.n && r.n ≤ 1024 && r.fbe < 16 && r.lbe < 16

/-- A received packet's header (Table ZHN-3). -/
def ZHdr.wf (h : ZHdr) : Bool :=
  h.port < 2 && (h.dst < 4 || h.dst == 7) && h.src < 4 && h.hops < 4 && h.lseq < 256 && h.opId < 65536

/-- The body of MEM_RD and MEM_WR (Table ZHN-4): a selector of Table DSC-3 a peer may name, and 1 to 64 bytes. -/
def ZMem.wf (m : ZMem) : Bool :=
  (m.sel == 1 || m.sel == 2) && m.offset < 2 ^ 24 && m.mid < 256 && m.key < 16 && m.tier < 4 && 1 ≤ m.len && m.len ≤ 64

/-- The straps (R526). -/
def Straps.wf (x : Straps) : Bool := x.bootSrc < 4 && x.peerId < 4

/-- The opcodes of Table SCP-5. -/
def mailboxOps : List Nat :=
  [0x01, 0x02, 0x03, 0x08, 0x09, 0x10, 0x11, 0x12, 0x18, 0x19, 0x1A, 0x1B, 0x20, 0x21, 0x22, 0x23, 0x28, 0x29, 0x30, 0x38, 0x39]

/-- Who holds a bitten grant. -/
def BiteOwner.wf : BiteOwner → Bool
  | .chan c => c < 256
  | .window _ => true
  | .hostIn _ => true
  | .zhnIn h => h.wf
  | .governor => true
  | .internal => true

/-- How a received frame is bad. -/
def BadFrame.wf : BadFrame → Bool
  | .frame chars crc => crc < 65536 && chars.length == 3 + (chars.getD 2 0).toNat % 32
  | .code => true
  | .abort => true

/-- Every operand of a command is in its range. -/
def Instr.wf : Instr → Bool
  | .scpRead r => (match r with
      | .frame f => frameWf 3 f
      | .bar q => q.wf)
  | .scpReadFixed f => frameWf 4 f
  | .scpWrite f => frameWf 1 f
  | .scpWriteFixed f => frameWf 2 f
  | .scpCsRise bytes => bytes.length ≤ 68
  | .registerWrite p off _ x => offWf p off && x.be < 32 && x.more.length < 16 && x.more.all (fun m => m.2 < 16)
  | .counterClear p off _ be => offWf p off && be < 32 && (match Machine.regFind off with
      | some r => r.clr
      | none => false)
  | .whlTimeLoRead _ => true
  | .fenValLoRead _ => true
  | .winDataRead _ => true
  | .winDataWrite _ _ => true
  | .winReadTimeout _ => true
  | .cmdWaitRead _ => true
  | .cmdWaitTimeout _ => true
  | .ctxCreate _ seq => seq < 256
  | .ctxDestroy _ seq => seq < 256
  | .ctxTeardownComplete ctx => ctx < 64
  | .ctxReinit _ seq => seq < 256
  | .queueCreate _ seq => seq < 256
  | .queueDestroy _ seq => seq < 256
  | .chanCreate _ seq => seq < 256
  | .chanDestroy _ seq => seq < 256
  | .chanReinit _ seq => seq < 256
  | .memCreate _ seq => seq < 256
  | .memDestroy _ seq => seq < 256
  | .ref _ seq => seq < 256
  | .unref _ seq => seq < 256
  | .fenceCreate _ seq => seq < 256
  | .fenceDestroy _ seq => seq < 256
  | .fenceExport _ seq => seq < 256
  | .fenceImport _ seq => seq < 256
  | .stageMap _ seq => seq < 256
  | .stageUnmap _ seq => seq < 256
  | .chairtabOpen _ seq => seq < 256
  | .laneReinit _ seq => seq < 256
  | .engineReinit _ seq => seq < 256
  | .badOp _ op seq => op < 256 && seq < 256 && !mailboxOps.contains op
  | .mailboxDone _ => true
  | .devStopDrain _ chan gen => chan < 256 && gen < 4096
  | .devStopHalt _ chan gen => chan < 256 && gen < 4096
  | .devStopAbort _ chan gen => chan < 256 && gen < 4096
  | .haltAtBurstBoundary chan => chan < 256
  | .devResetKey _ => true
  | .deviceReset => true
  | .devPwrcycKey _ => true
  | .pwrcycReq => true
  | .standbyEntry => true
  | .standbyExit => true
  | .devSqDb _ => true
  | .devCqDb _ => true
  | .tlbInvalidate _ _ => true
  | .tlbInvalidateDone => true
  | .regionSelect _ idx => idx < 32
  | .regionCommit _ idx => idx < 32
  | .prtShdDataWrite _ _ => true
  | .prtShdDataRead _ => true
  | .prtShdFill _ _ => true
  | .shadeFillDone => true
  | .protUnitEnable _ _ => true
  | .disabledStallTimeout chan => (match chan with
      | some c => c < 256
      | none => true)
  | .kndRequest mag _ => mag < 8
  | .kndReqFall => true
  | .kndMark => true
  | .placedFrame lane => lane < 8
  | .kndLoadGo _ => true
  | .kndLoadChecked => true
  | .kndFlip => true
  | .syncEdge _ => true
  | .syncMissing => true
  | .holdRelease => true
  | .nominalApply => true
  | .whlCtlSrcChange _ _ => true
  | .lamplighterFire => true
  | .lamplighterArm => true
  | .markSend => true
  | .ptmRequest _ => true
  | .ptmInterval => true
  | .ptmResponsed _ => true
  | .ptmTimeout => true
  | .sqDb ctx slot _ be => ctx < 64 && slot < 256 && be < 32
  | .cqDb ctx slot _ be => ctx < 64 && slot < 256 && be < 32
  | .fenceKick ctx _ be => ctx < 64 && be < 32
  | .ctxRef ctx _ be => ctx < 64 && be < 32
  | .ctxUnref ctx _ be => ctx < 64 && be < 32
  | .submissionEntryRead queue entry => queue < 1024 && (entry.length == 16 || entry.isEmpty)
  | .bar4Read addr len => addr + len ≤ 0x200000 && 1 ≤ len
  | .bar4Write addr data be _ => addr + data.length ≤ 0x200000 && be.length == data.length
  | .barUnsupportedRequest _ => true
  | .hostCompletion tag status _ _ => tag < 256 && status < 8
  | .completionTimeout tag => tag < 256
  | .msixSend vec => vec < 65
  | .functionResetStart cause => cause < 5
  | .functionResetEnd cfg => cfg.gen < 16 && cfg.width < 16 && cfg.mps < 8 && cfg.mrrs < 8
  | .engineDispatch engine => engine < 4
  | .burstLimitExpiry engine => engine < 4
  | .snufferBite res owner => res < 256 && owner.wf
  | .descriptorFetch chan => chan < 256
  | .copy chan _ => chan < 256
  | .fill chan _ => chan < 256
  | .gather chan _ => chan < 256
  | .scatter chan _ => chan < 256
  | .emit chan => chan < 256
  | .sample chan => chan < 256
  | .pmbXfer chan => chan < 256
  | .waitWheel chan => chan < 256
  | .waitFence chan => chan < 256
  | .signal chan => chan < 256
  | .waitWick chan => chan < 256
  | .chairTake chan => chan < 256
  | .chairGive chan => chan < 256
  | .alloc chan => chan < 256
  | .free chan => chan < 256
  | .nop chan => chan < 256
  | .jump chan => chan < 256
  | .loop chan => chan < 256
  | .cupboardOperationEnd => true
  | .scrubDone => true
  | .descriptorComplete chan => chan < 256
  | .completionRecordWrite queue => queue < 1024
  | .ctxLossUnwind ctx => ctx < 64
  | .chrSit _ n tag => n < 128 && tag < 65536
  | .chrGive _ n => n < 128
  | .chrWaitRead _ n => n < 128
  | .chrWaitTimeout _ => true
  | .chairTakeTimeout chan => (match chan with
      | some c => c < 256
      | none => true)
  | .ackReceived lane => lane < 8
  | .ackWindowMissed lane => lane < 8
  | .laneFrameStart lane => lane < 8
  | .turnGrant lane => lane < 8
  | .turnLapse lane => lane < 8
  | .telemetry lane pc seq payload => lane < 8 && pc < 16 && seq < 8 && payload.length ≤ 16
  | .request lane pc seq _ => lane < 8 && pc < 16 && seq < 8
  | .hello lane pc seq payload => lane < 8 && pc < 16 && seq < 8 && payload.length ≤ 16
  | .rxAnswer lane => lane < 8
  | .laneTraining lane => lane < 8
  | .discoverEnd lane => lane < 8
  | .retrainTimer lane => lane < 8
  | .lanCtlEnClear _ lane _ => lane < 8
  | .holdFrame lane => lane < 8
  | .windowEnd => true
  | .phaseChange => true
  | .phaseChangeEnd => true
  | .pmbusCurrentRead rail => rail < 16
  | .revert _ => true
  | .govCtlEnSet _ _ => true
  | .wickEdge wick _ => wick < 64
  | .wckCfgSwitch _ _ => true
  | .parkEnd pin => pin < 64
  | .pmbTransactionEnd port _ cause _ _ => port < 2 && cause < 32
  | .pmbTimeout port => port < 4
  | .smbalert port => port < 4
  | .zhnHello h _ _ mask => h.wf && mask < 16
  | .helloTimer => true
  | .peerLost peer => peer < 4
  | .ping port _ _ => port < 2
  | .pong port _ _ => port < 2
  | .mark h _ _ => h.wf
  | .memRd h m => h.wf && m.wf
  | .memWr h m data => h.wf && m.wf && data.length == m.len
  | .memRsp h _ data => h.wf && data.length ≤ 64
  | .peerResponseTimeout opId => opId < 65536
  | .fenOp h idx _ => h.wf && idx < 4096
  | .fenUpd h idx _ _ => h.wf && idx < 4096
  | .fenRsp h status _ => h.wf && status < 3
  | .chrOp h chair mid tag _ _ => h.wf && chair < 128 && mid < 256 && tag < 65536
  | .chrRsp h chair _ => h.wf && chair < 128
  | .chrUpd h chair _ => h.wf && chair < 128
  | .err h entry => h.wf && entry.length == 32
  | .zhnResend port => port < 2
  | .zhnAck port lseq => port < 2 && lseq < 256
  | .pwrfail => true
  | .pwrfailDrained => true
  | .pwrfailDrainMark => true
  | .coldReset straps => straps.wf
  | .supplyTrip => true
  | .warmReset _ straps => straps.wf
  | .init => true
  | .bootHeaderRead bytes => bytes.length == 64
  | .bootBodyRead _ => true
  | .bootCtlGo _ => true
  | .bootCheckDone => true
  | .bootApplyDone => true
  | .bootRetry => true
  | .otpProgram _ _ => true
  | .otpBurnDone => true
  | .cupPoolWrite _ _ => true
  | .errRdWrite _ _ => true
  | .traceFreeze _ _ => true
  | .traceThaw _ _ => true
  | .clockFailure => true
  | .sampleStale chan => chan < 256
  | .wcbIdleFlush engine => engine < 4
  | .zhnPortTraining port => port < 2
  | .zhnLockLoss port => port < 2
  | .zhnBadPacket b => b.port < 2 && (match b.bad with
      | .packet bytes crc => bytes.length ≤ 264 && crc < 2 ^ 32
      | .code => true)
  | .badRxFrame lane b => lane < 8 && b.wf
  | .smbalertRelease port => port < 4
  | .standbyEntered => true

end Sys2Proof
end

