-- ==== Sys2Proof/Safety.lean ====
section
/-!
DEFINITION. What counts as a safe state and a safe run, in the terms the statements use: the memories and tables are in
their one canonical form and inside their spaces, register words hold implemented bits alone and the hard-wired ones
their constant, and a step answers a next state.
-/

namespace Sys2Proof.Machine

/-- Every key a map lists is below a bound. -/
def keysBelow {α : Type} (n : Nat) (m : SMap α) : Bool := m.all (fun e => e.1 < n)

/-- A byte memory: canonical, and inside its size (R94, R253). -/
def Memory.wf (m : MemId) (b : SMap Byte) : Bool := SMap.wf 0 b && keysBelow (memSize m) b

/-- No entry of a map ordered by its keys equals what the key reads as when it is not listed: its Reset word. -/
def regsFrom : Nat → SMap Word → Bool
  | _, [] => true
  | lo, (k, w) :: rest => decide (lo ≤ k) && decide (w ≠ keyReset k) && regsFrom (k + 1) rest

/-- A register word at a key: its reserved bits are 0 (R17), and a hard-wired register is never listed. -/
def regWf (e : Nat × Word) : Bool :=
  !hardWired (keyOff e.1) && e.2 &&& BitVec.ofNat 32 (regMask (keyOff e.1)) == e.2

/-- The register words. -/
def Regs.wf (r : SMap Word) : Bool := regsFrom 0 r && r.all regWf

/-- The shades: canonical, on granules that exist, four bits each (10). -/
def Shades.wf (m : SMap Nat) : Bool := SMap.wf 0 m && keysBelow shadeCount m && m.all (fun e => e.2 < 16)

/-- The invariant of the model: every memory, bank and object table is in its canonical form and inside its space. -/
def State.wf (s : State) : Bool :=
  Memory.wf .stag s.stag && Memory.wf .objs s.objs && Memory.wf .lane s.lanemem && Memory.wf .errq s.errq &&
  Memory.wf .trace s.trace && Shades.wf s.shades && Regs.wf s.regs &&
  SMap.wf Ctx.init s.ctxs && SMap.wf Queue.init s.queues && SMap.wf Chan.init s.chans && SMap.wf MemObj.init s.mems &&
  SMap.wf Fence.init s.fences && SMap.wf Engine.init s.engines && SMap.wf 0 s.elder && SMap.wf Port.init s.ports && SMap.wf [] s.wbq &&
  SMap.wf Chair.init s.chairs &&
  SMap.wf Lane.init s.lanes && SMap.wf PmbPort.init s.pmb && SMap.wf Wick.init s.wicks

/-- The lines that the engines' write-combining buffers hold, by space and line number. -/
def State.dirtyLines (s : State) : List (Nat × Nat) :=
  (List.range 4).flatMap (fun e => (s.engine e).wcb.map (fun l => (l.space, l.line)))

/-- A line is dirty in one engine at most, and stands in its buffer once (R290, R291). -/
abbrev State.oneHolder (s : State) : Prop := s.dirtyLines.Nodup

/-- One step from a state is safe: it answers a next state, and no command that waited is lost or invented. -/
def SafeStep (s : State) : Prop := ∃ t, step s = .next t ∧ t.pending = s.pending.tail

/-- A powered, well-formed state in which no host access waits behind a held BAR0 read (R93): the one premise most rules
share. -/
abbrev Running (s : State) : Prop := s.wf = true ∧ s.pwr.off = false ∧ s.bar.behind = []

/-- A path is free for an access: it lives, and no held read stands before it (R82, R93). -/
abbrev PathFree (s : State) (p : Path) : Prop :=
  s.wf = true ∧ s.pathDead p = false ∧ (s.port p).held = none ∧ s.bar.behind = []

/-- An access of a path to an offset acts: the path is free, and the block is not masked (R91). -/
abbrev Reaches (s : State) (p : Path) (off : Nat) : Prop := PathFree s p ∧ s.hostMasked p off = false

/-- A path's port shows a finished read of words: on the control port the reply 0x5A, the data most significant byte first
and the data CRC; on BAR0 one successful completion with the data (R77, R82, R93). -/
abbrev PortShows (s : State) (p : Path) (ws : List Word) : Prop :=
  match p with
  | .scp => s.scp.held = none ∧ s.scp.reply = [0x5A] ++ ws.flatMap wireWord ++ leBytes 1 (crc8 (ws.flatMap wireWord))
  | .bar0 => s.bar.held = none ∧ s.bar.cpls = [⟨0, ws.flatMap (fun w => leBytes 4 w.toNat)⟩]

/-- Commands run one after another on a state, none of them waiting in its queue. -/
def runAll : List Instr → State → Host.Outcome State Fault Refusal
  | [], s => .next s
  | i :: rest, s => match exec i s with
    | .next t => runAll rest t
    | .fault r => .fault r
    | .refused r => .refused r

/-- The pieces of state a command may change, the register words and the queue of waiting commands apart. -/
inductive Part where
  | clk | freeCtr | freeSeq | stag | objs | lanemem | errq | trace | shades | fillLeft | fillAt | fillEnd | wheel | lamp
  | ptm | scp | bar | jobScp | jobBar | ctxs | queues | chans | due | mems | fences | tlb | tlbInv | engines
  | elder | ports | wbq | descUsed | host | chairs | lanes | kindle | gov | pmb | wicks | laneWicks | zhn | cup | boot | otp | tap | straps | pwr
  deriving DecidableEq, Repr

/-- Two states agree on a piece of state. -/
def Part.same (p : Part) (s t : State) : Prop :=
  match p with
  | .clk => t.clk = s.clk
  | .freeCtr => t.freeCtr = s.freeCtr
  | .freeSeq => t.freeSeq = s.freeSeq
  | .stag => t.stag = s.stag
  | .objs => t.objs = s.objs
  | .lanemem => t.lanemem = s.lanemem
  | .errq => t.errq = s.errq
  | .trace => t.trace = s.trace
  | .shades => t.shades = s.shades
  | .fillLeft => t.fillLeft = s.fillLeft
  | .fillAt => t.fillAt = s.fillAt
  | .fillEnd => t.fillEnd = s.fillEnd
  | .wheel => t.wheel = s.wheel
  | .lamp => t.lamp = s.lamp
  | .ptm => t.ptm = s.ptm
  | .scp => t.scp = s.scp
  | .bar => t.bar = s.bar
  | .jobScp => t.jobScp = s.jobScp
  | .jobBar => t.jobBar = s.jobBar
  | .ctxs => t.ctxs = s.ctxs
  | .queues => t.queues = s.queues
  | .chans => t.chans = s.chans
  | .due => t.due = s.due
  | .mems => t.mems = s.mems
  | .fences => t.fences = s.fences
  | .tlb => t.tlb = s.tlb
  | .tlbInv => t.tlbInv = s.tlbInv
  | .engines => t.engines = s.engines
  | .elder => t.elder = s.elder
  | .ports => t.ports = s.ports
  | .wbq => t.wbq = s.wbq
  | .descUsed => t.descUsed = s.descUsed
  | .host => t.host = s.host
  | .chairs => t.chairs = s.chairs
  | .lanes => t.lanes = s.lanes
  | .kindle => t.kindle = s.kindle
  | .gov => t.gov = s.gov
  | .pmb => t.pmb = s.pmb
  | .wicks => t.wicks = s.wicks
  | .laneWicks => t.laneWicks = s.laneWicks
  | .zhn => t.zhn = s.zhn
  | .cup => t.cup = s.cup
  | .boot => t.boot = s.boot
  | .otp => t.otp = s.otp
  | .tap => t.tap = s.tap
  | .straps => t.straps = s.straps
  | .pwr => t.pwr = s.pwr

/-- The path's port as a piece of state. -/
def portPart : Path → Part
  | .scp => .scp
  | .bar0 => .bar

/-- The path's mailbox command as a piece of state. -/
def jobPart : Path → Part
  | .scp => .jobScp
  | .bar0 => .jobBar

/-- The frame of a command: of everything but the pieces `ps` and the registers at the offsets `offs` (every instance of
each), the second state holds what the first does; the queue of waiting commands is among what stays. -/
def Unchanged (ps : List Part) (offs : List Nat) (s t : State) : Prop :=
  t.pending = s.pending ∧ (∀ p, p ∉ ps → p.same s t) ∧
    (∀ inst off, off < 0x1000 → off ∉ offs → t.word inst off = s.word inst off)

/-- The pieces of state that passing time changes: the clock, the wheel, the Lamplighter's marks, the governor's counts, a
shade fill, the writeback queues and the lanes' EOF times. -/
def timeParts : List Part := [.clk, .wheel, .lamp, .gov, .shades, .fillAt, .fillLeft, .wbq, .lanes]

/-- The register that passing time changes: the position a shade fill shows (R316). -/
def timeOffs : List Nat := [F.PRT_SHD_ADDR_GRAN.off]

/-- The frame of a command that lets time pass: beside what time changes, of everything but the pieces `ps` and the registers
at `offs`, the second state holds what the first does. -/
def UnchangedButTime (ps : List Part) (offs : List Nat) (s t : State) : Prop :=
  Unchanged (timeParts ++ ps) (timeOffs ++ offs) s t

end Sys2Proof.Machine
end

