-- ==== Sys2Proof/Certificates/Slice0/Obligations.lean ====
section
/-!
DEFINITION. The statements for the provers: what the commands of the block do, family by family, from the numbered rules.
-/

section

open Sys2Proof Sys2Proof.Machine

/-- The rows that are a cold or a warm reset. -/
def resetRow : Instr → Bool
  | .coldReset _ => true
  | .warmReset _ _ => true
  | _ => false

/-- No bite of the Snuffer is due (R215), and every book's count is the sum of its holders (R301). -/
def Sys2Proof.Machine.State.quiet (s : State) : Bool :=
  (List.range 4).all (fun e => (s.biteDue e).isNone) && (List.range 128).all (fun i => (s.lane (i / 16)).creditOk (i % 16)) &&
    s.host.tagsUsed == s.host.reads.length &&
    (List.range 17).all (fun b => decide (s.clk ≤ (s.fport (resOfBank b)).out ∧ s.clk != 0) == (s.tokenAt (resOfBank b)).isSome) &&
    (List.range 4).all (fun e => (s.engine e).wcbUsed == (s.engine e).wcbLines) &&
    s.chanList.all (fun c => (s.chan c).pend == (s.chan c).subs.length) && s.lamp.used == s.lamp.entries.length &&
    s.descUsed == (s.descBlocks.map Prod.snd).sum

/-- Offsets at which a write does more than set fields or clear bits (Table REG-5), or reaches a register's own handling. -/
def sideWriteOffs : List Nat :=
  [0x010, 0x014, 0x018, 0x024, 0x040, 0x044, 0x050, 0x074, 0x0D8, 0x108, 0x180, 0x184, 0x188, 0x1A8, 0x1AC, 0x1B0, 0x210, 0x228,
    0x240, 0x280, 0x288, 0x2A8, 0x2AC, 0x2B0, 0x2B8, 0x2C0, 0x300, 0x308, 0x318, 0x34C, 0x350, 0x384, 0x390, 0x394, 0x3C8,
    0x924, 0x940, 0x984, 0x998, 0x9A0, 0x9C0, 0x800, 0x820, 0x840, 0x860, 0x880, 0x8A0, 0x8C0, 0x8E0]

/-- The registers of captures that clearing an event bit reopens. -/
def captureOffs : List Nat := [0x294, 0x298, 0x29C, 0x2A0, 0x250, 0x034, 0x358]

/-- A field's bits in a register word. -/
def fieldOf (f : RField) (w : Word) : Nat := bits w.toNat f.lo (f.hi + 1 - f.lo)

/-- Registers whose write sets their fields and then does more (Table REG-5): the rest of its effect lies elsewhere. -/
def alsoFieldOffs : List Nat := [0x024, 0x1AC, 0x240, 0x308, 0x318, 0x390, 0x394, 0x940]

/-- The row that a register write is when its offset has a row of its own for every word written. -/
def rowOfWrite (p : Path) (off : Nat) (v : Word) : Option Instr :=
  match off with
  | 0x108 => some (.winDataWrite p v)
  | 0x280 => some (.protUnitEnable p v)
  | 0x2AC => some (.prtShdDataWrite p v)
  | 0x2B0 => some (.prtShdFill p v)
  | 0x2C0 => some (.cupPoolWrite p v)
  | 0x384 => some (.wckCfgSwitch p v)
  | 0x3C8 => some (.errRdWrite p v)
  | 0x924 => some (.tlbInvalidate p v)
  | 0x998 => some (.otpProgram p v)
  | _ => none

/-- The register offset that a row writes when it comes over BAR0; none for a row that is no such write. -/
def barWriteOff : Instr → Option Nat
  | .registerWrite .bar0 off _ ⟨be, []⟩ => if off % 4 == 0 && off < 0xC00 && be == 15 then some off else none
  | .ctxCreate .bar0 _ => some 0x0D8
  | .ctxDestroy .bar0 _ => some 0x0D8
  | .ctxReinit .bar0 _ => some 0x0D8
  | .queueCreate .bar0 _ => some 0x0D8
  | .queueDestroy .bar0 _ => some 0x0D8
  | .chanCreate .bar0 _ => some 0x0D8
  | .chanDestroy .bar0 _ => some 0x0D8
  | .chanReinit .bar0 _ => some 0x0D8
  | .memCreate .bar0 _ => some 0x0D8
  | .memDestroy .bar0 _ => some 0x0D8
  | .ref .bar0 _ => some 0x0D8
  | .unref .bar0 _ => some 0x0D8
  | .fenceCreate .bar0 _ => some 0x0D8
  | .fenceDestroy .bar0 _ => some 0x0D8
  | .fenceExport .bar0 _ => some 0x0D8
  | .fenceImport .bar0 _ => some 0x0D8
  | .stageMap .bar0 _ => some 0x0D8
  | .stageUnmap .bar0 _ => some 0x0D8
  | .chairtabOpen .bar0 _ => some 0x0D8
  | .laneReinit .bar0 _ => some 0x0D8
  | .engineReinit .bar0 _ => some 0x0D8
  | .devStopDrain .bar0 _ _ => some 0x050
  | .devStopHalt .bar0 _ _ => some 0x050
  | .devStopAbort .bar0 _ _ => some 0x050
  | .winDataWrite .bar0 _ => some 0x108
  | .tlbInvalidate .bar0 _ => some 0x924
  | .regionSelect .bar0 _ => some 0x288
  | .regionCommit .bar0 _ => some 0x288
  | .prtShdDataWrite .bar0 _ => some 0x2AC
  | .prtShdFill .bar0 _ => some 0x2B0
  | .protUnitEnable .bar0 _ => some 0x280
  | .kndLoadGo .bar0 => some 0x210
  | .whlCtlSrcChange .bar0 _ => some 0x180
  | .ptmRequest .bar0 => some 0x1B0
  | .chrSit .bar0 n _ => if n < 128 then some (0x400 + 4 * n) else none
  | .chrGive .bar0 n => if n < 128 then some (0x400 + 4 * n) else none
  | .lanCtlEnClear .bar0 lane _ => if lane < 8 then some (0x800 + 32 * lane) else none
  | .revert .bar0 => some 0x300
  | .govCtlEnSet .bar0 _ => some 0x300
  | .wckCfgSwitch .bar0 _ => some 0x384
  | .bootCtlGo .bar0 => some 0x984
  | .otpProgram .bar0 _ => some 0x998
  | .cupPoolWrite .bar0 _ => some 0x2C0
  | .errRdWrite .bar0 _ => some 0x3C8
  | .traceFreeze .bar0 _ => some 0x9C0
  | .traceThaw .bar0 _ => some 0x9C0
  | _ => none

/-- A read of the register at an offset has an effect or may be held (Table REG-4). -/
def readActs (off : Nat) : Bool := [0x190, 0x2D8, 0x108, 0x2AC, 0x0E0].contains off || (0x600 ≤ off && off < 0x800)

/-- WIN_ADDR after an access: 4 further under INC (R95). -/
abbrev winNext (s : State) (p : Path) : Nat :=
  if s.fldI (pathInst p) F.WIN_CTL_INC = 1 then (s.fldI (pathInst p) F.WIN_ADDR_ADDR + 4) % 2 ^ 24
  else s.fldI (pathInst p) F.WIN_ADDR_ADDR

/-- A window access has faulted with a cause: FAULT is set; the first fault while it was 0 is captured; WIN_ADDR has advanced
under INC (R98). -/
abbrev WindowFault (p : Path) (cause : Nat) (s t : State) : Prop :=
  t.fldI (pathInst p) F.WIN_CTL_FAULT = 1 ∧
  t.fldI (pathInst p) F.WIN_FAULT_CAUSE =
    (if s.fldI (pathInst p) F.WIN_CTL_FAULT = 0 then cause else s.fldI (pathInst p) F.WIN_FAULT_CAUSE) ∧
  t.fldI (pathInst p) F.WIN_FAULT_ADDR =
    (if s.fldI (pathInst p) F.WIN_CTL_FAULT = 0 then s.fldI (pathInst p) F.WIN_ADDR_ADDR
      else s.fldI (pathInst p) F.WIN_FAULT_ADDR) ∧
  t.fldI (pathInst p) F.WIN_ADDR_ADDR = winNext s p

/-- A mailbox command of a path is performed: the access acts, no command is in progress on either path, and the device takes work
(R100, R104, R105, R272, R273). -/
abbrev MbReady (s : State) (p : Path) : Prop :=
  Reaches s p 0x0D8 ∧ s.busy p = false ∧ s.job (otherPath p) = none ∧ s.pwr.seq = none ∧ s.pwr.quiesced = false ∧ s.pfHeld = false

/-- The command a path has begun: its tag, its result, its result words and what its end waits for. -/
abbrev Begun (t : State) (p : Path) (seq result : Nat) (res : List Nat) (w : JobWait) : Prop :=
  (t.job p).map (fun j => (j.seq, j.result, j.res, j.wait, j.discard, j.second)) =
    some (seq % 256, result, res.map (BitVec.ofNat 32), w, false, false)

/-- The free index of a range that was freed longest ago, the lowest of those never freed (R119). -/
abbrev OldestFree (lo hi : Nat) (free : Nat → Bool) (freedAt : Nat → Nat) (n : Nat) : Prop :=
  lo ≤ n ∧ n < hi ∧ free n = true ∧
    ∀ m, m < hi → lo ≤ m → free m = true → freedAt n < freedAt m ∨ (freedAt n = freedAt m ∧ n ≤ m)

/-- The path and the tag of a row that is a mailbox command. -/
def mailRow : Instr → Option (Path × Nat)
  | .ctxCreate p q => some (p, q)
  | .ctxDestroy p q => some (p, q)
  | .ctxReinit p q => some (p, q)
  | .queueCreate p q => some (p, q)
  | .queueDestroy p q => some (p, q)
  | .chanCreate p q => some (p, q)
  | .chanDestroy p q => some (p, q)
  | .chanReinit p q => some (p, q)
  | .memCreate p q => some (p, q)
  | .memDestroy p q => some (p, q)
  | .ref p q => some (p, q)
  | .unref p q => some (p, q)
  | .fenceCreate p q => some (p, q)
  | .fenceDestroy p q => some (p, q)
  | .fenceExport p q => some (p, q)
  | .fenceImport p q => some (p, q)
  | .stageMap p q => some (p, q)
  | .stageUnmap p q => some (p, q)
  | .chairtabOpen p q => some (p, q)
  | .laneReinit p q => some (p, q)
  | .engineReinit p q => some (p, q)
  | .badOp p op q => if opInTable (op % 256) then none else some (p, q)
  | _ => none

/-- The row of an opcode that Table SCP-5 does not hold. -/
def isBadOp : Instr → Bool
  | .badOp _ _ _ => true
  | _ => false

/-- A ring address, low and high word, that R132 allows for a context's queue of a depth: 64-byte aligned, with selector 0, or
for context 64 with selector 1 and wholly in staging. -/
abbrev RingAllowed (n depth lo hi : Nat) : Prop :=
  lo % 64 = 0 ∧ (hi / 2 ^ 24 = 0 ∨ (hi / 2 ^ 24 = 1 ∧ n = 64 ∧ lo + 2 ^ 32 * (hi % 2 ^ 24) + 16 * depth ≤ 0x200000))

/-- A run of descriptors that no channel owns. -/
abbrev BlockFree (s : State) (base n : Nat) : Prop :=
  ∀ d, (s.chan d).st ≠ .free → base + n ≤ (s.chan d).base ∨ (s.chan d).base + (s.chan d).count ≤ base

/-- A DEV_STOP write of a path names a channel rightly (R256). -/
abbrev StopNames (s : State) (p : Path) (c gen : Nat) : Prop :=
  Reaches s p 0x050 ∧ (s.chan c).gen = gen ∧ ¬ (p = .bar0 ∧ ((s.chan c).ctx = 64 ∨ (s.chan c).ctx = 65))

/-- The channel has been stopped on the way to a state: it is there with no stop pending, or parked for as long as a record of
its submissions is due (R258, R261, R278). -/
abbrev OnItsWay (t : State) (c : Nat) (st : ChanSt) : Prop :=
  if t.due.any (fun d => d.own && d.chan == some c) then (t.chan c).st = .parked ∧ (t.chan c).dest = some st
  else (t.chan c).st = st ∧ (t.chan c).dest = none ∧ (t.chan c).stopPend = 0

/-- The channel's chain has halted with a resume record of a descriptor and an offset, its submissions done and its waits
released (R258, R261, R262). -/
abbrev HaltedAt (t : State) (c desc off : Nat) : Prop :=
  OnItsWay t c .halted ∧ (t.chan c).resValid = true ∧ (t.chan c).resDesc = desc ∧ (t.chan c).resOff = off ∧
    (t.chan c).run = none ∧ (t.chan c).subs = [] ∧ ∀ e ∈ t.lamp.entries, e.chan ≠ c

/-- The entry of a queue of context 64 at SQ head as the device reads it (Table CTX-5): the bytes of CHAN, TAG, START and
FIRST. -/
def sqEntry (s : State) (q : Nat) : Nat × Nat × WTime × Nat :=
  let b := s.cohBytes 0 (opAddr (s.queue q).sqRing + 16 * ((s.queue q).sqHead % 2 ^ (s.queue q).log2)) 16
  (ofLe (b.take 4), ofLe ((b.drop 4).take 4), BitVec.ofNat 48 (ofLe ((b.drop 8).take 6)), ofLe ((b.drop 14).take 2))

/-- The context and address of a walk read of a queue's ring at its last level, every table before it writable. -/
def ringLeaf : Purpose → Option (Nat × Nat)
  | .walk (.sq _) n va 3 _ true => some (n, va)
  | .walk (.cq _) n va 3 _ true => some (n, va)
  | _ => none

/-- The queue whose submission entry a read fetches. -/
def ringOf : Purpose → Option Nat
  | .ring q => some q
  | _ => none

/-- The tag of an answered read is back with its read off the books (but for a read that waited and takes it), and every other
read stands with what it has got (R300, R482). -/
abbrev TagBack (s t : State) (tag : Nat) : Prop :=
  (s.host.waits = [] → t.host.reads.any (fun r => r.tag == tag) = false) ∧
    ∀ x, x ∈ s.host.reads → x.tag ≠ tag →
      t.host.reads.any (fun y => y.tag == x.tag && y.purpose == x.purpose && y.got == x.got) = true

/-- No read and no walk waits for a tag, a slot or an invalidation (R126, R300). -/
abbrev NoReadWaits (s : State) : Prop := s.host.waits = [] ∧ s.host.walkq = []

/-- A running channel's current descriptor, of an opcode, is ready to act, and its grant is not spent (R208). -/
abbrev Executes (s : State) (c op : Nat) (d : Cur) : Prop :=
  Running s ∧ s.grantSpent c = false ∧ (s.chan c).st = .running ∧ s.cur c = some d ∧ dOp d.words = op ∧ d.phase = .ready

/-- A channel and its chain after the current descriptor has met its completion condition with a status. -/
def doneWith (s : State) (c : Nat) (d : Cur) (status : Nat) : Chan :=
  { s.chan c with run := (s.chan c).run.map fun r => { r with cur := some { d with phase := .done status, doneWT := s.now } } }

/-- The status that a row leaves a channel's current descriptor completed with, if any. -/
def doneStatus (s : State) (c : Nat) : Option Nat :=
  match s.cur c with
  | some d => (match d.phase with
      | .done st => some st
      | _ => none)
  | none => none

/-- Where an access of a channel to device memory at an operand address lands when all of it is allowed and within one
piece: its first byte in its space, outside the channel records for a write. -/
def lands (s : State) (c : Nat) (d : Cur) (wr : Bool) (full n : Nat) : Option Nat :=
  if s.pieceLen c (opSel full) (opAddr full) n == n then
    match s.reach c d.words (opSel full) (opAddr full) n wr with
    | .go a k => if k == n && decide (a + n ≤ (if opSel full == 1 then 0x200000 else 0x80000)) then some a else none
    | _ => none
  else none

/-- The host address that the TLB gives a channel's context-virtual operand. -/
def hostPage (s : State) (c : Nat) (wr : Bool) (full : Nat) : Option Nat :=
  match s.xlate (s.chan c).ctx (opAddr full) wr with
  | .hit phys _ => some phys
  | _ => none

/-- The write bytes of a PMB_XFER when they lie in one allowed piece of device memory. -/
def busBytes (s : State) (c : Nat) (d : Cur) : Option (List Byte) :=
  if pmbWr d.words == 0 then some []
  else if opSel (dSrc d.words) == 1 || opSel (dSrc d.words) == 2 then
    (lands s c d false (dSrc d.words) (pmbWr d.words)).map (fun a => s.cohBytes (opSel (dSrc d.words) - 1) a (pmbWr d.words))
  else none

/-- The cause with which an ALLOC in the Cupboard fails (R359). -/
def allocFails (s : State) (o : CupOp) : Option Nat :=
  match s.allocOut o.ctx o.words with
  | .fail k => some k
  | _ => none

/-- The object index, first view entry and pages that an ALLOC of a user context gets (R360). -/
def allocPages (s : State) (o : CupOp) : Option (Nat × Nat × List Nat) :=
  match s.allocOut o.ctx o.words with
  | .user obj e ps => some (obj, e, ps)
  | _ => none

/-- The object index, first granule and number of granules that an ALLOC of a device context gets (R361). -/
def allocGets (s : State) (o : CupOp) : Option (Nat × Nat × Nat) :=
  match s.allocOut o.ctx o.words with
  | .priv obj g n => some (obj, g, n)
  | _ => none

/-- A lane is as it was, but for the wheel time at which a Kindle frame's EOF left on it (R232). -/
abbrev LaneKept (s t : State) (m : Nat) : Prop := { t.lane m with eofWT := (s.lane m).eofWT } = s.lane m

/-- A frame with its CRC-16 (R413), and with a SEQ. -/
abbrev Framed (f : TxFrame) (seq : Nat) : TxFrame :=
  { f with seq := seq, crc := crc16 (frameChars f.addr f.cmd seq f.payload) }

/-- The channel whose EMIT a frame belongs to. -/
def frameChan (f : TxFrame) : Option Nat :=
  match f.who with
  | .emit c _ => some c
  | _ => none

/-- A KND_LOAD.GO write of a path is accepted (R242). -/
def Sys2Proof.Machine.State.loadable (s : State) (p : Path) : Bool :=
  s.flag F.KND_CHAIR_EN && s.owns (8 * s.fld F.KND_CHAIR_TABLE + s.fld F.KND_CHAIR_CHAIR) s.self (pathMid p) &&
    s.kindle.load.isNone && !s.flag F.KND_STAT_FLIP_PEND

/-- The first failure of a load whose copy has ended: lane and entry as 16 * lane + entry, and its code (R244). -/
def Sys2Proof.Machine.State.loadFailure (s : State) : Option (Nat × Nat) :=
  if s.kindle.loadErr != 0 then some (s.kindle.loadAt, s.kindle.loadErr) else s.shadowFails

/-- A level change of WHL_SYNC that counts as an edge under WHL_CTL.POL (R37). -/
abbrev activeEdge (s : State) : Bool := !s.flag F.WHL_CTL_POL

/-- The wheel in the core clock in which a pin edge some eighths of a core clock from now is judged. -/
abbrev atEdge (s : State) (dt8 : Nat) : State := (tickBy ((dt8 + 7) / 8)).run s

/-- Eighths of a core clock from an edge to the clock that judges it. -/
abbrev edgeBack (dt8 : Nat) : Nat := (dt8 + 7) / 8 * 8 - dt8

/-- The phase error of a pin edge that falls some eighths of a core clock from now, as the tracker finds it (R44). -/
def edgeErr (s : State) (dt8 : Nat) : Int := (atEdge s dt8).wheel.phaseErr (edgeBack dt8)

/-- The expected sync that such an edge lies nearest to. -/
def edgeCyc (s : State) (dt8 : Nat) : Nat := (atEdge s dt8).wheel.edgeCycle (edgeBack dt8)

/-- No window of an expected sync has closed without an edge by such an edge. -/
abbrev NoneMissed (s : State) (dt8 : Nat) : Prop :=
  (atEdge s dt8).closedWindows ((atEdge s dt8).wheel.valueBack (edgeBack dt8) / 2 ^ 20) = 0

/-- The state in which the window of the next expected sync closes, nothing but time having passed (R44). -/
def atClose (s : State) : State :=
  (advanceToWheel (BitVec.ofNat 48 ((s.wheel.judged + 1) * 4096 + s.winAt (s.wheel.judged + 1) + 1))).run s

/-- The state at the governor's next window boundary, nothing but time having passed (R387). -/
def Sys2Proof.Machine.State.atWindowEnd (s : State) : State :=
  (advanceToWheel s.windowEnd).run s

/-- The governor carries out rows: the device is on, and neither held, nor in STANDBY, nor entering it. -/
abbrev Governs (s : State) : Prop :=
  Running s ∧ s.pfHeld = false ∧ s.pwr.standby = false ∧ s.pwr.entering = false

/-- Rail r is the first one whose current is read over PMBus and has not been read in this window, by its registers and
profile, with the protection unit off (R390, Table GOV-6). -/
abbrev ReadsRail (s : State) (r : Nat) : Prop :=
  r < 16 ∧ s.fld F.PRT_CTL_EN = 0 ∧ (∀ k < 16, k < r → s.minph k = 0) ∧ 1 ≤ s.minph r ∧ s.minph r ≤ s.maxph r ∧
    s.maxph r ≤ profN (s.cohBytes 0 (s.profAddr r) 256) ∧ profPmb (s.cohBytes 0 (s.profAddr r) 256) = true ∧
    bitAt s.gov.pmbGot r = false

/-- A channel does not react to a pin: it neither counts paces of it nor waits on it. -/
def deaf (x : Chan) (w : Nat) : Bool :=
  !(x.paceEn && x.paceWick == w) && (match x.park with
    | .wick w' _ => w' != w
    | _ => true)

/-- The PMB_XFER whose transaction runs on a bus: its channel and descriptor, with no stop pending. -/
abbrev OnBus (s : State) (k c : Nat) (d : Cur) : Prop :=
  (s.pmbp k).user = some (.chan c) ∧ s.cur c = some d ∧ (s.chan c).stopPend = 0 ∧ opSel (dDst d.words) ≠ 5 ∧
    (∀ x, x ∈ s.busWaiters k → x ≠ c)

/-- The packets a Zheyn port has sent unacknowledged or holds, in order: TYPE, DST, SRC, user class, HOPS, OP_ID, body. -/
def pkts (s : State) (port : Nat) : List (Nat × Nat × Nat × Bool × Nat × Nat × List Byte) :=
  ((s.zport port).unacked ++ (s.zport port).queue).map (fun k => (k.typ, k.dst, k.src, k.user, k.hops, k.opId, k.body))

/-- A packet of another device arrives in sequence at a port that exchanges packets. -/
abbrev Arrives (s : State) (h : ZHdr) : Prop :=
  Running s ∧ s.portOpen h.port = true ∧ h.lseq = (s.zport h.port).rxSeq ∧ h.src ≠ s.self ∧ h.src < 4

/-- The rows that are a packet received with a header. -/
def pktRow : Instr → Option ZHdr
  | .zhnHello h _ _ _ => some h
  | .mark h _ _ => some h
  | .memRd h _ => some h
  | .memWr h _ _ => some h
  | .memRsp h _ _ => some h
  | .fenOp h _ _ => some h
  | .fenUpd h _ _ _ => some h
  | .fenRsp h _ _ => some h
  | .chrOp h _ _ _ _ _ => some h
  | .chrRsp h _ _ => some h
  | .chrUpd h _ _ => some h
  | .err h _ => some h
  | _ => none

/-- An operation of a peer for this device arrives, and it has been neither answered before nor begun (R503). -/
abbrev AsksUs (s : State) (h : ZHdr) : Prop :=
  Arrives s h ∧ h.dst = s.self ∧ s.zhn.done.find? (fun d => d.src == h.src && d.opId == h.opId) = none ∧
    s.zhn.stalled.any (fun k => k.h.src == h.src && k.h.opId == h.opId) = false

/-- A peer's operation has been answered: the answer is kept for a repeat, and is the last packet on the route to the peer
(R503). -/
def Answered (s t : State) (h : ZHdr) (typ : Nat) (body : List Byte) : Prop :=
  t.zhn.done.any (fun d => d.src == h.src && d.opId == h.opId && d.ans.typ == typ && d.ans.body == body) = true ∧
    ∀ r, (s.peer h.src).route = some r → (s.zport r.1).ready = true →
      (pkts t r.1).getLast? = some (typ, h.src, s.self, false, 0, h.opId, body)

/-- A packet for this device from another arrives. -/
abbrev ForUs (s : State) (h : ZHdr) : Prop := Arrives s h ∧ h.dst = s.self

/-- The TYPE and body of a packet that is for one device. -/
def routedRow : Instr → Option (ZHdr × Nat × List Byte)
  | .memRd h m => some (h, 0x10, zMemBody m [])
  | .memWr h m data => some (h, 0x11, zMemBody m data)
  | .memRsp h status data => some (h, 0x12, leBytes 1 status ++ data)
  | .fenOp h idx op => some (h, 0x20, fenBody idx (fenOpCode op) (fenOpValue op))
  | .fenUpd h idx v dead => some (h, 0x21, fenBody idx (b2n dead) v)
  | .fenRsp h status v => some (h, 0x22, fenBody 0 status v)
  | .chrOp h n mid tag i op => some (h, 0x30, chrBody n (chrOpCode op) mid tag i)
  | .chrRsp h n w => some (h, 0x31, leBytes 1 n ++ leBytes 4 w.toNat)
  | .chrUpd h n w => some (h, 0x32, leBytes 1 n ++ leBytes 4 w.toNat)
  | .err h entry => some (h, 0x40, entry)
  | _ => none

/-- A step takes the command at the front of the queue and runs it on the state with the rest of the queue; with no
command it is one idle core clock (95_what_each_step_holds.md, 02_wheel_time.md, 10_shades_and_protection.md). Model's
choices: log 1 and log 2. -/
def Obligations.StepTakesFront : Prop :=
  (∀ (i : Instr) (rest : List Instr) (s : State), s.pending = i :: rest → step s = exec i { s with pending := rest }) ∧
  (∀ s : State, s.wf = true → s.pending = [] →
    ∃ t, step s = .next t ∧ t.pending = [] ∧ (s.pwr.off = true → t = s) ∧ (s.pwr.off = false → s.clk + 1 ≤ t.clk) ∧
      (s.pwr.off = false → ((tickBy 1).run s).quiet = true →
        t.clk = s.clk + 1 ∧
          Unchanged [.clk, .wheel, .lamp, .gov, .shades, .fillLeft, .fillAt, .wbq, .lanes, .host] [0x2A8] s t))

/-- Every step keeps every memory, register bank and object table in its canonical form and inside its space (R17,
R94, R253). -/
def Obligations.StepKeepsWellFormed : Prop :=
  ∀ s t : State, step s = .next t → s.wf = true → t.wf = true

/-- The state right after a reset is well formed, powered, and no command waits in it (R121, R578, R522). Model's
choices: log 3 and log 5. -/
def Obligations.ResetIsWellFormed : Prop :=
  State.reset.wf = true ∧ State.reset.pending = [] ∧ State.reset.pwr.off = false ∧
    (∀ inst off, off < 0x1000 → State.reset.word inst off = regReset off) ∧ (∀ m a, State.reset.byte m a = 0) ∧
    (∀ n, (State.reset.ctx n).st = (if n = 0 ∨ n = 64 ∨ n = 65 then .live else .free)) ∧
    (∀ n, (State.reset.chan n).st = .free ∧ (State.reset.queue n).live = false ∧ (State.reset.mobj n).live = false ∧
      (State.reset.fence n).live = false ∧ (State.reset.chair n).held = false) ∧
    State.reset.alertPin = false

/-- Every command on every state answers a next state, takes none from the queue, never turns the clock back, and does
nothing on an unpowered device (95_what_each_step_holds.md, R1, R2, R568, R31). -/
def Obligations.EveryCommandAnswers : Prop :=
  ∀ (i : Instr) (s : State),
    (s.pwr.off = true → resetRow i = false → i ≠ .supplyTrip → exec i s = .next s) ∧
    ∃ t, exec i s = .next t ∧ t.pending = s.pending ∧ s.clk ≤ t.clk ∧
    (s.wf = true → (t.word 0 0x000).toNat = 0x6408 ∧ (t.word 0 0x004).toNat = 0x0B0)

/-- Burned OTP words stay for good over every command, and the latched straps over every command but a cold or warm
reset (R526, R540). -/
def Obligations.FusesAndStrapsStay : Prop :=
  ∀ (i : Instr) (s t : State), exec i s = .next t →
    (s.otp.hashEn = true → s.otp.burning = false →
      t.otp.hashEn = true ∧ t.otp.burning = false ∧ t.otp.words = s.otp.words) ∧
    (resetRow i = false → t.straps = s.straps)

/-- A register write acts on each field by its own access type: RO, RW, W1C, RWL and lock bits; a BAR0 request writes
its dwords in order (R584, R581, R586, R92, R476, R479, R472, R17). Model's choices: log 64 and log 65. -/
def Obligations.RegisterWriteByAccessType : Prop :=
  (∀ (s : State) (v : Word), PathFree s .bar0 →
    (∀ (off : Nat) (ws : List Word), 0 < ws.length → off + 4 * ws.length ≤ 0xC00 → off % 4 = 0 → ws.length ≤ 16 →
      ∃ t, exec (.registerWrite .bar0 off (ws.headD 0) ⟨15, (ws.drop 1).map fun w => (w, 15)⟩) s = .next t ∧
        runAll (ws.zipIdx.map fun e => .registerWrite .bar0 (off + 4 * e.2) e.1 ⟨15, []⟩) s = .next t) ∧
    (∀ off be, off % 4 = 0 → off < 0xC00 → be < 15 →
      ∃ t, exec (.registerWrite .bar0 off v ⟨be, []⟩) s = .next t ∧
        t.fld F.HLK_CNT0_PARTIAL = min (s.fld F.HLK_CNT0_PARTIAL + 1) (2 ^ F.HLK_CNT0_PARTIAL.width - 1) ∧
        t.fld F.HLK_EVT_PARTIAL = 1 ∧ Unchanged [.host] [F.HLK_CNT0_PARTIAL.off, F.HLK_EVT_PARTIAL.off] s t) ∧
    (∀ off more, off % 4 = 0 →
      ∃ t, exec (.registerWrite .bar0 off v ⟨31, more⟩) s = .next t ∧
        t.fld F.HLK_CNT1_POISON = min (s.fld F.HLK_CNT1_POISON + 1) (2 ^ F.HLK_CNT1_POISON.width - 1) ∧
        t.fld F.HLK_EVT_POISON = 1 ∧ Unchanged [.host] [F.HLK_CNT1_POISON.off, F.HLK_EVT_POISON.off] s t) ∧
    (∀ i k, i < 65 → k < 4 → SMap.wf Msix.init s.host.table = true →
      ∃ t, exec (.registerWrite .bar0 (0x1000 + 16 * i + 4 * k) v ⟨15, []⟩) s = .next t ∧
        t.msix i = (match k with
          | 0 => { s.msix i with addr := (s.msix i).addr / 2 ^ 32 * 2 ^ 32 + v.toNat / 4 * 4 }
          | 1 => { s.msix i with addr := (s.msix i).addr % 2 ^ 32 + v.toNat * 2 ^ 32 }
          | 2 => { s.msix i with data := v }
          | _ => { s.msix i with masked := v.toNat % 2 == 1 }) ∧
        (∀ j, j ≠ i → t.msix j = s.msix j) ∧ Unchanged [.host] [] s t)) ∧
  (∀ (s : State) (p : Path) (off : Nat) (v : Word), Reaches s p off → off % 4 = 0 → off < 0xC00 →
    (∀ i, rowOfWrite p off v = some i → ∃ t, exec (.registerWrite p off v ⟨15, []⟩) s = .next t ∧ exec i s = .next t) ∧
    (regFind off = none → ¬ (0x400 ≤ off ∧ off < 0x800) → ∃ t, exec (.registerWrite p off v ⟨15, []⟩) s = .next t ∧ Unchanged [] [] s t) ∧
    (off ∈ alsoFieldOffs → ∀ r, regFind off = some r → ∀ f, f ∈ r.flds →
      ∃ t, exec (.registerWrite p off v ⟨15, []⟩) s = .next t ∧
        (f.acc = .ro → fieldOf f (t.word (s.instOf p off) off) = fieldOf f (s.word (s.instOf p off) off)) ∧
        (f.acc = .rw → fieldOf f (t.word (s.instOf p off) off) = fieldOf f v) ∧
        (f.acc = .rwl → fieldOf f (t.word (s.instOf p off) off) =
          if s.locked (s.instOf p off) off then fieldOf f (s.word (s.instOf p off) off) else fieldOf f v) ∧
        (f.acc = .lock → fieldOf f (t.word (s.instOf p off) off) =
          fieldOf f (s.word (s.instOf p off) off) ||| fieldOf f v))) ∧
  (∀ (s : State) (p : Path) (off : Nat) (v : Word),
    Reaches s p off → off % 4 = 0 → off < 0xC00 → off ∉ sideWriteOffs → (p = .bar0 → blockOf off ≠ some 1) →
    ∀ r, regFind off = some r → r.clr = false → ∀ f, f ∈ r.flds →
    ∃ t, exec (.registerWrite p off v ⟨15, []⟩) s = .next t ∧
      (f.acc = .ro → fieldOf f (t.word (s.instOf p off) off) = fieldOf f (s.word (s.instOf p off) off)) ∧
      (f.acc = .rw → fieldOf f (t.word (s.instOf p off) off) = fieldOf f v) ∧
      (f.acc = .w1c → ∀ i, (fieldOf f (t.word (s.instOf p off) off)).testBit i =
        ((fieldOf f (s.word (s.instOf p off) off)).testBit i && !(fieldOf f v).testBit i)) ∧
      (f.acc = .rwl → fieldOf f (t.word (s.instOf p off) off) =
        if s.locked (s.instOf p off) off then fieldOf f (s.word (s.instOf p off) off) else fieldOf f v) ∧
      (f.acc = .lock → fieldOf f (t.word (s.instOf p off) off) = fieldOf f (s.word (s.instOf p off) off) ||| fieldOf f v) ∧
      Unchanged [.host] (off :: captureOffs) s t)

/-- A write of any value to a register marked CLR clears every field and changes nothing else; DEV_PF_CNT is cleared
by cold and warm resets alone (R585). -/
def Obligations.CounterClearZeroes : Prop :=
  (∀ off, ∀ r, regFind off = some r → r.clr = true → ∀ f, f ∈ r.flds → f.acc = .ro) ∧ isClr 0x060 = false ∧
  (∀ (i : Instr) (s t : State), exec i s = .next t → resetRow i = false →
    s.fld F.DEV_PF_CNT_REQS ≤ t.fld F.DEV_PF_CNT_REQS ∧ s.fld F.DEV_PF_CNT_BEATS ≤ t.fld F.DEV_PF_CNT_BEATS) ∧
  (∀ (s : State) (p : Path) (off : Nat) (v : Word),
    Reaches s p off → (p = .bar0 → blockOf off ≠ some 1) → ∀ r, regFind off = some r → r.clr = true →
    ∃ t, exec (.counterClear p off v 15) s = .next t ∧ exec (.registerWrite p off v ⟨15, []⟩) s = .next t ∧
      t.word 0 off = 0 ∧ Unchanged [] [off] s t)

/-- A BAR0 write into a block masked by SCP_HOSTMASK changes nothing but HOST_DENY, whichever row makes it (R91). -/
def Obligations.MaskedBlocksIgnoreBar0 : Prop :=
  ∀ (s : State) (i : Instr) (off : Nat), barWriteOff i = some off →
    PathFree s .bar0 → s.hostMasked .bar0 off = true →
    ∃ t, exec i s = .next t ∧ t.fld F.SCP_CNT1_HOST_DENY = min (s.fld F.SCP_CNT1_HOST_DENY + 1) 65535 ∧
      t.fld F.SCP_EVT_HOST_DENY = 1 ∧ t.fld F.SCP_CNT1_ABANDON = s.fld F.SCP_CNT1_ABANDON ∧
      t.fld F.SCP_EVT_CRC = s.fld F.SCP_EVT_CRC ∧ t.fld F.SCP_EVT_FRAME = s.fld F.SCP_EVT_FRAME ∧
      t.fld F.SCP_EVT_ABANDON = s.fld F.SCP_EVT_ABANDON ∧ Unchanged [] [0x08C, 0x094] s t

/-- A whole control-port write frame applies its words in order, as register writes, and then sends DONE (R84). -/
def Obligations.ScpWriteAppliesItsWords : Prop :=
  ∀ (s : State) (bytes : List Byte), Running s → s.scp.held = none →
    ∀ f, frameOf bytes = some f → f.isWrite = true → f.need ≤ f.rest.length →
    (f.crcOk bytes = true → f.ok = true → ∃ u, runAll ((List.range f.n).map fun i => .registerWrite .scp (f.off i) (f.word i) ⟨15, []⟩) s = .next u ∧
      exec (.scpWrite bytes) s = .next { u with scp := { u.scp with reply := [0x5A], cpls := [], lead := f.need + 4, waits := 0 } } ∧
      exec (.scpWriteFixed bytes) s =
        .next { u with scp := { u.scp with reply := [0x5A], cpls := [], lead := f.need + 4, waits := 0 } }) ∧
    (f.crcOk bytes = false → ∃ t, exec (.scpWrite bytes) s = .next t ∧ exec (.scpWriteFixed bytes) s = .next t ∧
      t.scp.reply = [0x3C] ∧ Unchanged [.scp] [0x088, 0x094] s t)

/-- A read of registers whose read has no effect returns one snapshot of them, over the control port or BAR0, and
changes nothing else (R86, R79, R92, R152). Model's choices: log 15 and log 79. -/
def Obligations.ScpReadIsOneSnapshot : Prop :=
  (∀ (s : State) (r : ReadReq), PathFree s .bar0 → r.off % 4 = 0 → 1 ≤ r.n → r.n ≤ 16 → r.fbe = 15 → r.lbe = 15 →
    (r.bar2 = false → r.off + 4 * r.n ≤ 0xC00 → (∀ i, i < r.n → readActs (r.off + 4 * i) = false) →
      ∃ t, exec (.scpRead (.bar r)) s = .next t ∧
        PortShows t .bar0 ((List.range r.n).map fun i => s.readWord .bar0 (r.off + 4 * i)) ∧ Unchanged [.bar] [] s t) ∧
    (r.bar2 = true → ∀ n, n < 64 → 0x1000 * n ≤ r.off → r.off + 4 * r.n ≤ 0x1000 * (n + 1) →
      ∃ t, exec (.scpRead (.bar r)) s = .next t ∧
        PortShows t .bar0 ((List.range r.n).map fun i => BitVec.ofNat 32 (s.pageWord n (r.off + 4 * i - 0x1000 * n))) ∧
        Unchanged [.bar] [] s t)) ∧
  (∀ (s : State) (bytes : List Byte), Running s → s.scp.held = none →
    ∀ f, frameOf bytes = some f → f.isWrite = false → f.need ≤ f.rest.length → f.crcOk bytes = true → f.ok = true →
    (∀ i, i < f.n → readActs (f.off i) = false) →
    ∃ t, exec (.scpRead (.frame bytes)) s = .next t ∧ exec (.scpReadFixed bytes) s = .next t ∧
      PortShows t .scp ((List.range f.n).map fun i => s.readWord .scp (f.off i)) ∧ Unchanged [.scp] [] s t)

/-- A control-port frame with a wrong CRC or an illegal OP, address or range is answered and counted, and nothing is
read or written (R83, R84, R85, R107). -/
def Obligations.ScpErrorsTouchNothing : Prop :=
  ∀ (s : State) (bytes : List Byte), Running s →
    (s.scp.held = none → ∀ f, frameOf bytes = some f →
      (f.need ≤ f.rest.length → f.crcOk bytes = false →
        ∃ t, exec (.scpRead (.frame bytes)) s = .next t ∧ exec (.scpReadFixed bytes) s = .next t ∧ exec (.scpWrite bytes) s = .next t ∧
          exec (.scpWriteFixed bytes) s = .next t ∧ t.scp = { s.scp with reply := [0x3C], cpls := [], lead := f.need + 4, waits := 0 } ∧
          t.fld F.SCP_CNT0_CRC_ERR = min (s.fld F.SCP_CNT0_CRC_ERR + 1) 65535 ∧
          t.fld F.SCP_CNT0_FRAME_ERR = s.fld F.SCP_CNT0_FRAME_ERR ∧ t.fld F.SCP_EVT_CRC = 1 ∧
          t.fld F.SCP_EVT_FRAME = s.fld F.SCP_EVT_FRAME ∧ Unchanged [.scp] [0x088, 0x094] s t) ∧
      (f.need ≤ f.rest.length → f.crcOk bytes = true → f.ok = false →
        ∃ t, exec (.scpRead (.frame bytes)) s = .next t ∧ exec (.scpReadFixed bytes) s = .next t ∧ exec (.scpWrite bytes) s = .next t ∧
          exec (.scpWriteFixed bytes) s = .next t ∧ t.scp = { s.scp with reply := [0xC3], cpls := [], lead := f.need + 4, waits := 0 } ∧
          t.fld F.SCP_CNT0_FRAME_ERR = min (s.fld F.SCP_CNT0_FRAME_ERR + 1) 65535 ∧
          t.fld F.SCP_CNT0_CRC_ERR = s.fld F.SCP_CNT0_CRC_ERR ∧ t.fld F.SCP_EVT_FRAME = 1 ∧
          t.fld F.SCP_EVT_CRC = s.fld F.SCP_EVT_CRC ∧ Unchanged [.scp] [0x088, 0x094] s t) ∧
      (f.rest.length < f.need → f.isWrite = true →
        ∃ t, exec (.scpCsRise bytes) s = .next t ∧ t.scp.held = none ∧ t.scp.reply = [] ∧
          t.fld F.SCP_CNT0_FRAME_ERR = min (s.fld F.SCP_CNT0_FRAME_ERR + 1) 65535 ∧
          t.fld F.SCP_CNT0_CRC_ERR = s.fld F.SCP_CNT0_CRC_ERR ∧ t.fld F.SCP_EVT_FRAME = 1 ∧
          Unchanged [.scp] [0x088, 0x094] s t)) ∧
    (s.scp.held.isSome = true →
      ∃ t, exec (.scpCsRise bytes) s = .next t ∧ t.scp.held = none ∧
        t.fld F.SCP_CNT1_ABANDON = min (s.fld F.SCP_CNT1_ABANDON + 1) 65535 ∧ t.fld F.SCP_EVT_ABANDON = 1 ∧
        Unchanged [.scp, .chairs, .zhn, .ports] [0x08C, 0x094] s t)

/-- WHL_TIME_LO and FEN_VAL_LO return the low word and latch the high word for the reading path alone (R57). -/
def Obligations.LatchedReads : Prop :=
  ∀ (s : State) (p : Path), PathFree s p →
    (∃ t, exec (.whlTimeLoRead p) s = .next t ∧ PortShows t p [BitVec.ofNat 32 (s.now.toNat % 2 ^ 32)] ∧
      t.fldI (pathInst p) F.WHL_TIME_HI_TIME_HI = s.now.toNat / 2 ^ 32 ∧
      t.readWord p 0x194 = BitVec.ofNat 32 (s.now.toNat / 2 ^ 32) ∧
      t.readWord (otherPath p) 0x194 = s.readWord (otherPath p) 0x194 ∧
      t.word (pathInst (otherPath p)) 0x194 = s.word (pathInst (otherPath p)) 0x194 ∧
      Unchanged [portPart p] [0x194] s t) ∧
    (∃ t, exec (.fenValLoRead p) s = .next t ∧
      PortShows t p [BitVec.ofNat 32 ((s.fence (s.fld F.FEN_SEL_INDEX)).value.toNat % 2 ^ 32)] ∧
      t.fldI (pathInst p) F.FEN_VAL_HI_VAL_HI = (s.fence (s.fld F.FEN_SEL_INDEX)).value.toNat / 2 ^ 32 ∧
      t.word (pathInst (otherPath p)) 0x2DC = s.word (pathInst (otherPath p)) 0x2DC ∧
      Unchanged [portPart p] [0x2DC] s t)

/-- Every command keeps it that a line is dirty in one engine at most (R290, R291). -/
def Obligations.DirtyLinesHaveOneHolder : Prop :=
  State.reset.oneHolder ∧
  ∀ (i : Instr) (s t : State), exec i s = .next t → s.wf = true → s.oneHolder → t.oneHolder

/-- A word written through a window reads back through it, from staging or the object store, whatever an engine
buffers (R95, R284, R525). -/
def Obligations.WindowReadAfterWrite : Prop :=
  (∀ (s : State) (p : Path) (v : Word), Reaches s p 0x108 →
    (s.boot.inited = true → (s.fldI (pathInst p) F.WIN_CTL_SPACE = 1 ∨ s.fldI (pathInst p) F.WIN_CTL_SPACE = 2) →
      s.fldI (pathInst p) F.WIN_ADDR_ADDR < winSize (s.fldI (pathInst p) F.WIN_CTL_SPACE) →
      (s.oneHolder → s.protCheck (s.winAccess p true) = .ok →
        ∃ t, exec (.winDataWrite p v) s = .next t ∧ t.fldI (pathInst p) F.WIN_ADDR_ADDR = winNext s p ∧
          (∀ i, i < 4 → t.cohByte (s.winAccess p true).space ((s.winAccess p true).addr + i) =
            if s.fldI (pathInst p) F.WIN_CTL_SPACE = 1 ∧ inChanRecords (s.fldI (pathInst p) F.WIN_ADDR_ADDR) = true
              then s.cohByte (s.winAccess p true).space ((s.winAccess p true).addr + i)
              else BitVec.ofNat 8 (v.toNat / 256 ^ i))) ∧
      (s.oneHolder → s.protCheck (s.winAccess p false) = .ok →
        ∃ t, exec (.winDataRead p) s = .next t ∧ t.fldI (pathInst p) F.WIN_ADDR_ADDR = winNext s p ∧
          PortShows t p [BitVec.ofNat 32 (ofLe (s.cohBytes (s.winAccess p false).space (s.winAccess p false).addr 4))] ∧
          ∀ space a, space < 2 → a < memSize (spaceMem space) → t.cohByte space a = s.cohByte space a)) ∧
    (s.boot.inited = false → (s.fldI (pathInst p) F.WIN_CTL_SPACE = 1 ∨ s.fldI (pathInst p) F.WIN_CTL_SPACE = 2) →
      ∃ t, exec (.winDataRead p) s = .next t ∧ t.heldOn p .win = true ∧ Unchanged [portPart p] [] s t) ∧
    (s.fldI (pathInst p) F.WIN_ADDR_ADDR < winSize (s.fldI (pathInst p) F.WIN_CTL_SPACE) →
      ∀ w, (s.fldI (pathInst p) F.WIN_CTL_SPACE = 3 ∧ w = s.capWord (s.fldI (pathInst p) F.WIN_ADDR_ADDR / 4 * 4)) ∨
        (s.fldI (pathInst p) F.WIN_CTL_SPACE = 4 ∧ w = s.readLe .errq (s.fldI (pathInst p) F.WIN_ADDR_ADDR / 4 * 4) 4) ∨
        (s.fldI (pathInst p) F.WIN_CTL_SPACE = 5 ∧ w = s.readLe .trace (s.fldI (pathInst p) F.WIN_ADDR_ADDR / 4 * 4) 4) →
      ∃ t, exec (.winDataRead p) s = .next t ∧ PortShows t p [BitVec.ofNat 32 w] ∧
        t.fldI (pathInst p) F.WIN_ADDR_ADDR = winNext s p ∧ Unchanged [portPart p] [0x104] s t)) ∧
  (∀ (s : State) (p : Path) (v : Word), Reaches s p 0x108 → s.oneHolder → s.boot.inited = true →
    (s.fldI (pathInst p) F.WIN_CTL_SPACE = 1 ∨ s.fldI (pathInst p) F.WIN_CTL_SPACE = 2) →
    s.fldI (pathInst p) F.WIN_ADDR_ADDR < winSize (s.fldI (pathInst p) F.WIN_CTL_SPACE) →
    (s.fldI (pathInst p) F.WIN_CTL_SPACE = 1 → inChanRecords (s.fldI (pathInst p) F.WIN_ADDR_ADDR) = false) →
    s.fldI (pathInst p) F.WIN_CTL_INC = 0 → s.protCheck (s.winAccess p true) = .ok → s.protCheck (s.winAccess p false) = .ok →
    ∃ t, exec (.winDataWrite p v) s = .next t ∧
      (∃ u, exec (.winDataRead p) t = .next u ∧ PortShows u p [v]) ∧
      (∀ space a, (space = (s.winAccess p true).space → ¬ ((s.winAccess p true).addr ≤ a ∧ a < (s.winAccess p true).addr + 4)) →
        space < 2 → t.cohByte space a = s.cohByte space a))

/-- A faulting window access returns 0 or stores nothing, advances WIN_ADDR under INC, and captures the first fault
alone (R98, R97). Model's choices: log 13. -/
def Obligations.WindowFaults : Prop :=
  ∀ (s : State) (p : Path) (v : Word), Reaches s p 0x108 →
    (winSize (s.fldI (pathInst p) F.WIN_CTL_SPACE) = 0 →
      (∃ t, exec (.winDataRead p) s = .next t ∧ PortShows t p [0] ∧ WindowFault p 1 s t ∧
        Unchanged [portPart p, .host] [0x100, 0x104, 0x10C] s t) ∧
      (∃ t, exec (.winDataWrite p v) s = .next t ∧ WindowFault p 1 s t ∧ Unchanged [.host] [0x100, 0x104, 0x10C] s t)) ∧
    (winSize (s.fldI (pathInst p) F.WIN_CTL_SPACE) ≤ s.fldI (pathInst p) F.WIN_ADDR_ADDR →
      winSize (s.fldI (pathInst p) F.WIN_CTL_SPACE) ≠ 0 →
      s.boot.inited = true ∨ 3 ≤ s.fldI (pathInst p) F.WIN_CTL_SPACE →
      (∃ t, exec (.winDataRead p) s = .next t ∧ PortShows t p [0] ∧ WindowFault p 2 s t ∧
        Unchanged [portPart p, .host] [0x100, 0x104, 0x10C] s t) ∧
      (∃ t, exec (.winDataWrite p v) s = .next t ∧ WindowFault p 2 s t ∧ Unchanged [.host] [0x100, 0x104, 0x10C] s t)) ∧
    (3 ≤ s.fldI (pathInst p) F.WIN_CTL_SPACE → s.fldI (pathInst p) F.WIN_CTL_SPACE ≤ 5 → s.fldI (pathInst p) F.WIN_ADDR_ADDR < winSize (s.fldI (pathInst p) F.WIN_CTL_SPACE) →
      ∃ t, exec (.winDataWrite p v) s = .next t ∧ WindowFault p 3 s t ∧ Unchanged [.host] [0x100, 0x104, 0x10C] s t) ∧
    (s.boot.inited = true → (s.fldI (pathInst p) F.WIN_CTL_SPACE = 1 ∨ s.fldI (pathInst p) F.WIN_CTL_SPACE = 2) →
      s.fldI (pathInst p) F.WIN_ADDR_ADDR < winSize (s.fldI (pathInst p) F.WIN_CTL_SPACE) → ∀ cause region shade,
      (s.protCheck (s.winAccess p false) = .refuse cause region shade →
        ∃ t, exec (.winDataRead p) s = .next t ∧ PortShows t p [0] ∧ WindowFault p 4 s t ∧ t.fld F.PRT_EVT_VIOL = 1 ∧
          Unchanged [portPart p, .host] [0x100, 0x104, 0x10C, 0x284, 0x294, 0x298, 0x29C, 0x2A0, F.PRT_VCNT_COUNT.off] s t) ∧
      (s.protCheck (s.winAccess p true) = .refuse cause region shade →
        ∃ t, exec (.winDataWrite p v) s = .next t ∧ WindowFault p 4 s t ∧ t.fld F.PRT_EVT_VIOL = 1 ∧
          Unchanged [.host] [0x100, 0x104, 0x10C, 0x284, 0x294, 0x298, 0x29C, 0x2A0, F.PRT_VCNT_COUNT.off] s t)) ∧
    (∃ t, exec (.winReadTimeout p) s = .next t ∧ PortShows t p [0] ∧ WindowFault p 5 s t ∧ t.clk = s.clk + 8000 ∧
      UnchangedButTime [portPart p, .host] [0x100, 0x104, 0x10C] s t) ∧
    (∀ u : State, ∀ h, (u.port p).held = some h → h.reg = some .win → h.total = 1 → h.got = [] → h.fbe = 15 →
      u.pathDead p = false → u.wf = true → u.bar.behind = [] →
      ∃ t, exec (.winReadTimeout p) u = .next t ∧ PortShows t p [0] ∧ WindowFault p 5 u t ∧
        t.clk = max u.clk (h.since + 8000) ∧ UnchangedButTime [portPart p, .host] [0x100, 0x104, 0x10C] u t)

/-- A mailbox command that ends with any result but OK changes nothing else, and one written while BUSY only sets
OVERRUN (R104, R103, R105, R273). -/
def Obligations.MailboxCommandsBeginWhole : Prop :=
  (∀ (s : State) (p : Path) (op seq : Nat), MbReady s p → opInTable (op % 256) = false →
    ∃ t, exec (.badOp p op seq) s = .next t ∧ Begun t p seq mbBAD_OP [] .none ∧ Unchanged [jobPart p] [] s t) ∧
  (∀ (s : State) (i : Instr), ∀ r, mailRow i = some r → Reaches s r.1 0x0D8 →
    (s.pwr.seq = none → s.pwr.quiesced = false → s.busy r.1 = false →
      ∃ t, exec i s = .next t ∧ (t.job r.1).isSome = true ∧
        (∀ j, t.job r.1 = some j →
          j.seq = r.2 % 256 ∧ j.discard = false ∧ j.second = (s.job (otherPath r.1)).isSome ∧
          ((List.range 6).map fun k => j.args.getD k 0) = (List.range 6).map (s.arg r.1) ∧
          (j.second = true → Unchanged [jobPart r.1] [] s t) ∧
          (j.second = false → s.pfHeld = true → j.result = mbWRONG_STATE) ∧
          (j.second = false → isBadOp i = true → s.pfHeld = false → j.result = mbBAD_OP) ∧
          (j.result ≠ mbOK → Unchanged [jobPart r.1, .host] [0x2F8, 0x2F4] s t))) ∧
    (s.pwr.seq = none → s.pwr.quiesced = false → s.busy r.1 = true →
      ∃ t, exec i s = .next t ∧ t.fldI (pathInst r.1) F.CMD_STAT_OVERRUN = 1 ∧
        t.fldI (pathInst r.1) F.CMD_STAT_DONE_EVT = s.fldI (pathInst r.1) F.CMD_STAT_DONE_EVT ∧
        t.fldI (pathInst r.1) F.CMD_STAT_RESULT = s.fldI (pathInst r.1) F.CMD_STAT_RESULT ∧
        t.word (pathInst (otherPath r.1)) 0x0DC = s.word (pathInst (otherPath r.1)) 0x0DC ∧ Unchanged [] [0x0DC] s t) ∧
    (s.pwr.seq.isSome = true ∨ s.pwr.quiesced = true → exec i s = .next s))

/-- When a mailbox command finishes, results, RESULT and SEQ are written, BUSY clears and DONE_EVT is set; CMD_WAIT is
held until then or 50 microseconds (R100, R101). -/
def Obligations.MailboxFinishes : Prop :=
  ∀ (s : State) (p : Path), Running s →
    (∀ j, s.job p = some j → j.wait = .none → j.second = false → j.discard = false →
      ∃ t, exec (.mailboxDone p) s = .next t ∧ t.busy p = false ∧ t.fldI (pathInst p) F.CMD_STAT_RESULT = j.result % 256 ∧
        t.fldI (pathInst p) F.CMD_STAT_SEQ = j.seq % 256 ∧ t.fldI (pathInst p) F.CMD_STAT_DONE_EVT = 1 ∧
        (j.res.length = 1 ∨ j.res.length = 2 → t.word (pathInst p) 0x0E4 = j.res.getD 0 0) ∧
        (j.res.length = 2 → t.word (pathInst p) 0x0E8 = j.res.getD 1 0) ∧ t.heldOn p .cmdWait = false ∧
        (∀ k, s.job (otherPath p) = some k → k.second = true →
          (t.job (otherPath p)).map (fun j => (j.op, j.args, j.seq, j.second)) = some (k.op, k.args, k.seq, false))) ∧
    (s.pathDead p = false → (s.port p).held = none →
      ∃ t, exec (.cmdWaitRead p) s = .next t ∧ Unchanged [portPart p] [] s t ∧
        (s.busy p = true → t.heldOn p .cmdWait = true) ∧
        (s.busy p = false → PortShows t p [BitVec.ofNat 32 ((s.word (pathInst p) 0x0DC).toNat / 2 * 2)])) ∧
    (∀ h, (s.port p).held = some h → h.reg = some .cmdWait → h.total = 1 → h.got = [] → s.busy p = true →
      ∃ t, exec (.cmdWaitTimeout p) s = .next t ∧ t.clk = max s.clk (h.since + 40000) ∧
        PortShows t p [BitVec.ofNat 32 ((s.word (pathInst p) 0x0DC).toNat / 2 * 2 + 1)] ∧
        UnchangedButTime [portPart p] [] s t)

/-- CTX_CREATE takes the free index freed longest ago and makes the context LIVE and empty; CTX_REINIT makes a LOST
one LIVE again (R123, R119, R561). Model's choices: log 84. -/
def Obligations.ContextCreateAndReinit : Prop :=
  ∀ (s : State) (p : Path) (seq n : Nat), MbReady s p →
    (s.arg p 0 ≤ 2 → (s.arg p 1 + 2 ^ 32 * s.arg p 2) % 2 ^ 13 = 0 → s.arg p 1 + 2 ^ 32 * s.arg p 2 < 2 ^ 52 →
      OldestFree 1 64 (fun i => (s.ctx i).st == .free) (fun i => (s.ctx i).freedAt) n →
      ∃ t, exec (.ctxCreate p seq) s = .next t ∧ Begun t p seq mbOK [handle 1 (s.ctx n).gen n] .none ∧
        t.ctx n = { Ctx.init with
          st := .live, gen := (s.ctx n).gen, freedAt := (s.ctx n).freedAt, mode := s.arg p 0, root := s.arg p 1 + 2 ^ 32 * s.arg p 2 } ∧
        (t.word n 0x2B8).toNat = 1 ∧ (∀ m, m ≠ n → t.ctx m = s.ctx m ∧ t.word m 0x2B8 = s.word m 0x2B8) ∧
        Unchanged [jobPart p, .ctxs] [0x2B8] s t) ∧
    (∀ m, s.ctxOf (s.arg p 0) = some m → isDevCtx m = false → (s.ctx m).st = .lost →
      ∃ t, exec (.ctxReinit p seq) s = .next t ∧ Begun t p seq mbOK [] .none ∧
        t.ctx m = { s.ctx m with st := .live, fault := none, dberr := 0, dbslot := 0 } ∧
        t.tlb = s.tlb.filter (fun e => e.ctx != m) ∧
        (∀ c, (s.chan c).st ≠ .free → (s.chan c).ctx = m → t.chan c = { s.chan c with pace := 0 }) ∧
        (∀ q, (s.queue q).live = true → (s.queue q).ctx = m → t.queue q = { s.queue q with faulted := false }) ∧
        Unchanged [jobPart p, .ctxs, .tlb, .chans, .queues] [] s t)

/-- CTX_DESTROY makes a context and its channels DYING; its teardown frees them, advances generations and raises its
vector (R144). -/
def Obligations.ContextTeardown : Prop :=
  ∀ (s : State) (p : Path) (seq : Nat),
    (MbReady s p → ∀ n, s.ctxOf (s.arg p 0) = some n → isDevCtx n = false → (s.ctx n).st ≠ .dying →
      ∃ t, exec (.ctxDestroy p seq) s = .next t ∧ Begun t p seq mbOK [] (.ctxQuiet n) ∧ (t.ctx n).st = .dying ∧
        (t.ctx n).gen = (s.ctx n).gen ∧
        (∀ c, (s.chan c).st ≠ .free → (s.chan c).ctx = n → (t.chan c).st = .dying) ∧
        (∀ d ∈ t.due, (s.queue d.queue).live = true → (s.queue d.queue).ctx ≠ n)) ∧
    (Running s → ∀ n, n < 64 → n ≠ 0 → (s.ctx n).st = .dying → s.ctxQuiet n = true → s.cupBusyFor n = false →
      s.jobWaits (.ctxQuiet n) = false →
      ∃ t, exec (.ctxTeardownComplete n) s = .next t ∧ (t.ctx n).st = .free ∧ (t.ctx n).gen = ((s.ctx n).gen + 1) % 4096 ∧
        (t.ctx n).view = [] ∧ (t.word n 0x2B8).toNat = 1 ∧
        (∀ c, (s.chan c).st ≠ .free → (s.chan c).ctx = n → (t.chan c).st = .free) ∧
        (∀ q, (s.queue q).live = true → (s.queue q).ctx = n → (t.queue q).live = false) ∧
        (∀ e ∈ t.tlb, e.ctx ≠ n) ∧ (s.host.msixEn = true → bitAt t.host.pend (n + 1) = true))

/-- QUEUE_CREATE makes an empty queue at the oldest free index and lowest free slot; QUEUE_DESTROY removes what it
started and owes (R132, R119, R146). Model's choices: log 69. -/
def Obligations.QueueCreateAndDestroy : Prop :=
  ∀ (s : State) (p : Path) (seq : Nat), MbReady s p →
    (∀ n, s.ctxOf (s.arg p 0) = some n → (s.ctx n).st = .live → 4 ≤ s.arg p 1 → s.arg p 1 ≤ 12 →
      RingAllowed n (2 ^ s.arg p 1) (s.arg p 2) (s.arg p 3) → RingAllowed n (2 ^ s.arg p 1) (s.arg p 4) (s.arg p 5) →
      ∀ q slot, OldestFree 0 1024 (fun i => !(s.queue i).live) (fun i => (s.queue i).freedAt) q →
      slot < 256 → s.slotQueue n slot = none → (∀ k, k < slot → (s.slotQueue n k).isSome = true) →
      ∃ t, exec (.queueCreate p seq) s = .next t ∧ Begun t p seq mbOK [handle 2 (s.queue q).gen q, slot] .none ∧
        t.queue q = { Queue.init with
          live := true, gen := (s.queue q).gen, freedAt := (s.queue q).freedAt, ctx := n, log2 := s.arg p 1,
          sqRing := s.arg p 2 + 2 ^ 32 * s.arg p 3, cqRing := s.arg p 4 + 2 ^ 32 * s.arg p 5, slot := slot } ∧
        (∀ r, r ≠ q → t.queue r = s.queue r) ∧ Unchanged [jobPart p, .queues] [] s t) ∧
    (∀ q, s.queueOf (s.arg p 0) = some q → (s.queue q).destroying = false →
      ∃ t, exec (.queueDestroy p seq) s = .next t ∧ Begun t p seq mbOK [] (.queueQuiet q) ∧
        (t.chanList.any (fun c => (t.chan c).subs.any (·.queue == q)) = true → (t.queue q).destroying = true ∧ (t.queue q).live = true) ∧
        (t.chanList.any (fun c => (t.chan c).subs.any (·.queue == q)) = false →
          (t.queue q).live = false ∧ (t.queue q).gen = ((s.queue q).gen + 1) % 4096) ∧
        (∀ d ∈ t.due, d.queue ≠ q) ∧ (∀ c, (t.chan c).run = none → ∀ x ∈ (t.chan c).subs, x.queue ≠ q) ∧
        (∀ r, r ≠ q → (s.queue r).destroying = false → (t.queue r).live = (s.queue r).live))

/-- CHAN_CREATE makes an IDLE channel with a zeroed descriptor block; CHAN_DESTROY frees one or makes it DYING;
CHAN_REINIT makes one IDLE (R139, R119, R147, R102, R560). Model's choices: log 37 and log 84. -/
def Obligations.ChannelCreateDestroyReinit : Prop :=
  ∀ (s : State) (p : Path) (seq : Nat), MbReady s p →
    (s.oneHolder → ∀ n, s.ctxOf (s.arg p 0) = some n → (s.ctx n).st = .live →
      chanArgsOk (s.arg p 1) (s.arg p 2) (s.arg p 3) = true →
      (∀ d, (s.chan d).st ≠ .free → 0 < (s.chan d).count ∧ (s.chan d).base + (s.chan d).count ≤ 8192) →
      ∀ base, base + s.arg p 3 ≤ 8192 → BlockFree s base (s.arg p 3) → (∀ b, b < base → ¬ BlockFree s b (s.arg p 3)) →
      ∀ c, OldestFree 0 256 (fun i => (s.chan i).st == .free) (fun i => (s.chan i).freedAt) c →
      ∃ t, exec (.chanCreate p seq) s = .next t ∧ Begun t p seq mbOK [handle 3 (s.chan c).gen c, base] .none ∧
        (t.chan c).st = .idle ∧ (t.chan c).ctx = n ∧ (t.chan c).gen = (s.chan c).gen ∧ (t.chan c).base = base ∧
        (t.chan c).count = s.arg p 3 ∧ (t.chan c).burst = s.arg p 1 % 256 ∧ (t.chan c).subs = [] ∧ (t.chan c).run = none ∧
        (t.chan c).resValid = false ∧ (∀ i, i < 64 * s.arg p 3 → t.cohByte 1 (64 * base + i) = 0) ∧
        (∀ d, d ≠ c → t.chan d = s.chan d) ∧ Unchanged [jobPart p, .chans, .stag, .objs, .engines, .elder, .ports, .wbq, .descUsed] [0x07C] s t) ∧
    (∀ c, s.chanOf (s.arg p 0) = some c →
      ((s.chan c).st ≠ .dying → (s.ctx (s.chan c).ctx).st ≠ .dying →
        (s.atomicBusy c = true →
          ∃ t, exec (.chanDestroy p seq) s = .next t ∧ Begun t p seq mbOK [] .none ∧
            (t.chan c).st = .dying ∧ (t.chan c).gen = (s.chan c).gen) ∧
        (s.atomicBusy c = false → s.oneHolder → (s.chan c).base + (s.chan c).count ≤ 8192 →
          ∃ t, exec (.chanDestroy p seq) s = .next t ∧ Begun t p seq mbOK [] .none ∧
            (t.chan c).st = .free ∧ (t.chan c).gen = ((s.chan c).gen + 1) % 4096 ∧ (t.chan c).subs = [] ∧ (t.chan c).run = none ∧
            (∀ i, i < 64 * (s.chan c).count → t.cohByte 1 (64 * (s.chan c).base + i) = 0))) ∧
      (¬ (p = .bar0 ∧ ((s.chan c).ctx = 64 ∨ (s.chan c).ctx = 65)) →
        ((s.chan c).st = .idle ∨ (s.chan c).st = .halted ∨ (s.chan c).st = .stopped) →
        ∃ t, exec (.chanReinit p seq) s = .next t ∧ Begun t p seq mbOK [] .none ∧
          t.chan c = { s.chan c with st := .idle, resValid := false, faultDesc := 0, faultOff := 0, pace := 0 } ∧
          (∀ d, d ≠ c → t.chan d = s.chan d) ∧ Unchanged [jobPart p, .chans] [] s t))

/-- MEM_CREATE makes an object with count 0; REF and UNREF move the unattributed count by one; MEM_DESTROY frees at
count 0 (R353, R355, R141, R142). -/
def Obligations.MemoryObjectsAndReferences : Prop :=
  ∀ (s : State) (p : Path) (seq : Nat), MbReady s p →
    (∀ n, s.ctxOf (s.arg p 0) = some n → (s.ctx n).st = .live → s.arg p 5 = 0 →
      memArgsOk n (s.arg p 1) (s.arg p 2 + 2 ^ 32 * s.arg p 3) (s.arg p 4) = true →
      (s.arg p 1 = 1 → s.arg p 2 + 2 ^ 32 * s.arg p 3 + s.arg p 4 ≤ driverPart (s.ctx n).mode * 4096) →
      ∀ i, OldestFree 0 4096 (fun i => !(s.mobj i).live) (fun i => (s.mobj i).freedAt) i →
      ∃ t, exec (.memCreate p seq) s = .next t ∧ Begun t p seq mbOK [handle 4 (s.mobj i).gen i] .none ∧
        t.mobj i = { MemObj.init with
          live := true, gen := (s.mobj i).gen, freedAt := (s.mobj i).freedAt, owner := n, typ := s.arg p 1,
          base := s.arg p 2 + 2 ^ 32 * s.arg p 3, len := s.arg p 4 } ∧
        (t.mobj i).cnt = 0 ∧ (∀ j, j ≠ i → t.mobj j = s.mobj j) ∧ Unchanged [jobPart p, .mems] [] s t) ∧
    (∀ n, s.ctxOf (s.arg p 0) = some n → (s.ctx n).st = .live → s.arg p 5 ≠ 0 →
      ∀ f, s.fenceOf (s.arg p 5) = some f → (s.fence f).usable n = true → (s.fence f).destroy = false →
      (s.fence f).cnt < 2 ^ 32 - 1 →
      memArgsOk n (s.arg p 1) (s.arg p 2 + 2 ^ 32 * s.arg p 3) (s.arg p 4) = true →
      (s.arg p 1 = 1 → s.arg p 2 + 2 ^ 32 * s.arg p 3 + s.arg p 4 ≤ driverPart (s.ctx n).mode * 4096) →
      ∀ i, OldestFree 0 4096 (fun i => !(s.mobj i).live) (fun i => (s.mobj i).freedAt) i →
      ∃ t, exec (.memCreate p seq) s = .next t ∧ Begun t p seq mbOK [handle 4 (s.mobj i).gen i] .none ∧
        t.mobj i = { MemObj.init with
          live := true, gen := (s.mobj i).gen, freedAt := (s.mobj i).freedAt, owner := n, typ := s.arg p 1,
          base := s.arg p 2 + 2 ^ 32 * s.arg p 3, len := s.arg p 4, release := s.arg p 5 } ∧
        t.fence f = { s.fence f with unattr := (s.fence f).unattr + 1 } ∧ (∀ g, g ≠ f → t.fence g = s.fence g) ∧
        (∀ j, j ≠ i → t.mobj j = s.mobj j) ∧ Unchanged [jobPart p, .mems, .fences] [] s t) ∧
    (∀ i, s.memOf (s.arg p 0) = none → s.fenceOf (s.arg p 0) = some i →
      (((s.fence i).destroy = false ∨ (s.fence i).proxy = true) → (s.fence i).cnt < 2 ^ 32 - 1 →
        ∃ t, exec (.ref p seq) s = .next t ∧ Begun t p seq mbOK [(s.fence i).cnt + 1] .none ∧
          t.fence i = { s.fence i with unattr := (s.fence i).unattr + 1 } ∧ (∀ j, j ≠ i → t.fence j = s.fence j) ∧
          Unchanged [jobPart p, .fences] [] s t) ∧
      (0 < (s.fence i).unattr →
        ∃ t, exec (.unref p seq) s = .next t ∧ Begun t p seq mbOK [(s.fence i).cnt - 1] .none ∧
          (∀ j, j ≠ i → t.fence j = s.fence j) ∧
          ((((s.fence i).destroy = false ∧ (s.fence i).proxy = false) ∨ 1 < (s.fence i).cnt) →
            t.fence i = { s.fence i with unattr := (s.fence i).unattr - 1 } ∧ Unchanged [jobPart p, .fences] [] s t) ∧
          ((s.fence i).destroy = true → (s.fence i).proxy = false → (s.fence i).cnt = 1 →
            (t.fence i).live = false ∧ (t.fence i).gen = ((s.fence i).gen + 1) % 4096))) ∧
    (∀ i, s.memOf (s.arg p 0) = some i →
      ((s.mobj i).destroy = false → (s.mobj i).cnt < 2 ^ 32 - 1 →
        ∃ t, exec (.ref p seq) s = .next t ∧ Begun t p seq mbOK [(s.mobj i).cnt + 1] .none ∧
          t.mobj i = { s.mobj i with unattr := (s.mobj i).unattr + 1 } ∧ (∀ j, j ≠ i → t.mobj j = s.mobj j) ∧
          Unchanged [jobPart p, .mems] [] s t) ∧
      (0 < (s.mobj i).unattr → (s.mobj i).destroy = false →
        ∃ t, exec (.unref p seq) s = .next t ∧ Begun t p seq mbOK [(s.mobj i).cnt - 1] .none ∧
          t.mobj i = { s.mobj i with unattr := (s.mobj i).unattr - 1 } ∧ (∀ j, j ≠ i → t.mobj j = s.mobj j) ∧
          Unchanged [jobPart p, .mems] [] s t) ∧
      (0 < (s.mobj i).unattr → (s.mobj i).destroy = true →
        ∃ t, exec (.unref p seq) s = .next t ∧ Begun t p seq mbOK [(s.mobj i).cnt - 1] .none ∧
          (1 < (s.mobj i).cnt → t.mobj i = { s.mobj i with unattr := (s.mobj i).unattr - 1 }) ∧
          ((s.mobj i).cnt = 1 → (t.mobj i).live = false ∧ (t.mobj i).gen = ((s.mobj i).gen + 1) % 4096) ∧
          (∀ j, j ≠ i → t.mobj j = s.mobj j)) ∧
      ((s.mobj i).destroy = false →
        ∃ t, exec (.memDestroy p seq) s = .next t ∧ Begun t p seq mbOK [] .none ∧
          (0 < (s.mobj i).cnt → t.mobj i = { s.mobj i with destroy := true }) ∧
          ((s.mobj i).cnt = 0 → (t.mobj i).live = false ∧ (t.mobj i).gen = ((s.mobj i).gen + 1) % 4096) ∧
          (∀ j, j ≠ i → t.mobj j = s.mobj j)))

/-- FENCE_CREATE gives the value asked, FENCE_EXPORT a token that stays, FENCE_IMPORT at home the handle,
FENCE_DESTROY aborts the waits (R367, R371, R374, R375). Model's choices: log 36. -/
def Obligations.FencesOfTheMailbox : Prop :=
  ∀ (s : State) (p : Path) (seq : Nat), MbReady s p →
    (∀ n, s.ctxOf (s.arg p 0) = some n → (s.ctx n).st = .live →
      ∀ i, OldestFree 0 4096 (fun i => !(s.fence i).live) (fun i => (s.fence i).freedAt) i →
      ∃ t, exec (.fenceCreate p seq) s = .next t ∧ Begun t p seq mbOK [handle 5 (s.fence i).gen i] .none ∧
        (t.fence i).live = true ∧ (t.fence i).owner = n ∧ (t.fence i).proxy = false ∧ (t.fence i).cnt = 0 ∧
        (t.fence i).gen = (s.fence i).gen ∧ (t.fence i).value = BitVec.ofNat 64 (s.arg p 1 + 2 ^ 32 * s.arg p 2) ∧
        (∀ j, j ≠ i → t.fence j = s.fence j) ∧ Unchanged [jobPart p, .fences] [] s t) ∧
    (∀ i, s.fenceOf (s.arg p 0) = some i → (s.fence i).proxy = false → (s.fence i).destroy = false →
      (∃ t, exec (.fenceExport p seq) s = .next t ∧ (t.fence i).nonce ≠ 0 ∧
        Begun t p seq mbOK [token s.self i (t.fence i).nonce] .none ∧
        ((s.fence i).nonce = 0 → (t.fence i).nonce < 65536) ∧
        ((s.fence i).nonce ≠ 0 → (t.fence i).nonce = (s.fence i).nonce) ∧
        (t.fence i).value = (s.fence i).value ∧ (∀ j, j ≠ i → t.fence j = s.fence j) ∧
        Unchanged [jobPart p, .fences, .freeCtr] [] s t) ∧
      (∃ t, exec (.fenceDestroy p seq) s = .next t ∧ Begun t p seq mbOK [] .none ∧
        (0 < (s.fence i).cnt → (t.fence i).destroy = true ∧ (t.fence i).live = true) ∧
        ((s.fence i).cnt = 0 → (t.fence i).live = false ∧ (t.fence i).gen = ((s.fence i).gen + 1) % 4096) ∧
        (∀ c v, (t.chan c).st = .parked → (t.chan c).park ≠ .fence i v))) ∧
    (∀ n, s.ctxOf (s.arg p 1) = some n → (s.ctx n).st = .live → bits (s.arg p 0) 14 2 = 0 → bits (s.arg p 0) 16 16 ≠ 0 →
      bits (s.arg p 0) 12 2 = s.self →
      s.tokenFence (bits (s.arg p 0) 0 12) (bits (s.arg p 0) 16 16) = some (bits (s.arg p 0) 0 12) →
      (s.fence (bits (s.arg p 0) 0 12)).cnt < 2 ^ 32 - 1 →
      ∃ t, exec (.fenceImport p seq) s = .next t ∧
        Begun t p seq mbOK [handle 5 (s.fence (bits (s.arg p 0) 0 12)).gen (bits (s.arg p 0) 0 12)] .none ∧
        (isDevCtx n = true → t.fences = s.fences) ∧
        (isDevCtx n = false → bitAt (t.fence (bits (s.arg p 0) 0 12)).imported n = true ∧
          bitAt (t.fence (bits (s.arg p 0) 0 12)).holds n = true) ∧
        (∀ j, j ≠ bits (s.arg p 0) 0 12 → t.fence j = s.fence j) ∧ Unchanged [jobPart p, .fences] [] s t)

/-- STAGE_MAP and STAGE_UNMAP set one view entry, CHAIRTAB_OPEN returns the table handle, LANE_REINIT and
ENGINE_REINIT restart their unit (R130, R131, R333, R120, R437, R562, R563). -/
def Obligations.ViewsTablesLanesAndEngines : Prop :=
  (∀ (s : State) (p : Path) (seq : Nat), MbReady s p →
    (∀ n, s.ctxOf (s.arg p 0) = some n → (s.ctx n).st ≠ .dying →
      (isDevCtx n = false → s.arg p 1 ≤ 511 → s.arg p 1 < driverPart (s.ctx n).mode →
        (∀ page ro, page < 512 → ro < 2 → s.arg p 2 = page + 2 ^ 16 * ro → s.inPool page = false →
          ∃ t, exec (.stageMap p seq) s = .next t ∧ Begun t p seq mbOK [] (.viewSet n (s.arg p 1) (page + 512 * ro + 1)) ∧
            Unchanged [jobPart p] [] s t) ∧
        (∃ t, exec (.stageUnmap p seq) s = .next t ∧ Begun t p seq mbOK [] (.viewSet n (s.arg p 1) 0) ∧
          Unchanged [jobPart p] [] s t)) ∧
      (s.arg p 1 ≤ 15 → s.admits (s.arg p 1) n = true →
        ∃ t, exec (.chairtabOpen p seq) s = .next t ∧
          Begun t p seq mbOK [handle 6 (s.ctx n).gen (16 * n + s.arg p 1)] .none ∧ Unchanged [jobPart p] [] s t)) ∧
    (p = .scp → s.arg p 0 ≤ 7 → s.fldI 0 (F.LAN_CTL_EN.lane (s.arg p 0)) = 1 → (s.lane (s.arg p 0)).st ≠ .hold →
      s.pwr.entering = false → s.pwr.standby = false →
      ∃ t, exec (.laneReinit p seq) s = .next t ∧ Begun t p seq mbOK [] .none ∧ (t.lane (s.arg p 0)).st = .lock) ∧
    (p = .scp → s.arg p 0 ≤ 3 → bitAt (s.fld F.ERR_ENG_OFF) (s.arg p 0) = true → s.engineIdle (s.arg p 0) = true →
      s.oneHolder →
      ∃ t, exec (.engineReinit p seq) s = .next t ∧ Begun t p seq mbOK [] .none ∧ (t.engine (s.arg p 0)).wcb = [] ∧
        (t.engine (s.arg p 0)).cache = [] ∧ (∀ e, e ≠ s.arg p 0 → t.engine e = s.engine e) ∧
        (∀ space a, space < 2 → a < memSize (spaceMem space) → t.cohByte space a = s.cohByte space a) ∧
        Unchanged [jobPart p, .engines, .stag, .objs, .ports, .wbq] [] s t)) ∧
  (∀ (s : State) (p : Path), Running s → s.job (otherPath p) = none → ∀ j, s.job p = some j → ∀ n e v, j.wait = .viewSet n e v →
    j.second = false → (s.ctx n).st = .live ∨ (s.ctx n).st = .lost →
    ∃ t, exec (.mailboxDone p) s = .next t ∧ t.ctx n = { s.ctx n with view := SMap.set 0 (s.ctx n).view e v } ∧
      (∀ m, m ≠ n → t.ctx m = s.ctx m) ∧ t.job p = none)

/-- A refused DEV_STOP write changes nothing but REFUSED; a stop no stronger than the pending one, or of a channel at
rest, has no effect (R256, R257). -/
def Obligations.StopsRefusedOrWithoutEffect : Prop :=
  ∀ (s : State) (p : Path) (c gen : Nat), Reaches s p 0x050 →
    ((s.chan c).st = .free ∨ (s.chan c).gen ≠ gen ∨ (p = .bar0 ∧ ((s.chan c).ctx = 64 ∨ (s.chan c).ctx = 65)) →
      ∃ t, exec (.devStopDrain p c gen) s = .next t ∧ exec (.devStopHalt p c gen) s = .next t ∧
        exec (.devStopAbort p c gen) s = .next t ∧
        t.fld F.DEV_STOP_CNT_REFUSED = min (s.fld F.DEV_STOP_CNT_REFUSED + 1) 65535 ∧ t.fld F.DEV_STOP_EVT_REFUSED = 1 ∧
        t.fld F.DEV_STOP_EVT_PWRFAIL = s.fld F.DEV_STOP_EVT_PWRFAIL ∧ t.fld F.DEV_STOP_EVT_PF_LOST = s.fld F.DEV_STOP_EVT_PF_LOST ∧
        Unchanged [.host] [0x058, 0x054] s t) ∧
    ((s.chan c).gen = gen → ¬ (p = .bar0 ∧ ((s.chan c).ctx = 64 ∨ (s.chan c).ctx = 65)) →
      ((s.chan c).st = .idle ∨ (s.chan c).st = .halted ∨ (s.chan c).st = .stopped ∨ (s.chan c).st = .dying →
        exec (.devStopDrain p c gen) s = .next s ∧ exec (.devStopHalt p c gen) s = .next s ∧
          exec (.devStopAbort p c gen) s = .next s) ∧
      ((s.chan c).st ≠ .free → 1 ≤ (s.chan c).stopPend → exec (.devStopDrain p c gen) s = .next s) ∧
      ((s.chan c).st ≠ .free → 2 ≤ (s.chan c).stopPend → exec (.devStopHalt p c gen) s = .next s) ∧
      ((s.chan c).st ≠ .free → 3 ≤ (s.chan c).stopPend → exec (.devStopAbort p c gen) s = .next s))

/-- DRAIN is only recorded; HALT waits for the burst boundary of a running channel and halts a parked one at once;
ABORT ends the chain at once (R257, R258, R261, R262, R267). Model's choices: log 19. -/
def Obligations.StopsTakeEffect : Prop :=
  ∀ (s : State) (p : Path) (c gen : Nat),
    (StopNames s p c gen → ((s.chan c).st = .queued ∨ (s.chan c).st = .running ∨ (s.chan c).st = .parked) →
      ((s.chan c).stopPend = 0 →
        ∃ t, exec (.devStopDrain p c gen) s = .next t ∧ t.chan c = { s.chan c with stopPend := 1 } ∧
          (∀ d, d ≠ c → t.chan d = s.chan d) ∧ Unchanged [.chans] [] s t) ∧
      ((s.chan c).stopPend < 2 → (s.chan c).st = .running → (s.chan c).run.isSome = true →
        ∃ t, exec (.devStopHalt p c gen) s = .next t ∧ t.chan c = { s.chan c with stopPend := 2 } ∧
          (∀ d, d ≠ c → t.chan d = s.chan d) ∧
          (∀ l, l < 8 → t.lane l = { s.lane l with waiting := (s.lane l).waiting.filter (fun f => !f.ofChan c) }) ∧
          Unchanged [.chans, .lanes] [] s t) ∧
      ((s.chan c).stopPend < 2 → (s.chan c).st ≠ .running → s.haltWaits c = false →
        (s.chan c).ringIdle = false →
        ((∀ d, s.cur c = some d → ∀ st, d.phase ≠ .done st) →
          ∃ t, exec (.devStopHalt p c gen) s = .next t ∧ HaltedAt t c (s.resumePlace c).1 (s.resumePlace c).2) ∧
        (∀ d, s.cur c = some d → d.phase = .done stDONE → dFenceNext d.words = false → endsAt d.words (dNext d.words) = false →
          dHaltAfter d.words = false →
          ∃ t, exec (.devStopHalt p c gen) s = .next t ∧ HaltedAt t c (dNext d.words) 0)) ∧
      ((s.chan c).stopPend < 3 → s.atomicBusy c = false → (s.chan c).ringIdle = false →
        ∃ t, exec (.devStopAbort p c gen) s = .next t ∧ OnItsWay t c .idle ∧
          (t.chan c).run = none ∧ (t.chan c).subs = [] ∧ (∀ e, e < 4 → (t.engine e).chan ≠ some c))) ∧
    (Running s → (s.chan c).st = .running → (s.chan c).stopPend = 2 →
      ∀ r, (s.chan c).run = some r →
      (r.cur = none →
        ∃ t, exec (.haltAtBurstBoundary c) s = .next t ∧ HaltedAt t c r.next (r.resume.getD 0)) ∧
      (∀ d, r.cur = some d → d.phase = .ready → d.data = none →
        ((isMoveOp (dOp d.words) = true ∧ d.off % max (s.burstBytes c d.words) 1 = 0) ∨
          ((dOp d.words = 0x10 ∨ dOp d.words = 0x11) ∧ s.haltWaits c = false) →
          ∃ t, exec (.haltAtBurstBoundary c) s = .next t ∧ HaltedAt t c d.idx d.off) ∧
        (isWaitOp (dOp d.words) = true ∨ isCtlOp (dOp d.words) = true →
          ∃ t, exec (.haltAtBurstBoundary c) s = .next t ∧ HaltedAt t c d.idx 0)))

/-- DEV_RESET and DEV_PWRCYC take effect by two key words within 100 microseconds, and any other word cancels and sets
KEYBAD (R565, R567). Model's choices: log 61. -/
def Obligations.KeyedSequences : Prop :=
  ∀ (s : State) (v : Word), Running s → s.scp.held = none → s.pwr.seq = none → s.pwr.quiesced = false →
    (exec (.devResetKey 0xC1A0) s = .next { s with pwr := { s.pwr with rstKey := some s.clk } }) ∧
    (exec (.devPwrcycKey 0x50FF) s = .next { s with pwr := { s.pwr with cycKey := some s.clk } }) ∧
    (∀ k, s.pwr.rstKey = some k → s.clk ≤ k + 80000 →
      ∃ t, exec (.devResetKey 0x0A1C) s = .next t ∧ t.pwr.seq = some true ∧ t.pwr.rstKey = none ∧
        (∀ c, (s.chan c).ctx < 64 → s.atomicBusy c = false → (s.chan c).st ≠ .free → (s.chan c).st ≠ .dying →
          (t.chan c).run = none ∧ (t.chan c).subs = [])) ∧
    (∀ k, s.pwr.cycKey = some k → s.clk ≤ k + 80000 →
      exec (.devPwrcycKey 0xFF05) s = .next { s with pwr := { s.pwr with cycKey := none, seq := some false } }) ∧
    (v ≠ 0xC1A0 → (v ≠ 0x0A1C ∨ s.pwr.rstKey = none) →
      ∃ t, exec (.devResetKey v) s = .next t ∧ t.pwr = { s.pwr with rstKey := none } ∧ t.fld F.ERR_EVT_KEYBAD = 1 ∧
        t.fld F.ERR_CNT_KEYBAD = min (s.fld F.ERR_CNT_KEYBAD + 1) 65535 ∧ t.fld F.ERR_CNT_LOST = s.fld F.ERR_CNT_LOST ∧
        Unchanged [.pwr, .host] [0x3CC, 0x3D0] s t) ∧
    (v ≠ 0x50FF → (v ≠ 0xFF05 ∨ s.pwr.cycKey = none) →
      ∃ t, exec (.devPwrcycKey v) s = .next t ∧ t.pwr = { s.pwr with cycKey := none } ∧ t.fld F.ERR_EVT_KEYBAD = 1 ∧
        t.fld F.ERR_CNT_KEYBAD = min (s.fld F.ERR_CNT_KEYBAD + 1) 65535 ∧ t.fld F.ERR_CNT_LOST = s.fld F.ERR_CNT_LOST ∧
        Unchanged [.pwr, .host] [0x3CC, 0x3D0] s t)

/-- A device reset empties the object tables and keeps the PCIe link and the locks; a power cycle request drives its
pin low; a lost clock stops everything (R566, R567, R568, R579). Model's choices: log 60. -/
def Obligations.DeviceResetAndPowerCycle : Prop :=
  ∀ s : State, Running s →
    (s.pwr.seq = some true → s.kindle.entry = none → s.scp.held = none → s.bar.held = none →
      ∃ t, exec .deviceReset s = .next t ∧ t.ctxs = ctxsReset ∧ t.chans = [] ∧ t.queues = [] ∧ t.mems = [] ∧ t.fences = [] ∧
        t.chairs = [] ∧ t.due = [] ∧ t.tlb = [] ∧ t.host.link = s.host.link ∧ t.host.table = s.host.table ∧
        t.host.gen = s.host.gen ∧ t.host.width = s.host.width ∧ t.host.reads = [] ∧ t.host.outq = [] ∧ t.pfHeld = false ∧
        t.pwr.seq = none ∧ t.fld F.WHL_CTL_LOCK = s.fld F.WHL_CTL_LOCK ∧ t.fld F.PRT_CTL_LOCK = s.fld F.PRT_CTL_LOCK ∧
        t.fld F.CUP_CTL_LOCK = s.fld F.CUP_CTL_LOCK ∧ t.fld F.KND_CTL_ARM = 0 ∧ t.fld F.GOV_CTL_EN = 0 ∧ t.straps = s.straps) ∧
    (s.pwr.seq = some false → s.kindle.entry = none →
      ∃ t, exec .pwrcycReq s = .next t ∧ t.pwr.pin = .low ∧ t.pwr.quiesced = true ∧ t.pwr.seq = none) ∧
    (∃ t, exec .clockFailure s = .next t ∧ t.pwr.off = true ∧ t.pwr.clockLost = true ∧
      (s.fld F.ERR_CTL_AUTO_CYC = 1 → t.pwr.pin = .low) ∧ (s.fld F.ERR_CTL_AUTO_CYC = 0 → t.pwr.pin = s.pwr.pin) ∧
      Unchanged [.pwr] [] s t)

/-- After a cold or warm reset every register reads its Reset word, the object tables are as at reset, and the straps
are sampled (R579, R523). Model's choices: log 57. -/
def Obligations.ColdAndWarmResets : Prop :=
  ∀ (s : State) (x : Straps) (ns : Nat), s.wf = true →
    (∃ t, exec (.coldReset x) s = .next t ∧ t.regs = [] ∧ t.pwr.off = false ∧ t.straps.master = x.master ∧
      t.straps.bootSrc = x.bootSrc % 4 ∧ t.straps.peerId = x.peerId % 4 ∧ t.ctxs = ctxsReset ∧ t.chans = [] ∧ t.queues = [] ∧
      t.mems = [] ∧ t.fences = [] ∧ t.engines = [] ∧ t.stag = [] ∧ t.objs = [] ∧ t.shades = [] ∧ t.scp = State.reset.scp ∧
      t.bar = State.reset.bar ∧ t.jobScp = none ∧ t.jobBar = none ∧ t.otp.hashEn = s.otp.hashEn) ∧
    (1000 ≤ ns → (s.pwr.off = false ∨ s.pwr.clockLost = true) →
      ∃ t, exec (.warmReset ns x) s = .next t ∧ (∀ inst off, off < 0x1000 → off ≠ 0x9C4 → t.word inst off = regReset off) ∧
        t.pwr.off = false ∧ t.straps.master = x.master ∧ t.straps.peerId = x.peerId % 4 ∧ t.ctxs = ctxsReset ∧ t.chans = [] ∧
        t.queues = [] ∧ t.mems = [] ∧ t.fences = [] ∧ t.scp = State.reset.scp ∧ t.jobScp = none ∧ t.jobBar = none ∧
        t.otp.hashEn = s.otp.hashEn) ∧
    (ns < 100 → exec (.warmReset ns x) s = .next s) ∧
    (∃ t, exec .supplyTrip s = .next t ∧ t.pwr.off = true ∧ t.pwr.pin = .hiZ ∧ t.kindle.ack = false ∧ t.kindle.nak = false ∧
      t.host.link = false ∧ Unchanged [.pwr, .kindle, .host] [] s t)

/-- STANDBY is entered from ACTIVE or QUIET through a function reset and halts of the device contexts, and left by a
write of 0 (R538, R539). Model's choices: log 62. -/
def Obligations.StandbyEntryAndExit : Prop :=
  ∀ s : State, Running s →
    (s.scp.held = none → s.refusing = false → s.pwr.entering = false →
      ((s.pwrState = 1 ∨ s.pwrState = 2) →
        ∃ t, exec .standbyEntry s = .next t ∧ t.fld F.DEV_PWR_STANDBY = 1 ∧ t.pwr.entering = true ∧ t.host.fr = true ∧
          t.gov.measuring = false) ∧
      (s.pwrState = 0 ∨ s.pwrState = 3 → exec .standbyEntry s = .next s)) ∧
    (s.pwr.entering = true → s.pwr.exitPend = false → s.kindle.entry = none →
      s.chanList.any (fun c => ((s.chan c).ctx == 64 || (s.chan c).ctx == 65) && decide (2 ≤ (s.chan c).stopPend)) = false →
      ∃ t, exec .standbyEntered s = .next t ∧ t.pwr.standby = true ∧ t.pwr.entering = false ∧ t.pwrState = 3 ∧
        (∀ l, l < 8 → (s.lane l).st ≠ .hold → (t.lane l).st = .down)) ∧
    (s.scp.held = none → s.refusing = false → s.pwr.entering = false → s.pwr.standby = true →
      ∃ t, exec .standbyExit s = .next t ∧ t.pwr.standby = false ∧ t.fld F.DEV_PWR_STANDBY = 0)

/-- PWRFAIL# holds the device, stamps and freezes its record and stops every running channel; the drain is timed and
its losses are counted (R273, R275). Model's choices: log 63. -/
def Obligations.PowerFail : Prop :=
  ∀ s : State, Running s →
    (s.pfHeld = false →
      ∃ t, exec .pwrfail s = .next t ∧ t.pfHeld = true ∧ t.fld F.DEV_PF_WT_LO_WT_LO = s.now.toNat % 2 ^ 32 ∧
        t.fld F.DEV_PF_WT_HI_WT_HI = s.now.toNat / 2 ^ 32 ∧ t.fld F.DEV_STOP_EVT_PWRFAIL = 1 ∧ t.fld F.TRC_STAT_FROZEN = 1 ∧
        t.gov.measuring = false ∧ t.pwr.pf = some s.clk ∧ t.clk = s.clk + 1 ∧
        (∀ c, (t.chan c).st = .running → s.atomicBusy c = true)) ∧
    (∀ k, s.pwr.pf = some k →
      (s.host.outq = [] → s.host.unsent = [] →
        (s.clk ≤ k + 4000 →
          ∃ t, exec .pwrfailDrained s = .next t ∧ t.fld F.DEV_PF_STAT_DRAINED = 1 ∧ t.clk = s.clk ∧
            t.fld F.DEV_PF_STAT_DRAIN = (s.host.sentAt - k) / 8 % 2 ^ F.DEV_PF_STAT_DRAIN.width ∧ t.pwr.pf = none ∧
            Unchanged [.errq, .pwr] [F.DEV_PF_STAT_DRAINED.off, F.DEV_PF_STAT_DRAIN.off] s t) ∧
        (∃ t, exec .pwrfailDrainMark s = .next t ∧ t.fld F.DEV_PF_STAT_DRAINED = 1 ∧ t.clk = max s.clk (k + 4000) ∧
          t.pwr.pf = none ∧ t.fld F.DEV_PF_CNT_REQS = s.fld F.DEV_PF_CNT_REQS)) ∧
      (s.host.outq ≠ [] ∨ s.host.unsent ≠ [] →
        ∃ t, exec .pwrfailDrainMark s = .next t ∧ t.host.outq = [] ∧ (∀ v ∈ t.host.unsent, v = 0) ∧ t.pwr.pf = none ∧
          t.clk = max s.clk (k + 4000) ∧ t.fld F.DEV_PF_STAT_DRAINED = s.fld F.DEV_PF_STAT_DRAINED ∧
          t.fld F.DEV_PF_CNT_REQS = min (s.fld F.DEV_PF_CNT_REQS + (s.host.outq.filter (fun w => w.kind != .msix)).length)
            (2 ^ F.DEV_PF_CNT_REQS.width - 1) ∧
          (s.host.outq.any (fun w => w.kind != .msix) = true → t.fld F.DEV_STOP_EVT_PF_LOST = 1)))

/-- A queue doorbell takes a new tail or head that R134 accepts, and any other write is ignored and counted; context
64 has its own doorbells (R134, R138). -/
def Obligations.DoorbellsOfQueues : Prop :=
  ∀ (s : State) (n slot : Nat) (v : Word),
    (Running s → s.pageLive n = true → ∀ q, s.slotQueue n slot = some q →
      ((v.toNat % 65536 + 65536 - (s.queue q).sqHead) % 65536 ≤ 2 ^ (s.queue q).log2 →
        ((s.queue q).sqTail + 65536 - (s.queue q).sqHead) % 65536 ≤ (v.toNat % 65536 + 65536 - (s.queue q).sqHead) % 65536 →
        ∃ t, exec (.sqDb n slot v 15) s = .next t ∧ t.queue q = { s.queue q with sqTail := v.toNat % 65536 } ∧
          (∀ r, r ≠ q → t.queue r = s.queue r) ∧ Unchanged [.queues] [] s t) ∧
      (2 ^ (s.queue q).log2 < (v.toNat % 65536 + 65536 - (s.queue q).sqHead) % 65536 ∨
        (v.toNat % 65536 + 65536 - (s.queue q).sqHead) % 65536 < ((s.queue q).sqTail + 65536 - (s.queue q).sqHead) % 65536 →
        ∃ t, exec (.sqDb n slot v 15) s = .next t ∧
          t.ctx n = { s.ctx n with dberr := min ((s.ctx n).dberr + 1) 65535, dbslot := slot } ∧
          (∀ m, m ≠ n → t.ctx m = s.ctx m) ∧ Unchanged [.ctxs] [] s t) ∧
      ((v.toNat % 65536 + 65536 - (s.queue q).cqHead) % 65536 ≤ ((s.queue q).cqTail + 65536 - (s.queue q).cqHead) % 65536 →
        ∃ t, exec (.cqDb n slot v 15) s = .next t ∧ (t.queue q).cqHead = v.toNat % 65536 ∧
          (t.queue q).cqTail = (s.queue q).cqTail ∧ (t.queue q).sqTail = (s.queue q).sqTail ∧
          (∀ r, r ≠ q → (t.queue r).cqHead = (s.queue r).cqHead)) ∧
      (((s.queue q).cqTail + 65536 - (s.queue q).cqHead) % 65536 < (v.toNat % 65536 + 65536 - (s.queue q).cqHead) % 65536 →
        ∃ t, exec (.cqDb n slot v 15) s = .next t ∧
          t.ctx n = { s.ctx n with dberr := min ((s.ctx n).dberr + 1) 65535, dbslot := slot } ∧
          (∀ m, m ≠ n → t.ctx m = s.ctx m) ∧ Unchanged [.ctxs] [] s t)) ∧
    (Reaches s .scp 0x040 → s.refusing = false → ∀ q, s.slotQueue 64 (v.toNat / 65536 % 256) = some q →
      ((s.queue q).tailOk (v.toNat % 65536) = true →
        ∃ t, exec (.devSqDb v) s = .next t ∧ t.queue q = { s.queue q with sqTail := v.toNat % 65536 } ∧
          (∀ r, r ≠ q → t.queue r = s.queue r) ∧ (t.word 0 0x040).toNat = v.toNat / 65536 % 256 * 65536 ∧
          Unchanged [.queues] [0x040] s t) ∧
      ((s.queue q).tailOk (v.toNat % 65536) = false →
        ∃ t, exec (.devSqDb v) s = .next t ∧ (t.word 0 0x040).toNat = v.toNat / 65536 % 256 * 65536 ∧ Unchanged [] [0x040] s t)) ∧
    (Reaches s .scp 0x044 → s.refusing = false → ∀ q, s.slotQueue 64 (v.toNat / 65536 % 256) = some q →
      ((s.queue q).headOk (v.toNat % 65536) = true →
        ∃ t, exec (.devCqDb v) s = .next t ∧ (t.queue q).cqHead = v.toNat % 65536 ∧
          (t.word 0 0x044).toNat = v.toNat / 65536 % 256 * 65536) ∧
      ((s.queue q).headOk (v.toNat % 65536) = false →
        ∃ t, exec (.devCqDb v) s = .next t ∧ (t.word 0 0x044).toNat = v.toNat / 65536 % 256 * 65536 ∧ Unchanged [] [0x044] s t))

/-- FENCE_KICK adds one to a fence; CTX_REF and CTX_UNREF set and clear the hold of the page's context (R372, R355,
R143, R367). Model's choices: log 65. -/
def Obligations.HoldsAndKicks : Prop :=
  ∀ (s : State) (n : Nat) (v : Word), Running s → s.pageLive n = true →
    (∀ i, s.fenceOf v.toNat = some i → (s.fence i).usable n = true → (s.fence i).proxy = false → (s.fence i).destroy = false →
      (s.fence i).broken = false → (s.fence i).value.toNat < 2 ^ 64 - 1 → (s.fence i).subs = 0 →
      s.chans.all (fun e => match e.2.park with | .fence j _ => j != i | _ => true) = true →
      ∃ t, exec (.fenceKick n v 15) s = .next t ∧ t.fence i = { s.fence i with value := (s.fence i).value + 1 } ∧
        (∀ j, j ≠ i → t.fence j = s.fence j) ∧ Unchanged [.fences] [] s t) ∧
    (s.fenceOf v.toNat = none →
      ∃ t, exec (.fenceKick n v 15) s = .next t ∧ t.ctx n = { s.ctx n with dberr := min ((s.ctx n).dberr + 1) 65535 } ∧
        t.fld F.FEN_CNT_KICK_BAD = min (s.fld F.FEN_CNT_KICK_BAD + 1) (2 ^ F.FEN_CNT_KICK_BAD.width - 1) ∧
        t.fld F.FEN_EVT_KICK_BAD = 1 ∧ Unchanged [.ctxs, .host] [F.FEN_CNT_KICK_BAD.off, F.FEN_EVT_KICK_BAD.off] s t) ∧
    (∀ i, s.memOf v.toNat = some i → (n = 0 ∨ (s.mobj i).owner = n) → bitAt (s.mobj i).holds n = false →
      (s.mobj i).destroy = false → (s.mobj i).cnt < 2 ^ 32 - 1 →
      ∃ t, exec (.ctxRef n v 15) s = .next t ∧ t.mobj i = { s.mobj i with holds := (s.mobj i).holds + 2 ^ n } ∧
        (t.mobj i).cnt = (s.mobj i).cnt + 1 ∧ (∀ j, j ≠ i → t.mobj j = s.mobj j) ∧ Unchanged [.mems] [] s t) ∧
    (∀ i, s.memOf v.toNat = some i → bitAt (s.mobj i).holds n = true → (s.mobj i).destroy = false →
      ∃ t, exec (.ctxUnref n v 15) s = .next t ∧ t.mobj i = { s.mobj i with holds := (s.mobj i).holds - 2 ^ n } ∧
        (t.mobj i).cnt + 1 = (s.mobj i).cnt ∧ (∀ j, j ≠ i → t.mobj j = s.mobj j) ∧ Unchanged [.mems] [] s t) ∧
    (∀ i, s.memOf v.toNat = none → s.fenceOf v.toNat = some i → (s.fence i).proxy = false → (s.fence i).destroy = false →
      ((n = 0 ∨ (s.fence i).owner = n ∨ bitAt (s.fence i).imported n = true) → bitAt (s.fence i).holds n = false →
        (s.fence i).cnt < 2 ^ 32 - 1 →
        ∃ t, exec (.ctxRef n v 15) s = .next t ∧ t.fence i = { s.fence i with holds := (s.fence i).holds + 2 ^ n } ∧
          (t.fence i).cnt = (s.fence i).cnt + 1 ∧ (∀ j, j ≠ i → t.fence j = s.fence j) ∧ Unchanged [.fences] [] s t) ∧
      (bitAt (s.fence i).holds n = true →
        ∃ t, exec (.ctxUnref n v 15) s = .next t ∧ t.fence i = { s.fence i with holds := (s.fence i).holds - 2 ^ n } ∧
          (t.fence i).cnt + 1 = (s.fence i).cnt ∧ (∀ j, j ≠ i → t.fence j = s.fence j) ∧ Unchanged [.fences] [] s t)) ∧
    (∀ be, be < 15 →
      (∃ t, exec (.fenceKick n v be) s = .next t ∧ t.ctx n = { s.ctx n with dberr := min ((s.ctx n).dberr + 1) 65535 } ∧
        Unchanged [.ctxs, .host] [F.FEN_CNT_KICK_BAD.off, F.FEN_EVT_KICK_BAD.off] s t) ∧
      ∃ t, exec (.ctxRef n v be) s = .next t ∧ exec (.ctxUnref n v be) s = .next t ∧
        t.ctx n = { s.ctx n with dberr := min ((s.ctx n).dberr + 1) 65535 } ∧ Unchanged [.ctxs] [] s t) ∧
    (∀ i, s.memOf v.toNat = some i →
      (bitAt (s.mobj i).holds n = true →
        ∃ t, exec (.ctxRef n v 15) s = .next t ∧ t.ctx n = { s.ctx n with dberr := min ((s.ctx n).dberr + 1) 65535 } ∧
          Unchanged [.ctxs] [] s t) ∧
      (bitAt (s.mobj i).holds n = false →
        ∃ t, exec (.ctxUnref n v 15) s = .next t ∧ t.ctx n = { s.ctx n with dberr := min ((s.ctx n).dberr + 1) 65535 } ∧
          Unchanged [.ctxs] [] s t))

/-- A submission entry is judged by R135 and accepted onto its channel; a completion record is written at CQ tail with
its phase and CQ tail advances (R135, R137, R136, R181, R184). Model's choices: log 12 and log 81. -/
def Obligations.RingsReadAndWritten : Prop :=
  (∀ (s : State) (q phys : Nat) (ns : Bool), Running s → (s.queue q).ctx < 64 → opSel (s.queue q).sqRing ≠ 1 →
    opSel (s.queue q).cqRing ≠ 1 →
    (s.queueRead q = true → (s.queue q).reading = false →
      s.xlate (s.queue q).ctx (opAddr (ringAt (s.queue q).sqRing (s.queue q).log2 (s.queue q).sqHead)) false = .hit phys ns →
      opSel (ringAt (s.queue q).sqRing (s.queue q).log2 (s.queue q).sqHead) ≠ 1 →
      ∃ t, exec (.submissionEntryRead q []) s = .next t ∧ t.queue q = { s.queue q with reading := true } ∧
        (∀ r, r ≠ q → t.queue r = s.queue r) ∧
        (t.host.reads.any (fun r => r.purpose == .ring q && r.addr == phys && r.len == 16) = true ∨
          t.host.waits.any (fun r => r.purpose == .ring q && r.addr == phys && r.len == 16) = true)) ∧
    (∀ d, s.due.find? (·.queue == q) = some d → s.ringRoom q 0 = true → s.recordHeld d = false → s.linkUp = true →
      s.pfHeld = false → (∀ c, d.chan = some c → (s.chan c).dest = none) →
      opSel (ringAt (s.queue q).cqRing (s.queue q).log2 (s.queue q).cqTail) ≠ 1 →
      s.xlate (s.queue q).ctx (opAddr (ringAt (s.queue q).cqRing (s.queue q).log2 (s.queue q).cqTail)) true = .hit phys ns →
      phys % 16 = 0 →
      ∃ t, exec (.completionRecordWrite q) s = .next t ∧ t.queue q = { s.queue q with cqTail := ((s.queue q).cqTail + 1) % 65536 } ∧
        t.due = s.due.erase d ∧ (∀ r, r ≠ q → t.queue r = s.queue r) ∧
        t.host.outq = s.host.outq ++
          [⟨d.eng, .record, phys, d.bytes16 ((s.queue q).cqTail / 2 ^ (s.queue q).log2 % 2 == 0), false, false, (s.queue q).ctx⟩] ∧
        (d.intr = true → s.host.msixEn = true → bitAt t.host.pend ((s.queue q).ctx + 1) = true))) ∧
  (∀ (s : State) (q : Nat), Running s → s.oneHolder → (s.queue q).ctx = 64 → (s.queue q).log2 ≤ 12 →
    opAddr (s.queue q).sqRing + 16 * 2 ^ (s.queue q).log2 ≤ 0x200000 →
    opAddr (s.queue q).cqRing + 16 * 2 ^ (s.queue q).log2 ≤ 0x200000 →
    (s.queue q).sqRing = 2 ^ 56 + opAddr (s.queue q).sqRing → (s.queue q).cqRing = 2 ^ 56 + opAddr (s.queue q).cqRing →
    (s.queueRead q = true → (s.ctx 64).st = .live →
      (∀ c, s.chanOf (sqEntry s q).1 = some c → (s.chan c).ctx = 64 → (s.chan c).inBlock (sqEntry s q).2.2.2 = true →
        ((s.chan c).st = .queued ∨ (s.chan c).st = .running ∨ (s.chan c).st = .parked) → (s.chan c).subs.length < 16 →
        (sqEntry s q).2.2.2 ≠ 0xFFFF →
        ∃ t, exec (.submissionEntryRead q []) s = .next t ∧
          (t.chan c) = { s.chan c with
            subs := (s.chan c).subs ++ [⟨c, (sqEntry s q).2.1, (sqEntry s q).2.2.1, (sqEntry s q).2.2.2, q⟩],
            pend := (s.chan c).pend + 1 } ∧
          (∀ d, d ≠ c → t.chan d = s.chan d) ∧ (t.queue q).sqHead = ((s.queue q).sqHead + 1) % 65536 ∧
          (t.queue q).cqTail = (s.queue q).cqTail ∧ t.due = s.due ∧
          (∀ r, r ≠ q → (s.queue r).destroying = false → t.queue r = s.queue r)) ∧
      (s.chanOf (sqEntry s q).1 = none →
        ∃ t, exec (.submissionEntryRead q []) s = .next t ∧ (t.queue q).sqHead = ((s.queue q).sqHead + 1) % 65536 ∧
          t.due = s.due ++ [⟨q, none, (sqEntry s q).2.1, 0x13, true, true, s.now.toNat, 0,
            (sqEntry s q).1 % 65536 % 256, (sqEntry s q).1 / 65536 % 4096, false, [], 10, 2, wtAdd s.now 4096⟩] ∧
          t.chans = s.chans)) ∧
    (∀ d, s.due.find? (·.queue == q) = some d → (∀ c, d.chan = some c → (s.chan c).dest = none) → s.ringRoom q 0 = true →
      s.recordHeld d = false →
      ∃ t, exec (.completionRecordWrite q) s = .next t ∧
        (∀ i, i < 16 → t.cohByte 0 (opAddr (s.queue q).cqRing + 16 * ((s.queue q).cqTail % 2 ^ (s.queue q).log2) + i) =
          (d.bytes16 ((s.queue q).cqTail / 2 ^ (s.queue q).log2 % 2 == 0)).getD i 0) ∧
        t.queue q = { s.queue q with cqTail := ((s.queue q).cqTail + 1) % 65536 } ∧ t.due = s.due.erase d ∧
        (d.intr = true → t.fld F.DEV_CQ_EVT_EVT = 1) ∧ (∀ r, r ≠ q → t.queue r = s.queue r)))

/-- Completions gather in order, fill the TLB or judge a ring entry and return the tag; a timeout returns the tag and
is counted; MSI-X messages leave (R482, R126, R135, R488, R554). -/
def Obligations.HostReadsAnswered : Prop :=
  ∀ s : State, Running s → s.linkUp = true →
    (∀ tag st bs, s.host.reads.any (·.tag == tag) = false →
      ∃ t, exec (.hostCompletion tag st false bs) s = .next t ∧
        t.fld F.HLK_CNT2_UNEXP = min (s.fld F.HLK_CNT2_UNEXP + 1) (2 ^ F.HLK_CNT2_UNEXP.width - 1) ∧
        t.fld F.HLK_EVT_UNEXP = 1 ∧ Unchanged [.host] [F.HLK_CNT2_UNEXP.off, F.HLK_EVT_UNEXP.off] s t) ∧
    (∀ tag r, s.host.reads.find? (·.tag == tag) = some r →
      (∀ bs, r.got.length + bs.length < r.len →
        ∃ t, exec (.hostCompletion tag 0 false bs) s = .next t ∧
          t.host.reads = s.host.reads.map (fun x => if x.tag == tag then { x with got := r.got ++ bs } else x) ∧
          Unchanged [.host] [] s t) ∧
      (r.dead = false → ∀ x, ringLeaf r.purpose = some x → r.got = [] → r.len = 8 →
        s.tlb.length < 512 → ∀ page, page < 2 ^ 40 →
        ∃ t, exec (.hostCompletion tag 0 false (leBytes 8 (page * 2 ^ 12 + 3))) s = .next t ∧
          t.tlb = s.tlb ++ [⟨x.1, false, x.2 / 2 ^ 12, page * 2 ^ 12, true, false⟩] ∧
          (s.host.walkq = [] → TagBack s t tag) ∧ (NoReadWaits s → Unchanged [.host, .tlb] [] s t)) ∧
      (r.dead = false → ∀ q, ringOf r.purpose = some q → r.got = [] → r.len = 16 → s.queueRead q = true →
        (s.ctx (s.queue q).ctx).st = .live → ∀ c first tg, c < 256 → first < 65535 → tg < 2 ^ 32 → (s.chan c).gen < 4096 →
        (s.chan c).ctx = (s.queue q).ctx → (s.chan c).inBlock first = true → (s.chan c).subs.length < 16 →
        ((s.chan c).st = .queued ∨ (s.chan c).st = .running ∨ (s.chan c).st = .parked) →
        ∃ t, exec (.hostCompletion tag 0 false (leBytes 4 (s.chanHandle c) ++ leBytes 4 tg ++ leBytes 6 0 ++ leBytes 2 first)) s =
            .next t ∧
          t.chan c = { s.chan c with subs := (s.chan c).subs ++ [⟨c, tg, 0, first, q⟩], pend := (s.chan c).pend + 1 } ∧
          (t.queue q).sqHead = ((s.queue q).sqHead + 1) % 65536 ∧ (t.queue q).reading = false ∧
          TagBack s t tag ∧
          (s.host.waits = [] → (∀ y, (s.queue y).destroying = false) → Unchanged [.host, .chans, .queues] [] s t)) ∧
      (r.dead = true →
        ∃ t, exec (.completionTimeout tag) s = .next t ∧ TagBack s t tag ∧ t.clk = max s.clk (r.since + 40000) ∧
          t.fld F.HLK_CNT0_CTO = min (s.fld F.HLK_CNT0_CTO + 1) (2 ^ F.HLK_CNT0_CTO.width - 1) ∧ t.fld F.HLK_EVT_CTO = 1 ∧
          (s.host.waits = [] → UnchangedButTime [.host] [F.HLK_CNT0_CTO.off, F.HLK_EVT_CTO.off] s t)) ∧
      (r.dead = false → ∀ q, ringOf r.purpose = some q → (s.queue q).live = true → (s.ctx (s.queue q).ctx).st = .live →
        ∃ t, exec (.completionTimeout tag) s = .next t ∧ (t.queue q).faulted = true ∧ (t.queue q).reading = false ∧
          TagBack s t tag ∧ t.fld F.HLK_EVT_CTO = 1)) ∧
    (∀ v, v < 65 →
      (bitAt s.host.pend v = true → (s.msix v).masked = false → s.host.msixEn = true → s.host.fmask = false →
        (s.msix v).addr % 4 = 0 →
        ∃ t, exec (.msixSend v) s = .next t ∧ bitAt t.host.pend v = false ∧
          (∀ w, w ≠ v → bitAt t.host.pend w = bitAt s.host.pend w) ∧
          t.host.outq = s.host.outq ++ [⟨10, .msix, (s.msix v).addr, leBytes 4 (s.msix v).data.toNat, false, false, 0⟩] ∧
          Unchanged [.host, .ports] [] s t) ∧
      (((s.msix v).masked = true ∨ s.host.msixEn = false ∨ s.host.fmask = true) → exec (.msixSend v) s = .next s))

/-- HLK_TLB_INV drops the leaves of its scope and sets BUSY; BAR4 reads and writes staging as the protection unit
allows; unsupported requests are answered (R128, R477, R478, R479, R475). -/
def Obligations.TlbAndBar4 : Prop :=
  ∀ s : State,
    (∀ p v, Reaches s p 0x924 →
      (s.tlbInv.isSome = true ∨ v.toNat / 256 % 4 = 3 ∨ (v.toNat / 256 % 4 ≤ 1 ∧ 63 < v.toNat % 128) → ∃ t, exec (.tlbInvalidate p v) s = .next t ∧ t.fld F.HLK_TLB_INV_OVR = 1 ∧ Unchanged [] [0x924] s t) ∧
      (s.tlbInv = none → v.toNat / 256 % 4 ≠ 3 → (v.toNat / 256 % 4 = 2 ∨ v.toNat % 128 ≤ 63) →
        ∃ t, exec (.tlbInvalidate p v) s = .next t ∧ t.tlbInv = some (v.toNat / 256 % 4, v.toNat % 128, s.fld F.HLK_TLB_VA_VPN) ∧
          (∀ x, x ∈ t.tlb → x ∈ s.tlb ∧ x.inScope (v.toNat / 256 % 4) (v.toNat % 128) (s.fld F.HLK_TLB_VA_VPN) = false) ∧
          (∀ x, x ∈ s.tlb → x.inScope (v.toNat / 256 % 4) (v.toNat % 128) (s.fld F.HLK_TLB_VA_VPN) = false → x ∈ t.tlb) ∧
          t.walks = 0 ∧ t.host.outq = s.host.outq ∧ t.host.pend = s.host.pend ∧ Unchanged [.tlb, .tlbInv, .host] [0x924] s t)) ∧
    (Running s →
      (NoReadWaits s → exec .tlbInvalidateDone s = .next { s with tlbInv := none }) ∧
      (∀ b, s.tlbInv = some b → s.host.waits.any (fun r => r.leaf.any (fun x => x.inScope b.1 b.2.1 b.2.2)) = true →
        exec .tlbInvalidateDone s = .next s) ∧
      (∀ b, s.tlbInv = some b → s.host.waits.any (fun r => r.leaf.any (fun x => x.inScope b.1 b.2.1 b.2.2)) = false →
        ∃ t, exec .tlbInvalidateDone s = .next t ∧ t.tlbInv = none ∧ t.tlb = s.tlb ∧ t.chans = s.chans) ∧
      (s.linkUp = true →
        (∀ addr len, 0 < len → addr + len ≤ 0x200000 → s.oneHolder → s.firstRefused (s.bar4Access addr len false) = none →
          ∃ t, exec (.bar4Read addr len) s = .next t ∧ (t.bar.cpls.flatMap (·.data)) = s.cohBytes 0 addr len ∧
            t.bar.cpls.all (fun x => x.status == 0) = true ∧ (∀ a, a < 0x200000 → t.cohByte 0 a = s.cohByte 0 a) ∧
            t.bar.held = s.bar.held ∧ Unchanged [.bar, .stag, .engines, .elder, .ports, .wbq] [0x07C, F.ARB_CNT0_ELDER.off] s t) ∧
        (∀ addr len, 0 < len → addr + len ≤ 0x200000 → ∀ cause region shade,
          s.firstRefused (s.bar4Access addr len false) = some (0, .refuse cause region shade) →
          ∃ t, exec (.bar4Read addr len) s = .next t ∧ t.bar.cpls = [⟨4, []⟩] ∧ t.fld F.HLK_EVT_REFUSED = 1 ∧
            t.fld F.PRT_EVT_VIOL = 1 ∧ t.stag = s.stag ∧ t.engines = s.engines) ∧
        (∀ addr bs be, addr + bs.length ≤ 0x200000 → s.oneHolder → s.firstRefused (s.bar4Access addr bs.length true) = none →
          ∃ t, exec (.bar4Write addr bs be false) s = .next t ∧
            (∀ i, i < bs.length → t.cohByte 0 (addr + i) = if be.getD i true then bs.getD i 0 else s.cohByte 0 (addr + i)) ∧
            (∀ a, (a < addr ∨ addr + bs.length ≤ a) → a < 0x200000 → t.cohByte 0 a = s.cohByte 0 a) ∧
            (∀ a, a < 0xC0000 → t.cohByte 1 a = s.cohByte 1 a) ∧
            Unchanged [.stag, .engines, .elder, .ports, .wbq] [0x07C, F.ARB_CNT0_ELDER.off] s t) ∧
        (∀ addr bs be, 0 < bs.length → addr + bs.length ≤ 0x200000 → ∀ cause region shade,
          s.firstRefused (s.bar4Access addr bs.length true) = some (0, .refuse cause region shade) →
          ∃ t, exec (.bar4Write addr bs be false) s = .next t ∧ t.fld F.HLK_EVT_REFUSED = 1 ∧ t.fld F.PRT_EVT_VIOL = 1 ∧
            t.stag = s.stag ∧ t.bar = s.bar) ∧
        (∀ addr bs be, ∃ t, exec (.bar4Write addr bs be true) s = .next t ∧
          t.fld F.HLK_CNT1_POISON = min (s.fld F.HLK_CNT1_POISON + 1) (2 ^ F.HLK_CNT1_POISON.width - 1) ∧
          t.fld F.HLK_EVT_POISON = 1 ∧ Unchanged [.host] [F.HLK_CNT1_POISON.off, F.HLK_EVT_POISON.off] s t) ∧
        (∀ w, ∃ t, exec (.barUnsupportedRequest w) s = .next t ∧
          t.fld F.HLK_CNT2_UR = min (s.fld F.HLK_CNT2_UR + 1) (2 ^ F.HLK_CNT2_UR.width - 1) ∧ t.fld F.HLK_EVT_UR = 1 ∧
          (w = false → t.bar.cpls = [⟨1, []⟩]) ∧ (w = true → t.bar = s.bar) ∧
          Unchanged [.bar, .host] [F.HLK_CNT2_UR.off, F.HLK_EVT_UR.off] s t)))

/-- A function reset tears contexts 0 to 63 down, clears the MSI-X table and the BAR0 bank and posts its cause; its
end brings context 0 back LIVE (R491, R492, R495, R122, R271). Model's choices: log 22 and log 23. -/
def Obligations.FunctionResets : Prop :=
  ∀ s : State, Running s →
    (∀ cause, 5 ≤ cause → exec (.functionResetStart cause) s = .next s) ∧
    (∀ cause, cause < 5 →
      (s.host.fr = false →
        ∃ t, exec (.functionResetStart cause) s = .next t ∧ t.host.fr = true ∧
          (∀ n, n < 64 → (t.ctx n).st = .free ∨ (t.ctx n).st = .dying) ∧
          (t.ctx 64).st = (s.ctx 64).st ∧ (t.ctx 65).st = (s.ctx 65).st ∧
          (∀ c, (s.chan c).ctx < 64 → (s.chan c).st ≠ .free → s.atomicBusy c = false →
            ((s.ctx (s.chan c).ctx).st = .live ∨ (s.ctx (s.chan c).ctx).st = .lost) →
            (t.chan c).run = none ∧ (t.chan c).subs = []) ∧
          t.host.table = [] ∧ t.host.reads = [] ∧ t.tlbInv = none ∧ t.fld F.HLK_EVT_DOWN = 1 ∧
          (t.host.link = true → s.host.link = true ∧ 3 ≤ cause) ∧ t.bar.held = none ∧ t.fld F.HLK_ROOT0_LO_ROOT = 0 ∧
          t.fld F.HLK_ROOT0_HI_ROOT = 0 ∧ t.straps = s.straps ∧ t.otp = s.otp) ∧
      (s.host.fr = true →
        ∃ t, exec (.functionResetStart cause) s = .next t ∧
          t.host = { s.host with perst := t.host.perst, link := t.host.link } ∧
          (t.host.link = true → s.host.link = true ∧ cause ≠ 0 ∧ cause ≠ 2) ∧ Unchanged [.host] [] s t)) ∧
    (∀ cfg,
      (s.host.fr = true → s.pwr.standby = false → s.pwr.entering = false →
        ∃ t, exec (.functionResetEnd cfg) s = .next t ∧ t.linkUp = true ∧ t.host.fr = false ∧
          (s.host.link = true → t.host.gen = s.host.gen ∧ t.host.width = s.host.width) ∧
          (s.host.link = false → t.host.width = cfg.width % 16 ∧ 1 ≤ t.host.gen ∧ t.host.gen ≤ 4 ∧
            (1 ≤ s.fld F.HLK_CTL_MAX_GEN → t.host.gen ≤ max 4 (s.fld F.HLK_CTL_MAX_GEN)) ∧
            (1 ≤ s.fld F.HLK_CTL_MAX_GEN → s.fld F.HLK_CTL_MAX_GEN ≤ 4 → t.host.gen = max 1 (min cfg.gen (s.fld F.HLK_CTL_MAX_GEN)))) ∧
          t.ctx 0 = { Ctx.init with st := .live, gen := ((s.ctx 0).gen + 1) % 4096 } ∧
          (∀ n, n ≠ 0 → t.ctx n = s.ctx n) ∧ t.fld F.HLK_ROOT0_LO_ROOT = 0 ∧ t.fld F.HLK_ROOT0_HI_ROOT = 0 ∧
          t.fld F.HLK_EVT_UP = 1 ∧ t.host.msixEn = cfg.msixEn ∧ t.host.fmask = cfg.fmask ∧ t.host.mps = cfg.mps % 8 ∧
          t.host.mrrs = cfg.mrrs % 8 ∧ t.host.table = s.host.table ∧
          Unchanged [.host, .ctxs] [0x918, 0x91C, F.HLK_EVT_UP.off] s t) ∧
      (s.host.fr = false → exec (.functionResetEnd cfg) s = .next s))

/-- Region entries go through the holding copy; shades are written by eights or filled; enabling the unit or 20
microseconds end a stall (R320, R315, R316, R323, R324). Model's choices: log 38 and log 41. -/
def Obligations.ProtectionUnitRows : Prop :=
  ∀ (s : State) (p : Path),
    (Reaches s p 0x288 → ∀ i, i < 32 →
      (∃ t, exec (.regionSelect p i) s = .next t ∧ t.fld F.PRT_RGN_IDX_IDX = i ∧ t.word 0 0x28C = s.word (i + 1) 0x28C ∧
        t.word 0 0x290 = s.word (i + 1) 0x290 ∧
        (∀ j, t.word (j + 1) 0x28C = s.word (j + 1) 0x28C ∧ t.word (j + 1) 0x290 = s.word (j + 1) 0x290) ∧
        Unchanged [] [0x288, 0x28C, 0x290] s t) ∧
      (s.fldI (i + 1) F.PRT_RGN_ATTR_LOCK = 0 →
        ∃ t, exec (.regionCommit p i) s = .next t ∧ t.word (i + 1) 0x28C = s.word 0 0x28C ∧
          t.word (i + 1) 0x290 = s.word 0 0x290 ∧
          (∀ j, j ≠ i + 1 → t.word j 0x28C = s.word j 0x28C ∧ t.word j 0x290 = s.word j 0x290) ∧
          Unchanged [] [0x288, 0x28C, 0x290] s t) ∧
      (s.fldI (i + 1) F.PRT_RGN_ATTR_LOCK = 1 →
        ∃ t, exec (.regionCommit p i) s = .next t ∧ t.fld F.PRT_EVT_LOCKED = 1 ∧
          Unchanged [.host] [0x288, F.PRT_EVT_LOCKED.off] s t)) ∧
    (∀ v : Word, Reaches s p 0x2AC →
      (s.filling = false → ∀ g, s.shdGroup = some g →
        (∃ t, exec (.prtShdDataWrite p v) s = .next t ∧ (∀ i, i < 8 → t.shadeOf (g + i) = v.toNat / 2 ^ (4 * i) % 16) ∧
          (∀ j, (j < g ∨ g + 8 ≤ j) → t.shadeOf j = s.shadeOf j) ∧
          t.fld F.PRT_SHD_ADDR_GRAN = (s.fld F.PRT_SHD_ADDR_GRAN + 8) % 65536 ∧ Unchanged [.shades] [0x2A8] s t) ∧
        (∃ t, exec (.prtShdDataRead p) s = .next t ∧
          PortShows t p [BitVec.ofNat 32 ((List.range 8).map (fun i => s.shadeOf (g + i) * 2 ^ (4 * i))).sum] ∧
          Unchanged [portPart p] [0x2A8] s t)) ∧
      (s.filling = true → ∃ t, exec (.prtShdDataWrite p v) s = .next t ∧ t.fld F.PRT_EVT_SHD_OVR = 1 ∧
        Unchanged [.host] [F.PRT_EVT_SHD_OVR.off] s t)) ∧
    (∀ v : Word, Reaches s p 0x2B0 →
      (s.filling = false → s.shdGroup.isSome = true →
        ∃ t, exec (.prtShdFill p v) s = .next t ∧
          t.fillLeft = min (v.toNat % 65536) (s.shdSpace - s.fld F.PRT_SHD_ADDR_GRAN) ∧
          t.fld F.PRT_SHD_FILL_SHADE = v.toNat / 65536 % 16 ∧ t.shades = s.shades ∧
          (t.fillLeft ≠ 0 → t.fillEnd = s.clk + (t.fillLeft + 7) / 8 + 1) ∧
          Unchanged [.fillLeft, .fillAt, .fillEnd] [0x2B0] s t) ∧
      (s.filling = true → ∃ t, exec (.prtShdFill p v) s = .next t ∧ t.fld F.PRT_EVT_SHD_OVR = 1 ∧
        Unchanged [.host] [F.PRT_EVT_SHD_OVR.off] s t)) ∧
    (Running s → s.fillAt + s.fillLeft ≤ shadeCount → s.clk + (s.fillLeft + 7) / 8 < s.fillEnd →
      ∃ t, exec .shadeFillDone s = .next t ∧ t.fillLeft = 0 ∧ t.filling = false ∧
        (∀ j, s.fillAt ≤ j → j < s.fillAt + s.fillLeft → t.shadeOf j = s.fld F.PRT_SHD_FILL_SHADE) ∧
        (∀ j, (j < s.fillAt ∨ s.fillAt + s.fillLeft ≤ j) → t.shadeOf j = s.shadeOf j) ∧
        t.clk = s.fillEnd ∧ UnchangedButTime [] [] s t) ∧
    (∀ v : Word, Reaches s p 0x280 → (v.toNat % 2 = 1 ∧ s.fld F.PRT_CTL_LOCK = 0) →
      ∃ t, exec (.protUnitEnable p v) s = .next t ∧ t.fld F.PRT_CTL_EN = 1 ∧
        (∀ c, (s.chan c).park = .stall → (s.cur c).isSome = true → (t.chan c).park ≠ .stall) ∧ t.zhn.stalled = [] ∧
        ((∀ c, (s.chan c).park ≠ .stall) → s.zhn.stalled = [] → Unchanged [] [0x280] s t)) ∧
    (∀ v : Word, Reaches s p 0x280 → v.toNat % 2 = 0 → s.fld F.PRT_CTL_LOCK = 0 →
      ∃ t, exec (.protUnitEnable p v) s = .next t ∧ t.fld F.PRT_CTL_EN = 0 ∧ Unchanged [] [0x280] s t) ∧
    (Running s →
      (∀ c, (s.chan c).park = .stall → ∀ d, s.cur c = some d →
        ∃ t, exec (.disabledStallTimeout (some c)) s = .next t ∧ (t.chan c).park ≠ .stall ∧
          t.clk = max s.clk ((s.chan c).parkedAt + 16000)) ∧
      (∀ k, s.zhn.stalled.head? = some k →
        ∃ t, exec (.disabledStallTimeout none) s = .next t ∧ t.zhn.stalled = s.zhn.stalled.tail ∧ t.clk = max s.clk (k.since + 16000) ∧
          t.fld F.PRT_EVT_VIOL = 1))

/-- An idle engine grants the request that ranks before every other, or under a due elder grant the oldest; a burst
limit sends the owner back to ask (R200, R201, R209, R212, R213). Model's choices: log 2, log 18 and log 19. -/
def Obligations.EnginesDispatch : Prop :=
  ∀ (s : State) (e : Nat), Running s →
    (s.pfHeld = false → s.pwr.standby = false → s.pwr.quiesced = false → e < 4 → (s.engine e).chan = none →
      bitAt (s.fld F.ERR_ENG_OFF) e = false →
      (s.asking e = [] → exec (.engineDispatch e) s = .next s) ∧
      (∀ w, w ∈ s.asking e →
        ((s.fld F.ARB_CTL_ELDER_N = 0 ∨ (s.asking e).length = 1) →
          (s.asking e).all (fun x => x.1 == w.1 || w.2.before x.2) = true →
          ∃ t, exec (.engineDispatch e) s = .next t ∧ t.chan w.1 = { s.chan w.1 with st := .running, engine := e } ∧
            (t.engine e).chan = some w.1 ∧ (t.engine e).granted = s.clk + 1 ∧ t.clk = s.clk + 1 ∧ (∀ d, d ≠ w.1 → t.chan d = s.chan d) ∧
            (s.oneHolder → ∀ a, a < 0x200000 → t.cohByte 0 a = s.cohByte 0 a) ∧
            t.elder = s.elder ∧ t.due = s.due ∧ t.queues = s.queues) ∧
        (s.fld F.ARB_CTL_ELDER_N ≠ 0 → 2 ≤ (s.asking e).length →
          max 2 (s.fld F.ARB_CTL_ELDER_N) ≤ SMap.get 0 s.elder e + 1 →
          (s.asking e).all (fun x => x.1 == w.1 || w.2.older x.2) = true →
          ∃ t, exec (.engineDispatch e) s = .next t ∧ t.chan w.1 = { s.chan w.1 with st := .running, engine := e } ∧
            (t.engine e).chan = some w.1 ∧ SMap.get 0 t.elder e = 0 ∧ (∀ d, d ≠ w.1 → t.chan d = s.chan d)))) ∧
    (e < 4 → ∀ c, (s.engine e).chan = some c → (s.chan c).st = .running → s.grantSpent c = true →
      (∀ d, s.cur c = some d → d.phase = .ready → dOp d.words = 0x3F → s.asking (s.chan c).engine ≠ [] → exec (.nop c) s = .next s) ∧
      (s.biteDue e = none → (s.chan c).atBoundary (s.burstBytes c) = true →
      ∃ t, exec (.burstLimitExpiry e) s = .next t ∧ (t.engine e).chan = none ∧
        t.chan c = { s.chan c with st := .queued, run := (s.chan c).run.map (fun r => { r with i := s.now }) } ∧
        (∀ d, d ≠ c → t.chan d = s.chan d) ∧ Unchanged [.engines, .chans] [] s t))

/-- A fetch reads the next descriptor of the coherent image; a fetched copy is taken when it passes; a completed
descriptor passes the chain on or ends it (R157, R174, R177, R181, R182). Model's choices: log 68. -/
def Obligations.FetchTakeAndComplete : Prop :=
  ∀ (s : State) (c : Nat), Running s →
    (∀ r, (s.chan c).run = some r → r.cur = none → (s.chan c).copies = [] → (s.chan c).st = .queued →
      s.pwr.standby = false → (s.chan c).inBlock r.next = true →
      ∃ t, exec (.descriptorFetch c) s = .next t ∧ (t.chan c).copies.head? = some (r.next, s.descAt r.next) ∧
        (t.chan c).st = .queued ∧ (∀ d, d ≠ c → t.chan d = s.chan d) ∧ (t.chan c).copies.length ≤ s.depth c + 1 ∧
        t.queues = s.queues ∧ t.mems = s.mems ∧ t.fences = s.fences) ∧
    (∀ r, (s.chan c).run = some r → r.cur = none → (s.chan c).st = .running → (s.chan c).stopPend = 0 →
      s.grantSpent c = false → ∀ x, (s.chan c).copies.head? = some x → x.1 = r.next → (dOp x.2 = 0x3F ∨ opListed (dOp x.2) = false) →
      dFenceNext x.2 = false →
      (s.chan c).subs.length = 1 → ∀ u, (s.chan c).subs.head? = some u → u.queue < 1024 → s.recordable u.queue = true →
      s.pfHeld = false → r.status = 0 →
      ∀ st, takeCheck s.self (s.chan c).ctx (s.chan c).base (s.chan c).count x.1 x.2 = some st →
      ∃ t, exec (.nop c) s = .next t ∧ (t.chan c).run = none ∧ (t.chan c).subs = [] ∧
        t.due.any (fun d => d.chan == some c && d.queue == u.queue && d.tag == u.tag && d.status == st && d.isEnd) = true) ∧
    (∀ d, s.cur c = some d → d.phase = .done 0 → (s.chan c).st = .running → (s.chan c).stopPend = 0 → d.refs = [] →
      dFenceNext d.words = false → dHaltAfter d.words = false → dIntr d.words = false → d.late = false →
      wtBefore d.l d.doneWT = false → s.ringBlocked c = none →
      (dNext d.words ≠ 0xFFFFFFFF →
        ∃ t, exec (.descriptorComplete c) s = .next t ∧ t.due = s.due ∧ (t.chan c).st = .running ∧ s.cur c ≠ none ∧
          t.cur c = none ∧ ((t.chan c).run.map (·.next)) = some (dNext d.words) ∧ (t.chan c).subs = (s.chan c).subs ∧
          (∀ x, x ≠ c → t.chan x = s.chan x) ∧ Unchanged [.chans, .gov] [] s t) ∧
      (dNext d.words = 0xFFFFFFFF → dOp d.words ≠ 0x40 → (dOp d.words = 0x41 → (loopStep d.words).2.1 ≠ 1) →
        (s.chan c).subs.length = 1 → ∀ u, (s.chan c).subs.head? = some u → u.queue < 1024 → ∀ r, (s.chan c).run = some r → r.status = 0 →
        s.recordable u.queue = true → s.pfHeld = false → s.ringRoom u.queue s.due.length = true →
        ∃ t, exec (.descriptorComplete c) s = .next t ∧ (t.chan c).st = .idle ∧ (t.chan c).subs = [] ∧ (t.chan c).run = none ∧
          t.due = s.due ++ [⟨u.queue, some c, u.tag, if r.late then 1 else 0, true, false, d.doneWT,
            min r.bytes 0xFFFFFF, c, (s.chan c).gen, true, r.acks, (s.chan c).engine, r.tier, r.l⟩] ∧
          (∀ e, e < 4 → (t.engine e).chan ≠ some c) ∧ (∀ x, x ≠ c → t.chan x = s.chan x)))

/-- A bite is counted and captured once; a bitten channel stops with SNUFFED; a bitten window access faults with cause
5; a bitten host request is aborted (R215, R216, R222, R98). Model's choices: log 88. -/
def Obligations.SnufferBites : Prop :=
  ∀ (s : State) (res : Nat), Running s → res < 64 →
    (∀ c, (s.chan c).st = .running → (s.chan c).engine < 4 → res = (s.chan c).engine → (s.engine res).chan = some c →
      s.atomicBusy c = false →
      s.host.reads.any (fun r => r.purpose.chan? == some c) = false → (s.ctx (s.chan c).ctx).st = .live →
      (s.ctx (s.chan c).ctx).losing = none →
      ∃ t, exec (.snufferBite res (.chan c)) s = .next t ∧ t.fld F.ARB_EVT_BITE = 1 ∧
        t.fld F.ARB_CNT0_BITES = min (s.fld F.ARB_CNT0_BITES + 1) (2 ^ F.ARB_CNT0_BITES.width - 1) ∧
        (s.fld F.ARB_EVT_BITE = 1 → t.word 0 0x250 = s.word 0 0x250) ∧
        (s.fld F.ARB_EVT_BITE = 0 → (t.word 0 0x250).toNat % 256 = c % 256 ∧ (t.word 0 0x250).toNat / 2 ^ 31 = 1) ∧
        (t.chan c).run = none ∧ (t.chan c).subs = [] ∧ (∀ e, e < 4 → (t.engine e).chan ≠ some c) ∧
        t.clk = max s.clk ((s.engine res).granted + (s.engine res).excused + s.snufLimit) ∧
        (isDevCtx (s.chan c).ctx = true → OnItsWay t c .stopped) ∧
        (isDevCtx (s.chan c).ctx = false → (t.ctx (s.chan c).ctx).losing = some c ∧
          ((s.ctx (s.chan c).ctx).fault = none → (t.ctx (s.chan c).ctx).fault.map (·.status) = some 0x41)) ∧
        (∀ d, (s.chan d).ctx ≠ (s.chan c).ctx → (t.chan d).run = (s.chan d).run ∨ (s.chan d).st = .parked)) ∧
    (∀ p, s.pathDead p = false → s.windowRes p = some res ∨ res = 0x21 →
      ∃ t, exec (.snufferBite res (.window p)) s = .next t ∧ t.fld F.ARB_EVT_BITE = 1 ∧
        t.fldI (pathInst p) F.WIN_CTL_FAULT = 1 ∧ t.chans = s.chans ∧ t.stag = s.stag ∧ t.objs = s.objs) ∧
    (∀ w, s.linkUp = true → (0x10 ≤ res ∧ res < 0x20) ∨ res = 0x21 →
      ∃ t, exec (.snufferBite res (.hostIn w)) s = .next t ∧ t.fld F.ARB_EVT_BITE = 1 ∧ t.fld F.HLK_EVT_REFUSED = 1 ∧
        t.fld F.HLK_CNT1_REFUSED = min (s.fld F.HLK_CNT1_REFUSED + 1) (2 ^ F.HLK_CNT1_REFUSED.width - 1) ∧
        (w = false → t.bar.cpls = [⟨4, []⟩]) ∧ (w = true → t.bar = s.bar) ∧ t.chans = s.chans ∧ t.stag = s.stag) ∧
    (∀ h, 0x10 ≤ res → res ≤ 0x21 →
      ∃ t, exec (.snufferBite res (.zhnIn h)) s = .next t ∧ t.fld F.ARB_EVT_BITE = 1 ∧
        t.fld F.PEL_CNT1_REFUSED = min (s.fld F.PEL_CNT1_REFUSED + 1) (2 ^ F.PEL_CNT1_REFUSED.width - 1) ∧
        t.chans = s.chans ∧ t.stag = s.stag ∧ t.objs = s.objs) ∧
    (0x10 ≤ res → res ≤ 0x21 → ∃ t, exec (.snufferBite res .governor) s = .next t ∧ t.fld F.ARB_EVT_BITE = 1 ∧ t.fld F.ARB_EVT_PRIV = 1 ∧ t.chans = s.chans) ∧
    (0x10 ≤ res → res < 0x30 → ∃ t, exec (.snufferBite res .internal) s = .next t ∧ t.fld F.ARB_EVT_BITE = 1 ∧ t.fld F.ARB_EVT_PRIV = 1 ∧ t.chans = s.chans)

/-- COPY, GATHER and SCATTER move the bytes of a burst to their destination and FILL repeats its pattern; host
operands are read and written by requests (R160, R187, R207, R208, R480). Model's choices: log 17. -/
def Obligations.MovesOneBurst : Prop :=
  ∀ (s : State) (c bursts : Nat), s.oneHolder → 0 < bursts → (s.chan c).engine < 4 → (s.chan c).stopPend ≠ 2 →
    ∀ d, s.cur c = some d → d.data = none → d.off < dLen d.words →
    dLen d.words - d.off ≤ s.burstBytes c d.words - d.off % s.burstBytes c d.words →
    (∀ x, x ∈ [(0x01, Instr.copy c bursts), (0x03, Instr.gather c bursts), (0x04, Instr.scatter c bursts)] →
      Executes s c x.1 d →
      blockLeft (x.1 == 0x03) d.words d.off (dLen d.words - d.off) = dLen d.words - d.off →
      blockLeft (x.1 == 0x04) d.words d.off (dLen d.words - d.off) = dLen d.words - d.off →
      (opSel (srcAt d.words d.off) = 1 ∨ opSel (srcAt d.words d.off) = 2) →
      (opSel (dstAt d.words d.off) = 1 ∨ opSel (dstAt d.words d.off) = 2) →
      ∀ sa, lands s c d false (srcAt d.words d.off) (dLen d.words - d.off) = some sa →
      ∀ da, lands s c d true (dstAt d.words d.off) (dLen d.words - d.off) = some da →
      ∃ t, exec x.2 s = .next t ∧ doneStatus t c = some 0 ∧ ((t.cur c).map (·.off)) = some (dLen d.words) ∧
        (∀ i, undefinedBytes d.words d.off (dLen d.words - d.off) ≤ i → i < dLen d.words - d.off →
          t.cohByte (opSel (dstAt d.words d.off) - 1) (da + i) = s.cohByte (opSel (srcAt d.words d.off) - 1) (sa + i)) ∧
        (∀ space a, space < 2 → a < (if space = 0 then 0x200000 else 0x80000) →
          ¬ (space = opSel (dstAt d.words d.off) - 1 ∧ da ≤ a ∧ a < da + (dLen d.words - d.off)) →
          t.cohByte space a = s.cohByte space a) ∧
        (∀ x, x ≠ c → t.chan x = s.chan x) ∧ t.due = s.due ∧ t.host = s.host) ∧
    (Executes s c 0x02 d → (opSel (dstAt d.words d.off) = 1 ∨ opSel (dstAt d.words d.off) = 2) →
      ∀ da, lands s c d true (dstAt d.words d.off) (dLen d.words - d.off) = some da →
      ∃ t, exec (.fill c bursts) s = .next t ∧ doneStatus t c = some 0 ∧
        (∀ i, i < dLen d.words - d.off → t.cohByte (opSel (dstAt d.words d.off) - 1) (da + i) = fillByte d.words (d.off + i)) ∧
        (∀ space a, space < 2 → a < (if space = 0 then 0x200000 else 0x80000) →
          ¬ (space = opSel (dstAt d.words d.off) - 1 ∧ da ≤ a ∧ a < da + (dLen d.words - d.off)) →
          t.cohByte space a = s.cohByte space a) ∧
        (∀ x, x ≠ c → t.chan x = s.chan x) ∧ t.due = s.due ∧ t.host = s.host) ∧
    (∀ phys, hostPage s c false (srcAt d.words d.off) = some phys → Executes s c 0x01 d → opSel (srcAt d.words d.off) = 0 →
      ∃ t, exec (.copy c bursts) s = .next t ∧ ((t.cur c).map (·.phase)) = some .hostData ∧
        (t.host.reads.any (fun r => r.addr == phys && r.purpose == .data c) = true ∨
          t.host.waits.any (fun r => r.addr == phys && r.purpose == .data c) = true) ∧
        t.stag = s.stag ∧ t.objs = s.objs ∧ (∀ x, x ≠ c → t.chan x = s.chan x)) ∧
    (Running s → s.linkUp = true → (s.chan c).st = .running → dOp d.words = 0x01 → d.phase = .hostData →
      ∀ tag, ∀ r, s.host.reads.find? (fun x => x.tag == tag) = some r → r.dead = false → r.purpose = .data c → r.got = [] →
      ∀ bs : List Byte, bs.length = r.len →
      bs.length = dLen d.words - d.off → undefinedBytes d.words d.off (dLen d.words - d.off) = 0 →
      (opSel (dstAt d.words d.off) = 1 ∨ opSel (dstAt d.words d.off) = 2) →
      ∀ da, lands s c d true (dstAt d.words d.off) (dLen d.words - d.off) = some da →
      ∃ t, exec (.hostCompletion tag 0 false bs) s = .next t ∧ doneStatus t c = some 0 ∧
        (∀ i, i < bs.length → t.cohByte (opSel (dstAt d.words d.off) - 1) (da + i) = bs.getD i 0) ∧
        (∀ x, x ≠ c → t.chan x = s.chan x)) ∧
    (∀ phys, hostPage s c true (dstAt d.words d.off) = some phys → Executes s c 0x02 d → opSel (dstAt d.words d.off) = 0 →
      phys % 4096 + (dLen d.words - d.off) ≤ 4096 → phys % s.mrrsBytes + (dLen d.words - d.off) ≤ s.mrrsBytes →
      opAddr (dstAt d.words d.off) % 4096 = phys % 4096 →
      ∃ t, exec (.fill c bursts) s = .next t ∧ doneStatus t c = some 0 ∧
        (t.host.outq.flatMap (·.data)) = s.host.outq.flatMap (·.data) ++
          (List.range (dLen d.words - d.off)).map (fun i => fillByte d.words (d.off + i)) ∧
        t.stag = s.stag ∧ t.objs = s.objs ∧ (∀ x, x ≠ c → t.chan x = s.chan x))

/-- Waits complete when their condition holds and park the channel when not; SIGNAL raises a fence; NOP, JUMP and LOOP
pass the chain on (R164, R165, R167, R367, R368, R51). Model's choices: log 30 and log 31. -/
def Obligations.SyncAndControlDescriptors : Prop :=
  ∀ (s : State) (c : Nat), (s.chan c).stopPend = 0 → s.oneHolder → (s.chan c).engine < 4 → ∀ d, s.cur c = some d →
    (Executes s c 0x3F d → ∃ t, exec (.nop c) s = .next t ∧ t.chan c = doneWith s c d 0 ∧
      (∀ x, x ≠ c → t.chan x = s.chan x) ∧ Unchanged [.chans, .engines] [] s t) ∧
    (Executes s c 0x40 d → ∃ t, exec (.jump c) s = .next t ∧
      t.chan c = doneWith s c { d with words := d.words.set 10 (BitVec.ofNat 32 (dOps d.words 0)) } 0 ∧
      (∀ x, x ≠ c → t.chan x = s.chan x) ∧ Unchanged [.chans, .engines] [] s t) ∧
    (Executes s c 0x41 d → d.idx < 8192 → d.words.length = 16 →
      (0 < (if bitAt (dOps d.words 3) 0 then dOps d.words 2 else dOps d.words 1) → dOps d.words 1 ≠ 0xFFFFFFFF →
        ∃ t, exec (.loop c) s = .next t ∧ doneStatus t c = some 0 ∧ ((t.cur c).map (fun x => dNext x.words)) = some (dOps d.words 0) ∧
          t.cohBytes 1 (64 * d.idx + 0x38) 8 =
            leBytes 4 ((if bitAt (dOps d.words 3) 0 then dOps d.words 2 else dOps d.words 1) - 1) ++ leBytes 4 1 ∧
          (∀ a, a < 0x80000 → (a < 64 * d.idx + 0x38 ∨ 64 * d.idx + 0x40 ≤ a) → t.cohByte 1 a = s.cohByte 1 a) ∧
          (∀ a, a < 0x200000 → t.cohByte 0 a = s.cohByte 0 a)) ∧
      ((if bitAt (dOps d.words 3) 0 then dOps d.words 2 else dOps d.words 1) = 0 →
        ∃ t, exec (.loop c) s = .next t ∧ doneStatus t c = some 0 ∧ ((t.cur c).map (fun x => dNext x.words)) = some (dNext d.words) ∧
          t.cohBytes 1 (64 * d.idx + 0x38) 8 = leBytes 4 0 ++ leBytes 4 0)) ∧
    (Executes s c 0x21 d → (s.fence (hIdx (dOps d.words 0))).broken = false →
      (dw64 d.words 14 ≤ (s.fence (hIdx (dOps d.words 0))).value.toNat →
        ∃ t, exec (.waitFence c) s = .next t ∧ t.chan c = doneWith s c d 0 ∧ (∀ x, x ≠ c → t.chan x = s.chan x) ∧
          Unchanged [.chans, .engines] [] s t) ∧
      ((s.fence (hIdx (dOps d.words 0))).value.toNat < dw64 d.words 14 →
        ∃ t, exec (.waitFence c) s = .next t ∧ t.chan c = { s.chan c with
            st := .parked, park := .fence (hIdx (dOps d.words 0)) (BitVec.ofNat 64 (dw64 d.words 14)), parkedAt := s.clk, copies := [] } ∧
          (∀ e, e < 4 → (t.engine e).chan ≠ some c) ∧ (∀ x, x ≠ c → t.chan x = s.chan x) ∧ Unchanged [.chans, .engines] [] s t)) ∧
    (Executes s c 0x23 d → opAddr (dSrc d.words) < 192 →
      (s.wickMeets (opAddr (dSrc d.words)) (dOps d.words 0 % 4) = true →
        ∃ t, exec (.waitWick c) s = .next t ∧ t.chan c = doneWith s c d 0 ∧ Unchanged [.chans, .engines] [] s t) ∧
      (s.wickMeets (opAddr (dSrc d.words)) (dOps d.words 0 % 4) = false →
        ∃ t, exec (.waitWick c) s = .next t ∧ (t.chan c).st = .parked ∧ (t.chan c).park = .wick (opAddr (dSrc d.words)) (dOps d.words 0 % 4) ∧
          (∀ e, e < 4 → (t.engine e).chan ≠ some c) ∧ (∀ x, x ≠ c → t.chan x = s.chan x) ∧ Unchanged [.chans, .engines] [] s t)) ∧
    (Executes s c 0x20 d → s.pastWhen (wheelTarget d) = true →
      ∃ t, exec (.waitWheel c) s = .next t ∧ doneStatus t c = some 0 ∧ t.lamp.entries = s.lamp.entries ∧
        (∀ x, x ≠ c → t.chan x = s.chan x)) ∧
    (Executes s c 0x21 d → (s.fence (hIdx (dOps d.words 0))).broken = true →
      ∃ t, exec (.waitFence c) s = .next t ∧ doneStatus t c = some stABORTED ∧ (∀ x, x ≠ c → t.chan x = s.chan x)) ∧
    (Executes s c 0x20 d → s.pastWhen (wheelTarget d) = false → ∀ i, s.lampFree (s.chan c).ctx = some i →
      ∃ t, exec (.waitWheel c) s = .next t ∧ (t.chan c).st = .parked ∧ (t.chan c).park = .wheel ∧
        (t.lamp.entries.map (fun e => (e.idx, e.chan, e.ctx, e.target))) =
          s.lamp.entries.map (fun e => (e.idx, e.chan, e.ctx, e.target)) ++ [(i, c, (s.chan c).ctx, wheelTarget d)] ∧
        (∀ x, x ≠ c → t.chan x = s.chan x)) ∧
    (Executes s c 0x22 d → (s.fence (hIdx (dOps d.words 0))).proxy = false → ((s.chan c).run.bind (·.hostWrote)) = none →
      ∃ t, exec (.signal c) s = .next t ∧ doneStatus t c = some 0 ∧
        (t.fence (hIdx (dOps d.words 0))).value.toNat =
          max (s.fence (hIdx (dOps d.words 0))).value.toNat (dw64 d.words 14 % 2 ^ 64) ∧
        (∀ j, j ≠ hIdx (dOps d.words 0) → t.fence j = s.fence j) ∧ t.mems = s.mems ∧ t.due = s.due ∧
        (∀ space a, space < 2 → a < (if space = 0 then 0x200000 else 0x80000) → t.cohByte space a = s.cohByte space a))

/-- EMIT hands a frame to its lane or fails; SAMPLE writes a record or waits for a frame; a stale SAMPLE ends;
PMB_XFER takes its bus or waits for it (R161, R162, R209, R433, R429, R445, R447, R452). Model's choices: log 2 and
log 45. -/
def Obligations.LaneAndBusDescriptors : Prop :=
  ∀ (s : State) (c : Nat), (s.chan c).stopPend = 0 → s.oneHolder → (s.chan c).engine < 4 → ∀ d, s.cur c = some d →
    (Executes s c 0x10 d → opSel (dDst d.words) = 3 →
      (((s.lane (opAddr (dDst d.words) / 16 % 8)).st ≠ .trained ∨
          bitAt (s.lane (opAddr (dDst d.words) / 16 % 8)).pcs (opAddr (dDst d.words) % 16) = false) →
        ∃ t, exec (.emit c) s = .next t ∧ t.chan c = doneWith s c d 0x20 ∧ (∀ x, x ≠ c → t.chan x = s.chan x) ∧
          Unchanged [.chans] [] s t) ∧
      ((s.lane (opAddr (dDst d.words) / 16 % 8)).st = .trained →
        bitAt (s.lane (opAddr (dDst d.words) / 16 % 8)).pcs (opAddr (dDst d.words) % 16) = true →
        (s.emitReady d.words = false →
          ∃ t, exec (.emit c) s = .next t ∧ (t.chan c).st = .queued ∧ t.cur c = s.cur c ∧
            (∀ e, e < 4 → (t.engine e).chan ≠ some c) ∧ (∀ x, x ≠ c → t.chan x = s.chan x) ∧
            Unchanged [.chans, .engines] [] s t) ∧
        (s.emitReady d.words = true → 0 < dOps d.words 0 / 2 ^ 16 % 32 → (opSel (dSrc d.words) = 1 ∨ opSel (dSrc d.words) = 2) →
        ∀ k, k = max d.sent (d.off / (dOps d.words 0 / 2 ^ 16 % 32)) →
        opSel (dSrc d.words + k * (dOps d.words 0 / 2 ^ 16 % 32)) = opSel (dSrc d.words) →
        ∀ sa, lands s c d false (dSrc d.words + k * (dOps d.words 0 / 2 ^ 16 % 32)) (dOps d.words 0 / 2 ^ 16 % 32) = some sa →
        ∃ t, exec (.emit c) s = .next t ∧ (t.chan c).st = .running ∧ ((t.cur c).map (·.phase)) = some .lane ∧
          (t.lane (opAddr (dDst d.words) / 16 % 8)).waiting = (s.lane (opAddr (dDst d.words) / 16 % 8)).waiting ++
            [{ who := .emit c k, addr := 16 * (dOps d.words 0 / 2 ^ 8 % 16) + opAddr (dDst d.words) % 16,
               cmd := dOps d.words 0 % 2 ^ 8, payload := s.cohBytes (opSel (dSrc d.words) - 1) sa (dOps d.words 0 / 2 ^ 16 % 32),
               seq := 0, retries := 0, cls := dClass d.words, l := d.l, i := s.now, eng := (s.chan c).engine, placed := none,
               crc := 0 }] ∧
          (∀ l, l ≠ opAddr (dDst d.words) / 16 % 8 → t.lane l = s.lane l) ∧ (∀ x, x ≠ c → t.chan x = s.chan x) ∧
          (∀ e, e < 4 → (t.engine e).chan = (s.engine e).chan)))) ∧
    (Executes s c 0x11 d → d.data = none → d.sent = 0 → d.off < dLen d.words →
      ((s.lane (dSrc d.words / 16 % 8)).rxbuf.any (fun f => f.addr % 16 == dSrc d.words % 16 && wtBefore d.takeWT f.wt) = false →
        ∃ t, exec (.sample c) s = .next t ∧ (t.chan c).st = .queued ∧ ((t.cur c).map (·.phase)) = some .frame ∧
          (∀ x, x ≠ c → t.chan x = s.chan x) ∧ Unchanged [.chans, .engines] [] s t) ∧
      (∀ f, (s.lane (dSrc d.words / 16 % 8)).rxbuf.find? (fun f => f.addr % 16 == dSrc d.words % 16 && wtBefore d.takeWT f.wt) =
          some f → f.payload.length ≤ 16 → d.off % 32 = 0 → dLen d.words = d.off + 32 → d.words.length = 16 → d.idx < 8192 →
        opSel (sampleDst d) = 1 → ∀ da, lands s c d true (sampleDst d) 32 = some da →
        ∃ t, exec (.sample c) s = .next t ∧ doneStatus t c = some 0 ∧
          t.cohBytes 0 da 32 = leBytes 6 f.wt.toNat ++ leBytes 1 f.addr ++ leBytes 1 (dSrc d.words / 16 % 8) ++ leBytes 1 f.cmd ++
            leBytes 1 f.payload.length ++ leBytes 6 0 ++ f.payload ++ List.replicate (16 - f.payload.length) 0 ∧
          t.cohBytes 1 (64 * d.idx + 0x34) 4 = leBytes 4 ((dOps d.words 1 % 2 ^ 16 + 1) % 2 ^ 16) ∧
          (∀ x, x ≠ c → t.chan x = s.chan x))) ∧
    (Executes s c 0x12 d → d.after = none → ∀ bs, busBytes s c d = some bs →
      (s.busEn (busOf d.words) = false →
        ∃ t, exec (.pmbXfer c) s = .next t ∧ doneStatus t c = some 0x21 ∧ t.fld F.PMB_EVT_NAK = 1 ∧
          t.fld F.PMB_CNT_NAKS = min (s.fld F.PMB_CNT_NAKS + 1) (2 ^ F.PMB_CNT_NAKS.width - 1) ∧
          (s.fld F.PMB_CAP_VALID = 0 → (t.word 0 0x360).toNat % 16 = 10) ∧ (∀ x, x ≠ c → t.chan x = s.chan x)) ∧
      (s.busEn (busOf d.words) = true → bufOk d.words bs = false →
        ∃ t, exec (.pmbXfer c) s = .next t ∧ doneStatus t c = some 0x21 ∧ t.fld F.PMB_EVT_NAK = 1 ∧
          (s.fld F.PMB_CAP_VALID = 0 → (t.word 0 0x360).toNat % 16 = 7) ∧ (∀ x, x ≠ c → t.chan x = s.chan x)) ∧
      (s.busEn (busOf d.words) = true → bufOk d.words bs = true →
        (s.pmbp (busOf d.words)).user = none → s.busAsking (busOf d.words) = [] →
        ∃ t, exec (.pmbXfer c) s = .next t ∧ (t.pmbp (busOf d.words)).user = some (.chan c) ∧
          (t.pmbp (busOf d.words)).wire = pmbWire d.words bs ∧ t.clk = s.clk + 1 ∧ (t.chan c).st = .queued ∧
          ((t.cur c).map (·.phase)) = some .bus ∧ (∀ k, k ≠ busOf d.words → t.pmbp k = s.pmbp k) ∧
          (∀ x, x ≠ c → t.chan x = s.chan x))) ∧
    (Running s → dOp d.words = 0x11 → d.phase = .frame →
      ∃ t, exec (.sampleStale c) s = .next t ∧ (∀ x, t.cur c = some x → x.phase ≠ .frame ∧ x.late = true) ∧ s.clk ≤ t.clk)

/-- CHAIR_TAKE takes a free chair or waits; CHAIR_GIVE frees an owned one; ALLOC and FREE go to the Cupboard, which
performs one operation at a time (R338, R340, R334, R358, R359, R363). Model's choices: log 32. -/
def Obligations.ChairAndObjectDescriptors : Prop :=
  ∀ (s : State) (c : Nat), (s.chan c).stopPend = 0 → Running s →
    (∀ d, s.cur c = some d → s.tabRemote (descChair d.words / 8) = false →
      (s.admits (descChair d.words / 8) (s.chan c).ctx = true →
        (Executes s c 0x30 d → s.owns (descChair d.words) s.self (ctxMid (s.chan c).ctx) = false →
          ((s.chair (descChair d.words)).held = false → (s.chair (descChair d.words)).abandoned = false →
            (s.chair (descChair d.words)).waiters = [] →
            ∃ t, exec (.chairTake c) s = .next t ∧ doneStatus t c = some 0 ∧ (t.chair (descChair d.words)).held = true ∧
              (t.chair (descChair d.words)).mid = ctxMid (s.chan c).ctx ∧ (t.chair (descChair d.words)).peer = s.self ∧
              (∀ n, n ≠ descChair d.words → t.chair n = s.chair n) ∧ (∀ x, x ≠ c → t.chan x = s.chan x)) ∧
          ((s.chair (descChair d.words)).held = true →
            ∃ t, exec (.chairTake c) s = .next t ∧ (t.chan c).st = .parked ∧ (t.chan c).park = .chair (descChair d.words) ∧
              t.chair (descChair d.words) = { s.chair (descChair d.words) with
                waiters := (s.chair (descChair d.words)).waiters ++ [(.chan c, d.takeWT)] } ∧
              (∀ n, n ≠ descChair d.words → t.chair n = s.chair n) ∧ (∀ x, x ≠ c → t.chan x = s.chan x) ∧
              Unchanged [.chans, .engines, .chairs] [] s t)) ∧
        (Executes s c 0x31 d →
          (s.owns (descChair d.words) s.self (ctxMid (s.chan c).ctx) = true → (s.chair (descChair d.words)).waiters = [] →
            s.kindle.load = none →
            ∃ t, exec (.chairGive c) s = .next t ∧ doneStatus t c = some 0 ∧ (t.chair (descChair d.words)).held = false ∧
              (∀ n, n ≠ descChair d.words → t.chair n = s.chair n) ∧ (∀ x, x ≠ c → t.chan x = s.chan x)) ∧
          (s.owns (descChair d.words) s.self (ctxMid (s.chan c).ctx) = false →
            ∃ t, exec (.chairGive c) s = .next t ∧ t.chan c = doneWith s c d 0x10 ∧ t.chairs = s.chairs ∧
              Unchanged [.chans, .engines] [] s t))) ∧
      (s.admits (descChair d.words / 8) (s.chan c).ctx = false →
        (Executes s c 0x30 d → ∃ t, exec (.chairTake c) s = .next t ∧ doneStatus t c = some 0x10 ∧ t.chairs = s.chairs) ∧
        (Executes s c 0x31 d → ∃ t, exec (.chairGive c) s = .next t ∧ doneStatus t c = some 0x10 ∧ t.chairs = s.chairs))) ∧
    (∀ d, s.cur c = some d → s.cup.op.isSome = true → d.data = none →
      (Executes s c 0x38 d → ∃ t, exec (.alloc c) s = .next t ∧ t.cup.op = s.cup.op ∧
        t.cup.waits = s.cup.waits.filter (·.1 != c) ++ [(c, s.now)] ∧ (∀ x, x ≠ c → t.chan x = s.chan x) ∧
        Unchanged [.chans, .cup, .engines] [] s t) ∧
      (Executes s c 0x39 d → ∃ t, exec (.free c) s = .next t ∧ t.cup.op = s.cup.op ∧
        t.cup.waits = s.cup.waits.filter (·.1 != c) ++ [(c, s.now)] ∧ (∀ x, x ≠ c → t.chan x = s.chan x) ∧
        Unchanged [.chans, .cup, .engines] [] s t)) ∧
    (∀ d, s.cur c = some d → s.cup.op = none → d.data = none →
      (Executes s c 0x38 d → ∃ t, exec (.alloc c) s = .next t ∧ t.cup.op = some ⟨c, (s.chan c).ctx, d.words⟩ ∧
        ((t.cur c).map (·.phase)) = some .cup ∧ (∀ x, x ≠ c → t.chan x = s.chan x) ∧ Unchanged [.chans, .cup, .engines] [] s t) ∧
      (Executes s c 0x39 d → ∃ t, exec (.free c) s = .next t ∧ t.cup.op = some ⟨c, (s.chan c).ctx, d.words⟩ ∧
        ((t.cur c).map (·.phase)) = some .cup ∧ (∀ x, x ≠ c → t.chan x = s.chan x) ∧ Unchanged [.chans, .cup, .engines] [] s t)) ∧
    (s.cup.op = none → exec .cupboardOperationEnd s = .next s) ∧
    (∀ o, s.cup.op = some o → s.cup.waits = [] → (s.chan o.chan).stopPend = 0 → s.cupMine o = true →
      (dOp o.words = 0x38 → ∀ k, allocFails s o = some k → k < 8 →
        ∃ t, exec .cupboardOperationEnd s = .next t ∧ t.cup.op = none ∧ doneStatus t o.chan = some 0x31 ∧ t.fld F.CUP_FAIL_CAUSE = k ∧
          t.fld F.CUP_FAIL_CTX = o.ctx % 2 ^ F.CUP_FAIL_CTX.width ∧ t.fld F.CUP_EVT_FAIL = 1 ∧ t.mems = s.mems ∧
          t.shades = s.shades ∧ (∀ x, x ≠ o.chan → t.chan x = s.chan x)) ∧
      (dOp o.words = 0x39 → ∀ i, s.memOf (dOps o.words 0) = some i → (s.mobj i).cnt = 0 → (s.mobj i).release = 0 →
        ∃ t, exec .cupboardOperationEnd s = .next t ∧ t.cup.op = none ∧ doneStatus t o.chan = some 0 ∧ (t.mobj i).live = false ∧
          (t.mobj i).gen = ((s.mobj i).gen + 1) % 4096 ∧ (∀ j, j ≠ i → t.mobj j = s.mobj j)) ∧
      (dOp o.words = 0x39 → ∀ i, s.memOf (dOps o.words 0) = some i → 0 < (s.mobj i).cnt →
        ∃ t, exec .cupboardOperationEnd s = .next t ∧ t.cup.op = none ∧ doneStatus t o.chan = some 0 ∧
          t.mobj i = { s.mobj i with destroy := true } ∧ (∀ j, j ≠ i → t.mobj j = s.mobj j)))

/-- An ALLOC gets shaded granules and an object; scrubbed granules are zero, shade 0; a lost context is unwound; old
lines reach memory (R360, R361, R364, R555, R293). Model's choices: log 34 and log 74. -/
def Obligations.CupboardAndMemoryTime : Prop :=
  ∀ s : State, Running s →
    (∀ o, s.cup.op = some o → dOp o.words = 0x38 → isDevCtx o.ctx = true → (s.ctx o.ctx).losing = none → (s.ctx o.ctx).st = .live →
      s.cup.waits = [] → ∀ x, allocGets s o = some x → x.2.1 + x.2.2 ≤ 32768 →
      ∃ t, exec .cupboardOperationEnd s = .next t ∧ t.cup.op = none ∧
        t.mobj x.1 = { MemObj.init with
          live := true, gen := (s.mobj x.1).gen, owner := o.ctx, typ := 3, base := 64 * x.2.1, len := 64 * x.2.2 } ∧
        (∀ j, j ≠ x.1 → t.mobj j = s.mobj j) ∧
        (∀ g, x.2.1 ≤ g → g < x.2.1 + x.2.2 → t.shadeOf g = dOps o.words 1 / 2 ^ 8 % 16) ∧
        (∀ g, (g < x.2.1 ∨ x.2.1 + x.2.2 ≤ g) → t.shadeOf g = s.shadeOf g)) ∧
    (∀ o, s.cup.op = some o → dOp o.words = 0x38 → isDevCtx o.ctx = false → (s.ctx o.ctx).losing = none → (s.ctx o.ctx).st = .live →
      s.cup.waits = [] → ∀ x, allocPages s o = some x → x.2.2.all (fun p => p < 512) = true →
      ∃ t, exec .cupboardOperationEnd s = .next t ∧ t.cup.op = none ∧
        t.mobj x.1 = { MemObj.init with
          live := true, gen := (s.mobj x.1).gen, owner := o.ctx, typ := 3, base := 4096 * x.2.1, len := 4096 * x.2.2.length } ∧
        (∀ j, j ≠ x.1 → t.mobj j = s.mobj j) ∧
        (∀ i, i < x.2.2.length → SMap.get 0 (t.ctx o.ctx).view (x.2.1 + i) = x.2.2.getD i 0 + 1) ∧
        (∀ g, x.2.2.contains (g / 64) = true → t.shadeOf g = dOps o.words 1 / 2 ^ 8 % 16) ∧
        (∀ g, x.2.2.contains (g / 64) = false → t.shadeOf g = s.shadeOf g)) ∧
    (∀ r, s.cup.scrub.head? = some r → r.1 + r.2 ≤ 32768 → s.oneHolder →
      s.firstRefused ⟨3, 2, 15, 0, false, 0xFF, 0, 64 * r.1, 64 * r.2, true⟩ = none →
      ∃ t, exec .scrubDone s = .next t ∧ t.cup.scrub = s.cup.scrub.tail ∧
        (∀ a, 64 * r.1 ≤ a → a < 64 * (r.1 + r.2) → t.cohByte 0 a = 0) ∧
        (∀ a, (a < 64 * r.1 ∨ 64 * (r.1 + r.2) ≤ a) → a < 0x200000 → t.cohByte 0 a = s.cohByte 0 a) ∧
        (∀ g, r.1 ≤ g → g < r.1 + r.2 → t.shadeOf g = 0) ∧
        (s.fillLeft = 0 → ∀ g, (g < r.1 ∨ r.1 + r.2 ≤ g) → t.shadeOf g = s.shadeOf g) ∧
        t.clk = max s.clk (s.cup.scrubAt + 2 * r.2) ∧
        UnchangedButTime [.stag, .engines, .cup, .ports, .elder] [0x07C, F.ARB_CNT0_ELDER.off] s t) ∧
    (∀ n, n < 64 → ∀ c, (s.ctx n).losing = some c → (s.ctx n).st = .live → s.cupBusyFor n = false →
      ∃ t, exec (.ctxLossUnwind n) s = .next t ∧ (t.ctx n).st = .lost ∧ (t.ctx n).losing = none ∧ (t.ctx n).heldRefs = [] ∧
        (∀ d, (s.chan d).ctx = n → (t.chan d).run = none ∨ s.atomicBusy d = true) ∧
        (∀ e ∈ t.lamp.entries, e.ctx ≠ n) ∧ (∀ m, m ≠ n → (t.ctx m).st = (s.ctx m).st) ∧ t.shades = s.shades) ∧
    (∀ e, e < 4 → s.oneHolder →
      ∃ t, exec (.wcbIdleFlush e) s = .next t ∧ (∀ l ∈ (t.engine e).wcb, l ∈ (s.engine e).wcb ∧ t.clk < l.last + s.wcbAge) ∧
        (∀ f, f ≠ e → t.engine f = s.engine f) ∧ (∀ a, a < 0x200000 → t.cohByte 0 a = s.cohByte 0 a) ∧
        (∀ a, a < 0x80000 → t.cohByte 1 a = s.cohByte 1 a) ∧ t.chans = s.chans ∧ t.mems = s.mems)

/-- CHR_SIT takes a free chair with its tag, CHR_GIVE frees an owned one or refuses, CHR_WAIT takes, waits or is
denied, and limits end waits (R335, R337, R338, R340, R341). -/
def Obligations.ChairPorts : Prop :=
  ∀ (s : State) (p : Path) (n : Nat), n < 128 → s.tabRemote (n / 8) = false →
    (Reaches s p (0x400 + 4 * n) →
      (s.admits (n / 8) (pathCtx p) = true →
        (∀ tag, tag < 65536 →
          ((s.chair n).held = false → (s.chair n).waiters = [] →
            ∃ t, exec (.chrSit p n tag) s = .next t ∧
              t.chair n = { s.chair n with held := true, peer := s.self, mid := pathMid p, tag := tag } ∧
              (∀ m, m ≠ n → t.chair m = s.chair m) ∧ t.chans = s.chans) ∧
          ((s.chair n).held = true → exec (.chrSit p n tag) s = .next s)) ∧
        (s.owns n s.self (pathMid p) = true → (s.chair n).waiters = [] → s.kindle.load = none →
          ∃ t, exec (.chrGive p n) s = .next t ∧ t.chair n = Chair.init ∧ (∀ m, m ≠ n → t.chair m = s.chair m) ∧
            t.chans = s.chans) ∧
        (s.owns n s.self (pathMid p) = false →
          ∃ t, exec (.chrGive p n) s = .next t ∧ t.fld F.CHR_EVT_BADGIVE = 1 ∧
            t.fld F.CHR_CNT_REFUSED = min (s.fld F.CHR_CNT_REFUSED + 1) (2 ^ F.CHR_CNT_REFUSED.width - 1) ∧
            (s.fld F.CHR_EVT_BADGIVE = 0 → (t.word 0 0x034).toNat = pathMid p + 2 ^ 8 * n + 2 ^ 31) ∧
            Unchanged [.host] [0x034, F.CHR_EVT_BADGIVE.off, F.CHR_CNT_REFUSED.off] s t)) ∧
      (s.admits (n / 8) (pathCtx p) = false →
        (∃ t, exec (.chrSit p n 0) s = .next t ∧ exec (.chrGive p n) s = .next t ∧ t.fld F.CHR_EVT_DENY = 1 ∧
          t.fld F.CHR_CNT_REFUSED = min (s.fld F.CHR_CNT_REFUSED + 1) (2 ^ F.CHR_CNT_REFUSED.width - 1) ∧
          Unchanged [.host] [F.CHR_EVT_DENY.off, F.CHR_CNT_REFUSED.off] s t))) ∧
    (Reaches s p (0x600 + 4 * n) → s.admits (n / 8) (pathCtx p) = true →
      ((s.chair n).held = false → (s.chair n).waiters = [] →
        ∃ t, exec (.chrWaitRead p n) s = .next t ∧
          t.chair n = { s.chair n with held := true, peer := s.self, mid := pathMid p, tag := 0 } ∧
          PortShows t p [BitVec.ofNat 32 (t.chairWord n)] ∧ (∀ m, m ≠ n → t.chair m = s.chair m)) ∧
      ((s.chair n).held = true → s.owns n s.self (pathMid p) = false →
        ∃ t, exec (.chrWaitRead p n) s = .next t ∧
          t.chair n = { s.chair n with waiters := (s.chair n).waiters ++ [(.path p, s.now)] } ∧
          t.heldOn p (.chrWait n) = true ∧ (∀ m, m ≠ n → t.chair m = s.chair m) ∧ Unchanged [portPart p, .chairs] [] s t)) ∧
    (Running s → s.heldOn p (.chrWait n) = true → (∀ h, (s.port p).held = some h → h.total = 1 ∧ h.got = []) →
      ∃ t, exec (.chrWaitTimeout p) s = .next t ∧ PortShows t p [BitVec.ofNat 32 (t.chairWord n)] ∧
        (∀ e ∈ (t.chair n).waiters, e.1 ≠ .path p) ∧
        (∀ h, (s.port p).held = some h → t.clk = max s.clk (h.since + 800 * max 1 (min (s.fld F.CHR_CTL_RD_LIMIT) 50))) ∧
        t.fld F.CHR_CNT_TIMEOUT = min (s.fld F.CHR_CNT_TIMEOUT + 1) (2 ^ F.CHR_CNT_TIMEOUT.width - 1)) ∧
    (Running s → ∀ c, (s.chan c).st = .parked → (s.chan c).park = .chair n → (s.chan c).run.isSome = true →
      ∃ t, exec (.chairTakeTimeout (some c)) s = .next t ∧ (t.chan c).st = .queued ∧
        (s.cur c ≠ none → doneStatus t c = some 0x30) ∧ (∀ e ∈ (t.chair n).waiters, e.1 ≠ .chan c) ∧
        t.clk = max s.clk ((s.chan c).parkedAt + 800 * max 1 (s.fld F.CHR_DLIM_LIMIT)) ∧
        t.fld F.CHR_CNT_TIMEOUT = min (s.fld F.CHR_CNT_TIMEOUT + 1) (2 ^ F.CHR_CNT_TIMEOUT.width - 1)) ∧
    (Running s → s.gov.job = none → exec (.chairTakeTimeout none) s = .next s)

/-- A lane starts frames with credit and SEQ, acknowledgements and missed windows settle them, turns are granted and
lapse, and HOLD frames end in HOLD (R413, R414, R417, R418, R419, R420, R421, R422, R431, R434). Model's choices: log
43 and log 44. -/
def Obligations.LanesTransmit : Prop :=
  ∀ (s : State) (l : Nat), Running s → l < 8 → (s.lane l).tx = none →
    ((s.lane l).st = .trained → (s.lane l).kq = [] →
      (∀ f, (s.lane l).resend.head? = some f → (s.lane l).owed = none → s.holdCalled = false →
        ∃ t, exec (.laneFrameStart l) s = .next t ∧ (t.lane l).tx = some (Framed f f.seq, true) ∧
          (t.lane l).resend = (s.lane l).resend.tail ∧ (t.lane l).txSeq = (s.lane l).txSeq ∧
          (t.lane l).credits = (s.lane l).credits ∧ (∀ m, m ≠ l → LaneKept s t m) ∧ t.chans = s.chans) ∧
      ((s.lane l).resend = [] → (s.lane l).aborted.length = 1 → ∀ f, (s.lane l).aborted.head? = some f → (s.lane l).waiting = [] → (s.lane l).owed = none →
        (s.lane l).turn = none → s.holdCalled = false → (s.lane l).emitCan f.pc = true →
        ∃ t, exec (.laneFrameStart l) s = .next t ∧
          (t.lane l).tx = some (Framed f (SMap.get 0 (s.lane l).txSeq f.pc), false) ∧ (t.lane l).aborted = [] ∧
          (t.lane l).credit f.pc + 1 = (s.lane l).credit f.pc ∧ (∀ m, m ≠ l → LaneKept s t m)) ∧
      ((s.lane l).resend = [] → (s.lane l).aborted = [] → (s.lane l).owed = none → (s.lane l).turn = none →
        s.holdCalled = false → (s.lane l).waiting.length = 1 → ∀ f, (s.lane l).waiting.head? = some f →
        ∀ c, frameChan f = some c → (s.lane l).emitCan f.pc = true →
        ∃ t, exec (.laneFrameStart l) s = .next t ∧
          (t.lane l).tx = some (Framed f (SMap.get 0 (s.lane l).txSeq f.pc), false) ∧ (t.lane l).waiting = [] ∧
          SMap.get 0 (t.lane l).txSeq f.pc = (SMap.get 0 (s.lane l).txSeq f.pc + 1) % 8 ∧
          (t.lane l).credit f.pc + 1 = (s.lane l).credit f.pc ∧ (∀ m, m ≠ l → LaneKept s t m))) ∧
    (((s.lane l).st = .trained ∨ (s.lane l).st = .hold) → ∀ f, (s.lane l).unacked.head? = some f →
      (∃ t, exec (.ackReceived l) s = .next t ∧ (∀ g ∈ (t.lane l).unacked, g.same f = false) ∧
        (∀ g ∈ (t.lane l).resend, g.same f = false) ∧ (t.lane l).credit f.pc = min 4 ((s.lane l).credit f.pc + 1) ∧
        (∀ m, m ≠ l → t.lane m = s.lane m)) ∧
      ((s.lane l).dueAgain f = true →
        ∃ t, exec (.ackWindowMissed l) s = .next t ∧ t.lane l = { s.lane l with unacked := (s.lane l).unacked.tail } ∧
          (∀ m, m ≠ l → t.lane m = s.lane m) ∧ Unchanged [.lanes] [] s t) ∧
      ((s.lane l).st = .trained → (s.lane l).dueAgain f = false →
        (f.retries < 3 →
          ∃ t, exec (.ackWindowMissed l) s = .next t ∧
            ((t.lane l).resend.find? (fun g => g.pc == f.pc)) = some { f with retries := f.retries + 1 } ∧
            (t.lane l).unacked = (s.lane l).unacked.tail ∧ t.fldI 0 (F.LAN_EVT_RETRY.lane l) = 1 ∧
            t.fldI 0 (F.LAN_CNT0_RETRIES.lane l) =
              min (s.fldI 0 (F.LAN_CNT0_RETRIES.lane l) + 1) (2 ^ (F.LAN_CNT0_RETRIES.lane l).width - 1) ∧
            Unchanged [.lanes, .host] [(F.LAN_EVT_RETRY.lane l).off, (F.LAN_CNT0_RETRIES.lane l).off] s t) ∧
        (3 ≤ f.retries →
          ∃ t, exec (.ackWindowMissed l) s = .next t ∧ (t.lane l).st ≠ .trained ∧ (t.lane l).waiting = [] ∧
            (t.lane l).unacked = [] ∧ t.fldI 0 (F.LAN_EVT_FAIL.lane l) = 1 ∧ t.fldI 0 (F.LAN_EVT_DOWN.lane l) = 1 ∧
            (∀ m, m ≠ l → t.lane m = s.lane m)))) ∧
    ((s.lane l).turn = none → (s.lane l).owed = none → (s.lane l).unacked = [] → (s.lane l).resend = [] → (s.lane l).kq = [] →
      (s.lane l).rxbuf = [] → (s.lane l).st = .trained → s.fldI 0 (F.LAN_CTL_TURNS.lane l) = 1 → (s.lane l).pcs ≠ 0 →
      s.holdCalled = false →
      ∃ t, exec (.turnGrant l) s = .next t ∧ (t.lane l).turn = some (s.lane l).nextTurn ∧
        (t.lane l).lastTurn = (s.lane l).nextTurn ∧ (∀ m, m ≠ l → LaneKept s t m) ∧ t.chans = s.chans) ∧
    ((s.lane l).turn = none → (s.lane l).owed = none → (s.lane l).unacked = [] → (s.lane l).resend = [] → (s.lane l).kq = [] →
      (s.lane l).rxbuf = [] → (s.lane l).st = .discover → (s.lane l).disc < 16 →
      ∃ t, exec (.turnGrant l) s = .next t ∧ (t.lane l).turn = some (s.lane l).disc ∧
        (t.lane l).disc = (s.lane l).disc + 1 ∧ (∀ m, m ≠ l → LaneKept s t m) ∧ t.chans = s.chans) ∧
    ((s.lane l).turn ≠ none →
      ∃ t, exec (.turnLapse l) s = .next t ∧ t.lane l = { s.lane l with turn := none } ∧ (∀ m, m ≠ l → LaneKept s t m) ∧
        t.clk = max s.clk ((s.lane l).busyTo + 52) ∧ t.chans = s.chans) ∧
    (s.holdCalled = true → (s.lane l).st = .trained → s.entryOn l = false → (s.lane l).kq = [] →
      ∃ t, exec (.holdFrame l) s = .next t ∧ (t.lane l).st = .hold ∧ (t.lane l).turn = none ∧ (t.lane l).owed = none ∧
        (∀ m, m ≠ l → LaneKept s t m) ∧ t.chans = s.chans)

/-- An in-sequence frame in its turn is taken and owes an ACK, a bad one is counted; lanes train through LOCK and
DISCOVER to TRAINED or go DOWN (R413, R425, R427, R429, R430, R431, R437). Model's choices: log 85. -/
def Obligations.LanesReceiveAndTrain : Prop :=
  ∀ (s : State) (l : Nat), Running s → l < 8 → (s.lane l).tx = none → (s.lane l).st ≠ .hold →
    (∀ pc, (s.lane l).turn = some pc → pc < 16 → (s.lane l).rxbuf = [] →
      ((s.lane l).st = .trained → s.gov.measuring = false → ∀ bs : List Byte, 8 ≤ bs.length → bs.length ≤ 16 →
        SMap.get 0 (s.lane l).rxSeq pc < 8 →
        ∃ t, exec (.telemetry l pc (SMap.get 0 (s.lane l).rxSeq pc) bs) s = .next t ∧
          SMap.get [] (t.lane l).telem pc = [⟨s.now, 0x40 + pc, 0x01, bs⟩] ∧ (t.lane l).owed = some true ∧
          (t.lane l).turn = none ∧ SMap.get 0 (t.lane l).rxSeq pc = (SMap.get 0 (s.lane l).rxSeq pc + 1) % 8 ∧
          (∀ m, m ≠ l → t.lane m = s.lane m)) ∧
      ((s.lane l).st = .trained → SMap.get 0 (s.lane l).rxSeq pc < 8 → ∀ b : Byte, b.toNat < 2 →
        ∃ t, exec (.request l pc (SMap.get 0 (s.lane l).rxSeq pc) b) s = .next t ∧
          bitAt t.laneWicks (16 * l + pc) = decide (b.toNat = 1) ∧
          (∀ w, w ≠ 16 * l + pc → bitAt t.laneWicks w = bitAt s.laneWicks w) ∧ (t.lane l).owed = some true ∧
          (t.lane l).turn = none ∧ (∀ m, m ≠ l → t.lane m = s.lane m)) ∧
      ((s.lane l).st = .discover → SMap.get 0 (s.lane l).rxSeq pc < 8 → ∀ bs : List Byte, bs.length = 4 →
        ∃ t, exec (.hello l pc (SMap.get 0 (s.lane l).rxSeq pc) bs) s = .next t ∧ bitAt (t.lane l).pcs pc = true ∧
          (∀ q, q ≠ pc → bitAt (t.lane l).pcs q = bitAt (s.lane l).pcs q) ∧ (t.lane l).owed = some true ∧
          (t.lane l).turn = none ∧ (∀ m, m ≠ l → t.lane m = s.lane m) ∧ Unchanged [.lanes] [] s t) ∧
      ((s.lane l).st = .trained → SMap.get 0 (s.lane l).rxSeq pc < 8 → ∀ b : Byte, 2 ≤ b.toNat → b.toNat < 4 →
        ∃ t, exec (.request l pc (SMap.get 0 (s.lane l).rxSeq pc) b) s = .next t ∧
          bitAt t.laneWicks (16 * l + pc) = false ∧ (t.lane l).owed = some true ∧ (t.lane l).turn = none ∧
          (s.lane l).rxbuf = (t.lane l).rxbuf ∧ (∀ m, m ≠ l → LaneKept s t m)) ∧
      (((s.lane l).st = .trained ∨ (s.lane l).st = .discover) →
        (∃ t, exec (.badRxFrame l .abort) s = .next t ∧ t.lane l = { s.lane l with turn := none } ∧
          (∀ m, m ≠ l → t.lane m = s.lane m) ∧ Unchanged [.lanes] [] s t) ∧
        (∃ t, exec (.badRxFrame l .code) s = .next t ∧ t.lane l = { s.lane l with turn := none } ∧
          (∀ m, m ≠ l → t.lane m = s.lane m) ∧ t.fldI 0 (F.LAN_EVT_CRC_RX.lane l) = 1 ∧ t.fldI 0 (F.LAN_EVT_CODE.lane l) = 1 ∧
          t.fldI 0 (F.LAN_CNT0_CRC_RX.lane l) =
            min (s.fldI 0 (F.LAN_CNT0_CRC_RX.lane l) + 1) (2 ^ (F.LAN_CNT0_CRC_RX.lane l).width - 1) ∧
          t.fldI 0 (F.LAN_CNT1_CODE.lane l) = min (s.fldI 0 (F.LAN_CNT1_CODE.lane l) + 1) (2 ^ (F.LAN_CNT1_CODE.lane l).width - 1)) ∧
        ∀ (chars : List Byte) (crc : Nat), crc ≠ crc16 chars →
        ∃ t, exec (.badRxFrame l (.frame chars crc)) s = .next t ∧ t.lane l = { s.lane l with turn := none } ∧
          (∀ m, m ≠ l → t.lane m = s.lane m) ∧ t.fldI 0 (F.LAN_EVT_CRC_RX.lane l) = 1 ∧
          t.fldI 0 (F.LAN_CNT0_CRC_RX.lane l) =
            min (s.fldI 0 (F.LAN_CNT0_CRC_RX.lane l) + 1) (2 ^ (F.LAN_CNT0_CRC_RX.lane l).width - 1) ∧
          Unchanged [.lanes, .host] [(F.LAN_EVT_CRC_RX.lane l).off, (F.LAN_CNT0_CRC_RX.lane l).off] s t)) ∧
    ((s.lane l).owed ≠ none → (s.lane l).kq = [] →
      ∃ t, exec (.rxAnswer l) s = .next t ∧ (t.lane l).owed = none ∧ (∀ m, m ≠ l → LaneKept s t m) ∧ t.chans = s.chans) ∧
    ((s.lane l).st = .lock →
      ∃ t, exec (.laneTraining l) s = .next t ∧ (t.lane l).st = .discover ∧ (t.lane l).pcs = 0 ∧ (t.lane l).disc = 0 ∧
        (t.lane l).rxSeq = [] ∧ (t.lane l).turn = none ∧ (∀ m, m ≠ l → LaneKept s t m) ∧ t.chans = s.chans) ∧
    ((s.lane l).st = .discover → (s.lane l).disc = 16 → (s.lane l).turn = none → (s.lane l).owed = none →
      ((s.lane l).pcs ≠ 0 →
        ∃ t, exec (.discoverEnd l) s = .next t ∧ (t.lane l).st = .trained ∧ (t.lane l).pcs = (s.lane l).pcs ∧
          (∀ pc, (t.lane l).credit pc = 4 ∧ SMap.get 0 (t.lane l).txSeq pc = 0) ∧ t.fldI 0 (F.LAN_EVT_TRAINED.lane l) = 1 ∧
          (∀ m, m ≠ l → LaneKept s t m)) ∧
      ((s.lane l).pcs = 0 →
        ∃ t, exec (.discoverEnd l) s = .next t ∧ (t.lane l).st = .down ∧ (∀ m, m ≠ l → LaneKept s t m))) ∧
    ((s.lane l).st = .down → (s.lane l).trainAt ≠ 0 → s.pwr.standby = false → s.fldI 0 (F.LAN_CTL_EN.lane l) = 1 →
      s.fldI 0 (F.LAN_CTL_AUTO.lane l) = 1 →
      ∃ t, exec (.retrainTimer l) s = .next t ∧ (t.lane l).st = .lock ∧ (∀ m, m ≠ l → LaneKept s t m)) ∧
    (∀ p, Reaches s p (0x800 + 32 * l) → s.fldI 0 (F.LAN_CTL_EN.lane l) = 1 → s.fldI 0 (F.LAN_CTL_LOCK.lane l) = 0 →
      ∃ t, exec (.lanCtlEnClear p l 0) s = .next t ∧ t.fldI 0 (F.LAN_CTL_EN.lane l) = 0 ∧ (t.lane l).st = .down ∧
        (t.lane l).waiting = [] ∧ (t.lane l).unacked = [] ∧ (t.lane l).turn = none ∧ (∀ m, m ≠ l → t.lane m = s.lane m))

/-- A Kindle request is refused or starts its entry; falls, the mark and placement act on it; a load copies the image,
is checked, and flips the banks (R226, R227, R228, R229, R232, R242, R243, R244, R247). Model's choices: log 46. -/
def Obligations.KindleRequestsAndLoads : Prop :=
  ∀ s : State, Running s →
    (∀ mag dir, mag < 8 → s.kindle.req = false →
      (s.kindleRefuses = true →
        ∃ t, exec (.kndRequest mag dir) s = .next t ∧ t.kindle = { s.kindle with req := true, nak := true } ∧
          t.fld F.KND_LAST_RESULT = 1 ∧ t.fld F.KND_EVT_NAK = 1 ∧ t.lanes = s.lanes ∧ t.chans = s.chans ∧
          t.fld F.KND_CNT0_REQS = min (s.fld F.KND_CNT0_REQS + 1) (2 ^ F.KND_CNT0_REQS.width - 1) ∧
          t.fld F.KND_CNT0_NAKS = min (s.fld F.KND_CNT0_NAKS + 1) (2 ^ F.KND_CNT0_NAKS.width - 1)) ∧
      (s.kindleRefuses = false →
        ((List.range 8).all (fun l => !bitAt s.armedMask l || !slotValid (s.slot l s.bankNow (8 * b2n dir + mag))) = true →
          ∃ t, exec (.kndRequest mag dir) s = .next t ∧ t.kindle.ack = true ∧ t.kindle.nak = s.kindle.nak ∧ t.kindle.entry = none ∧
            t.fld F.KND_LAST_RESULT = 0 ∧ t.fld F.KND_LAST_EMPTY = 1 ∧ t.chans = s.chans) ∧
        ((List.range 8).any (fun l => bitAt s.armedMask l && slotValid (s.slot l s.bankNow (8 * b2n dir + mag))) = true →
          ∃ t, exec (.kndRequest mag dir) s = .next t ∧ t.kindle.ack = s.kindle.ack ∧ t.kindle.nak = s.kindle.nak ∧
            (t.kindle.entry.map (fun e => (e.mag, e.dir, e.start, e.wt, e.withdrawn))) = some (mag, dir, s.clk, s.now, false) ∧
            (∀ e, t.kindle.entry = some e → ∀ l, l < 8 →
              bitAt e.lanes l = (bitAt s.armedMask l && slotValid (s.slot l s.bankNow (8 * b2n dir + mag)))) ∧
            (∀ l, l < 8 → bitAt s.armedMask l = true →
              s.entryFrames l (8 * b2n dir + mag) (s.kindle.num + 1) ≠ [] →
              (t.lane l).kq = s.entryFrames l (8 * b2n dir + mag) (s.kindle.num + 1) ∧ (t.lane l).kfirst = true) ∧
            (∀ l, l < 8 → bitAt s.armedMask l = false → s.kindle.entry = none → t.lane l = s.lane l) ∧ t.chans = s.chans))) ∧
    (s.kindle.req = true →
      ∃ t, exec .kndReqFall s = .next t ∧ t.kindle.req = false ∧ t.kindle.ack = false ∧ t.kindle.nak = false ∧ t.lanes = s.lanes ∧
        t.kindle.entry = s.kindle.entry.map (fun e => { e with withdrawn := true }) ∧
        (s.kindle.entry = none → Unchanged [.kindle] [] s t)) ∧
    (∀ e, s.kindle.entry = some e → e.withdrawn = false →
      ∃ t, exec .kndMark s = .next t ∧ t.kindle.entry = none ∧ t.kindle.nak = true ∧ t.clk = max s.clk (e.start + 795) ∧
        t.fld F.KND_LAST_NAK_LANES = s.entryLanes e % 256 ∧ t.fld F.KND_LAST_RESULT = 1 ∧ t.fld F.KND_EVT_NAK = 1 ∧
        (∀ l, l < 8 → { t.lane l with eofWT := (s.lane l).eofWT } = { s.lane l with kq := [], kfirst := false }) ∧ t.chans = s.chans) ∧
    (∀ l, l < 8 → (s.lane l).st = .trained → (s.lane l).tx = none → (s.lane l).kfirst = true →
      ∀ f, (s.lane l).kq.head? = some f → s.placedWaits f = true → 1 ≤ (s.lane l).credit f.pc →
      ∃ t, exec (.placedFrame l) s = .next t ∧
        (t.lane l).tx = some (Framed f (SMap.get 0 (s.lane l).txSeq f.pc), false) ∧ (t.lane l).kq = (s.lane l).kq.tail ∧
        (t.lane l).kfirst = false ∧ (t.lane l).credit f.pc + 1 = (s.lane l).credit f.pc ∧ (∀ m, m ≠ l → LaneKept s t m)) ∧
    (∀ p, Reaches s p 0x210 →
      (s.loadable p = true → (List.range 128).all (fun i => s.firstRefused (s.imgAccess i) == none) = true → s.oneHolder →
        s.fld F.KND_STAT_BANK ≤ 1 → s.fld F.KND_IMG_BASE * 0x4000 + 0x4000 ≤ 0x200000 →
        ∃ t, exec (.kndLoadGo p) s = .next t ∧ t.kindle.load = some (pathMid p) ∧ t.kindle.loadErr = 0 ∧ t.kindle.loadChair = s.kindleChair ∧
          (∀ l b, l < 8 → b < 2048 →
            t.byte .lane (slotAddr l (1 - s.fld F.KND_STAT_BANK) 0 + b) =
              s.cohByte 0 (s.fld F.KND_IMG_BASE * 0x4000 + 0x800 * l + b) ∧
            t.byte .lane (slotAddr l (s.fld F.KND_STAT_BANK) 0 + b) = s.byte .lane (slotAddr l (s.fld F.KND_STAT_BANK) 0 + b)) ∧
          Unchanged [.kindle, .lanemem, .stag, .engines, .ports, .wbq, .elder] [0x07C] s t) ∧
      (s.loadable p = false →
        ∃ t, exec (.kndLoadGo p) s = .next t ∧ t.fld F.KND_EVT_REFUSED = 1 ∧ Unchanged [.host] [F.KND_EVT_REFUSED.off] s t)) ∧
    (s.kindle.load ≠ none → s.fld F.KND_STAT_BANK ≤ 1 →
      (s.kindle.loadErr = 0 → s.shadowFails = none →
        ∃ t, exec .kndLoadChecked s = .next t ∧ t.kindle.load = none ∧ t.fld F.KND_STAT_FLIP_PEND = 1 ∧
          t.fld F.KND_STAT_LOAD_ERR = 0 ∧ t.fld F.KND_STAT_BANK = s.fld F.KND_STAT_BANK ∧ Unchanged [.kindle] [0x214] s t) ∧
      (∀ f, s.loadFailure = some f → f.2 < 16 → f.1 < 128 →
        ∃ t, exec .kndLoadChecked s = .next t ∧ t.kindle.load = none ∧ t.fld F.KND_STAT_FLIP_PEND = s.fld F.KND_STAT_FLIP_PEND ∧
          t.fld F.KND_STAT_LOAD_ERR = f.2 % 2 ^ F.KND_STAT_LOAD_ERR.width ∧ t.fld F.KND_STAT_ERR_LANE = f.1 / 16 ∧
          t.fld F.KND_STAT_ERR_ENTRY = f.1 % 16 ∧ t.fld F.KND_EVT_LOAD_ERR = 1 ∧ t.fld F.KND_STAT_BANK = s.fld F.KND_STAT_BANK ∧
          (∀ l b, l < 8 → b < 2048 →
            t.byte .lane (slotAddr l (s.fld F.KND_STAT_BANK) 0 + b) = s.byte .lane (slotAddr l (s.fld F.KND_STAT_BANK) 0 + b)))) ∧
    (s.fld F.KND_STAT_FLIP_PEND = 1 → s.kindle.entry = none → s.fld F.KND_STAT_BANK ≤ 1 →
      ∃ t, exec .kndFlip s = .next t ∧ t.fld F.KND_STAT_BANK = 1 - s.fld F.KND_STAT_BANK ∧ t.fld F.KND_STAT_ACTIVE_VALID = 1 ∧
        t.fld F.KND_STAT_FLIP_PEND = 0 ∧ t.fld F.KND_EVT_LOAD_DONE = 1 ∧ t.lanemem = s.lanemem ∧
        t.kindle = { s.kindle with flippedAt := some s.clk } ∧
        Unchanged [.kindle, .host] [F.KND_STAT_BANK.off, F.KND_EVT_LOAD_DONE.off] s t)

/-- Sync edges are judged by windows or spacings, missing syncs count to COAST and LOST, holds run out, and the
generator steps by at most 2% (R37, R40, R43, R44, R46, R60, R61, R62, R63, R69, R35). Model's choices: log 8 and log
39. -/
def Obligations.WheelTracker : Prop :=
  ∀ s : State, Running s →
    (∀ dt8, s.fld F.WHL_CTL_SRC = 0 →
      (∃ t, exec (.syncEdge ⟨dt8, !activeEdge s⟩) s = .next t ∧ t.wheel = s.wheel.after ((dt8 + 7) / 8) ∧
        t.clk = s.clk + (dt8 + 7) / 8 ∧ UnchangedButTime [] [] s t) ∧
      (s.wheel.st = .locked → NoneMissed s dt8 → (edgeErr s dt8).natAbs ≤ s.winAt (edgeCyc s dt8) →
        (edgeErr s dt8).natAbs ≤ s.lockTolAt (edgeCyc s dt8) →
        ∃ t, exec (.syncEdge ⟨dt8, activeEdge s⟩) s = .next t ∧ t.wheel.st = .locked ∧ t.wheel.err = edgeErr s dt8 ∧ t.wheel.miss = 0 ∧
          t.wheel.bad = 0 ∧ t.wheel.judged = edgeCyc s dt8 ∧ t.clk = s.clk + (dt8 + 7) / 8 ∧ t.chans = s.chans) ∧
      (s.wheel.st = .locked → NoneMissed s dt8 → s.winAt (edgeCyc s dt8) < (edgeErr s dt8).natAbs →
        ∃ t, exec (.syncEdge ⟨dt8, activeEdge s⟩) s = .next t ∧ t.wheel = s.wheel.after ((dt8 + 7) / 8) ∧
          t.fld F.WHL_CNT0_STRAY = min (s.fld F.WHL_CNT0_STRAY + 1) 65535 ∧ t.chans = s.chans) ∧
      (s.wheel.st = .acquire → s.wheel.qual = true → NoneMissed s dt8 → 15 ≤ s.wheel.good →
        (edgeErr s dt8).natAbs ≤ s.winAt (edgeCyc s dt8) → (edgeErr s dt8).natAbs ≤ s.lockTolAt (edgeCyc s dt8) →
        ∃ t, exec (.syncEdge ⟨dt8, activeEdge s⟩) s = .next t ∧ t.wheel.st = .locked ∧ t.wheel.miss = 0) ∧
      (s.wheel.st = .coast → NoneMissed s dt8 → ∀ l, s.wheel.lastEdge = some l → spacingOk (8 * s.clk + dt8 - l) = true →
        near2 (8 * s.clk + dt8 - l) s.wheel.est = true →
        ∃ t, exec (.syncEdge ⟨dt8, activeEdge s⟩) s = .next t ∧ t.wheel.st = .locked ∧ t.wheel.miss = 0 ∧ t.wheel.lastEdge = none) ∧
      ((s.wheel.st = .idle ∨ s.wheel.st = .lost) → ∀ l, s.wheel.lastEdge = some l → s.wheel.spacings.length = 2 →
        spacingOk (8 * s.clk + dt8 - l) = true → agree ((8 * s.clk + dt8 - l) :: s.wheel.spacings) = true →
        ∃ t, exec (.syncEdge ⟨dt8, activeEdge s⟩) s = .next t ∧ t.wheel.st = .acquire ∧ t.wheel.miss = 0 ∧ t.wheel.qual = true ∧
          t.wheel.est = 2 * ((8 * s.clk + dt8 - l) + s.wheel.spacings.sum) / 3) ∧
      (s.wheel.st = .master →
        ∃ t, exec (.syncEdge ⟨dt8, activeEdge s⟩) s = .next t ∧ t.wheel = s.wheel.after ((dt8 + 7) / 8) ∧ UnchangedButTime [] [] s t)) ∧
    (s.wheel.st = .locked → s.wheel.miss < 64 →
      ∃ t, exec .syncMissing s = .next t ∧ t.wheel.st = .coast ∧ t.wheel.miss = 1 ∧ t.wheel.time = (atClose s).wheel.time ∧
        t.clk = (atClose s).clk ∧ t.wheel.est = s.wheel.est ∧ t.fld F.WHL_EVT_COAST = 1) ∧
    ((s.wheel.st = .coast ∨ s.wheel.st = .acquire) →
      (s.wheel.miss < 64 →
        ∃ t, exec .syncMissing s = .next t ∧ t.clk = (atClose s).clk ∧
          t.wheel = { (atClose s).wheel with miss := s.wheel.miss + 1, good := 0, judged := (s.wheel.judged + 1) % 2 ^ 36 } ∧
          UnchangedButTime [] [] s t) ∧
      (64 ≤ s.wheel.miss →
        ∃ t, exec .syncMissing s = .next t ∧ t.wheel.st = .lost ∧ t.wheel.time = (atClose s).wheel.time ∧
          t.wheel.genP = s.wheel.est ∧ t.wheel.nomPend = some (s.fld F.WHL_NOMINAL_PERIOD) ∧ t.fld F.WHL_EVT_LOST = 1)) ∧
    (0 < s.wheel.hold → 0 < s.wheel.inc →
      ∃ t, exec .holdRelease s = .next t ∧ t.wheel.hold = 0 ∧ t.wheel.st = s.wheel.st ∧
        t.clk = s.clk + (s.wheel.hold + s.wheel.inc - 1) / s.wheel.inc ∧ UnchangedButTime [] [] s t) ∧
    ((s.wheel.st = .idle ∨ s.wheel.st = .lost ∨ s.wheel.st = .master) → ∀ n, s.wheel.nomPend = some n →
      ∃ t, exec .nominalApply s = .next t ∧ t.wheel.genP ≤ s.wheel.genP + s.wheel.genP / 50 ∧
        s.wheel.genP - s.wheel.genP / 50 ≤ t.wheel.genP ∧
        (n ≤ s.wheel.genP + s.wheel.genP / 50 → s.wheel.genP - s.wheel.genP / 50 ≤ n →
          t.wheel.genP = n ∧ t.wheel.nomPend = none) ∧
        t.wheel.nomFrom = (t.wheel.time.toNat / 4096 + 1) % 2 ^ 36 ∧ t.wheel.st = s.wheel.st ∧ UnchangedButTime [] [] s t) ∧
    (∀ p v, Reaches s p 0x180 → s.fld F.WHL_CTL_LOCK = 0 → s.wheel.st ≠ .master →
      bits v.toNat F.WHL_CTL_SRC.lo 1 ≠ s.fld F.WHL_CTL_SRC →
      ∃ t, exec (.whlCtlSrcChange p v) s = .next t ∧ t.wheel.st = .acquire ∧ t.wheel.miss = 0 ∧ t.wheel.qual = false ∧
        t.wheel.time = s.wheel.time ∧ t.wheel.est = s.wheel.est ∧ t.fld F.WHL_CTL_SRC = 1 - s.fld F.WHL_CTL_SRC)

/-- The Lamplighter fires its earliest entry and arms waiters as entries free; PTM dialogues start, end with a pair,
fail, or leave the last pair (R53, R52, R55, R58, R59, R490). Model's choices: log 25. -/
def Obligations.LamplighterAndPtm : Prop :=
  ∀ s : State, Running s →
    (s.lampNext = none → exec .lamplighterFire s = .next s) ∧
    (s.pfHeld = false → ∀ e, s.lampNext = some e → (s.lamp.entries.filter (fun x => x.idx == e.idx)).length = 1 →
        s.lamp.waiters = [] → s.lamp.fired ≤ 4 →
      (((s.chan e.chan).park = .wheel ∨ (s.chan e.chan).park = .class2) →
        ∃ t, exec .lamplighterFire s = .next t ∧ t.lamp.entries.any (fun x => x.idx == e.idx) = false ∧
          (t.lamp.entries.map (·.idx)) = (s.lamp.entries.map (·.idx)).filter (· != e.idx) ∧ (t.chan e.chan).st = .queued ∧
          (t.chan e.chan).park = .none ∧ ((s.chan e.chan).park = .wheel → s.cur e.chan ≠ none → doneStatus t e.chan = some 0) ∧
          (∀ d, t.cur e.chan = some d → d.fired = true) ∧ (∀ c, c ≠ e.chan → t.chan c = s.chan c) ∧ s.clk ≤ t.clk ∧
          e.armed < t.clk ∧ t.lamp.firedAt = t.clk ∧ t.lamp.fired ≤ 4)) ∧
    (s.lampWaiter = none → exec .lamplighterArm s = .next s) ∧
    (∀ w, s.lampWaiter = some w → ∀ i, s.lampFree w.ctx = some i →
      ∃ t, exec .lamplighterArm s = .next t ∧ t.lamp.waiters = s.lamp.waiters.filter (· != w) ∧
        (t.lamp.entries.map (fun x => (x.idx, x.chan, x.ctx, x.target))) =
          s.lamp.entries.map (fun x => (x.idx, x.chan, x.ctx, x.target)) ++ [(i, w.chan, w.ctx, w.target)] ∧ t.chans = s.chans) ∧
    (∀ p, Reaches s p 0x1B0 →
      (s.ptm.start ≠ none → exec (.ptmRequest p) s = .next s) ∧
      (s.ptm.start = none → s.linkUp = true → s.host.ptmEn = true →
        ∃ t, exec (.ptmRequest p) s = .next t ∧ t.ptm.start = some s.clk ∧ t.ptm.sample = s.now ∧
          (t.ptm.valid = true ↔ (s.wheel.st = .locked ∨ s.wheel.st = .master)) ∧ Unchanged [.ptm] [] s t) ∧
      (s.ptm.start = none → (s.linkUp = false ∨ s.host.ptmEn = false) →
        ∃ t, exec (.ptmRequest p) s = .next t ∧ t.fld F.WHL_PTM_CTL_FAIL = 1 ∧ Unchanged [] [0x1B0] s t)) ∧
    (s.ptm.start = none → s.linkUp = true → s.host.ptmEn = true → s.fld F.WHL_PTM_CTL_INTERVAL ≠ 0 →
      ∃ t, exec .ptmInterval s = .next t ∧ t.ptm.anchor = wtAdd s.ptm.anchor (4096 * s.fld F.WHL_PTM_CTL_INTERVAL) ∧
        t.ptm.start = some t.clk ∧ t.ptm.sample = t.now ∧ UnchangedButTime [.ptm] [] s t) ∧
    (s.fld F.WHL_PTM_CTL_INTERVAL = 0 → exec .ptmInterval s = .next s) ∧
    (∀ h : DWord, s.linkUp = true → s.ptm.start ≠ none →
      ∃ t, exec (.ptmResponsed h) s = .next t ∧ t.ptm.start = none ∧
        t.fld F.WHL_PTM_WLO_W_LO + 2 ^ 32 * t.fld F.WHL_PTM_WHI_W_HI = s.ptm.sample.toNat ∧
        t.fld F.WHL_PTM_HLO_H_LO + 2 ^ 32 * t.fld F.WHL_PTM_HHI_H_HI = h.toNat ∧
        (t.fld F.WHL_PTM_WHI_VALID = 1 ↔ s.ptm.valid = true) ∧
        t.fld F.WHL_PTM_CTL_SEQ = (s.fld F.WHL_PTM_CTL_SEQ + 1) % 2 ^ F.WHL_PTM_CTL_SEQ.width ∧
        Unchanged [.ptm] [0x1B0, F.WHL_PTM_WLO_W_LO.off, F.WHL_PTM_WHI_W_HI.off, F.WHL_PTM_HLO_H_LO.off, F.WHL_PTM_HHI_H_HI.off] s t) ∧
    (∀ k, s.ptm.start = some k →
      ∃ t, exec .ptmTimeout s = .next t ∧ t.ptm.start = none ∧ t.fld F.WHL_PTM_CTL_FAIL = 1 ∧ t.clk = max s.clk (k + 80000) ∧
        t.fld F.WHL_PTM_CTL_SEQ = s.fld F.WHL_PTM_CTL_SEQ ∧
        UnchangedButTime [.ptm] [0x1B0] s t)

/-- A window end measures and decides, a phase change goes through the phase channel, and REVERT and EN put the knobs
home (R387, R388, R389, R390, R391, R392, R394, R395, R397, R398, R338). Model's choices: log 48 and log 49. -/
def Obligations.GovernorDecides : Prop :=
  (∀ s : State, Governs s →
    (s.fld F.GOV_CTL_EN = 0 → exec .windowEnd s = .next s.atWindowEnd) ∧
    (s.fld F.GOV_CTL_EN = 1 → s.gov.measuring = false →
      ∃ t, exec .windowEnd s = .next t ∧ t.gov.measuring = true ∧ t.gov.winStart = s.atWindowEnd.clk ∧ t.gov.kreq = 0 ∧
        UnchangedButTime [] [] s t) ∧
    (s.fld F.GOV_CTL_EN = 1 → s.gov.measuring = true → s.gov.pmbRail = none →
      ∃ t, exec .windowEnd s = .next t ∧ t.word 0 0x324 = BitVec.ofNat 32 s.atWindowEnd.meas0 ∧
        t.word 0 0x328 = BitVec.ofNat 32 s.atWindowEnd.meas1 ∧ t.clk = s.atWindowEnd.clk ∧ t.gov.measuring = true ∧
        t.gov.winStart = s.atWindowEnd.clk ∧ t.gov.phases = s.gov.phases ∧ t.gov.hist = [] ∧ t.chans = s.chans ∧
        (s.fld F.GOV_CTL_FREEZE = 1 → t.gov.jobs = s.gov.jobs ∧ t.fld F.ARB_BURST_CAP = s.fld F.ARB_BURST_CAP ∧
          t.fld F.GOV_CTL_PF_NOW = s.fld F.GOV_CTL_PF_NOW ∧ t.fld F.WHL_TRK_BW = s.fld F.WHL_TRK_BW) ∧
        (s.fld F.GOV_CTL_FREEZE = 0 → s.gov.limPend = false → s.fld F.GOV_AUTH_BURST = 1 →
          s.fld F.GOV_THR_LATE_HI < s.atWindowEnd.meas0 % 256 → s.burstLim.1 ≤ s.burstLim.2 →
          s.burstLim.1 ≤ s.fld F.ARB_BURST_CAP → s.fld F.ARB_BURST_CAP ≤ s.burstLim.2 →
          t.fld F.ARB_BURST_CAP = max (s.fld F.ARB_BURST_CAP / 2) s.burstLim.1) ∧
        (s.gov.limPend = false → s.atWindowEnd.meas0 % 256 = 0 → s.gov.hBurst + 1 < s.hyst →
          t.fld F.ARB_BURST_CAP = s.fld F.ARB_BURST_CAP))) ∧
  (∀ s : State, Governs s →
    (s.gov.job = none → s.gov.jobs = [] → s.gov.reverting = false → exec .phaseChange s = .next s) ∧
    (s.gov.job = none → ∀ j, s.gov.jobs.head? = some j →
      (s.fld F.KND_CHAIR_EN = 0 → s.fld F.PRT_CTL_EN = 0 → ∀ c, s.phaseChan = some c →
        ∃ t, exec .phaseChange s = .next t ∧ t.gov.job = some ({ j with since := s.clk }, .chain) ∧ t.gov.jobs = s.gov.jobs.tail ∧
          (t.chan c).subs = (s.chan c).subs ++ [⟨c, s.fld F.GOV_LOG_WR_WR, 0, (s.chan c).base, 1024⟩] ∧
          t.gov.phases = s.gov.phases ∧ t.chairs = s.chairs ∧ t.clk = s.clk) ∧
      (s.fld F.KND_CHAIR_EN = 0 → s.phaseChan = none →
        ∃ t, exec .phaseChange s = .next t ∧ t.gov.job = none ∧ t.gov.jobs = s.gov.jobs.tail ∧ t.gov.phases = s.gov.phases ∧
          t.fldI j.rail F.GOV_RAIL_STAT_FAILS = min (s.fldI j.rail F.GOV_RAIL_STAT_FAILS + 1) 3 ∧
          (2 ≤ s.fldI j.rail F.GOV_RAIL_STAT_FAILS → t.fldI j.rail F.GOV_RAIL_STAT_BLOCKED = 1) ∧
          t.fld F.GOV_EVT_PHASE_FAIL = 1 ∧ t.chans = s.chans) ∧
      (s.fld F.KND_CHAIR_EN = 1 → s.admits (s.kindleChair / 8) 65 = true → s.tabRemote (s.kindleChair / 8) = false →
        ((s.chair s.kindleChair).held = true ∨ (s.chair s.kindleChair).abandoned = true) →
        s.owns s.kindleChair s.self 0x02 = false →
        ∃ t, exec .phaseChange s = .next t ∧
          t.gov.job = some ({ j with since := s.clk, chair := some s.kindleChair }, .chair) ∧ t.gov.jobs = s.gov.jobs.tail ∧
          (t.chair s.kindleChair).waiters = (s.chair s.kindleChair).waiters ++ [(.gov, s.now)] ∧
          Unchanged [.gov, .chairs] [] s t))) ∧
  (∀ s : State, Running s → s.pfHeld = false →
    (s.gov.job = none → exec .phaseChangeEnd s = .next s) ∧
    (∀ j, s.gov.job = some (j, .chain) → ∀ e, s.gov.ended.find? (fun e => e.1 < 0x10000) = some e →
      ((e.2 = stDONE ∨ e.2 = stDONE_LATE) →
        ∃ t, exec .phaseChangeEnd s = .next t ∧ t.gov.job = none ∧ t.phases j.rail = s.jobNew j ∧
          t.fldI j.rail F.GOV_RAIL_STAT_FAILS = 0 ∧ (∀ r, r ≠ j.rail → t.phases r = s.phases r)) ∧
      (e.2 ≠ stDONE → e.2 ≠ stDONE_LATE → e.2 ≠ stSTOPPED →
        ∃ t, exec .phaseChangeEnd s = .next t ∧ t.gov.job = none ∧ t.gov.phases = s.gov.phases ∧
          t.fldI j.rail F.GOV_RAIL_STAT_FAILS = min (s.fldI j.rail F.GOV_RAIL_STAT_FAILS + 1) 3 ∧
          t.fld F.GOV_EVT_PHASE_FAIL = 1))) ∧
  (∀ s : State, Governs s → ∀ r, s.gov.pmbRail = none →
    (s.gov.measuring = false → exec (.pmbusCurrentRead r) s = .next s) ∧
    (s.gov.measuring = true → ReadsRail s r → ∀ c, s.phaseChan = some c →
      ∃ t, exec (.pmbusCurrentRead r) s = .next t ∧ t.gov.pmbRail = some r ∧ bitAt t.gov.pmbGot r = true ∧
        (t.chan c).subs = (s.chan c).subs ++ [⟨c, pmbTag r, 0, (s.chan c).base + 1, 1024⟩] ∧
        (∀ x, x ≠ c → t.chan x = s.chan x) ∧
        Unchanged [.gov, .chans, .stag, .objs, .engines, .elder, .ports, .wbq] [0x07C] s t)) ∧
  (∀ (s : State) (p : Path), s.pwr.off = false → Reaches s p 0x300 →
    (∃ t, exec (.revert p) s = .next t ∧ t.fld F.ARB_BURST_CAP = s.fld F.GOV_HOME_BURST ∧ t.fld F.GOV_CTL_PF_NOW = s.pfHome ∧
      t.fld F.WHL_TRK_BW = s.fld F.GOV_HOME_BW ∧ t.gov.jobs = [] ∧ t.gov.reverting = true ∧ t.gov.hPhase = [] ∧
      t.gov.phases = s.gov.phases ∧ t.chans = s.chans ∧ t.clk = s.clk) ∧
    (∀ v : Word, s.locked 0 0x300 = false → s.fld F.GOV_CTL_EN = 0 → bitAt v.toNat F.GOV_CTL_EN.lo = true →
      bitAt v.toNat 2 = false →
      ∃ t, exec (.govCtlEnSet p v) s = .next t ∧ t.fld F.GOV_CTL_EN = 1 ∧ t.fld F.ARB_BURST_CAP = s.fld F.GOV_HOME_BURST ∧
        t.fld F.GOV_CTL_PF_NOW = s.pfHome ∧ t.fld F.WHL_TRK_BW = s.fld F.GOV_HOME_BW ∧ t.gov.hBurst = 0 ∧ t.gov.hPf = 0 ∧
        t.gov.hBw = 0 ∧ t.gov.measuring = false ∧ t.gov.jobs = s.gov.jobs ∧ t.clk = s.clk))

/-- A pad edge moves a logical level, counts paces and releases waits; a change of function parks the pin for five
clocks and seeds its level (R456, R457, R458, R459, R462, R463, R164). Model's choices: log 50. -/
def Obligations.PinWicks : Prop :=
  (∀ (s : State) (w : Nat) (level : Bool), Running s → w < 64 →
    (((s.wick w).parkEnd.isSome = true ∨ s.wckFunc w = 0 ∨ (s.wick w).level = level) →
      ∃ t, exec (.wickEdge w level) s = .next t ∧ t.wick w = { s.wick w with pad := level } ∧
        (∀ k, k ≠ w → t.wick k = s.wick k) ∧ Unchanged [.wicks] [] s t) ∧
    ((s.wick w).parkEnd = none → s.wckFunc w ≠ 0 → (s.wick w).level ≠ level → s.pfHeld = false →
      ∃ t, exec (.wickEdge w level) s = .next t ∧ t.wick w = ⟨level, level, none⟩ ∧ t.clk = s.clk ∧
        (∀ k, k ≠ w → t.wick k = s.wick k) ∧
        (∀ c, deaf (s.chan c) w = true → t.chan c = s.chan c) ∧
        (∀ c, (s.chan c).st ≠ .free → (s.chan c).park = .none → (s.chan c).paceEn = true → (s.chan c).paceWick = w →
          level = true → (s.chan c).pace < 15 → t.chan c = { s.chan c with pace := (s.chan c).pace + 1 }) ∧
        (∀ c, (s.chan c).st ≠ .free → (s.chan c).paceEn = true → (s.chan c).paceWick = w → level = true →
          (s.chan c).pace = 15 → t.fld F.WCK_EVT_PACE_OVF = 1 ∧ (t.chan c).pace = 15 ∧
            min (s.fld F.WCK_CNT_PACE_OVF + 1) 65535 ≤ t.fld F.WCK_CNT_PACE_OVF) ∧
        (∀ c cond, (s.chan c).st = .parked → (s.chan c).park = .wick w cond →
          (if level = true then cond = 0 ∨ cond = 2 else cond = 1 ∨ cond = 3) →
          (t.chan c).st = .queued ∧ (t.chan c).park = .none ∧ (s.cur c ≠ none → doneStatus t c = some 0)) ∧
        (∀ c cond, (s.chan c).st = .parked → (s.chan c).park = .wick w cond → (s.chan c).paceEn = false →
          (if level = true then cond = 1 ∨ cond = 3 else cond = 0 ∨ cond = 2) → t.chan c = s.chan c))) ∧
  (∀ (s : State) (p : Path) (v : Word), s.pwr.off = false → Reaches s p 0x384 →
    ((s.fld F.WCK_CTL_LOCK = 1 ∨ 4 ≤ bits v.toNat 0 3) →
      ∃ t, exec (.wckCfgSwitch p v) s = .next t ∧ t.fld F.WCK_EVT_LOCKED = 1 ∧ Unchanged [.host] [0x3A8] s t) ∧
    (s.fld F.WCK_CTL_LOCK = 0 → bits v.toNat 0 3 < 4 →
      ∃ t, exec (.wckCfgSwitch p v) s = .next t ∧ t.wckFunc (s.fld F.WCK_SEL_PIN) = bits v.toNat 0 3 ∧
        t.wckPark (s.fld F.WCK_SEL_PIN) = bits v.toNat 4 2 ∧ Unchanged [.wicks] [0x384] s t ∧
        (∀ k, k ≠ s.fld F.WCK_SEL_PIN → t.wick k = s.wick k ∧ t.word k 0x384 = s.word k 0x384) ∧
        (bits v.toNat 0 3 = s.wckFunc (s.fld F.WCK_SEL_PIN) → t.wicks = s.wicks) ∧
        (bits v.toNat 0 3 ≠ s.wckFunc (s.fld F.WCK_SEL_PIN) →
          (t.wick (s.fld F.WCK_SEL_PIN)).parkEnd = some (s.clk + 5) ∧
          (t.wick (s.fld F.WCK_SEL_PIN)).level = (s.wick (s.fld F.WCK_SEL_PIN)).level ∧
          (bits v.toNat 4 2 = 0 → (t.wick (s.fld F.WCK_SEL_PIN)).pad = false) ∧
          (bits v.toNat 4 2 = 1 → (t.wick (s.fld F.WCK_SEL_PIN)).pad = true) ∧
          (2 ≤ bits v.toNat 4 2 → (t.wick (s.fld F.WCK_SEL_PIN)).pad = (s.wick (s.fld F.WCK_SEL_PIN)).pad)))) ∧
  (∀ (s : State) (w : Nat), Running s → w < 64 →
    ((s.wick w).parkEnd = none → exec (.parkEnd w) s = .next s) ∧
    (∀ e, (s.wick w).parkEnd = some e →
      ∃ t, exec (.parkEnd w) s = .next t ∧ t.clk = max s.clk e ∧ (t.wick w).parkEnd = none ∧
        (s.wckFunc w = 0 → (t.wick w).level = false) ∧
        (s.wckFunc w ≠ 0 → (t.wick w).level = (t.wick w).pad) ∧
        ((s.wckFunc w = 2 ∨ s.wckFunc w = 3) → (t.wick w).pad = s.wckOut w) ∧
        (s.wckFunc w = 1 → (t.wick w).pad = (s.wick w).pad) ∧ (∀ k, k ≠ w → t.wick k = s.wick k) ∧ t.regs = s.regs))

/-- A PMBus transaction ends with its read bytes stored, or with PMB_NAK counted and captured; SMBALERT starts the
alert responses (R445, R446, R450, R451, R453, R464, R466). Model's choices: log 20. -/
def Obligations.BusTransactions : Prop :=
  ∀ s : State, Running s →
    (∀ port avs cause bad data, (s.pmbp (port % 2 + 2 * b2n avs)).user = none →
      exec (.pmbTransactionEnd port avs cause bad data) s = .next s) ∧
    (∀ port, (s.pmbp (port % 2)).user = none → exec (.pmbTimeout port) s = .next s) ∧
    (∀ port c, ∀ d, s.cur c = some d → OnBus s (port % 2) c d →
      (∀ bad data, pmbRd d.words = 0 → pmbForm d.words ≠ 5 → pmbForm d.words ≠ 6 → s.busAsking (port % 2) = [] →
        ∃ t, exec (.pmbTransactionEnd port false 0 bad data) s = .next t ∧ doneStatus t c = some 0 ∧
          (t.pmbp (port % 2)).user = none ∧ (∀ x, x ≠ c → t.chan x = s.chan x) ∧ Unchanged [.pmb, .chans] [] s t) ∧
      (∀ (bad : Nat) (data : List Byte) (pec : Byte), pmbRd d.words = data.length → data ≠ [] →
        (pmbPec d.words = true → crc8 ((s.pmbp (port % 2)).wire ++ data) = pec.toNat) → pmbForm d.words ≠ 5 → pmbForm d.words ≠ 6 →
        opSel (dSrc d.words) = 1 → s.busAsking (port % 2) = [] →
        ∀ a, lands s c d true (dSrc d.words + pmbWr d.words) data.length = some a →
        ∃ t, exec (.pmbTransactionEnd port false 0 bad (data ++ [pec])) s = .next t ∧ doneStatus t c = some 0 ∧
          (t.pmbp (port % 2)).user = none ∧ t.cohBytes 0 a data.length = data ∧
          (∀ space b, space < 2 → b < (if space = 0 then 0x200000 else 0x80000) →
            ¬ (space = 0 ∧ a ≤ b ∧ b < a + data.length) → t.cohByte space b = s.cohByte space b) ∧
          (∀ x, x ≠ c → t.chan x = s.chan x) ∧ t.clk = s.clk) ∧
      (∀ cause bad data, (cause = 1 ∨ cause = 2 ∨ cause = 5 ∨ cause = 6) → s.busAsking (port % 2) = [] →
        ∃ t, exec (.pmbTransactionEnd port false cause bad data) s = .next t ∧ doneStatus t c = some 0x21 ∧
          (t.pmbp (port % 2)).user = none ∧ t.fld F.PMB_EVT_NAK = 1 ∧
          t.fld F.PMB_CNT_NAKS = min (s.fld F.PMB_CNT_NAKS + 1) 65535 ∧ (cause = 6 → t.fld F.PMB_EVT_STUCK = 1) ∧
          (s.fld F.PMB_CAP_VALID = 0 → t.fld F.PMB_CAP_VALID = 1 ∧ t.fld F.PMB_CAP_CAUSE = cause ∧
            t.fld F.PMB_CAP_PORT = busOf d.words % 2 ∧ t.fld F.PMB_CAP_ADDR = pmbAddr d.words ∧
            t.fld F.PMB_CAP_BYTE = bad % 256) ∧
          (s.fld F.PMB_CAP_VALID = 1 → t.word 0 0x360 = s.word 0 0x360) ∧ (∀ x, x ≠ c → t.chan x = s.chan x) ∧
          Unchanged [.pmb, .chans, .host] [0x35C, 0x360, 0x364] s t) ∧
      (s.busAsking (port % 2) = [] → s.fld F.PMB_CAP_VALID = 0 →
        ∃ t, exec (.pmbTimeout port) s = .next t ∧ doneStatus t c = some 0x21 ∧ t.fld F.PMB_CAP_CAUSE = 5 ∧
          t.fld F.PMB_CNT_NAKS = min (s.fld F.PMB_CNT_NAKS + 1) 65535 ∧ Unchanged [.pmb, .chans, .host] [0x35C, 0x360, 0x364] s t)) ∧
    ((s.pmbp 0).user = some .ara → s.busWaiters 0 = [] → (s.pmbp 0).alert = false →
      (∀ bad b rest,
        ∃ t, exec (.pmbTransactionEnd 0 false 0 bad (b :: rest)) s = .next t ∧ (t.pmbp 0).user = none ∧
          t.fld F.PMB0_ARA_VALID = 1 ∧ t.fld F.PMB0_ARA_ADDR = b.toNat / 2 ∧
          t.fld F.PMB0_ARA_COUNT = min (s.fld F.PMB0_ARA_COUNT + 1) 65535 ∧ Unchanged [.pmb] [0x34C] s t) ∧
      (∀ cause bad data, cause ≠ 0 → cause ≠ 6 → cause < 16 →
        ∃ t, exec (.pmbTransactionEnd 0 false cause bad data) s = .next t ∧ (t.pmbp 0).user = none ∧
          (t.pmbp 0).araOn = false ∧ Unchanged [.pmb] [] s t)) ∧
    (∀ port,
      ((s.pmbp (port % 2)).alert = true → exec (.smbalert port) s = .next s ∧
        ∃ t, exec (.smbalertRelease port) s = .next t ∧ (t.pmbp (port % 2)).alert = false ∧
          (t.pmbp (port % 2)).user = (s.pmbp (port % 2)).user ∧ Unchanged [.pmb] [] s t) ∧
      ((s.pmbp (port % 2)).alert = false → exec (.smbalertRelease port) s = .next s ∧
        (s.busWaiters (port % 2) = [] →
          ∃ t, exec (.smbalert port) s = .next t ∧ (t.pmbp (port % 2)).alert = true ∧
            (port % 2 = 0 → t.fld F.PMB_EVT_ALERT0 = 1) ∧ (port % 2 = 1 → t.fld F.PMB_EVT_ALERT1 = 1) ∧
            (s.fld (if port % 2 = 0 then F.PMB0_CTL_ARA_AUTO else F.PMB1_CTL_ARA_AUTO) = 1 → s.pfHeld = false →
              s.busEn (port % 2) = true → (s.pmbp (port % 2)).user = none →
              (t.pmbp (port % 2)).user = some .ara ∧ (t.pmbp (port % 2)).aras = 1) ∧
            (s.fld (if port % 2 = 0 then F.PMB0_CTL_ARA_AUTO else F.PMB1_CTL_ARA_AUTO) = 0 →
              (t.pmbp (port % 2)).user = (s.pmbp (port % 2)).user ∧ (t.pmbp (port % 2)).aras = 0) ∧
            UnchangedButTime [.pmb, .host, .elder] [0x35C] s t)))

/-- Zheyn packets count only in sequence; HELLO makes a peer present, PING and PONG measure the link, MARK is
forwarded and steers a follower (R500, R501, R502, R506, R507, R508, R505). Model's choices: log 10, log 52 and log
53. -/
def Obligations.ZheynLinkPackets : Prop :=
  ∀ s : State, Running s →
    (∀ i, ∀ h, pktRow i = some h →
      (s.portOpen h.port = false → exec i s = .next s) ∧
      (s.portOpen h.port = true → h.lseq ≠ (s.zport h.port).rxSeq →
        ∃ t, exec i s = .next t ∧ t.fld F.PEL_CNT0_CRC = min (s.fld F.PEL_CNT0_CRC + 1) 65535 ∧ Unchanged [] [0x958] s t)) ∧
    (∀ port, s.portOpen port = true →
      (∃ t, exec (.zhnBadPacket ⟨port, .code⟩) s = .next t ∧ t.fld F.PEL_CNT0_CRC = min (s.fld F.PEL_CNT0_CRC + 1) 65535 ∧
        Unchanged [] [0x958] s t) ∧
      (∀ (bytes : List Byte) (crc : Nat), crc ≠ crc32 bytes →
        ∃ t, exec (.zhnBadPacket ⟨port, (.packet bytes crc)⟩) s = .next t ∧
          t.fld F.PEL_CNT0_CRC = min (s.fld F.PEL_CNT0_CRC + 1) 65535 ∧ Unchanged [] [0x958] s t)) ∧
    (∀ port b, s.portOpen port = false → exec (.zhnBadPacket ⟨port, b⟩) s = .next s) ∧
    (∀ h master cand mask, Arrives s h → (s.zport h.port).clash = false →
      ∃ t, exec (.zhnHello h master cand mask) s = .next t ∧ (t.zport h.port).up = true ∧
        (t.zport h.port).rxSeq = ((s.zport h.port).rxSeq + 1) % 256 ∧ (t.peer h.src).present = true ∧
        (t.peer h.src).at_ = s.clk ∧ (t.peer h.src).master = master ∧ (t.peer h.src).cand = cand ∧
        (if h.port = 0 then (t.peer h.src).seen0 else (t.peer h.src).seen1) = some (s.clk, h.hops) ∧
        (∀ p, p < 4 → p ≠ h.src → t.peer p = s.peer p) ∧
        ((s.peer h.src).present = false → t.fld F.PEL_EVT_PEER_UP = 1) ∧
        (h.hops < 3 → (s.zport (1 - h.port)).ready = true →
          (pkts t (1 - h.port)).any (fun k => k.1 == 0x01 && k.2.2.1 == h.src && k.2.2.2.2.1 == h.hops + 1 &&
            k.2.2.2.2.2.2 == helloBody master cand (h.hops + 1) mask) = true) ∧ t.clk = s.clk ∧ t.chans = s.chans) ∧
    (∃ t, exec .helloTimer s = .next t ∧ UnchangedButTime [.zhn, .ports] [] s t ∧ t.zhn.helloAt = some t.clk ∧
      (∀ k, s.zhn.helloAt = some k → t.clk = max s.clk (k + 8000)) ∧
      ((s.zport 0).ready = true → pkts t 0 = pkts s 0 ++
        [(0x01, 0, s.self, false, 0, 0, helloBody (s.wheel.st == .master) s.wheelCand 0 s.presentMask)]) ∧
      ((s.zport 1).ready = true → pkts t 1 = pkts s 1 ++
        [(0x01, 0, s.self, false, 0, 0, helloBody (s.wheel.st == .master) s.wheelCand 0 s.presentMask)])) ∧
    (∀ port turn8,
      ((s.portOpen port = false ∨ (s.zport port).up = false) → ∀ received, exec (.ping port received turn8) s = .next s) ∧
      (s.portOpen port = true → (s.zport port).up = true →
        (∃ t, exec (.ping port true turn8) s = .next t ∧ pkts t port = pkts s port ++ [(0x03, 0, s.self, false, 0, 0, leBytes 2 turn8)] ∧
          (t.zport port).rxSeq = ((s.zport port).rxSeq + 1) % 256 ∧ Unchanged [.zhn, .ports] [] s t) ∧
        (∃ t, exec (.ping port false turn8) s = .next t ∧ pkts t port = pkts s port ++ [(0x02, 0, s.self, false, 0, 0, [])] ∧
          (t.zport port).pingOut = true ∧ (t.zport port).pingAt = some t.clk ∧
          (∀ k, (s.zport port).pingAt = some k → t.clk = max s.clk (k + 800000)) ∧ UnchangedButTime [.zhn, .ports] [] s t)) ∧
      (∀ trip8, s.portOpen port = true →
        ∃ t, exec (.pong port trip8 turn8) s = .next t ∧ (t.zport port).pingOut = false ∧
          (t.zport port).delay8 = (if (s.zport port).pingOut then (trip8 - turn8) / 2 else (s.zport port).delay8) ∧
          pkts t port = pkts s port ∧ Unchanged [.zhn] [] s t)) ∧
    (∀ h wt corr8, Arrives s h →
      (h.hops < 3 → (s.zport (1 - h.port)).ready = true →
        ∃ t, exec (.mark h wt corr8) s = .next t ∧ ∃ w,
          (pkts t (1 - h.port)).any (fun k => k.1 == 0x04 && k.2.2.1 == h.src && k.2.2.2.2.1 == h.hops + 1 &&
            k.2.2.2.2.2.2 == markBody wt (corr8 + (s.zport h.port).delay8 + 8 * w)) = true) ∧
      ((s.follows = false ∨ s.headNow ≠ some h.src ∨ (s.peer h.src).route.map Prod.fst ≠ some h.port) →
        ∃ t, exec (.mark h wt corr8) s = .next t ∧ Unchanged [.zhn, .ports, .freeCtr] [] s t) ∧
      (s.follows = true → s.headNow = some h.src → (s.peer h.src).route.map Prod.fst = some h.port → s.wheel.st = .locked →
        s.closedWindows (s.wheel.valueBack ((s.zport h.port).delay8 + corr8) / 2 ^ 20) = 0 →
        (s.wheel.phaseErr ((s.zport h.port).delay8 + corr8)).natAbs ≤ s.winAt (s.wheel.edgeCycle ((s.zport h.port).delay8 + corr8)) →
        (s.wheel.phaseErr ((s.zport h.port).delay8 + corr8)).natAbs ≤ s.lockTolAt (s.wheel.edgeCycle ((s.zport h.port).delay8 + corr8)) →
        ∃ t, exec (.mark h wt corr8) s = .next t ∧ t.wheel.st = .locked ∧ t.wheel.miss = 0 ∧ t.clk = s.clk ∧
          t.wheel.err = s.wheel.phaseErr ((s.zport h.port).delay8 + corr8))) ∧
    (s.headNow ≠ some s.self → exec .markSend s = .next s) ∧
    (s.headNow = some s.self →
      ∃ t, exec .markSend s = .next t ∧ (s.wheel.atZero = true → t.clk = s.clk) ∧
        ((s.zport 0).ready = true → (s.zport 0).up = true → (pkts t 0).any (fun k => k.1 == 0x04 && k.2.2.1 == s.self &&
          k.2.2.2.2.2.2 == markBody t.now 0) = true) ∧
        ((s.zport 1).ready = true → (s.zport 1).up = true → (pkts t 1).any (fun k => k.1 == 0x04 && k.2.2.1 == s.self &&
          k.2.2.2.2.2.2 == markBody t.now 0) = true) ∧ UnchangedButTime [.zhn, .ports] [] s t)

/-- Zheyn ports train, resend and acknowledge; a third failed resend or a lost lock takes the link down; a silent peer
is lost with all it held (R500, R502, R517, R345, R379, R511). Model's choices: log 53. -/
def Obligations.ZheynLinksAndPeers : Prop :=
  ∀ s : State, Running s →
    (∀ port, port < 2 →
      ((bitAt (s.fld F.PEL_CTL_EN) port = false ∨ (s.zport port).up = true) → exec (.zhnPortTraining port) s = .next s) ∧
      (bitAt (s.fld F.PEL_CTL_EN) port = true → (s.zport port).up = false →
        ∃ t, exec (.zhnPortTraining port) s = .next t ∧ t.clk = s.clk + 3277 ∧ (t.zport port).ready = true ∧
          (t.zport port).up = false ∧ (t.zport port).rxSeq = 0 ∧ ((pkts t port).map (fun k => (k.1, k.2.2.1))) = [(0x01, s.self)] ∧
          t.zport (1 - port) = s.zport (1 - port) ∧ t.zhn.peers = s.zhn.peers ∧ UnchangedButTime [.zhn, .ports] [] s t) ∧
      (s.portOpen port = true →
        (∀ l, (s.zport port).unacked.any (·.lseq == l) = false → exec (.zhnAck port l) s = .next s) ∧
        (∀ k, k ∈ (s.zport port).unacked →
          ∃ t, exec (.zhnAck port k.lseq) s = .next t ∧
            pkts t port = (((s.zport port).unacked.dropWhile (fun x => x.lseq != k.lseq)).drop 1 ++ (s.zport port).queue).map
              (fun k => (k.typ, k.dst, k.src, k.user, k.hops, k.opId, k.body)) ∧
            t.zport (1 - port) = s.zport (1 - port) ∧ Unchanged [.zhn] [] s t) ∧
        ((s.zport port).unacked = [] → exec (.zhnResend port) s = .next s) ∧
        (∀ k, (s.zport port).unacked.head? = some k →
          (k.tries < 3 →
            ∃ t, exec (.zhnResend port) s = .next t ∧ t.clk = max s.clk (k.sentAt + 800) ∧
              (t.zport port).unacked = (s.zport port).unacked.map (fun x => { x with tries := x.tries + 1, sentAt := t.clk }) ∧
              t.fld F.PEL_CNT0_RETRIES = min (s.fld F.PEL_CNT0_RETRIES + 1) 65535 ∧ t.fld F.PEL_EVT_RETRY = 1 ∧
              UnchangedButTime [.zhn, .ports, .host] [0x954, 0x958] s t) ∧
          (3 ≤ k.tries →
            ∃ t, exec (.zhnResend port) s = .next t ∧ (t.zport port).ready = false ∧ (t.zport port).up = false ∧
              t.clk = max s.clk (k.sentAt + 800) ∧ ((s.zport port).up = true → t.fld F.PEL_EVT_LINK_DOWN = 1))) ∧
        (∃ t, exec (.zhnLockLoss port) s = .next t ∧ t.clk = s.clk + 800 ∧ (t.zport port).ready = false ∧
          (t.zport port).up = false ∧ pkts t port = [] ∧ ((s.zport port).up = true → t.fld F.PEL_EVT_LINK_DOWN = 1))) ∧
      (s.portOpen port = false →
        exec (.zhnLockLoss port) s = .next s ∧ exec (.zhnResend port) s = .next s)) ∧
    (∀ p, p < 4 → p ≠ s.self →
      ((s.peer p).present = false → exec (.peerLost p) s = .next s) ∧
      ((s.peer p).present = true →
        ∃ t, exec (.peerLost p) s = .next t ∧ t.clk = max s.clk ((s.peer p).at_ + 40000) ∧ (t.peer p).present = false ∧
          t.fld F.PEL_EVT_PEER_LOST = 1 ∧ (∀ n, (t.chair n).held = true → (t.chair n).peer ≠ p) ∧
          (∀ k, k < 4 → k ≠ p → t.peer k = s.peer k) ∧
          (∀ i, (s.fence i).live = true → (s.fence i).proxy = false → bitAt (t.fence i).subs p = false)))

/-- Peer operations are forwarded, or performed once and answered; their responses complete what waited here (R500,
R503, R510, R511, R512, R513, R514, R344, R376, R377, R375, R515). Model's choices: log 10 and log 54. -/
def Obligations.ZheynOperations : Prop :=
  ∀ s : State, Running s → s.oneHolder →
    (∀ i, ∀ x, routedRow i = some x → Arrives s x.1 → x.1.dst ≠ s.self → x.1.dst < 4 →
      ∃ t, exec i s = .next t ∧ Unchanged [.zhn, .ports] [] s t ∧ t.zhn.outs = s.zhn.outs ∧
        ((s.zport (1 - x.1.port)).ready = true → pkts t (1 - x.1.port) = pkts s (1 - x.1.port) ++
          [(x.2.1, x.1.dst, x.1.src, x.1.user, min (x.1.hops + 1) 3, x.1.opId, x.2.2)])) ∧
    (∀ h, ForUs s h → ∀ d, s.zhn.done.find? (fun d => d.src == h.src && d.opId == h.opId) = some d →
      ∀ i, i ∈ [Instr.fenOp h 1 .kick, .fenOp h 0 (.signal 5), .chrOp h 3 0x40 7 0 .sit, .chrOp h 3 0x40 0 0 .give] →
        ∃ t, exec i s = .next t ∧ Unchanged [.zhn, .ports] [] s t ∧ t.zhn.done = s.zhn.done) ∧
    (∀ h m, AsksUs s h → 1 ≤ m.len → m.len ≤ 64 → (m.sel = 1 ∨ m.sel = 2) → m.offset + m.len ≤ peerSpace m.sel →
      (s.firstRefused (zAccess h m false) = none →
        ∃ t, exec (.memRd h m) s = .next t ∧ Answered s t h 0x12 (leBytes 1 0 ++ s.cohBytes (m.sel - 1) m.offset m.len) ∧
          (∀ a, t.cohByte (m.sel - 1) a = s.cohByte (m.sel - 1) a) ∧ t.chans = s.chans ∧ t.clk = s.clk) ∧
      (∀ data, data.length = m.len → s.firstRefused (zAccess h m true) = none →
        ∃ t, exec (.memWr h m data) s = .next t ∧ Answered s t h 0x12 (leBytes 1 0) ∧
          t.cohBytes (m.sel - 1) m.offset m.len = data ∧ t.clk = s.clk ∧
          (∀ space a, space < 2 → a < (if space = 0 then 0x200000 else 0x80000) →
            ¬ (space = m.sel - 1 ∧ m.offset ≤ a ∧ a < m.offset + m.len) → t.cohByte space a = s.cohByte space a)) ∧
      (∀ cause region shade, s.firstRefused (zAccess h m false) = some (0, .refuse cause region shade) →
        ∃ t, exec (.memRd h m) s = .next t ∧ Answered s t h 0x12 (leBytes 1 1) ∧
          t.fld F.PEL_CNT1_REFUSED = min (s.fld F.PEL_CNT1_REFUSED + 1) 65535 ∧ t.stag = s.stag ∧ t.objs = s.objs)) ∧
    (∀ h, ForUs s h → ∀ o, s.outOf h = some o → ∀ c, (o.what = .rd c ∨ o.what = .wr c) → ∀ d, s.cur c = some d →
      d.phase = .peer → (s.chan c).st = .running → s.zhn.nextOp ≠ o.opId → s.pfHeld = false →
      ∀ u, (s.chan c).subs.head? = some u → u.queue < 1024 → s.recordable u.queue = true →
      (∀ data, o.what = .wr c → isMoveOp (dOp d.words) = true →
        ∃ t, exec (.memRsp h 0 data) s = .next t ∧ t.zhn.outs.any (fun x => x.opId == o.opId) = false ∧
          (∀ x, t.cur c = some x → d.off + d.sent ≤ x.off) ∧ (∀ k, k ≠ c → t.chan k = s.chan k) ∧ t.clk = s.clk) ∧
      (∀ data, o.what = .rd c → isMoveOp (dOp d.words) = true → data.length = d.sent →
        ∃ t, exec (.memRsp h 0 data) s = .next t ∧ t.zhn.outs.any (fun x => x.opId == o.opId) = false ∧
          (∀ k, k ≠ c → t.chan k = s.chan k) ∧ t.clk = s.clk) ∧
      (∀ data,
        ∃ t, exec (.memRsp h 1 data) s = .next t ∧
          t.due.any (fun r => r.chan == some c && r.isEnd && r.status == 0x10) = true ∧
          t.zhn.outs.any (fun x => x.opId == o.opId && x.peer == o.peer) = false) ∧
      (s.zhn.outs.find? (fun x => x.opId == o.opId) = some o →
        ∃ t, exec (.peerResponseTimeout o.opId) s = .next t ∧ t.fld F.PEL_CNT1_TIMEOUT = min (s.fld F.PEL_CNT1_TIMEOUT + 1) 65535 ∧
          t.clk = max s.clk (o.since + 800 * max 1 (s.fld F.PEL_CTL_RSP_TO)) ∧
          t.due.any (fun r => r.chan == some c && r.isEnd && r.status == 3) = true)) ∧
    (∀ op, (∀ o, o ∈ s.zhn.outs → o.opId ≠ op) → exec (.peerResponseTimeout op) s = .next s) ∧
    (∀ h idx, AsksUs s h →
      ((s.fence idx).live = true → (s.fence idx).proxy = false → bitAt (s.fence idx).subs h.src = true →
        (∀ v : DWord,
          ∃ t, exec (.fenOp h idx (.signal v)) s = .next t ∧ (t.fence idx).value.toNat = max (s.fence idx).value.toNat v.toNat ∧
            Answered s t h 0x22 (fenBody idx 0 (t.fence idx).value)) ∧
        (∃ t, exec (.fenOp h idx .kick) s = .next t ∧
          (t.fence idx).value.toNat = min ((s.fence idx).value.toNat + 1) (2 ^ 64 - 1) ∧
          Answered s t h 0x22 (fenBody idx 0 (t.fence idx).value))) ∧
      (∀ nonce, s.tokenFence idx nonce = some idx → bitAt (s.fence idx).subs h.src = false → (s.fence idx).cnt < 2 ^ 32 - 1 →
        ∃ t, exec (.fenOp h idx (.imp nonce)) s = .next t ∧ bitAt (t.fence idx).subs h.src = true ∧
          (t.fence idx).cnt = (s.fence idx).cnt + 1 ∧ Answered s t h 0x22 (fenBody idx 0 (s.fence idx).value) ∧ t.regs = s.regs) ∧
      (∀ nonce, s.tokenFence idx nonce = none →
        ∃ t, exec (.fenOp h idx (.imp nonce)) s = .next t ∧ t.fences = s.fences ∧
          t.fld F.FEN_CNT_TOKEN_BAD = min (s.fld F.FEN_CNT_TOKEN_BAD + 1) (2 ^ F.FEN_CNT_TOKEN_BAD.width - 1) ∧
          Answered s t h 0x22 (fenBody idx 1 (s.fence idx).value)) ∧
      (((s.fence idx).live = false ∨ bitAt (s.fence idx).subs h.src = false) →
        ∃ t, exec (.fenOp h idx .kick) s = .next t ∧ t.fences = s.fences ∧
          Answered s t h 0x22 (fenBody idx 1 (s.fence idx).value) ∧ Unchanged [.zhn, .ports] [] s t)) ∧
    (∀ h idx (v : DWord), ForUs s h →
      (s.proxyOf h.src idx = none → ∀ dead, ∃ t, exec (.fenUpd h idx v dead) s = .next t ∧ Unchanged [.zhn] [] s t) ∧
      (∀ i, s.proxyOf h.src idx = some i →
        (∃ t, exec (.fenUpd h idx v false) s = .next t ∧ (t.fence i).value = v ∧ (t.fence i).broken = false ∧
          (∀ k, k ≠ i → t.fence k = s.fence k) ∧ t.regs = s.regs) ∧
        (∃ t, exec (.fenUpd h idx v true) s = .next t ∧ (t.fence i).broken = true ∧ (t.fence i).value = (s.fence i).value ∧
          t.fld F.FEN_EVT_PEER_LOST = 1))) ∧
    (∀ h status (v : DWord), ForUs s h → ∀ o, s.outOf h = some o →
      (∀ c, o.what = .signal c → ∀ d, s.cur c = some d → d.phase = .fenceRsp → (s.chan c).stopPend = 0 →
        ∃ t, exec (.fenRsp h status v) s = .next t ∧ doneStatus t c = some (if status = 0 then 0 else 3) ∧
          t.zhn.outs = s.zhn.outs.filter (fun x => x.opId != o.opId) ∧ Unchanged [.zhn, .chans] [] s t) ∧
      ((o.what = .kick ∨ o.what = .free) →
        ∃ t, exec (.fenRsp h status v) s = .next t ∧ t.zhn.outs = s.zhn.outs.filter (fun x => x.opId != o.opId) ∧
          Unchanged [.zhn] [] s t)) ∧
    (∀ h n mid tag i, AsksUs s h → n < 128 →
      (∀ op, (s.tab (n / 8) F.CHR_TAB_CFG_SHARED ≠ 1 ∨ s.tabRemote (n / 8) = true) →
        ∃ t, exec (.chrOp h n mid tag i op) s = .next t ∧ Unchanged [.zhn, .ports] [] s t ∧
          Answered s t h 0x31 (leBytes 1 n ++ leBytes 4 (s.chairWord n))) ∧
      (s.tab (n / 8) F.CHR_TAB_CFG_SHARED = 1 → s.tabRemote (n / 8) = false →
        ((s.chair n).held = false → (s.chair n).waiters = [] →
          ∃ t, exec (.chrOp h n mid tag i .sit) s = .next t ∧ (t.chair n).held = true ∧ (t.chair n).peer = h.src ∧
            (t.chair n).mid = mid ∧ (t.chair n).tag = tag ∧ Answered s t h 0x31 (leBytes 1 n ++ leBytes 4 (t.chairWord n)) ∧
            Unchanged [.zhn, .ports, .chairs] [] s t) ∧
        ((s.chair n).held = true →
          ∃ t, exec (.chrOp h n mid tag i .sit) s = .next t ∧ t.chairs = s.chairs ∧ Unchanged [.zhn, .ports] [] s t) ∧
        ((s.chair n).held = true → ¬ ((s.chair n).peer = h.src ∧ (s.chair n).mid = mid) →
          (s.chair n).waiters.any (·.1 == .peer h.src mid h.opId) = false →
          ∃ t, exec (.chrOp h n mid tag i .wait) s = .next t ∧
            (t.chair n).waiters = (s.chair n).waiters ++ [(.peer h.src mid h.opId, i)] ∧ (t.chair n).held = true ∧
            Unchanged [.zhn, .ports, .chairs] [] s t) ∧
        ((s.chair n).held = true → (s.chair n).peer = h.src → (s.chair n).mid = mid → (s.chair n).waiters = [] →
          s.kindle.load = none →
          ∃ t, exec (.chrOp h n mid tag i .give) s = .next t ∧ (t.chair n).held = false ∧ (t.chair n).abandoned = false ∧
            Answered s t h 0x31 (leBytes 1 n ++ leBytes 4 (t.chairWord n)) ∧ Unchanged [.zhn, .ports, .chairs] [] s t))) ∧
    (∀ h n (w : Word), ForUs s h →
      (¬ (n < 128 ∧ s.tabRemote (n / 8) = true ∧ s.tab (n / 8) F.CHR_TAB_CFG_HOME = h.src) →
        ∃ t, exec (.chrUpd h n w) s = .next t ∧ Unchanged [.zhn] [] s t ∧ t.zhn.mirror = s.zhn.mirror) ∧
      (n < 128 → s.tabRemote (n / 8) = true → s.tab (n / 8) F.CHR_TAB_CFG_HOME = h.src →
        (∃ t, exec (.chrUpd h n w) s = .next t ∧ SMap.get 0 t.zhn.mirror n = w.toNat ∧ t.regs = s.regs) ∧
        (∃ t, exec (.chrRsp h n w) s = .next t ∧ SMap.get 0 t.zhn.mirror n = w.toNat)) ∧
      (∀ o, s.outOf h = some o → ∀ c, o.what = .chair c → ∀ d, s.cur c = some d → d.phase = .chairRsp →
        (s.chan c).stopPend = 0 → s.tabRemote (n / 8) = false →
        ∃ t, exec (.chrRsp h n w) s = .next t ∧ doneStatus t c = some 0 ∧
          t.zhn.outs = s.zhn.outs.filter (fun x => x.opId != o.opId) ∧ Unchanged [.zhn, .chans] [] s t)) ∧
    (∀ h entry, ForUs s h → entry.length = 32 →
      (s.fld F.PEL_CTL_ERR_FWD = 0 → ∃ t, exec (.err h entry) s = .next t ∧ Unchanged [.zhn] [] s t) ∧
      (s.fld F.PEL_CTL_ERR_FWD = 1 → (s.fld F.ERR_WR_WR + 65536 - s.fld F.ERR_RD_RD) % 65536 ≠ 256 →
        ∃ t, exec (.err h entry) s = .next t ∧ t.fld F.ERR_WR_WR = (s.fld F.ERR_WR_WR + 1) % 65536 ∧
          t.readBytes .errq (32 * (s.fld F.ERR_WR_WR % 256)) 32 = leBytes 2 (s.fld F.ERR_WR_WR) ++ (entry.drop 2).take 1 ++
            leBytes 1 ((entry.getD 3 0).toNat % 32 + 32 * h.src + 128) ++ entry.drop 4 ∧
          t.fld F.ERR_EVT_POST = 1 ∧ t.chans = s.chans ∧ t.clk = s.clk))

/-- INIT zeroes the memories and starts the strapped load; an image is read, checked, applied and armed, and a failed
load is retried or waits (R525, R528, R529, R530, R531, R533, R534, R540, R542, R545). Model's choices: log 33 and log
58. -/
def Obligations.BootLoads : Prop :=
  ∀ s : State, Running s →
    (s.boot.inited = true → exec .init s = .next s) ∧
    (s.boot.inited = false →
      ∃ t, exec .init s = .next t ∧ t.clk = max s.clk (s.boot.resetEnd + 8000) ∧ t.stag = [] ∧ t.objs = [] ∧ t.lanemem = [] ∧
        t.shades = [] ∧ t.boot.inited = true ∧ t.fld F.BOOT_STAT_LAST_RESET = s.boot.kind % 4 ∧
        (s.pfHeld = false → s.straps.bootSrc ≤ 1 → t.fld F.BOOT_STAT_PHASE = 1 ∧ t.fld F.BOOT_STAT_SRC = 0 ∧
          t.fld F.BOOT_STAT_TRIES = min 3 (s.fld F.BOOT_STAT_TRIES + 1)) ∧
        (s.pfHeld = false → 2 ≤ s.straps.bootSrc → t.fld F.BOOT_STAT_PHASE = 5) ∧ t.chans = s.chans) ∧
    (∀ bs : List Byte, ¬ (s.phase = 1 ∧ s.boot.headerOk = false ∧ s.boot.spi.map (·.len) = some bs.length) →
      exec (.bootHeaderRead bs) s = .next s) ∧
    (∀ bs : List Byte, s.phase = 1 → s.boot.headerOk = false → s.fld F.PRT_CTL_EN = 0 → bs.length = 64 →
      ∀ q, s.boot.spi = some q → q.len = 64 → q.addr = 0 →
      (headerErr bs = 0 →
        ∃ t, exec (.bootHeaderRead bs) s = .next t ∧ t.boot.headerOk = true ∧ t.phase = 1 ∧ t.cohBytes 0 bootBase 64 = bs ∧
          (t.boot.spi.map (fun x => (x.addr, x.len))) = some (64, imgLen bs - 64) ∧ t.clk = max s.clk (q.since + q.clocks)) ∧
      (headerErr bs ≠ 0 →
        ∃ t, exec (.bootHeaderRead bs) s = .next t ∧ t.boot.headerOk = false ∧ t.fld F.BOOT_STAT_ERR = headerErr bs ∧
          t.fld F.BOOT_STAT_ERR_SECT = 0 ∧ t.fld F.BOOT_EVT_FAIL = 1 ∧
          (s.fld F.BOOT_STAT_SRC = 0 → s.fld F.BOOT_STAT_TRIES < 3 → t.phase = 1 ∧ t.boot.waitAt = t.clk + 800000 ∧ t.boot.spi = none) ∧
          (3 ≤ s.fld F.BOOT_STAT_TRIES → t.phase = 5))) ∧
    (∀ bs : List Byte, s.phase = 1 → s.boot.headerOk = true → s.fld F.PRT_CTL_EN = 0 →
      ∀ q, s.boot.spi = some q → q.len = bs.length → q.addr = 64 → bs.length < 0x80000 - 64 →
      ∃ t, exec (.bootBodyRead bs) s = .next t ∧ t.phase = 2 ∧ t.cohBytes 0 (bootBase + 64) bs.length = bs ∧
        t.boot.spi = none ∧ t.clk = max s.clk (q.since + q.clocks)) ∧
    (∀ bs : List Byte, (s.phase ≠ 1 ∨ s.boot.headerOk = false ∨ s.boot.spi.map (·.len) ≠ some bs.length) → exec (.bootBodyRead bs) s = .next s) ∧
    (Reaches s .scp 0x984 →
      (s.phase = 5 → s.pfHeld = false →
        ∃ t, exec (.bootCtlGo .scp) s = .next t ∧ t.phase = 2 ∧ t.fld F.BOOT_STAT_SRC = 1 ∧ t.fld F.BOOT_STAT_ERR = 0 ∧
          t.fld F.BOOT_STAT_TRIES = min 3 (s.fld F.BOOT_STAT_TRIES + 1) ∧ t.fld F.BOOT_STAT_ERR_SECT = 0 ∧
          t.boot = { s.boot with started := true } ∧ Unchanged [.boot] [0x988] s t) ∧
      ((s.phase ≠ 5 ∨ s.pfHeld = true) →
        ∃ t, exec (.bootCtlGo .scp) s = .next t ∧ t.fld F.BOOT_EVT_REFUSED = 1 ∧ Unchanged [.host] [0x994] s t)) ∧
    (Reaches s .bar0 0x984 → exec (.bootCtlGo .bar0) s = .next s) ∧
    (s.phase ≠ 2 → exec .bootCheckDone s = .next s) ∧
    (s.phase = 2 → headerErr (s.bootImage.take 64) = 0 →
      (∀ e, s.sectErr s.bootImage = some e →
        ∃ t, exec .bootCheckDone s = .next t ∧ t.fld F.BOOT_STAT_ERR = e.err % 256 ∧ t.fld F.BOOT_STAT_ERR_SECT = min e.sect 255 ∧
          t.fld F.BOOT_EVT_FAIL = 1 ∧ (s.fld F.BOOT_STAT_SRC = 1 → t.phase = 5) ∧ t.stag = s.stag ∧ t.chans = s.chans) ∧
      (s.sectErr s.bootImage = none →
        (∃ t, exec .bootCheckDone s = .next t ∧ t.phase = 3 ∧ t.boot.seq = BitVec.ofNat 32 (imgSeq s.bootImage)) ∧
        (∀ x, (sects (s.bootImage.length / 12 + 1) (s.bootImage.drop 0x40)).1.head? = some x → x.typ = 7 → imgNsect s.bootImage = 1 →
          s.fld F.PRT_CTL_EN = 0 →
          ∃ t, exec .bootCheckDone s = .next t ∧
            t.cohBytes 0 (bits (x.w 0) 0 21) (x.body.length - 8) = x.body.drop 8 ∧ t.objs = s.objs))) ∧
    (s.phase = 2 → headerErr (s.bootImage.take 64) ≠ 0 →
      ∃ t, exec .bootCheckDone s = .next t ∧ t.fld F.BOOT_STAT_ERR = headerErr (s.bootImage.take 64) ∧
        t.fld F.BOOT_EVT_FAIL = 1 ∧ t.stag = s.stag) ∧
    (s.phase ≠ 3 → exec .bootApplyDone s = .next s) ∧
    (s.phase = 3 → s.fld F.PRT_CTL_EN = 0 →
      ∃ t, exec .bootApplyDone s = .next t ∧ t.phase = 4 ∧ (∀ a, bootBase ≤ a → a < 0x200000 → t.cohByte 0 a = 0) ∧
        t.fld F.KND_CTL_ARM = b2n s.boot.armImg ∧ (s.boot.govImg = true → t.fld F.GOV_CTL_EN = 1) ∧
        t.fld F.BOOT_SEQ_SEQ = s.boot.seq.toNat ∧ t.fld F.BOOT_EVT_DONE = 1 ∧ t.chans = s.chans) ∧
    ((s.phase ≠ 1 ∨ s.boot.waitAt = 0) → exec .bootRetry s = .next s) ∧
    (s.phase = 1 → s.boot.waitAt ≠ 0 →
      ∃ t, exec .bootRetry s = .next t ∧ t.clk = max s.clk s.boot.waitAt ∧ t.phase = 1 ∧ t.boot.waitAt = 0 ∧
        t.boot.headerOk = false ∧ t.fld F.BOOT_STAT_ERR = 0 ∧ t.fld F.BOOT_STAT_TRIES = min 3 (s.fld F.BOOT_STAT_TRIES + 1) ∧
        UnchangedButTime [.boot] [0x988] s t) ∧
    (∀ v : Word, ∀ p : Path, Reaches s p 0x998 →
      (bitAt v.toNat 4 = false → exec (.otpProgram p v) s = .next s) ∧
      (bitAt v.toNat 4 = true → p = .scp → bits v.toNat 16 16 = 0x0B7A → s.otp.hashEn = false → s.otp.burning = false →
        s.pfHeld = false →
        ∃ t, exec (.otpProgram p v) s = .next t ∧ t.otp.burning = true ∧ t.otp.words = s.otp.hold ∧ t.otp.hashEn = false ∧
          Unchanged [.otp] [] s t) ∧
      (bitAt v.toNat 4 = true → (p = .bar0 ∨ bits v.toNat 16 16 ≠ 0x0B7A ∨ s.otp.hashEn = true ∨ s.otp.burning = true) →
        ∃ t, exec (.otpProgram p v) s = .next t ∧ t.fld F.BOOT_EVT_REFUSED = 1 ∧ Unchanged [.host] [0x994] s t)) ∧
    (s.otp.burning = false → exec .otpBurnDone s = .next s) ∧
    (s.otp.burning = true →
      ∃ t, exec .otpBurnDone s = .next t ∧ t.otp = { s.otp with hashEn := true, burning := false } ∧ Unchanged [.otp] [] s t)

/-- CUP_POOL, ERR_RD and TRC_CTL act only as their rules allow; frozen trace takes no record (R366, R581, R549, R570).
Model's choices: log 16 and log 59. -/
def Obligations.GuardedWrites : Prop :=
  ∀ (s : State) (p : Path) (v : Word), s.pwr.off = false →
    (Reaches s p 0x2C0 →
      (s.fld F.CUP_CTL_LOCK = 1 → exec (.cupPoolWrite p v) s = .next s) ∧
      (s.fld F.CUP_CTL_LOCK = 0 → s.fld F.CUP_CTL_EN = 0 → s.mems.any (fun e => e.2.live && e.2.typ == 3) = false → s.cup.scrub = [] →
        ∃ t, exec (.cupPoolWrite p v) s = .next t ∧ t.fld F.CUP_POOL_BASE = bits v.toNat 0 9 ∧
          t.fld F.CUP_POOL_PAGES = bits v.toNat 16 10 ∧ Unchanged [] [0x2C0] s t) ∧
      (s.fld F.CUP_CTL_LOCK = 0 → (s.fld F.CUP_CTL_EN = 1 ∨ s.mems.any (fun e => e.2.live && e.2.typ == 3) = true ∨ s.cup.scrub ≠ []) →
        ∃ t, exec (.cupPoolWrite p v) s = .next t ∧ t.fld F.CUP_EVT_POOL_DENY = 1 ∧ Unchanged [.host] [0x2D0] s t)) ∧
    (Reaches s p 0x3C8 →
      ((v.toNat % 65536 + 65536 - s.fld F.ERR_RD_RD) % 65536 ≤ (s.fld F.ERR_WR_WR + 65536 - s.fld F.ERR_RD_RD) % 65536 →
        ∃ t, exec (.errRdWrite p v) s = .next t ∧ t.fld F.ERR_RD_RD = v.toNat % 65536 ∧ Unchanged [] [0x3C8] s t) ∧
      ((s.fld F.ERR_WR_WR + 65536 - s.fld F.ERR_RD_RD) % 65536 < (v.toNat % 65536 + 65536 - s.fld F.ERR_RD_RD) % 65536 →
        exec (.errRdWrite p v) s = .next s)) ∧
    (Reaches s p 0x9C0 →
      (bitAt v.toNat 2 = false →
        ∃ t, exec (.traceFreeze p v) s = .next t ∧ t.fld F.TRC_STAT_FROZEN = 1 ∧ t.fld F.TRC_CTL_MASK = bits v.toNat 8 8 ∧
          Unchanged [] [0x9C0, 0x9C4] s t ∧ t.fld F.TRC_STAT_WR = s.fld F.TRC_STAT_WR) ∧
      (s.pfHeld = true →
        ∃ t, exec (.traceThaw p v) s = .next t ∧ t.fld F.TRC_STAT_FROZEN = s.fld F.TRC_STAT_FROZEN ∧ Unchanged [] [0x9C0] s t) ∧
      (s.pfHeld = false → s.boot.thawRec = false →
        ∃ t, exec (.traceThaw p v) s = .next t ∧ t.fld F.TRC_STAT_FROZEN = 0 ∧ t.fld F.TRC_STAT_WR = s.fld F.TRC_STAT_WR ∧
          Unchanged [] [0x9C0, 0x9C4] s t) ∧
      (s.pfHeld = false → s.boot.thawRec = true → bitAt v.toNat 0 = true → bitAt (bits v.toNat 8 8) 6 = true →
        ∃ t, exec (.traceThaw p v) s = .next t ∧ t.fld F.TRC_STAT_FROZEN = 0 ∧ t.boot.thawRec = false ∧
          t.fld F.TRC_STAT_WR = (s.fld F.TRC_STAT_WR + 1) % 65536 ∧
          (t.byte .trace (32 * (s.fld F.TRC_STAT_WR % 8192) + 8)).toNat = 7 ∧ Unchanged [.trace, .boot, .ports] [0x9C0, 0x9C4] s t))

end
end

