-- ==== Sys2Proof/Laws/Map.lean ====
section
/-!
SUPPORT. The laws of the sparse canonical maps: a read after a write, and the canonical form a write keeps.
-/

namespace Sys2Proof

variable {α : Type}

@[simp] theorem SMap.get_nil (d : α) (q : Nat) : SMap.get d [] q = d := rfl

/-- A key below every listed key reads as the default. -/
theorem SMap.get_below [DecidableEq α] (d : α) (m : SMap α) (lo q : Nat) (hm : SMap.wfFrom d lo m = true) (hq : q < lo) :
    SMap.get d m q = d := by
  cases m with
  | nil => rfl
  | cons e rest =>
    obtain ⟨k, v⟩ := e
    simp only [SMap.wfFrom, Bool.and_eq_true, decide_eq_true_eq] at hm
    obtain ⟨⟨hk, _⟩, _⟩ := hm
    have h1 : k ≠ q := by omega
    have h2 : q < k := by omega
    simp [SMap.get, h1, h2]

/-- A canonical form above a bound is one above every lower bound. -/
theorem SMap.wfFrom_mono [DecidableEq α] (d : α) (m : SMap α) (lo lo' : Nat) (h : SMap.wfFrom d lo m = true) (hl : lo' ≤ lo) :
    SMap.wfFrom d lo' m = true := by
  cases m with
  | nil => rfl
  | cons e rest =>
    obtain ⟨k, v⟩ := e
    simp only [SMap.wfFrom, Bool.and_eq_true, decide_eq_true_eq] at h ⊢
    exact ⟨⟨by omega, h.1.2⟩, h.2⟩

/-- A write keeps the canonical form. -/
theorem SMap.set_wfFrom [DecidableEq α] (d : α) (m : SMap α) (lo q : Nat) (x : α) (hm : SMap.wfFrom d lo m = true)
    (hq : lo ≤ q) : SMap.wfFrom d lo (SMap.set d m q x) = true := by
  induction m generalizing lo with
  | nil =>
    by_cases hx : x = d <;> simp [SMap.set, SMap.wfFrom, hx, hq]
  | cons e rest ih =>
    obtain ⟨k, v⟩ := e
    simp only [SMap.wfFrom, Bool.and_eq_true, decide_eq_true_eq] at hm
    obtain ⟨⟨hk, hv⟩, hr⟩ := hm
    simp only [SMap.set]
    split
    · next he =>
      subst he
      split
      · exact SMap.wfFrom_mono d rest _ _ hr (by omega)
      · simp_all [SMap.wfFrom]
    · split
      · split
        · simp_all [SMap.wfFrom]
        · simp_all [SMap.wfFrom]
      · have := ih (k + 1) hr (by omega)
        simp_all [SMap.wfFrom]

theorem SMap.set_wf [DecidableEq α] (d : α) (m : SMap α) (q : Nat) (x : α) (hm : SMap.wf d m = true) :
    SMap.wf d (SMap.set d m q x) = true := SMap.set_wfFrom d m 0 q x hm (by omega)

/-- What a read of any key gives after a write to a canonical map. -/
theorem SMap.get_set_from [DecidableEq α] (d : α) (m : SMap α) (lo q r : Nat) (x : α) (hm : SMap.wfFrom d lo m = true) :
    SMap.get d (SMap.set d m q x) r = if r = q then x else SMap.get d m r := by
  induction m generalizing lo with
  | nil =>
    by_cases hx : x = d <;> by_cases hr : r = q <;> simp [SMap.set, SMap.get, hx, hr]
    · intro h; exact absurd h.symm hr
  | cons e rest ih =>
    obtain ⟨k, v⟩ := e
    simp only [SMap.wfFrom, Bool.and_eq_true, decide_eq_true_eq] at hm
    obtain ⟨⟨hk, hv⟩, hr⟩ := hm
    have hb : ∀ a, a < k + 1 → SMap.get d rest a = d := fun a ha => SMap.get_below d rest (k + 1) a hr ha
    have hi := ih (k + 1) hr
    simp only [SMap.set]
    split
    · next he =>
      subst he
      split
      · next hx =>
        subst hx
        by_cases h1 : r = k
        · subst h1; simp [hb r (by omega)]
        · by_cases h2 : r < k
          · have h3 : k ≠ r := by omega
            simp [SMap.get, h1, h2, h3, hb r (by omega)]
          · have h3 : k ≠ r := by omega
            simp [SMap.get, h1, h2, h3]
      · by_cases h1 : r = k
        · subst h1; simp [SMap.get]
        · have h3 : k ≠ r := by omega
          simp [SMap.get, h1, h3]
    · next hne =>
      split
      · next hlt =>
        split
        · next hx =>
          subst hx
          by_cases h1 : r = q
          · subst h1; simp [SMap.get, hne, hlt]
          · simp [h1]
        · by_cases h1 : r = q
          · subst h1; simp [SMap.get]
          · have h3 : q ≠ r := by omega
            by_cases h4 : r < q
            · have h5 : k ≠ r := by omega
              have h6 : r < k := by omega
              simp [SMap.get, h1, h3, h4, h5, h6]
            · simp [SMap.get, h1, h3, h4]
      · simp only [SMap.get]
        by_cases h1 : k = r
        · have : r ≠ q := by omega
          simp [h1, this]
        · simp only [h1, if_false]
          by_cases h2 : r < k
          · have : r ≠ q := by omega
            simp [h2, this]
          · simp only [h2, if_false]
            exact hi

theorem SMap.get_set [DecidableEq α] (d : α) (m : SMap α) (q r : Nat) (x : α) (hm : SMap.wf d m = true) :
    SMap.get d (SMap.set d m q x) r = if r = q then x else SMap.get d m r := SMap.get_set_from d m 0 q r x hm

/-- A write reads back, whatever the map's form. -/
@[simp] theorem SMap.get_set_same_wf [DecidableEq α] (d : α) (m : SMap α) (q : Nat) (x : α) (hm : SMap.wf d m = true) :
    SMap.get d (SMap.set d m q x) q = x := by simp [SMap.get_set d m q q x hm]

/-- A write leaves every other key alone. -/
theorem SMap.get_set_ne [DecidableEq α] (d : α) (m : SMap α) (q r : Nat) (x : α) (hm : SMap.wf d m = true) (h : r ≠ q) :
    SMap.get d (SMap.set d m q x) r = SMap.get d m r := by simp [SMap.get_set d m q r x hm, h]

end Sys2Proof
end

