-- ==== Sys2Proof/Laws/State.lean ====
section
/-!
SUPPORT. What each update does to the field it names, and that it touches no other: the one place where record updates of
the state are looked into.
-/

namespace Sys2Proof.Machine

/-! ### Each update at its own field -/

@[simp] theorem apply_tick_clk (n : Nat) (s : State) : ((Upd.tick n).apply s).clk = s.clk + n := rfl
@[simp] theorem apply_draw_freeCtr (s : State) : (Upd.draw.apply s).freeCtr = s.freeCtr + 1 := rfl
@[simp] theorem apply_freeSeq (n : Nat) (s : State) : ((Upd.freeSeq n).apply s).freeSeq = n := rfl
@[simp] theorem apply_fillLeft (n : Nat) (s : State) : ((Upd.fillLeft n).apply s).fillLeft = n := rfl
@[simp] theorem apply_fillAt (n : Nat) (s : State) : ((Upd.fillAt n).apply s).fillAt = n := rfl
@[simp] theorem apply_fillEnd (n : Nat) (s : State) : ((Upd.fillEnd n).apply s).fillEnd = n := rfl
@[simp] theorem apply_wheel (w : Wheel) (s : State) : ((Upd.wheel w).apply s).wheel = w := rfl
@[simp] theorem apply_lamp (l : Lamp) (s : State) : ((Upd.lamp l).apply s).lamp = l := rfl
@[simp] theorem apply_ptm (x : Ptm) (s : State) : ((Upd.ptm x).apply s).ptm = x := rfl
@[simp] theorem apply_scp (x : PathPort) (s : State) : ((Upd.scp x).apply s).scp = x := rfl
@[simp] theorem apply_bar (x : PathPort) (s : State) : ((Upd.bar x).apply s).bar = x := rfl
@[simp] theorem apply_jobScp (j : Option Job) (s : State) : ((Upd.jobScp j).apply s).jobScp = j := rfl
@[simp] theorem apply_jobBar (j : Option Job) (s : State) : ((Upd.jobBar j).apply s).jobBar = j := rfl
@[simp] theorem apply_due (l : List Due) (s : State) : ((Upd.due l).apply s).due = l := rfl
@[simp] theorem apply_tlb (l : List Tlb) (s : State) : ((Upd.tlb l).apply s).tlb = l := rfl
@[simp] theorem apply_tlbInv (b : Option (Nat × Nat × Nat)) (s : State) : ((Upd.tlbInv b).apply s).tlbInv = b := rfl
@[simp] theorem apply_host (h : HostLink) (s : State) : ((Upd.host h).apply s).host = h := rfl
@[simp] theorem apply_kindle (k : Kindle) (s : State) : ((Upd.kindle k).apply s).kindle = k := rfl
@[simp] theorem apply_gov (g : Gov) (s : State) : ((Upd.gov g).apply s).gov = g := rfl
@[simp] theorem apply_laneWicks (n : Nat) (s : State) : ((Upd.laneWicks n).apply s).laneWicks = n := rfl
@[simp] theorem apply_zhn (z : Zhn) (s : State) : ((Upd.zhn z).apply s).zhn = z := rfl
@[simp] theorem apply_cup (c : Cup) (s : State) : ((Upd.cup c).apply s).cup = c := rfl
@[simp] theorem apply_boot (b : Boot) (s : State) : ((Upd.boot b).apply s).boot = b := rfl
@[simp] theorem apply_otp (o : Otp) (s : State) : ((Upd.otp o).apply s).otp = o := rfl
@[simp] theorem apply_tap (x : Tap) (s : State) : ((Upd.tap x).apply s).tap = x := rfl
@[simp] theorem apply_descUsed (n : Nat) (s : State) : ((Upd.descUsed n).apply s).descUsed = n := rfl
@[simp] theorem apply_straps (x : Straps) (s : State) : ((Upd.straps x).apply s).straps = x := rfl
@[simp] theorem apply_pwr (p : Power) (s : State) : ((Upd.pwr p).apply s).pwr = p := rfl
@[simp] theorem apply_reg_regs (k : Nat) (w : Word) (s : State) : ((Upd.reg k w).apply s).regs = setReg s.regs k w := rfl
@[simp] theorem apply_keepRegs_regs (keep : Nat → Bool) (s : State) :
    ((Upd.keepRegs keep).apply s).regs = s.regs.filter (fun e => keep e.1) := rfl
@[simp] theorem apply_elder_elder (i n : Nat) (s : State) : ((Upd.elder i n).apply s).elder = SMap.set 0 s.elder i n := rfl
@[simp] theorem apply_port_ports (i : Nat) (x : Port) (s : State) :
    ((Upd.port i x).apply s).ports = SMap.set Port.init s.ports i x := rfl
@[simp] theorem apply_wbq_wbq (i : Nat) (l : List WBeat) (s : State) :
    ((Upd.wbq i l).apply s).wbq = SMap.set [] s.wbq i l := rfl
@[simp] theorem apply_ctx_ctxs (i : Nat) (x : Ctx) (s : State) :
    ((Upd.ctx i x).apply s).ctxs = SMap.set Ctx.init s.ctxs i x := rfl
@[simp] theorem apply_queue_queues (i : Nat) (x : Queue) (s : State) :
    ((Upd.queue i x).apply s).queues = SMap.set Queue.init s.queues i x := rfl
@[simp] theorem apply_chan_chans (i : Nat) (x : Chan) (s : State) :
    ((Upd.chan i x).apply s).chans = SMap.set Chan.init s.chans i x := rfl
@[simp] theorem apply_mobj_mems (i : Nat) (x : MemObj) (s : State) :
    ((Upd.mobj i x).apply s).mems = SMap.set MemObj.init s.mems i x := rfl
@[simp] theorem apply_fence_fences (i : Nat) (x : Fence) (s : State) :
    ((Upd.fence i x).apply s).fences = SMap.set Fence.init s.fences i x := rfl
@[simp] theorem apply_engine_engines (i : Nat) (x : Engine) (s : State) :
    ((Upd.engine i x).apply s).engines = SMap.set Engine.init s.engines i x := rfl
@[simp] theorem apply_chair_chairs (i : Nat) (x : Chair) (s : State) :
    ((Upd.chair i x).apply s).chairs = SMap.set Chair.init s.chairs i x := rfl
@[simp] theorem apply_lane_lanes (i : Nat) (x : Lane) (s : State) :
    ((Upd.lane i x).apply s).lanes = SMap.set Lane.init s.lanes i x := rfl
@[simp] theorem apply_pmbp_pmb (i : Nat) (x : PmbPort) (s : State) :
    ((Upd.pmbp i x).apply s).pmb = SMap.set PmbPort.init s.pmb i x := rfl
@[simp] theorem apply_wick_wicks (i : Nat) (x : Wick) (s : State) :
    ((Upd.wick i x).apply s).wicks = SMap.set Wick.init s.wicks i x := rfl

/-! ### Table cells after an update of the table -/

theorem ctx_after (i j : Nat) (x : Ctx) (s : State) (h : SMap.wf Ctx.init s.ctxs = true) :
    ((Upd.ctx i x).apply s).ctx j = if j = i then x else s.ctx j := SMap.get_set Ctx.init s.ctxs i j x h
theorem queue_after (i j : Nat) (x : Queue) (s : State) (h : SMap.wf Queue.init s.queues = true) :
    ((Upd.queue i x).apply s).queue j = if j = i then x else s.queue j := SMap.get_set Queue.init s.queues i j x h
theorem chan_after (i j : Nat) (x : Chan) (s : State) (h : SMap.wf Chan.init s.chans = true) :
    ((Upd.chan i x).apply s).chan j = if j = i then x else s.chan j := SMap.get_set Chan.init s.chans i j x h
theorem mobj_after (i j : Nat) (x : MemObj) (s : State) (h : SMap.wf MemObj.init s.mems = true) :
    ((Upd.mobj i x).apply s).mobj j = if j = i then x else s.mobj j := SMap.get_set MemObj.init s.mems i j x h
theorem fence_after (i j : Nat) (x : Fence) (s : State) (h : SMap.wf Fence.init s.fences = true) :
    ((Upd.fence i x).apply s).fence j = if j = i then x else s.fence j := SMap.get_set Fence.init s.fences i j x h
theorem engine_after (i j : Nat) (x : Engine) (s : State) (h : SMap.wf Engine.init s.engines = true) :
    ((Upd.engine i x).apply s).engine j = if j = i then x else s.engine j := SMap.get_set Engine.init s.engines i j x h
theorem chair_after (i j : Nat) (x : Chair) (s : State) (h : SMap.wf Chair.init s.chairs = true) :
    ((Upd.chair i x).apply s).chair j = if j = i then x else s.chair j := SMap.get_set Chair.init s.chairs i j x h
theorem lane_after (i j : Nat) (x : Lane) (s : State) (h : SMap.wf Lane.init s.lanes = true) :
    ((Upd.lane i x).apply s).lane j = if j = i then x else s.lane j := SMap.get_set Lane.init s.lanes i j x h
theorem pmbp_after (i j : Nat) (x : PmbPort) (s : State) (h : SMap.wf PmbPort.init s.pmb = true) :
    ((Upd.pmbp i x).apply s).pmbp j = if j = i then x else s.pmbp j := SMap.get_set PmbPort.init s.pmb i j x h
theorem fport_after (i j : Nat) (x : Port) (s : State) (h : SMap.wf Port.init s.ports = true) :
    ((Upd.port i x).apply s).fport j = if j = i then x else s.fport j := SMap.get_set Port.init s.ports i j x h
theorem wbqOf_after (i j : Nat) (l : List WBeat) (s : State) (h : SMap.wf [] s.wbq = true) :
    ((Upd.wbq i l).apply s).wbqOf j = if j = i then l else s.wbqOf j := SMap.get_set [] s.wbq i j l h
theorem wick_after (i j : Nat) (x : Wick) (s : State) (h : SMap.wf Wick.init s.wicks = true) :
    ((Upd.wick i x).apply s).wick j = if j = i then x else s.wick j := SMap.get_set Wick.init s.wicks i j x h

/-! ### The frame of each update -/

/-- The piece of state an update changes; none for the register words. -/
def Upd.part : Upd → Option Part
  | .tick _ => some .clk
  | .draw => some .freeCtr
  | .freeSeq _ => some .freeSeq
  | .fillLeft _ => some .fillLeft
  | .fillAt _ => some .fillAt
  | .fillEnd _ => some .fillEnd
  | .wheel _ => some .wheel
  | .lamp _ => some .lamp
  | .ptm _ => some .ptm
  | .scp _ => some .scp
  | .bar _ => some .bar
  | .jobScp _ => some .jobScp
  | .jobBar _ => some .jobBar
  | .due _ => some .due
  | .tlb _ => some .tlb
  | .tlbInv _ => some .tlbInv
  | .host _ => some .host
  | .kindle _ => some .kindle
  | .gov _ => some .gov
  | .laneWicks _ => some .laneWicks
  | .zhn _ => some .zhn
  | .cup _ => some .cup
  | .boot _ => some .boot
  | .otp _ => some .otp
  | .tap _ => some .tap
  | .descUsed _ => some .descUsed
  | .port _ _ => some .ports
  | .wbq _ _ => some .wbq
  | .straps _ => some .straps
  | .pwr _ => some .pwr
  | .reg _ _ => none
  | .keepRegs _ => none
  | .mem m _ _ => some (match m with
      | .stag => .stag
      | .objs => .objs
      | .lane => .lanemem
      | .errq => .errq
      | .trace => .trace)
  | .shade _ _ => some .shades
  | .elder _ _ => some .elder
  | .wipe w => some (match w with
      | .stag => .stag
      | .objs => .objs
      | .lanemem => .lanemem
      | .errq => .errq
      | .trace => .trace
      | .shades => .shades
      | .queues => .queues
      | .chans => .chans
      | .mems => .mems
      | .fences => .fences
      | .engines => .engines
      | .elder => .elder
      | .ports => .ports
      | .wbq => .wbq
      | .chairs => .chairs
      | .lanes => .lanes
      | .pmb => .pmb
      | .wicks => .wicks
      | .ctxs => .ctxs)
  | .ctx _ _ => some .ctxs
  | .queue _ _ => some .queues
  | .chan _ _ => some .chans
  | .mobj _ _ => some .mems
  | .fence _ _ => some .fences
  | .engine _ _ => some .engines
  | .chair _ _ => some .chairs
  | .lane _ _ => some .lanes
  | .pmbp _ _ => some .pmb
  | .wick _ _ => some .wicks

/-- No update touches the queue of waiting commands. -/
@[simp] theorem Upd.apply_pending (u : Upd) (s : State) : (u.apply s).pending = s.pending := by
  cases u with
  | mem m a b => simp only [Upd.apply]; split <;> cases m <;> rfl
  | shade g v => simp only [Upd.apply]; split <;> rfl
  | wipe w => cases w <;> rfl
  | _ => rfl

/-- An update leaves every piece of state but its own as it was. -/
theorem Upd.apply_same (u : Upd) (s : State) (p : Part) (h : u.part ≠ some p) : p.same s (u.apply s) := by
  cases u with
  | mem m a b => simp only [Upd.apply]; split <;> cases m <;> cases p <;> first | exact absurd rfl h | rfl
  | shade g v => simp only [Upd.apply]; split <;> cases p <;> first | exact absurd rfl h | rfl
  | wipe w => cases w <;> cases p <;> first | exact absurd rfl h | rfl
  | _ => cases p <;> first | exact absurd rfl h | rfl

/-- An update of anything but register words leaves every register word as it was. -/
theorem Upd.apply_regs (u : Upd) (s : State) (p : Part) (h : u.part = some p) : (u.apply s).regs = s.regs := by
  cases u with
  | mem m a b => simp only [Upd.apply]; split <;> cases m <;> rfl
  | shade g v => simp only [Upd.apply]; split <;> rfl
  | wipe w => cases w <;> rfl
  | reg k w => cases h
  | keepRegs k => cases h
  | _ => rfl

theorem Part.same_trans (p : Part) (s t u : State) (h : p.same s t) (g : p.same t u) : p.same s u := by
  cases p <;> exact Eq.trans g h

theorem Part.same_refl (p : Part) (s : State) : p.same s s := by cases p <;> rfl

/-! ### Running a meaning -/

@[simp] theorem run_skip (s : State) : Act.skip.run s = s := rfl
@[simp] theorem run_upd (u : Upd) (s : State) : (Act.upd u).run s = u.apply s := rfl
@[simp] theorem run_seq (a b : Act) (s : State) : (Act.seq a b).run s = b.run (a.run s) := rfl
@[simp] theorem run_ask (k : State → Act) (s : State) : (Act.ask k).run s = (k s).run s := rfl
@[simp] theorem run_acts_nil (s : State) : (acts []).run s = s := rfl
@[simp] theorem run_acts_cons (a : Act) (l : List Act) (s : State) : (acts (a :: l)).run s = (acts l).run (a.run s) := by
  cases l <;> rfl
@[simp] theorem run_when (b : Bool) (a : Act) (s : State) : (when_ b a).run s = if b then a.run s else s := by
  cases b <;> rfl
@[simp] theorem run_powered (a : Act) (s : State) : (powered a).run s = if s.pwr.off then s else a.run s := by
  simp only [powered, run_ask, run_when]; cases s.pwr.off <;> rfl
@[simp] theorem run_forEach_nil {α : Type} (f : α → Act) (s : State) : (forEach [] f).run s = s := rfl
@[simp] theorem run_forEach_cons {α : Type} (x : α) (l : List α) (f : α → Act) (s : State) :
    (forEach (x :: l) f).run s = (forEach l f).run ((f x).run s) := by simp [forEach]
@[simp] theorem run_forSome_none {α : Type} (f : α → Act) (s : State) : (forSome none f).run s = s := rfl
@[simp] theorem run_forSome_some {α : Type} (x : α) (f : α → Act) (s : State) : (forSome (some x) f).run s = (f x).run s := rfl
@[simp] theorem run_rep_zero (a : Act) (s : State) : (rep 0 a).run s = s := rfl
@[simp] theorem run_rep_succ (n : Nat) (a : Act) (s : State) : (rep (n + 1) a).run s = (rep n a).run (a.run s) := rfl
@[simp] theorem run_drawFree (k : Nat → Act) (s : State) : (drawFree k).run s = (k s.freeCtr).run (Upd.draw.apply s) := rfl
@[simp] theorem run_takeFreeSeq (k : Nat → Act) (s : State) :
    (takeFreeSeq k).run s = (k (s.freeSeq + 1)).run ((Upd.freeSeq (s.freeSeq + 1)).apply s) := rfl

/-- A property that every update keeps is kept by every meaning. -/
theorem Act.run_induct (P : State → Prop) (h : ∀ u s, P s → P (Upd.apply u s)) (a : Act) (s : State) (hs : P s) :
    P (a.run s) := by
  induction a generalizing s with
  | skip => exact hs
  | upd u => exact h u s hs
  | seq a b iha ihb => exact ihb _ (iha s hs)
  | ask k ih => exact ih s s hs

/-- No meaning touches the queue of waiting commands. -/
@[simp] theorem Act.run_pending (a : Act) (s : State) : (a.run s).pending = s.pending :=
  Act.run_induct (fun t => t.pending = s.pending) (fun u t h => by simp [h]) a s rfl

end Sys2Proof.Machine
end

