-- ==== Sys2Proof/Laws/Regs.lean ====
section
/-!
SUPPORT. The register words: what a read gives after a put, and the form a put keeps.
-/

namespace Sys2Proof.Machine

/-- A key below every listed key reads as asked. -/
theorem regs_get_below (m : SMap Word) (lo q : Nat) (d : Word) (hm : regsFrom lo m = true) (hq : q < lo) :
    SMap.get d m q = d := by
  cases m with
  | nil => rfl
  | cons e rest =>
    obtain ⟨k, v⟩ := e
    simp only [regsFrom, Bool.and_eq_true, decide_eq_true_eq] at hm
    have h1 : k ≠ q := by omega
    have h2 : q < k := by omega
    simp [SMap.get, h1, h2]

theorem regsFrom_mono (m : SMap Word) (lo lo' : Nat) (h : regsFrom lo m = true) (hl : lo' ≤ lo) : regsFrom lo' m = true := by
  cases m with
  | nil => rfl
  | cons e rest =>
    obtain ⟨k, v⟩ := e
    simp only [regsFrom, Bool.and_eq_true, decide_eq_true_eq] at h ⊢
    exact ⟨⟨by omega, h.1.2⟩, h.2⟩

theorem regs_set_from (m : SMap Word) (lo q : Nat) (x : Word) (hm : regsFrom lo m = true) (hq : lo ≤ q) :
    regsFrom lo (SMap.set (keyReset q) m q x) = true := by
  induction m generalizing lo with
  | nil => by_cases hx : x = keyReset q <;> simp [SMap.set, regsFrom, hx, hq]
  | cons e rest ih =>
    obtain ⟨k, v⟩ := e
    simp only [regsFrom, Bool.and_eq_true, decide_eq_true_eq] at hm
    obtain ⟨⟨hk, hv⟩, hr⟩ := hm
    simp only [SMap.set]
    split
    · next he =>
      subst he
      split
      · exact regsFrom_mono rest _ _ hr (by omega)
      · simp_all [regsFrom]
    · split
      · split
        · simp_all [regsFrom]
        · simp_all [regsFrom]
      · have := ih (k + 1) hr (by omega)
        simp_all [regsFrom]

/-- What a read of any key gives after a put of one. -/
theorem regs_get_set_from (m : SMap Word) (lo q r : Nat) (x : Word) (hm : regsFrom lo m = true) :
    SMap.get (keyReset r) (SMap.set (keyReset q) m q x) r = if r = q then x else SMap.get (keyReset r) m r := by
  induction m generalizing lo with
  | nil =>
    by_cases hx : x = keyReset q <;> by_cases hr : r = q <;> simp [SMap.set, SMap.get, hx, hr]
    intro h; exact absurd h.symm hr
  | cons e rest ih =>
    obtain ⟨k, v⟩ := e
    simp only [regsFrom, Bool.and_eq_true, decide_eq_true_eq] at hm
    obtain ⟨⟨hk, hv⟩, hr⟩ := hm
    have hb : ∀ a d, a < k + 1 → SMap.get d rest a = d := fun a d ha => regs_get_below rest (k + 1) a d hr ha
    have hi := ih (k + 1) hr
    simp only [SMap.set]
    split
    · next he =>
      subst he
      split
      · next hx =>
        subst hx
        by_cases h1 : r = k
        · subst h1; simp [hb r _ (by omega)]
        · have h3 : k ≠ r := by omega
          by_cases h2 : r < k
          · simp [SMap.get, h1, h2, h3, hb r _ (by omega)]
          · simp [SMap.get, h1, h2, h3]
      · by_cases h1 : r = k
        · subst h1; simp [SMap.get]
        · have h3 : k ≠ r := by omega
          simp [SMap.get, h1, h3]
    · next hne =>
      split
      · next hlt =>
        split
        · next hx =>
          subst hx
          by_cases h1 : r = q
          · subst h1; simp [SMap.get, hne, hlt]
          · simp [h1]
        · by_cases h1 : r = q
          · subst h1; simp [SMap.get]
          · have h3 : q ≠ r := by omega
            by_cases h4 : r < q
            · have h5 : k ≠ r := by omega
              have h6 : r < k := by omega
              simp [SMap.get, h1, h3, h4, h5, h6]
            · simp [SMap.get, h1, h3, h4]
      · simp only [SMap.get]
        by_cases h1 : k = r
        · have : r ≠ q := by omega
          simp [h1, this]
        · simp only [h1, if_false]
          by_cases h2 : r < k
          · have : r ≠ q := by omega
            simp [h2, this]
          · simp only [h2, if_false]
            exact hi

/-- What a list read at a key gives is one of its words, or the default. -/
theorem regs_get_mem (m : SMap Word) (q : Nat) (d : Word) : SMap.get d m q = d ∨ (q, SMap.get d m q) ∈ m := by
  induction m with
  | nil => exact .inl rfl
  | cons e rest ih =>
    obtain ⟨k, v⟩ := e
    simp only [SMap.get]
    split
    · next h => subst h; exact .inr (by simp)
    · split
      · exact .inl rfl
      · rcases ih with h | h
        · exact .inl h
        · exact .inr (by simp [h])

/-- Every entry after a put is the put one or was there. -/
theorem regs_set_all (m : SMap Word) (q : Nat) (x d : Word) (e : Nat × Word) (h : e ∈ SMap.set d m q x) :
    e = (q, x) ∨ e ∈ m := by
  induction m with
  | nil =>
    simp only [SMap.set] at h
    split at h <;> simp_all
  | cons f rest ih =>
    obtain ⟨k, v⟩ := f
    simp only [SMap.set] at h
    split at h
    · split at h
      · exact .inr (by simp [h])
      · rcases List.mem_cons.1 h with h | h
        · exact .inl h
        · exact .inr (by simp [h])
    · split at h
      · split at h
        · exact .inr h
        · rcases List.mem_cons.1 h with h | h
          · exact .inl h
          · exact .inr h
      · rcases List.mem_cons.1 h with h | h
        · exact .inr (by simp [h])
        · rcases ih h with h | h
          · exact .inl h
          · exact .inr (by simp [h])

/-- Putting a register keeps the form of the register words. -/
theorem setReg_wf (r : SMap Word) (key : Nat) (w : Word) (h : Regs.wf r = true) : Regs.wf (setReg r key w) = true := by
  simp only [setReg]
  split
  · exact h
  · next hh =>
    simp only [Regs.wf, Bool.and_eq_true] at h ⊢
    refine ⟨regs_set_from r 0 key _ h.1 (by omega), ?_⟩
    rw [List.all_eq_true] at *
    intro e he
    rcases regs_set_all r key _ _ e he with he | he
    · subst he
      simp [regWf, hh, BitVec.and_assoc]
    · exact h.2 e he

/-- What a register reads after a put of one, the hard-wired ones apart. -/
theorem setReg_get (r : SMap Word) (key k : Nat) (w : Word) (h : Regs.wf r = true) :
    SMap.get (keyReset k) (setReg r key w) k =
      if k = key ∧ hardWired (keyOff key) = false then w &&& BitVec.ofNat 32 (regMask (keyOff key))
      else SMap.get (keyReset k) r k := by
  simp only [Regs.wf, Bool.and_eq_true] at h
  simp only [setReg]
  cases hw : hardWired (keyOff key) with
  | true => simp
  | false => simp [regs_get_set_from r 0 key k _ h.1]

/-- The key of a register instance keeps its offset. -/
theorem keyOff_inst (off inst : Nat) (h : off < 0x1000) : keyOff (off + 0x1000 * inst) = off := by
  simp only [keyOff]; omega

/-- A put of a register leaves every other register, and every other instance, as it was. -/
theorem word_setReg_ne (s : State) (key inst off : Nat) (w : Word) (h : Regs.wf s.regs = true)
    (hne : off + 0x1000 * inst ≠ key) : ((Upd.reg key w).apply s).word inst off = s.word inst off := by
  simp [State.word, setReg_get _ _ _ _ h, hne]

/-- A put of a register reads back, its unimplemented bits as 0. -/
theorem word_setReg_same (s : State) (inst off : Nat) (w : Word) (h : Regs.wf s.regs = true) (hoff : off < 0x1000)
    (hh : hardWired off = false) :
    ((Upd.reg (off + 0x1000 * inst) w).apply s).word inst off = w &&& BitVec.ofNat 32 (regMask off) := by
  simp [State.word, setReg_get _ _ _ _ h, keyOff_inst off inst hoff, hh]

/-- Every update keeps the form of the register words. -/
theorem Upd.apply_regs_wf (u : Upd) (s : State) (h : Regs.wf s.regs = true) : Regs.wf (u.apply s).regs = true := by
  have keep : ∀ f : Nat → Bool, Regs.wf (s.regs.filter fun e => f e.1) = true := by
    intro f
    have aux : ∀ (m : SMap Word) lo, regsFrom lo m = true → regsFrom lo (m.filter fun e => f e.1) = true := by
      intro m
      induction m with
      | nil => intro lo _; rfl
      | cons e rest ih =>
        intro lo hm
        obtain ⟨k, v⟩ := e
        simp only [regsFrom, Bool.and_eq_true, decide_eq_true_eq] at hm
        have hr := ih (k + 1) hm.2
        by_cases hf : f k = true
        · simp [hf, regsFrom, hm.1.1, hm.1.2, hr]
        · simp only [List.filter_cons, hf]
          exact regsFrom_mono _ _ _ hr (by omega)
    simp only [Regs.wf, Bool.and_eq_true] at h ⊢
    refine ⟨aux _ _ h.1, ?_⟩
    rw [List.all_eq_true] at *
    intro e he
    exact h.2 e (List.mem_filter.1 he).1
  cases hu : u.part with
  | some p => rw [Upd.apply_regs u s p hu]; exact h
  | none =>
    cases u <;> first
      | exact setReg_wf _ _ _ h
      | exact keep _
      | cases hu

/-- Every meaning keeps the form of the register words. -/
theorem Act.run_regs_wf (a : Act) (s : State) (h : Regs.wf s.regs = true) : Regs.wf (a.run s).regs = true :=
  Act.run_induct (fun t => Regs.wf t.regs = true) Upd.apply_regs_wf a s h

end Sys2Proof.Machine
end

