-- ==== Sys2Proof/Laws/Frame.lean ====
section
/-!
SUPPORT. A calculus of frames: `Act.Only ps offs a` says that the meaning `a` can change nothing but the pieces of state
`ps` and the registers at the offsets `offs`, on any path through it.  Each shared operation has one lemma here.
-/

namespace Sys2Proof.Machine

/-- The update is of one of these pieces, or of a register at one of these offsets. -/
def UpdIn (ps : List Part) (offs : List Nat) : Upd → Prop
  | .reg key _ => keyOff key ∈ offs
  | .keepRegs _ => False
  | u => ∃ p, u.part = some p ∧ p ∈ ps

/-- Every update the meaning can make is of these. -/
def Act.Only (ps : List Part) (offs : List Nat) : Act → Prop
  | .skip => True
  | .upd u => UpdIn ps offs u
  | .seq a b => a.Only ps offs ∧ b.Only ps offs
  | .ask k => ∀ s, (k s).Only ps offs

theorem all_states (p : Prop) : (∀ _ : State, p) ↔ p := ⟨fun h => h State.reset, fun h _ => h⟩

section
variable {ps : List Part} {offs : List Nat}

@[simp] theorem only_skip : Act.skip.Only ps offs := trivial
@[simp] theorem only_upd (u : Upd) : (Act.upd u).Only ps offs ↔ UpdIn ps offs u := Iff.rfl
@[simp] theorem only_seq (a b : Act) : (Act.seq a b).Only ps offs ↔ a.Only ps offs ∧ b.Only ps offs := Iff.rfl
@[simp] theorem only_ask (k : State → Act) : (Act.ask k).Only ps offs ↔ ∀ s, (k s).Only ps offs := Iff.rfl
theorem only_ite (c : Prop) [Decidable c] (a b : Act) (ha : a.Only ps offs) (hb : b.Only ps offs) :
    (if c then a else b).Only ps offs := by split <;> assumption
@[simp] theorem only_when (b : Bool) (a : Act) : (when_ b a).Only ps offs ↔ (b = true → a.Only ps offs) := by
  cases b <;> simp [when_]
theorem only_powered (a : Act) (h : a.Only ps offs) : (powered a).Only ps offs := by
  intro s; simp [h]
@[simp] theorem only_acts_nil : (acts []).Only ps offs := trivial
@[simp] theorem only_acts_cons (a : Act) (l : List Act) :
    (acts (a :: l)).Only ps offs ↔ a.Only ps offs ∧ (acts l).Only ps offs := by
  cases l <;> simp [acts]
@[simp] theorem only_forEach {α : Type} (l : List α) (f : α → Act) :
    (forEach l f).Only ps offs ↔ ∀ x ∈ l, (f x).Only ps offs := by
  induction l with
  | nil => simp [forEach]
  | cons x l ih => simp only [forEach, List.map_cons, only_acts_cons] at *; simp [ih]
@[simp] theorem only_forSome {α : Type} (o : Option α) (f : α → Act) :
    (forSome o f).Only ps offs ↔ ∀ x, o = some x → (f x).Only ps offs := by
  cases o <;> simp [forSome]
theorem only_rep (n : Nat) (a : Act) (h : a.Only ps offs) : (rep n a).Only ps offs := by
  induction n with
  | zero => trivial
  | succ n ih => exact ⟨h, ih⟩

/-- More may be allowed. -/
theorem Act.Only.mono {ps' : List Part} {offs' : List Nat} {a : Act} (h : a.Only ps offs) (hp : ps ⊆ ps')
    (ho : offs ⊆ offs') : a.Only ps' offs' := by
  induction a with
  | skip => trivial
  | upd u =>
    cases u <;> first
      | exact ho h
      | exact h
      | (obtain ⟨p, h1, h2⟩ := h; exact ⟨p, h1, hp h2⟩)
  | seq a b iha ihb => exact ⟨iha h.1, ihb h.2⟩
  | ask k ih => exact fun s => ih s (h s)

/-! ### The named changes of one table cell or field -/

@[simp] theorem only_modCtx (i : Nat) (f : Ctx → Ctx) : (modCtx i f).Only ps offs ↔ .ctxs ∈ ps := by
  simp [modCtx, UpdIn, Upd.part, all_states]
@[simp] theorem only_modQueue (i : Nat) (f : Queue → Queue) : (modQueue i f).Only ps offs ↔ .queues ∈ ps := by
  simp [modQueue, UpdIn, Upd.part, all_states]
@[simp] theorem only_modChan (i : Nat) (f : Chan → Chan) : (modChan i f).Only ps offs ↔ .chans ∈ ps := by
  simp [modChan, UpdIn, Upd.part, all_states]
@[simp] theorem only_modMobj (i : Nat) (f : MemObj → MemObj) : (modMobj i f).Only ps offs ↔ .mems ∈ ps := by
  simp [modMobj, UpdIn, Upd.part, all_states]
@[simp] theorem only_modFence (i : Nat) (f : Fence → Fence) : (modFence i f).Only ps offs ↔ .fences ∈ ps := by
  simp [modFence, UpdIn, Upd.part, all_states]
@[simp] theorem only_modEngine (i : Nat) (f : Engine → Engine) : (modEngine i f).Only ps offs ↔ .engines ∈ ps := by
  simp [modEngine, UpdIn, Upd.part, all_states]
@[simp] theorem only_modChair (i : Nat) (f : Chair → Chair) : (modChair i f).Only ps offs ↔ .chairs ∈ ps := by
  simp [modChair, UpdIn, Upd.part, all_states]
@[simp] theorem only_modLane (i : Nat) (f : Lane → Lane) : (modLane i f).Only ps offs ↔ .lanes ∈ ps := by
  simp [modLane, UpdIn, Upd.part, all_states]
@[simp] theorem only_modPmbp (i : Nat) (f : PmbPort → PmbPort) : (modPmbp i f).Only ps offs ↔ .pmb ∈ ps := by
  simp [modPmbp, UpdIn, Upd.part, all_states]
@[simp] theorem only_modWick (i : Nat) (f : Wick → Wick) : (modWick i f).Only ps offs ↔ .wicks ∈ ps := by
  simp [modWick, UpdIn, Upd.part, all_states]
@[simp] theorem only_modWheel (f : Wheel → Wheel) : (modWheel f).Only ps offs ↔ .wheel ∈ ps := by
  simp [modWheel, UpdIn, Upd.part, all_states]
@[simp] theorem only_modLamp (f : Lamp → Lamp) : (modLamp f).Only ps offs ↔ .lamp ∈ ps := by
  simp [modLamp, UpdIn, Upd.part, all_states]
@[simp] theorem only_modPtm (f : Ptm → Ptm) : (modPtm f).Only ps offs ↔ .ptm ∈ ps := by
  simp [modPtm, UpdIn, Upd.part, all_states]
@[simp] theorem only_modHost (f : HostLink → HostLink) : (modHost f).Only ps offs ↔ .host ∈ ps := by
  simp [modHost, UpdIn, Upd.part, all_states]
@[simp] theorem only_modKindle (f : Kindle → Kindle) : (modKindle f).Only ps offs ↔ .kindle ∈ ps := by
  simp [modKindle, UpdIn, Upd.part, all_states]
@[simp] theorem only_modGov (f : Gov → Gov) : (modGov f).Only ps offs ↔ .gov ∈ ps := by
  simp [modGov, UpdIn, Upd.part, all_states]
@[simp] theorem only_modZhn (f : Zhn → Zhn) : (modZhn f).Only ps offs ↔ .zhn ∈ ps := by
  simp [modZhn, UpdIn, Upd.part, all_states]
@[simp] theorem only_modCup (f : Cup → Cup) : (modCup f).Only ps offs ↔ .cup ∈ ps := by
  simp [modCup, UpdIn, Upd.part, all_states]
@[simp] theorem only_modBoot (f : Boot → Boot) : (modBoot f).Only ps offs ↔ .boot ∈ ps := by
  simp [modBoot, UpdIn, Upd.part, all_states]
@[simp] theorem only_modOtp (f : Otp → Otp) : (modOtp f).Only ps offs ↔ .otp ∈ ps := by
  simp [modOtp, UpdIn, Upd.part, all_states]
@[simp] theorem only_modPwr (f : Power → Power) : (modPwr f).Only ps offs ↔ .pwr ∈ ps := by
  simp [modPwr, UpdIn, Upd.part, all_states]
@[simp] theorem only_modScp (f : PathPort → PathPort) : (modScp f).Only ps offs ↔ .scp ∈ ps := by
  simp [modScp, UpdIn, Upd.part, all_states]
@[simp] theorem only_modBar (f : PathPort → PathPort) : (modBar f).Only ps offs ↔ .bar ∈ ps := by
  simp [modBar, UpdIn, Upd.part, all_states]

@[simp] theorem only_modZport (p : Nat) (f : ZPort → ZPort) : (modZport p f).Only ps offs ↔ .zhn ∈ ps := by simp [modZport]

theorem only_drawFree (k : Nat → Act) (hp : .freeCtr ∈ ps) (h : ∀ n, (k n).Only ps offs) : (drawFree k).Only ps offs :=
  fun s => ⟨⟨.freeCtr, rfl, hp⟩, h s.freeCtr⟩

theorem only_takeFreeSeq (k : Nat → Act) (hp : .freeSeq ∈ ps) (h : ∀ n, (k n).Only ps offs) :
    (takeFreeSeq k).Only ps offs := fun _ => ⟨⟨.freeSeq, rfl, hp⟩, h _⟩

theorem only_storeBytes (m : MemId) (a : Nat) (l : List Byte) (h : ∀ b, (Upd.mem m a b).part.all (· ∈ ps)) :
    (storeBytes m a l).Only ps offs := by
  induction l generalizing a with
  | nil => trivial
  | cons b rest ih =>
    refine ⟨?_, ih (a + 1) h⟩
    have := h b
    cases m <;> simp_all [UpdIn, Upd.part]

/-! ### Registers, counters, events and errors -/

theorem only_putWord (inst off : Nat) (w : Word) (h : off < 0x1000) : (putWord inst off w).Only ps offs ↔ off ∈ offs := by
  simp [putWord, UpdIn, keyOff_inst off inst h]

theorem only_putI (inst : Nat) (f : Fld) (v : Nat) (h : f.off < 0x1000) : (putI inst f v).Only ps offs ↔ f.off ∈ offs := by
  simp [putI, only_putWord _ _ _ h, all_states]

theorem only_put (f : Fld) (v : Nat) (h : f.off < 0x1000) : (put f v).Only ps offs ↔ f.off ∈ offs := only_putI 0 f v h

theorem only_countBy (f : Fld) (n : Nat) (h : f.off < 0x1000) : (countBy f n).Only ps offs ↔ f.off ∈ offs := by
  simp [countBy, only_put _ _ h, all_states]

theorem only_count (f : Fld) (h : f.off < 0x1000) : (count f).Only ps offs ↔ f.off ∈ offs := only_countBy f 1 h

@[simp] theorem only_raiseVec (v : Nat) : (raiseVec v).Only ps offs ↔ .host ∈ ps := by simp [raiseVec]

theorem only_withAlert (inst off : Nat) (a : Act) (ha : a.Only ps offs) (hp : .host ∈ ps) :
    (withAlert inst off a).Only ps offs := by
  simp [withAlert, ha, hp]

theorem only_eventI (inst : Nat) (f : Fld) (h : f.off < 0x1000) (ho : f.off ∈ offs) (hp : .host ∈ ps) :
    (eventI inst f).Only ps offs := only_withAlert _ _ _ ((only_putI inst f 1 h).2 ho) hp

theorem only_event (f : Fld) (h : f.off < 0x1000) (ho : f.off ∈ offs) (hp : .host ∈ ps) : (event f).Only ps offs :=
  only_eventI 0 f h ho hp

theorem only_fillBy (n : Nat) (h : timeParts ⊆ ps) (ho : timeOffs ⊆ offs) : (fillBy n).Only ps offs := by
  simp only [timeParts, timeOffs, List.cons_subset, List.nil_subset, and_true] at h ho
  intro s
  apply only_rep
  intro t
  simp [UpdIn, Upd.part, h, only_put F.PRT_SHD_ADDR_GRAN _ (by decide), ho]

theorem only_wbqDrain (n : Nat) (h : .wbq ∈ ps) : (wbqDrain n).Only ps offs := by
  intro s; simp [UpdIn, Upd.part, h]

theorem only_eofBy (n : Nat) (h : .lanes ∈ ps) : (eofBy n).Only ps offs := by
  intro s; simp [h]

theorem only_tickBy (n : Nat) (h : timeParts ⊆ ps) (ho : timeOffs ⊆ offs) : (tickBy n).Only ps offs := by
  intro s
  have h' := h
  simp only [timeParts, List.cons_subset, List.nil_subset, and_true] at h'
  simp [UpdIn, Upd.part, h', only_fillBy n h ho, only_wbqDrain n h'.2.2.2.2.2.2.2.1, only_eofBy n h'.2.2.2.2.2.2.2.2]

/-- One beat at a fabric port changes that port. -/
theorem only_portBeat (q : FReq) (res : Nat) (hp : .ports ∈ ps) : (portBeat q res).Only ps offs := by
  intro s; exact ⟨.ports, rfl, hp⟩

/-- A trace record changes the trace memory, its port and the record count, or the count of dropped records. -/
theorem only_traceRec (typ : Nat) (data : List Byte) (hp : [.trace, .ports] ⊆ ps)
    (ho : [F.TRC_STAT_WR.off, F.TRC_CNT_DROP.off] ⊆ offs) : (traceRec typ data).Only ps offs := by
  intro s
  simp only [List.cons_subset, List.nil_subset, and_true] at hp ho
  simp only [only_when]
  intro _
  apply only_ite
  · exact (only_count _ (by decide)).2 ho.2
  · simp only [only_acts_cons, only_acts_nil, and_true]
    exact ⟨⟨.ports, rfl, hp.2⟩, only_storeBytes .trace _ _ (by simp [Upd.part, hp.1]), (only_put _ _ (by decide)).2 ho.1⟩

/-- The registers a posted error entry changes. -/
def errOffs : List Nat := [F.ERR_WR_WR.off, F.ERR_CNT_LOST.off, F.ERR_EVT_OVF.off, F.TRC_STAT_WR.off, F.TRC_CNT_DROP.off]

theorem only_postBytes (body : Nat → List Byte) (hp : [.errq, .trace, .host, .ports] ⊆ ps) (ho : errOffs ⊆ offs) :
    (postBytes body).Only ps offs := by
  intro s
  simp only [List.cons_subset, List.nil_subset, and_true] at hp
  simp only [errOffs, List.cons_subset, List.nil_subset, and_true] at ho
  apply only_ite
  · simp [only_count _ (show F.ERR_CNT_LOST.off < 0x1000 by decide), ho, only_event F.ERR_EVT_OVF (by decide) ho.2.2.1 hp.2.2.1]
  · simp only [only_acts_cons, only_acts_nil, and_true]
    exact ⟨only_storeBytes .errq _ _ (by simp [Upd.part, hp]), (only_put _ _ (by decide)).2 ho.1,
      only_event F.ERR_EVT_POST (by decide) ho.2.2.1 hp.2.2.1, (only_raiseVec 0).2 hp.2.2.1,
      only_traceRec _ _ (by simp [hp]) (by simp [ho])⟩

theorem only_zPut (port : Nat) (urgent : Bool) (p : Pkt) (hp : [.zhn, .ports] ⊆ ps) : (zPut port urgent p).Only ps offs := by
  intro s
  simp only [List.cons_subset, List.nil_subset, and_true] at hp
  simp [hp, only_portBeat _ _ hp.2]

theorem only_zQueue (port : Nat) (p : Pkt) (hp : [.zhn, .ports] ⊆ ps) : (zQueue port p).Only ps offs := only_zPut _ _ _ hp

theorem only_zSend (typ dst : Nat) (user : Bool) (opId : Nat) (body : List Byte) (hp : [.zhn, .ports] ⊆ ps) :
    (zSend typ dst user opId body).Only ps offs := by
  intro s; simp [only_zQueue _ _ hp]

theorem only_zAnswer (typ dst opId : Nat) (body : List Byte) (hp : [.zhn, .ports] ⊆ ps) :
    (zAnswer typ dst opId body).Only ps offs := by
  have h := hp
  simp only [List.cons_subset, List.nil_subset, and_true] at h
  simp [zAnswer, only_zSend _ _ _ _ _ hp, h]

/-- The pieces a posted error entry changes. -/
def errParts : List Part := [.errq, .trace, .host, .zhn, .ports]

theorem only_postErr (e : ErrInfo) (hp : errParts ⊆ ps) (ho : errOffs ⊆ offs) : (postErr e).Only ps offs := by
  intro s
  simp only [errParts, List.cons_subset, List.nil_subset, and_true] at hp
  simp only [only_acts_cons, only_acts_nil, and_true, only_when, only_forEach]
  exact ⟨only_postBytes _ (by simp [hp]) ho, fun _ x _ => only_zSend _ _ _ _ _ (by simp [hp])⟩

theorem only_postPlain (code block info0 info1 : Nat) (hp : errParts ⊆ ps) (ho : errOffs ⊆ offs) :
    (postPlain code block info0 info1).Only ps offs := only_postErr _ hp ho

/-! ### What a frame says of a run -/

/-- The register words at other offsets stay. -/
theorem Act.Only.word (a : Act) (s : State) (h : a.Only ps offs) (hw : Regs.wf s.regs = true) (inst off : Nat)
    (hoff : off < 0x1000) (hn : off ∉ offs) : (a.run s).word inst off = s.word inst off := by
  induction a generalizing s with
  | skip => rfl
  | upd u =>
    cases u with
    | reg key w =>
      have hk : keyOff key ∈ offs := h
      refine word_setReg_ne s key inst off w hw ?_
      intro e
      apply hn
      rw [← e, keyOff_inst off inst hoff] at hk
      exact hk
    | keepRegs f => exact absurd h id
    | _ =>
      obtain ⟨p, h1, _⟩ := h
      have := Upd.apply_regs _ s p h1
      simp only [run_upd, State.word, this]
  | seq a b iha ihb =>
    rw [run_seq, ihb _ h.2 (Act.run_regs_wf a s hw), iha s h.1 hw]
  | ask k ih => exact ih s s (h s) hw

/-- The other pieces of state stay. -/
theorem Act.Only.part (a : Act) (s : State) (h : a.Only ps offs) (p : Part) (hp : p ∉ ps) : p.same s (a.run s) := by
  induction a generalizing s with
  | skip => exact p.same_refl s
  | upd u =>
    refine Upd.apply_same u s p ?_
    intro e
    cases u <;> first
      | cases e; done
      | (obtain ⟨q, h1, h2⟩ := h
         rw [e] at h1
         cases h1
         exact hp h2)
  | seq a b iha ihb => exact Part.same_trans p _ _ _ (iha s h.1) (ihb _ h.2)
  | ask k ih => exact ih s s (h s)

/-- A meaning that can change only some pieces and some registers leaves the rest unchanged. -/
theorem Act.Only.unchanged (a : Act) (s : State) (h : a.Only ps offs) (hw : Regs.wf s.regs = true) :
    Unchanged ps offs s (a.run s) :=
  ⟨Act.run_pending a s, fun p hp => h.part a s p hp, fun inst off ho hn => h.word a s hw inst off ho hn⟩

end

end Sys2Proof.Machine
end

