-- ==== Sys2Proof/Laws/Fields.lean ====
section
/-!
SUPPORT. Register fields: a put of a field reads back, and leaves every other field of its register alone.
-/

namespace Sys2Proof.Machine

/-- Bit i of a bit range. -/
theorem testBit_bits (v lo width i : Nat) : (bits v lo width).testBit i = (decide (i < width) && v.testBit (lo + i)) := by
  simp [bits, Nat.testBit_mod_two_pow, Nat.testBit_div_two_pow, Nat.add_comm]

theorem bits_lt (v lo width : Nat) : bits v lo width < 2 ^ width := Nat.mod_lt _ (Nat.two_pow_pos _)

/-- Replacing a bit range bit by bit. -/
theorem testBit_replace (x v lo width j : Nat) :
    (x - bits x lo width * 2 ^ lo + v % 2 ^ width * 2 ^ lo).testBit j =
      if lo ≤ j ∧ j < lo + width then v.testBit (j - lo) else x.testBit j := by
  have hlow : x % 2 ^ lo < 2 ^ lo := Nat.mod_lt _ (Nat.two_pow_pos _)
  have hx : x = 2 ^ lo * (2 ^ width * (x / 2 ^ lo / 2 ^ width) + bits x lo width) + x % 2 ^ lo := by
    have h1 := Nat.div_add_mod x (2 ^ lo)
    have h2 := Nat.div_add_mod (x / 2 ^ lo) (2 ^ width)
    simp only [bits]
    rw [h2]; exact h1.symm
  have hr : x - bits x lo width * 2 ^ lo + v % 2 ^ width * 2 ^ lo =
      2 ^ lo * (2 ^ width * (x / 2 ^ lo / 2 ^ width) + v % 2 ^ width) + x % 2 ^ lo := by
    have e1 : 2 ^ lo * (2 ^ width * (x / 2 ^ lo / 2 ^ width) + bits x lo width) =
      2 ^ lo * (2 ^ width * (x / 2 ^ lo / 2 ^ width)) + bits x lo width * 2 ^ lo := by
      rw [Nat.mul_add, Nat.mul_comm (2 ^ lo) (bits _ _ _)]
    rw [Nat.mul_add, Nat.mul_comm (2 ^ lo) (v % _)]
    omega
  rw [hr, Nat.testBit_two_pow_mul_add _ hlow]
  have hv : v % 2 ^ width < 2 ^ width := Nat.mod_lt _ (Nat.two_pow_pos _)
  rw [Nat.testBit_two_pow_mul_add _ hv]
  by_cases h1 : j < lo
  · have : ¬ (lo ≤ j ∧ j < lo + width) := by omega
    simp [h1, this, Nat.testBit_mod_two_pow]
  · by_cases h2 : j - lo < width
    · have : lo ≤ j ∧ j < lo + width := by omega
      simp [h1, h2, this, Nat.testBit_mod_two_pow]
    · have : ¬ (lo ≤ j ∧ j < lo + width) := by omega
      simp only [h1, h2, this, if_false, Nat.testBit_div_two_pow]
      congr 1; omega

theorem putField_testBit (w : Word) (f : Fld) (v j : Nat) (h : f.lo + f.width ≤ 32) :
    (putField w f v).toNat.testBit j =
      if f.lo ≤ j ∧ j < f.lo + f.width then v.testBit (j - f.lo) else w.toNat.testBit j := by
  simp only [putField, BitVec.toNat_ofNat, Nat.testBit_mod_two_pow, testBit_replace]
  by_cases hj : j < 32
  · simp [hj]
  · have h1 : ¬ (f.lo ≤ j ∧ j < f.lo + f.width) := by omega
    have h2 : w.toNat.testBit j = false := Nat.testBit_lt_two_pow (Nat.lt_of_lt_of_le w.isLt (Nat.pow_le_pow_right (by omega) (by omega)))
    simp [h1, h2, hj]

/-- A field that its register implements, of a register that is not hard-wired. -/
def Fld.ok (f : Fld) : Prop :=
  f.off < 0x1000 ∧ hardWired f.off = false ∧ f.lo + f.width ≤ 32 ∧ bits (regMask f.off % 2 ^ 32) f.lo f.width = 2 ^ f.width - 1

theorem Fld.ok_iff (f : Fld) : f.ok ↔ (decide (f.off < 0x1000) && !hardWired f.off && decide (f.lo + f.width ≤ 32) &&
    bits (regMask f.off % 2 ^ 32) f.lo f.width == 2 ^ f.width - 1) = true := by
  simp [Fld.ok, and_assoc]

/-- The bits of a field its register implements are implemented. -/
theorem Fld.ok_testBit (f : Fld) (h : f.ok) (j : Nat) (h1 : f.lo ≤ j) (h2 : j < f.lo + f.width) :
    (regMask f.off % 2 ^ 32).testBit j = true := by
  have := congrArg (fun n => n.testBit (j - f.lo)) h.2.2.2
  simp only [testBit_bits, Nat.testBit_two_pow_sub_one] at this
  have e : f.lo + (j - f.lo) = j := by omega
  have l : j - f.lo < f.width := by omega
  simpa [e, l] using this

/-- A put of a field reads back, cut to the field's width. -/
theorem fldI_putI_same (s : State) (inst : Nat) (f : Fld) (v : Nat) (hw : Regs.wf s.regs = true) (hf : f.ok) :
    ((putI inst f v).run s).fldI inst f = v % 2 ^ f.width := by
  simp only [putI, putWord, run_ask, run_upd, State.fldI, word_setReg_same _ _ _ _ hw hf.1 hf.2.1]
  apply Nat.eq_of_testBit_eq
  intro i
  simp only [testBit_bits, BitVec.toNat_and, BitVec.toNat_ofNat, Nat.testBit_and, putField_testBit _ _ _ _ hf.2.2.1,
    Nat.testBit_mod_two_pow v]
  by_cases hi : i < f.width
  · have h1 : f.lo ≤ f.lo + i ∧ f.lo + i < f.lo + f.width := by omega
    have := f.ok_testBit hf (f.lo + i) h1.1 h1.2
    simp only [hi, this, Bool.and_true, decide_true, Bool.true_and, if_pos h1, Nat.add_sub_cancel_left]
  · simp [hi]

/-- A put of a field leaves the fields of other registers and other instances alone. -/
theorem fldI_putI_off (s : State) (inst inst' : Nat) (f g : Fld) (v : Nat) (hw : Regs.wf s.regs = true)
    (hne : g.off + 0x1000 * inst' ≠ f.off + 0x1000 * inst) : ((putI inst f v).run s).fldI inst' g = s.fldI inst' g := by
  simp only [putI, putWord, run_ask, run_upd, State.fldI, word_setReg_ne _ _ _ _ _ hw hne]

/-- A put of a field leaves the implemented fields of its register that share no bit with it alone. -/
theorem fldI_putI_disjoint (s : State) (inst : Nat) (f g : Fld) (v : Nat) (hw : Regs.wf s.regs = true) (hf : f.ok)
    (hg : g.ok) (he : g.off = f.off) (hd : g.lo + g.width ≤ f.lo ∨ f.lo + f.width ≤ g.lo) :
    ((putI inst f v).run s).fldI inst g = s.fldI inst g := by
  simp only [putI, putWord, run_ask, run_upd, State.fldI, he, word_setReg_same _ _ _ _ hw hf.1 hf.2.1]
  apply Nat.eq_of_testBit_eq
  intro i
  simp only [testBit_bits, BitVec.toNat_and, BitVec.toNat_ofNat, Nat.testBit_and, putField_testBit _ _ _ _ hf.2.2.1]
  by_cases hi : i < g.width
  · have h1 : ¬ (f.lo ≤ g.lo + i ∧ g.lo + i < f.lo + f.width) := by omega
    have := g.ok_testBit hg (g.lo + i) (by omega) (by omega)
    rw [he] at this
    simp only [hi, this, h1, if_false, Bool.and_true, decide_true, Bool.true_and]
  · simp [hi]

theorem fld_put_same (s : State) (f : Fld) (v : Nat) (hw : Regs.wf s.regs = true) (hf : f.ok) :
    ((put f v).run s).fld f = v % 2 ^ f.width := fldI_putI_same s 0 f v hw hf

theorem fld_put_off (s : State) (f g : Fld) (v : Nat) (hw : Regs.wf s.regs = true) (hne : g.off ≠ f.off) :
    ((put f v).run s).fld g = s.fld g := fldI_putI_off s 0 0 f g v hw (by omega)

theorem fld_put_disjoint (s : State) (f g : Fld) (v : Nat) (hw : Regs.wf s.regs = true) (hf : f.ok) (hg : g.ok)
    (he : g.off = f.off) (hd : g.lo + g.width ≤ f.lo ∨ f.lo + f.width ≤ g.lo) :
    ((put f v).run s).fld g = s.fld g := fldI_putI_disjoint s 0 f g v hw hf hg he hd

theorem fldI_lt (s : State) (inst : Nat) (f : Fld) : s.fldI inst f < 2 ^ f.width := bits_lt _ _ _

theorem fld_lt (s : State) (f : Fld) : s.fld f < 2 ^ f.width := bits_lt _ _ _

/-- A counter stops at its maximum. -/
theorem fld_countBy (s : State) (f : Fld) (n : Nat) (hw : Regs.wf s.regs = true) (hf : f.ok) :
    ((countBy f n).run s).fld f = min (s.fld f + n) (2 ^ f.width - 1) := by
  simp only [countBy, run_ask, fld_put_same _ _ _ hw hf]
  have := Nat.two_pow_pos f.width
  exact Nat.mod_eq_of_lt (by omega)

theorem fld_count (s : State) (f : Fld) (hw : Regs.wf s.regs = true) (hf : f.ok) :
    ((count f).run s).fld f = min (s.fld f + 1) (2 ^ f.width - 1) := fld_countBy s f 1 hw hf

/-- Raising a vector changes no register. -/
@[simp] theorem fldI_raiseVec (s : State) (v inst : Nat) (g : Fld) : ((raiseVec v).run s).fldI inst g = s.fldI inst g := rfl

/-- What raising a vector does: its pending bit, while MSI-X is enabled (R488). -/
theorem raiseVec_host (s : State) (v : Nat) :
    ((raiseVec v).run s).host = if s.host.msixEn then { s.host with pend := setBit s.host.pend v } else s.host := rfl

/-- An event leaves every field as setting its bit does. -/
theorem fldI_eventI (s : State) (inst inst' : Nat) (f g : Fld) :
    ((eventI inst f).run s).fldI inst' g = ((putI inst f 1).run s).fldI inst' g := by
  simp only [eventI, withAlert, run_ask, run_acts_cons, run_acts_nil, run_when]
  split <;> simp

/-- An event sets its bit (R573 and its like). -/
theorem fldI_eventI_same (s : State) (inst : Nat) (f : Fld) (hw : Regs.wf s.regs = true) (hf : f.ok) (h1 : f.width = 1) :
    ((eventI inst f).run s).fldI inst f = 1 := by
  rw [fldI_eventI, fldI_putI_same s inst f 1 hw hf, h1]
  norm_num

theorem fld_event_same (s : State) (f : Fld) (hw : Regs.wf s.regs = true) (hf : f.ok) (h1 : f.width = 1) :
    ((event f).run s).fld f = 1 := fldI_eventI_same s 0 f hw hf h1

/-- An event leaves every other field of its register, and every other register, alone. -/
theorem fld_event_off (s : State) (f g : Fld) (hw : Regs.wf s.regs = true) (hne : g.off ≠ f.off) :
    ((event f).run s).fld g = s.fld g := by
  simp only [State.fld, event, fldI_eventI]
  exact fld_put_off s f g 1 hw hne

theorem fld_event_disjoint (s : State) (f g : Fld) (hw : Regs.wf s.regs = true) (hf : f.ok) (hg : g.ok)
    (he : g.off = f.off) (hd : g.lo + g.width ≤ f.lo ∨ f.lo + f.width ≤ g.lo) :
    ((event f).run s).fld g = s.fld g := by
  simp only [State.fld, event, fldI_eventI]
  exact fld_put_disjoint s f g 1 hw hf hg he hd

end Sys2Proof.Machine
end

