-- ==== Sys2Proof/Laws/Memory.lean ====
section
/-!
SUPPORT. The byte memories: every operation keeps their canonical form, a byte stored reads back, and a store leaves every
other byte alone.
-/

namespace Sys2Proof.Machine

/-- All five byte memories are in their canonical form and inside their sizes. -/
def MemsWf (s : State) : Prop := ∀ m, Memory.wf m (s.bytes m) = true

theorem keysBelow_set {α : Type} [DecidableEq α] (n : Nat) (d : α) (m : SMap α) (q : Nat) (x : α)
    (h : keysBelow n m = true) (hq : q < n) : keysBelow n (SMap.set d m q x) = true := by
  induction m with
  | nil => simp only [SMap.set]; split <;> simp [keysBelow, hq]
  | cons e rest ih =>
    obtain ⟨k, v⟩ := e
    simp only [keysBelow, List.all_cons, Bool.and_eq_true, decide_eq_true_eq] at h ih
    simp only [SMap.set]
    split
    · split <;> simp [keysBelow, h, hq]
    · split
      · split <;> simp [keysBelow, h, hq]
      · simp [keysBelow, h.1, ih h.2]

/-- A store of one byte keeps the form of its memory. -/
theorem Memory.wf_set (m : MemId) (b : SMap Byte) (a : Nat) (x : Byte) (h : Memory.wf m b = true) (ha : a < memSize m) :
    Memory.wf m (SMap.set 0 b a x) = true := by
  simp only [Memory.wf, Bool.and_eq_true] at h ⊢
  exact ⟨SMap.set_wf 0 b a x h.1, keysBelow_set _ 0 b a x h.2 ha⟩

/-- A memory after other contents were given to one. -/
theorem bytes_setBytes (s : State) (m n : MemId) (b : SMap Byte) : (s.setBytes m b).bytes n = if n = m then b else s.bytes n := by
  cases m <;> cases n <;> rfl

/-- Every update keeps the form of the memories. -/
theorem Upd.apply_mems_wf (u : Upd) (s : State) (h : MemsWf s) : MemsWf (u.apply s) := by
  cases u with
  | mem m a b =>
    intro n
    simp only [Upd.apply]
    split
    · next ha =>
      rw [bytes_setBytes]
      split
      · next e => subst e; exact Memory.wf_set n _ a b (h n) ha
      · exact h n
    · exact h n
  | shade g v => intro n; simp only [Upd.apply]; split <;> cases n <;> exact h _
  | wipe w =>
    intro n
    have := h n
    cases w <;> cases n <;> first | exact this | rfl
  | _ => intro n; have := h n; cases n <;> exact this

/-- Every meaning keeps the form of the memories. -/
theorem Act.run_mems_wf (a : Act) (s : State) (h : MemsWf s) : MemsWf (a.run s) := Act.run_induct MemsWf Upd.apply_mems_wf a s h

/-- A well-formed state's memories are. -/
theorem State.wf_mems (s : State) (h : s.wf = true) : MemsWf s := by
  simp only [State.wf, Bool.and_eq_true] at h
  intro m
  cases m <;> simp_all [State.bytes]

/-- A well-formed state's register words are. -/
theorem State.wf_regs (s : State) (h : s.wf = true) : Regs.wf s.regs = true := by
  simp only [State.wf, Bool.and_eq_true] at h
  simp_all

/-- What a byte of any memory reads as after a store of one byte. -/
theorem byte_mem (s : State) (m n : MemId) (a b : Nat) (x : Byte) (h : MemsWf s) :
    ((Upd.mem m a x).apply s).byte n b = if n = m ∧ b = a ∧ a < memSize m then x else s.byte n b := by
  simp only [Upd.apply, State.byte]
  split
  · next ha =>
    rw [bytes_setBytes]
    by_cases hn : n = m
    · subst hn
      have := h n
      simp only [Memory.wf, Bool.and_eq_true] at this
      rw [if_pos rfl, SMap.get_set 0 _ a b x this.1]
      simp [ha]
    · simp [hn]
  · next ha => simp [ha]

/-- What a byte reads as after a run of bytes is stored: the byte stored there, else what it was. -/
theorem byte_storeBytes (m n : MemId) (a b : Nat) (l : List Byte) (s : State) (h : MemsWf s)
    (hfit : a + l.length ≤ memSize m) :
    ((storeBytes m a l).run s).byte n b =
      if n = m ∧ a ≤ b ∧ b < a + l.length then l.getD (b - a) 0 else s.byte n b := by
  induction l generalizing a s with
  | nil =>
    have : ¬ (a ≤ b ∧ b < a + 0) := by omega
    simp only [storeBytes, run_skip, List.length_nil, this, and_false, if_false]
  | cons x rest ih =>
    simp only [List.length_cons] at hfit
    simp only [storeBytes, run_seq, run_upd, List.length_cons]
    rw [ih (a + 1) _ (Upd.apply_mems_wf _ _ h) (by omega), byte_mem _ _ _ _ _ _ h]
    by_cases hn : n = m
    · subst hn
      by_cases h1 : b = a
      · subst h1
        have h2 : ¬ (b + 1 ≤ b ∧ b < b + 1 + rest.length) := by omega
        have h3 : b < memSize n := by omega
        have h4 : b ≤ b ∧ b < b + (rest.length + 1) := by omega
        simp only [h2, h3, h4, and_false, and_self, if_false, if_true, Nat.sub_self, List.getD_cons_zero]
      · by_cases h2 : a ≤ b ∧ b < a + (rest.length + 1)
        · have h3 : a + 1 ≤ b ∧ b < a + 1 + rest.length := by omega
          have h4 : b - a = (b - (a + 1)) + 1 := by omega
          simp only [true_and, h2, h3, and_self, if_true]
          rw [h4, List.getD_cons_succ]
        · have h3 : ¬ (a + 1 ≤ b ∧ b < a + 1 + rest.length) := by omega
          simp only [h1, h2, h3, and_false, false_and, if_false]
    · simp [hn]

end Sys2Proof.Machine
end

