-- ==== Sys2Proof/Tests/Slice0.lean ====
section
/-!
SUPPORT. The model's own tests: an ill-formed command for each check of WellFormed, small tests of commands against the
spec's words, and for every statement states and operands that meet its hypotheses.
-/

section

open Sys2Proof Sys2Proof.Machine

set_option maxRecDepth 20000

namespace Slice0

/-- The state after some updates of the reset state. -/
def w (l : List Act) : State := (acts l).run State.reset

/-- The host link is up and no function reset is in force. -/
def up : Act := modHost fun h => { h with link := true, fr := false }

/-- Mailbox arguments of a path. -/
def args (p : Path) (l : List Nat) : Act := forEach l.zipIdx fun e => putWord (pathInst p) (0x0C0 + 4 * e.2) (BitVec.ofNat 32 e.1)

/-- A context in a state. -/
def inCtx (n : Nat) (st : CtxSt) : Act := modCtx n fun x => { x with st := st }

/-- A channel of a context in a state. -/
def inChan (c n : Nat) (st : ChanSt) : Act := modChan c fun x => { x with st := st, ctx := n, count := 16 }

/-- Bytes as numbers. -/
def bs (l : List Nat) : List Byte := l.map (BitVec.ofNat 8)

/-- Bytes with their CRC behind them. -/
def withCrc (l : List Nat) : List Byte := bs l ++ [BitVec.ofNat 8 (crc8 (bs l))]

/-- A begun mailbox command that waits for nothing. -/
def job : Job := ⟨1, [], 0, 0, [], .none, false, false⟩

/-- A read held on a register. -/
def held (r : HeldReg) (off : Nat) : HeldRead := ⟨some r, 0, 0, off, 1, false, 15, 15, []⟩

/-- Sixteen descriptor words that begin with some. -/
def dwords (l : List Nat) : List Word := (l ++ List.replicate (16 - l.length) 0).map (BitVec.ofNat 32)

/-- A taken descriptor. -/
def cur (l : List Nat) (ph : Phase) : Cur := ⟨0, dwords l, 0, 0, 0, 0, ph, false, [], none, 64, false, 0, 0, 0, 0, none⟩

/-- A chain with a current descriptor or none. -/
def chain (d : Option Cur) : Run := ⟨0, d, 0, false, 0, 0, false, none, 0, 0, none, 0, 0, []⟩

/-- A submission of a channel from queue 1. -/
def subm (c : Nat) : Sub := ⟨c, 0, 0, 0, 1⟩

/-- A channel of a context runs a chain on engine 0. -/
def runs (c n : Nat) (d : Option Cur) : Act :=
  modChan c fun x => { x with st := .running, ctx := n, count := 16, subs := [subm c], run := some (chain d) }

/-- A host read outstanding with tag 0. -/
def theRead (p : Purpose) (len : Nat) : HRead := ⟨0, 0, len, p, [], false, 0, false, false, 0, 0⟩

/-- A host read is outstanding. -/
def hostRead (p : Purpose) (len : Nat) : Act := modHost fun h => { h with reads := [theRead p len] }

/-- A frame of an EMIT of channel 3. -/
def frame : TxFrame := ⟨.emit 3 0, 0x0F, 1, bs [5], 0, 0, 0, 0, 0, 0, none, 0⟩

/-- A lane changed. -/
def onLane (l : Nat) (st : LaneSt) (f : Lane → Lane) : Act := modLane l fun x => f { x with st := st }

/-- Kindle armed on lane 7, its active banks valid, and one valid entry of magnitude 7 in direction 1. -/
def armed : Act := acts [put F.BOOT_STAT_PHASE 4, put F.KND_CTL_ARM 1, put F.KND_LANE_ARM_ARM 128, put F.KND_STAT_ACTIVE_VALID 1,
  onLane 7 .trained fun x => { x with pcs := 0xFFFF }]

/-- A decided phase change of rail 15. -/
def phaseJob : PhaseJob := ⟨15, true, 4, 15, 0, 0, 0, 0, 0, 0, none⟩

/-- The channel of context 65 that the governor uses. -/
def govChan : Act := inChan 0 65 .idle

/-- A boot image header of 64 bytes with its length, sections and CRC. -/
def imgHead (len nsect crc : Nat) : List Byte :=
  leBytes 4 0x42415849 ++ leBytes 2 1 ++ leBytes 2 0x40 ++ leBytes 4 len ++ leBytes 2 nsect ++ leBytes 2 0 ++ leBytes 1 3 ++
    leBytes 1 0 ++ leBytes 2 0 ++ leBytes 4 5 ++ List.replicate 36 0 ++ leBytes 4 crc

/-- An image of one STAGE section: 64 zeros for staging address 0x1000. -/
def img : List Byte :=
  imgHead 0x94 1 0x62900F66 ++ leBytes 2 7 ++ leBytes 2 0 ++ leBytes 4 72 ++ leBytes 4 0x1000 ++ leBytes 4 0 ++
    List.replicate 64 0 ++ leBytes 4 0xF4DA6C86

/-- Two Zheyn ports that exchange packets, the first with a packet unacknowledged; device 1 is at port 0. -/
def zup : Act := acts [put F.PEL_CTL_EN 3,
  modZhn fun z => { z with
    p0 := { z.p0 with ready := true, up := true, unacked := [⟨0x40, 1, 0, false, 0, 5, 0, [], 0, 0, 0⟩] },
    p1 := { z.p1 with ready := true, up := true }, peers := [(1, ⟨true, 0, some (0, 0), none, false, false⟩)] }]

/-- The header of a packet of device 1 at port 0. -/
def zh (dst hops : Nat) : ZHdr := ⟨0, dst, 1, false, hops, 0, 9⟩

/-- An operation toward device 1 is outstanding. -/
def zout (f : ZFor) : Act := modZhn fun z => { z with outs := [⟨9, 1, f, 0⟩] }

/-- A peer's access of 64 bytes at the end of staging. -/
def zmem : ZMem := ⟨1, 0x1FFFC0, 0x40, 0, 0, 0, 0, 64⟩

/-- A transaction of channel 3 runs on PMBus port 1. -/
def onBus1 (d : List Nat) : Act := acts [put F.PMB1_CTL_EN 1, runs 3 64 (some (cur d .bus)), modPmbp 1 fun x => { x with user := some (.chan 3) }]

/-- A chain record of a queue that is due. -/
def theDue : Due := ⟨1, none, 0, 0, true, false, 0, 0, 0, 0, false, [], 10, 2, 0⟩

/-- A read waits for a tag with a leaf of context 5. -/
def theWait : HReq := ⟨.data 3, 0x7000, 32, false, false, ⟨0, 0, 0, 0, 16⟩, some ⟨5, false, 1, 0x7000, true, false⟩⟩

/-- The protection unit is enabled and refuses what no entry matches. -/
def shut : Act := acts [put F.PRT_CTL_EN 1, put F.PRT_CTL_NOMATCH 1]

/-- The state that a command answers. -/
def after (i : Instr) (s : State) : State :=
  match exec i s with
  | .next t => t
  | .fault _ => s
  | .refused _ => s

/-! ### Ill-formed commands -/

/-- A packet header in range. -/
def hOk : ZHdr := ⟨1, 7, 3, false, 3, 255, 65535⟩

/-- Headers with one field out of range each. -/
def hBad : List ZHdr :=
  [{ hOk with port := 2 }, { hOk with dst := 4 }, { hOk with src := 4 }, { hOk with hops := 4 }, { hOk with lseq := 256 },
    { hOk with opId := 65536 }]

/-- Memory bodies with one field out of range each. -/
def mBad : List ZMem :=
  [{ zmem with sel := 3 }, { zmem with offset := 2 ^ 24 }, { zmem with mid := 256 }, { zmem with key := 16 },
    { zmem with tier := 4 }, { zmem with len := 0 }, { zmem with len := 65 }]

/-- A frame of another OP, an empty frame and a frame over 68 bytes are ill formed (R77, R79). -/
theorem test_wf_refuses_frames :
    ([.scpRead (.frame (bs [0x40, 0, 0])), .scpRead (.frame []), .scpReadFixed (bs [0x30, 0, 0]), .scpWrite (bs [0x20, 0, 0]),
      .scpWriteFixed (bs [0x10, 0, 0]), .scpWrite (List.replicate 69 0x10), .scpCsRise (List.replicate 69 0)] : List Instr).all
      (fun i => !i.wf) = true := by decide

/-- Offsets that are unaligned or past the map, byte enables past five bits, a counter that is none. -/
theorem test_wf_refuses_registers :
    ([.registerWrite .scp 2 0 ⟨15, []⟩, .registerWrite .scp 0xC00 0 ⟨15, []⟩, .registerWrite .scp 0x1000 0 ⟨15, []⟩,
      .registerWrite .bar0 0x1410 0 ⟨15, []⟩, .registerWrite .scp 0 0 ⟨32, []⟩, .counterClear .scp 0x060 0 15, .counterClear .scp 0x08C 0 32,
      .counterClear .scp 0x08D 0 15] : List Instr).all (fun i => !i.wf) = true := by decide

/-- Read requests that are unaligned, empty, past the BAR or with byte enables past four bits; dwords with such byte enables. -/
theorem test_wf_refuses_requests :
    ([.scpRead (.bar ⟨false, 2, 1, 15, 15⟩), .scpRead (.bar ⟨false, 0, 0, 15, 15⟩),
      .scpRead (.bar ⟨false, 0xFFFC, 2, 15, 15⟩), .scpRead (.bar ⟨true, 0, 1, 16, 15⟩),
      .scpRead (.bar ⟨true, 0, 1, 15, 16⟩), .registerWrite .bar0 0 0 ⟨15, [(0, 16)]⟩,
      .registerWrite .bar0 0 0 ⟨15, (List.replicate 16 (0, 15))⟩] : List Instr).all (fun i => !i.wf) = true := by decide

/-- Tags of the mailbox past eight bits; a listed or too large opcode as a bad one. -/
theorem test_wf_refuses_mailbox :
    ([.ctxCreate .scp 256, .ctxDestroy .scp 256, .ctxReinit .scp 256, .queueCreate .scp 256, .queueDestroy .scp 256,
      .chanCreate .scp 256, .chanDestroy .scp 256, .chanReinit .scp 256, .memCreate .scp 256, .memDestroy .scp 256,
      .ref .scp 256, .unref .scp 256, .fenceCreate .scp 256, .fenceDestroy .scp 256, .fenceExport .scp 256,
      .fenceImport .scp 256, .stageMap .scp 256, .stageUnmap .scp 256, .chairtabOpen .scp 256, .laneReinit .scp 256,
      .engineReinit .scp 256, .badOp .scp 0xFF 256, .badOp .scp 256 0, .badOp .scp 0x20 0] : List Instr).all
      (fun i => !i.wf) = true := by decide

/-- Indices of contexts, channels, queues, engines and generations past their tables. -/
theorem test_wf_refuses_indices :
    ([.ctxTeardownComplete 64, .ctxLossUnwind 64, .devStopDrain .scp 256 0, .devStopHalt .scp 0 4096, .devStopAbort .scp 256 0,
      .haltAtBurstBoundary 256, .disabledStallTimeout (some 256), .engineDispatch 4, .burstLimitExpiry 4, .wcbIdleFlush 4,
      .snufferBite 256 .governor, .snufferBite 0 (.chan 256), .snufferBite 0 (.zhnIn { hOk with src := 4 }),
      .descriptorFetch 256, .descriptorComplete 256, .completionRecordWrite 1024, .submissionEntryRead 1024 [],
      .submissionEntryRead 0 [0]] : List Instr).all (fun i => !i.wf) = true := by decide

/-- Descriptor rows name one of 256 channels. -/
theorem test_wf_refuses_descriptors :
    ([.copy 256 1, .fill 256 1, .gather 256 1, .scatter 256 1, .emit 256, .sample 256, .pmbXfer 256, .waitWheel 256,
      .waitFence 256, .signal 256, .waitWick 256, .chairTake 256, .chairGive 256, .alloc 256, .free 256, .nop 256, .jump 256,
      .loop 256, .sampleStale 256] : List Instr).all (fun i => !i.wf) = true := by decide

/-- Chairs, regions, Kindle magnitudes and lanes out of range. -/
theorem test_wf_refuses_chairs_and_lanes :
    ([.chrSit .scp 128 0, .chrSit .scp 0 65536, .chrGive .scp 128, .chrWaitRead .scp 128, .chairTakeTimeout (some 256),
      .regionSelect .scp 32, .regionCommit .scp 32, .kndRequest 8 true, .placedFrame 8, .ackReceived 8, .ackWindowMissed 8,
      .laneFrameStart 8, .turnGrant 8, .turnLapse 8, .telemetry 8 0 0 [], .telemetry 0 16 0 [], .telemetry 0 0 8 [],
      .telemetry 0 0 0 (List.replicate 17 0), .request 8 0 0 0, .request 0 16 0 0, .request 0 0 8 0, .hello 8 0 0 [],
      .hello 0 16 0 [], .hello 0 0 8 [], .hello 0 0 0 (List.replicate 17 0), .rxAnswer 8, .laneTraining 8, .discoverEnd 8,
      .retrainTimer 8, .lanCtlEnClear .scp 8 0, .holdFrame 8, .badRxFrame 8 .code, .badRxFrame 0 (.frame (bs [0, 0, 1, 5]) 65536),
      .badRxFrame 0 (.frame (bs [0, 0, 1]) 0)] : List Instr).all
      (fun i => !i.wf) = true := by decide

/-- Host link rows out of range. -/
theorem test_wf_refuses_host :
    ([.sqDb 64 0 0 15, .sqDb 0 256 0 15, .sqDb 0 0 0 32, .cqDb 64 0 0 15, .cqDb 0 256 0 15, .cqDb 0 0 0 32, .fenceKick 64 0 15,
      .fenceKick 0 0 32, .ctxRef 64 0 15, .ctxRef 0 0 32, .ctxUnref 64 0 15, .ctxUnref 0 0 32, .bar4Read 0x200000 1, .bar4Read 0 0,
      .bar4Write 0x200000 [0] [true] false, .bar4Write 0 [0] [] false, .hostCompletion 256 0 false [], .hostCompletion 0 8 false [],
      .completionTimeout 256, .msixSend 65, .functionResetStart 5,
      .functionResetEnd ⟨16, 0, true, true, true, 0, 0, true, true, false⟩,
      .functionResetEnd ⟨0, 16, true, true, true, 0, 0, true, true, false⟩,
      .functionResetEnd ⟨0, 0, true, true, true, 8, 0, true, true, false⟩,
      .functionResetEnd ⟨0, 0, true, true, true, 0, 8, true, true, false⟩] : List Instr).all (fun i => !i.wf) = true := by decide

/-- Rails, pins, buses, straps and boot bytes out of range. -/
theorem test_wf_refuses_board :
    ([.pmbusCurrentRead 16, .wickEdge 64 true, .parkEnd 64, .pmbTransactionEnd 2 false 0 0 [], .pmbTransactionEnd 0 false 32 0 [],
      .pmbTimeout 4, .smbalert 4, .smbalertRelease 4, .coldReset ⟨4, false, 0⟩, .coldReset ⟨0, false, 4⟩,
      .warmReset 1000 ⟨4, false, 0⟩, .bootHeaderRead []] : List Instr).all (fun i => !i.wf) = true := by decide

/-- Every packet row refuses every header out of range, and the memory rows every body out of range. -/
theorem test_wf_refuses_packets :
    hBad.all (fun h => ([.zhnHello h false false 0, .mark h 0 0, .memRd h zmem, .memWr h zmem (List.replicate 64 0), .memRsp h 0 [],
      .fenOp h 0 .kick, .fenUpd h 0 0 false, .fenRsp h 0 0, .chrOp h 0 0 0 0 .sit, .chrRsp h 0 0, .chrUpd h 0 0,
      .err h (List.replicate 32 0)] : List Instr).all (fun i => !i.wf)) = true ∧
    mBad.all (fun m => !(Instr.memRd hOk m).wf && !(Instr.memWr hOk m (List.replicate m.len 0)).wf) = true := by decide

/-- The other checks of the packet rows. -/
theorem test_wf_refuses_packet_bodies :
    ([.zhnHello hOk false false 16, .memWr hOk zmem [], .memRsp hOk 0 (List.replicate 65 0), .fenOp hOk 4096 .kick,
      .fenUpd hOk 4096 0 false, .fenRsp hOk 3 0,
      .chrOp hOk 128 0 0 0 .sit, .chrOp hOk 0 256 0 0 .sit, .chrOp hOk 0 0 65536 0 .sit, .chrRsp hOk 128 0,
      .chrUpd hOk 128 0, .err hOk [], .peerLost 4, .ping 2 false 0, .pong 2 0 0, .peerResponseTimeout 65536, .zhnResend 2,
      .zhnAck 2 0, .zhnAck 0 256, .zhnPortTraining 2, .zhnLockLoss 2, .zhnBadPacket ⟨2, .code⟩, .zhnBadPacket ⟨0, (.packet [] (2 ^ 32))⟩] : List Instr).all
      (fun i => !i.wf) = true := by decide

/-- Operands at the ends of their ranges are well formed. -/
theorem test_wf_takes_the_ends :
    ([.scpRead (.frame (bs [0x30])), .registerWrite .scp 0xBFC 0 ⟨31, []⟩, .registerWrite .bar0 0x140C 0 ⟨15, []⟩, .counterClear .scp 0x08C 0 15,
      .ctxCreate .scp 255, .badOp .scp 0xFF 255, .devStopDrain .bar0 255 4095, .submissionEntryRead 1023 (List.replicate 16 0),
      .bar4Read 0x1FFFFF 1, .functionResetStart 4, .msixSend 64, .chrSit .bar0 127 65535, .telemetry 7 15 7 (List.replicate 16 0),
      .memRd hOk zmem, .memWr hOk zmem (List.replicate 64 0), .chrUpd { hOk with dst := 3 } 127 0] : List Instr).all
      (fun i => i.wf) = true := by decide

/-! ### Commands against the spec's words; each test names the worked case or the rule its values come from. -/

/-- Case SCP-1: the header CRC of a read of DEV_ID, and the CRC of its data. -/
theorem test_crc8 : crc8 (bs [0x30, 0, 0]) = 0xE1 ∧ crc8 (bs [0, 0, 0x64, 0x08]) = 0x99 := by decide

/-- The check values over the ASCII bytes "123456789" (R413, R544). -/
theorem test_crc16_crc32 : crc16 ((List.range 9).map (BitVec.ofNat 8 <| 49 + ·)) = 0x29B1 ∧
    crc32 ((List.range 9).map (BitVec.ofNat 8 <| 49 + ·)) = 0xCBF43926 := by decide

/-- Case SCP-1: the whole reply to the read of DEV_ID. -/
theorem test_scp_read_dev_id : (after (.scpRead (.frame (bs [0x30, 0, 0, 0xE1]))) State.reset).scp.reply = bs [0x5A, 0, 0, 0x64, 0x08, 0x99] := by
  decide

/-- Case SCP-1: the same header received with one bit wrong is answered 0x3C and counted once. -/
theorem test_scp_read_bad_crc :
    let t := after (.scpRead (.frame (bs [0x30, 0, 4, 0xE1]))) State.reset
    t.scp.reply = [0x3C] ∧ t.fld F.SCP_CNT0_CRC_ERR = 1 := by decide

/-- Case REG-1: four words from 0x180 on a device strapped WHL_MASTER, in INIT after a cold reset. -/
theorem test_wheel_words_after_cold_reset :
    let t := after (.coldReset ⟨0, true, 0⟩) State.reset
    [0x180, 0x184, 0x188, 0x18C].map (t.readWord .scp) = [0x00001C00, 0x00003200, 0x40400801, 0x00000005] := by decide

/-- Case REG-1: a BAR0 write to a masked block is ignored and counted. -/
theorem test_masked_write_is_counted :
    let t := after (.registerWrite .bar0 0x300 2 ⟨15, []⟩) (w [up, putWord 0 0x084 0x00020290])
    t.readWord .scp 0x08C = 0x00010000 ∧ t.readWord .bar0 0x300 = State.reset.readWord .bar0 0x300 := by decide

/-- Case REG-1: clearing REFUSED with the present ALERT_EN written beside it. -/
theorem test_dev_stop_evt_cleared :
    (after (.registerWrite .scp 0x054 0x601 ⟨15, []⟩) (w [putWord 0 0x054 0x601])).readWord .scp 0x054 = 0x600 ∧
    (after (.registerWrite .scp 0x054 1 ⟨15, []⟩) (w [putWord 0 0x054 0x601])).readWord .scp 0x054 = 0 := by decide

/-- Case SCO-2: handle 0x3005_0012, and the MID of context 9. -/
theorem test_handle_fields :
    hKind 0x30050012 = 3 ∧ hGen 0x30050012 = 5 ∧ hIdx 0x30050012 = 18 ∧ handle 3 5 18 = 0x30050012 ∧ ctxMid 9 = 0x49 := by decide

/-- Case WHL-4: comparison across the wrap. -/
theorem test_wheel_compare : wtBefore 0xFFFFFFFFF800 0x400 = true ∧ wtBefore 0x400 0xFFFFFFFFF800 = false := by decide

/-- Case WHL-1: 5.12 angle units in a core clock at 1 microsecond; 400 core clocks are +0:0x800. -/
theorem test_wheel_rate : (Wheel.init false).inc / 2 ^ 20 = 5 ∧ ((Wheel.init false).after 800).time.toNat = 0xFFF ∧
    ((Wheel.init false).after 801).time.toNat = 0x1005 := by decide

/-- Case CTX-1: the first CTX_CREATE after a cold reset gives index 1. -/
theorem test_ctx_create :
    let t := after (.mailboxDone .scp) (after (.ctxCreate .scp 7) (w [args .scp [0, 0x34560000, 0x12]]))
    t.readWord .scp 0x0E4 = 0x10000001 ∧ (t.ctx 1).root = 0x1234560000 ∧ t.readWord .scp 0x0DC = 0x00070004 := by decide

/-- Case SYS-2: CHAIRTAB_OPEN of table 2 for context 9. -/
theorem test_chairtab_open :
    let s := w [args .scp [0x10000009, 2], inCtx 9 .live, putI 2 F.CHR_TAB_CFG_USER 1]
    (after (.mailboxDone .scp) (after (.chairtabOpen .scp 1) s)).readWord .scp 0x0E4 = 0x60000092 := by decide

/-- Table SCP-4: an opcode that the table does not hold ends with BAD_OP. -/
theorem test_bad_op :
    (after (.mailboxDone .scp) (after (.badOp .scp 0xFF 1) State.reset)).fldI 0 F.CMD_STAT_RESULT = mbBAD_OP := by decide

/-- Case CTX-2: the doorbell of a queue of depth 64 across the wrap, and a stray write. -/
theorem test_doorbell_wrap :
    let s := w [up, modQueue 1 fun q => { q with live := true, log2 := 6, sqHead := 0xFFF0, sqTail := 0xFFF0 }]
    ((after (.sqDb 0 0 0x10 15) s).queue 1).sqTail = 0x10 ∧ ((after (.sqDb 0 0 0x60 15) s).queue 1).sqTail = 0xFFF0 ∧
      ((after (.sqDb 0 0 0x60 15) s).ctx 0).dberr = 1 := by decide

/-- Case CHR-1: the BMC's sit on the abandoned chair 16, and its give. -/
theorem test_abandoned_chair :
    let s := w [putWord 2 0x024 0x00090009, modChair 16 fun x => { x with abandoned := true }]
    let t := after (.chrSit .scp 16 0xB1) s
    t.readWord .scp 0x440 = 0x00B10C01 ∧ (after (.chrGive .scp 16) t).readWord .scp 0x440 = 0 := by decide

/-- Case CHR-1: the driver is not admitted to table 2. -/
theorem test_chair_denied :
    let t := after (.chrSit .bar0 16 7) (w [up, putWord 2 0x024 0x00090009])
    t.fld F.CHR_EVT_DENY = 1 ∧ t.fld F.CHR_CNT_REFUSED = 1 ∧ (t.chair 16).held = false := by decide

/-- Case PRT-1, access 3: context 12 without key 5 is refused with KEY, and the capture words. -/
theorem test_key_refused :
    let s := w [put F.PRT_CTL_EN 1, putWord 12 0x2B8 1]
    let a : Access := ⟨0x4C, 5, 5, 12, false, 0x21, 0, 0x41E00, 32, false⟩
    s.protCheck a = .refuse 4 0x3F 0 ∧ ((protCapture a 4 0x3F 0).run s).readWord .scp 0x294 = 0x83F0544C ∧
      ((protCapture a 4 0x3F 0).run s).readWord .scp 0x298 = 0x21041E00 := by decide

/-- Case PRT-1, accesses 1 and 4: entry 0 is STRICT, so the master key does not pass shade 5 and key 5 does. -/
theorem test_strict_region :
    let s := w [put F.PRT_CTL_EN 1, putWord 1 0x28C 0x00430040, putWord 1 0x290 0x0009352F, .upd (.shade (0x41E00 / 64) 5)]
    s.protCheck ⟨1, 0, 15, 0, false, 0xFF, 0, 0x41E00, 4, false⟩ = .refuse 3 0 5 ∧
      s.protCheck ⟨1, 0, 5, 0, false, 0xFF, 0, 0x41E00, 4, false⟩ = .ok := by decide

/-- Case SCP-2: a window read past the end of space 3 answers 0 and captures cause 2. -/
theorem test_window_overrun :
    let t := after (.winDataRead .scp) (w [putWord 0 0x100 0x10FB, putWord 0 0x104 0x1000])
    t.fld F.WIN_FAULT_CAUSE = 2 ∧ t.fld F.WIN_FAULT_ADDR = 0x1000 ∧ t.fld F.WIN_ADDR_ADDR = 0x1004 := by decide

/-- R227 and R536: a request before arming is answered KND_NAK. -/
theorem test_kindle_before_arming :
    let t := after (.kndRequest 7 true) State.reset
    t.kindle.nak = true ∧ t.kindle.ack = false ∧ t.fld F.KND_CNT0_NAKS = 1 := by decide

/-- R547 and R551: the first entry is the RESET entry, at the end of INIT; its first word is 0x1101_0000 (Case SYS-1). -/
theorem test_reset_entry :
    let t := after .init State.reset
    t.readLe .errq 0 4 = 0x11010000 ∧ t.fld F.ERR_WR_WR = 1 ∧ t.fld F.ERR_EVT_POST = 1 := by decide +kernel

/-- A command that waits is taken first in, first out, and leaves the queue. -/
theorem test_step_takes_the_front :
    (match step { State.reset with pending := [.devResetKey 0xC1A0, .otpBurnDone] } with
      | .next t => t.pending == [.otpBurnDone] && t.pwr.rstKey == some 0
      | .fault _ => false
      | .refused _ => false) = true := by decide

/-- R565: the second key in time begins the sequence; another word cancels it and sets KEYBAD. -/
theorem test_reset_keys :
    let s := after (.devResetKey 0xC1A0) State.reset
    (after (.devResetKey 0x0A1C) s).pwr.seq = some true ∧ (after (.devResetKey 5) s).fld F.ERR_EVT_KEYBAD = 1 ∧
      (after (.devResetKey 5) s).pwr.rstKey = none := by decide

/-- R160: a COPY of 32 bytes within staging, and the bytes beside them. -/
theorem test_copy_moves_bytes :
    let s := w [storeBytes .stag 0x100 [1, 2, 3], storeBytes .stag 0x220 [9],
      runs 3 64 (some (cur [1, 32, 0x100, 0x01000000, 0x200, 0x01000000] .ready))]
    let t := after (.copy 3 1) s
    t.cohBytes 0 0x1FF 4 = [0, 1, 2, 3] ∧ t.cohByte 0 0x220 = 9 := by decide +kernel

/-- R414, R415: the first frame of a pair takes a credit and SEQ 0; the ACK returns the credit. -/
theorem test_frame_credit :
    let s := w [onLane 7 .trained fun x => { x with waiting := [frame], credits := [(15, 4)], pcs := 0x8000 }]
    let t := after (.laneFrameStart 7) s
    (t.lane 7).credit 15 = 3 ∧ SMap.get 0 (t.lane 7).txSeq 15 = 1 := by decide

/-- The table gives its rows no bits, so no word spells a command. -/
theorem test_no_word_spells_a_command : Sys2Proof.decodeTableWord 32 0 = none ∧ (State.reset.withFetchWord 32 0) = State.reset := by decide

/-- States and operands that meet the hypotheses of the clauses of StepTakesFront. -/
theorem witness_StepTakesFront :
    (∃ (i : Instr) (rest : List Instr) (s : State), s.pending = i :: rest) ∧
    (∃ s : State, s.wf = true ∧ s.pending = []) :=
  ⟨
    ⟨.init, [.scrubDone], { State.reset with pending := [.init, .scrubDone] }, by decide⟩,
    ⟨State.reset, by decide, by decide⟩⟩

/-- States and operands that meet the hypotheses of the clauses of StepKeepsWellFormed. -/
theorem witness_StepKeepsWellFormed :
    (∃ s t : State, step s = .next t ∧ s.wf = true) :=
  ⟨State.reset, tick State.reset, rfl, by decide⟩

/-- States and operands that meet the hypotheses of the clauses of ResetIsWellFormed. -/
theorem witness_ResetIsWellFormed :
    (∃ off, off < 0x1000) :=
  ⟨0xFFF, by decide⟩

/-- States and operands that meet the hypotheses of the clauses of EveryCommandAnswers. -/
theorem witness_EveryCommandAnswers :
    (∃ (i : Instr) (s : State), s.pwr.off = true ∧ resetRow i = false ∧ i ≠ .supplyTrip) :=
  ⟨.init, w [modPwr fun p => { p with off := true }], by decide, by decide, by decide⟩

/-- States and operands that meet the hypotheses of the clauses of FusesAndStrapsStay. -/
theorem witness_FusesAndStrapsStay :
    (∃ (i : Instr) (s t : State), exec i s = .next t ∧ s.otp.hashEn = true ∧ s.otp.burning = false) ∧
    (∃ (i : Instr) (s t : State), exec i s = .next t ∧ resetRow i = false) :=
  ⟨
    ⟨.otpBurnDone, w [modOtp fun o => { o with hashEn := true, words := [(15, 7)] }],
      w [modOtp fun o => { o with hashEn := true, words := [(15, 7)] }], rfl, by decide, by decide⟩,
    ⟨.otpBurnDone, State.reset, State.reset, rfl, by decide⟩⟩

/-- States and operands that meet the hypotheses of the clauses of RegisterWriteByAccessType. -/
theorem witness_RegisterWriteByAccessType :
    (∃ s : State, PathFree s .bar0 ∧ ∃ (off : Nat) (ws : List Word), 0 < ws.length ∧ off + 4 * ws.length ≤ 0xC00 ∧
      off % 4 = 0 ∧ ws.length ≤ 16) ∧
    (∃ s : State, PathFree s .bar0 ∧ ∃ (off : _) (be : _), off % 4 = 0 ∧ off < 0xC00 ∧ be < 15) ∧
    (∃ s : State, PathFree s .bar0 ∧ ∃ off, off % 4 = 0) ∧
    (∃ s : State, PathFree s .bar0 ∧ ∃ (i : _) (k : _), i < 65 ∧ k < 4 ∧ SMap.wf Msix.init s.host.table = true) ∧
    (∃ (s : State) (p : Path) (off : Nat) (v : Word), Reaches s p off ∧ off % 4 = 0 ∧ off < 0xC00 ∧
      ∃ i, rowOfWrite p off v = some i) ∧
    (∃ (s : State) (p : Path) (off : Nat), Reaches s p off ∧ off % 4 = 0 ∧ off < 0xC00 ∧ regFind off = none ∧
      (¬ (0x400 ≤ off ∧ off < 0x800))) ∧
    (∃ (s : State) (p : Path) (off : Nat), Reaches s p off ∧ off % 4 = 0 ∧ off < 0xC00 ∧ off ∈ alsoFieldOffs ∧
      ∃ r, regFind off = some r ∧ ∃ f, f ∈ r.flds) ∧
    (∃ (s : State) (p : Path) (off : Nat), Reaches s p off ∧ off % 4 = 0 ∧ off < 0xC00 ∧ off ∉ sideWriteOffs ∧
      (p = .bar0 → blockOf off ≠ some 1) ∧ ∃ r, regFind off = some r ∧ r.clr = false ∧ ∃ f, f ∈ r.flds) :=
  ⟨
    ⟨w [up], by decide, 0xBFC, [5], by decide, by decide, by decide, by decide⟩,
    ⟨w [up], by decide, 0xBFC, 14, by decide, by decide, by decide⟩,
    ⟨w [up], by decide, 0x070, by decide⟩,
    ⟨w [up], by decide, 64, 3, by decide, by decide, by decide⟩,
    ⟨State.reset, .scp, 0x108, 5, by decide, by decide, by decide, .winDataWrite .scp 5, by decide⟩,
    ⟨State.reset, .scp, 0xBFC, by decide, by decide, by decide, by decide, by decide⟩,
    ⟨State.reset, .scp, 0x024, by decide, by decide, by decide, by decide, (regFind 0x024).get (by decide), rfl,
      ((regFind 0x024).get (by decide)).flds[0], by decide⟩,
    ⟨State.reset, .scp, 0x070, by decide, by decide, by decide, by decide, by decide, (regFind 0x070).get (by decide),
      rfl, by decide, ((regFind 0x070).get (by decide)).flds[0], by decide⟩⟩

/-- States and operands that meet the hypotheses of the clauses of CounterClearZeroes. -/
theorem witness_CounterClearZeroes :
    (∃ off, ∃ r, regFind off = some r ∧ r.clr = true ∧ ∃ f, f ∈ r.flds) ∧
    (∃ (i : Instr) (s t : State), exec i s = .next t ∧ resetRow i = false) ∧
    (∃ (s : State) (p : Path) (off : Nat), Reaches s p off ∧ (p = .bar0 → blockOf off ≠ some 1) ∧
      ∃ r, regFind off = some r ∧ r.clr = true) :=
  ⟨
    ⟨0x08C, _, rfl, by decide, ((regFind 0x08C).get (by decide)).flds[0], by decide⟩,
    ⟨.otpBurnDone, State.reset, State.reset, rfl, by decide⟩,
    ⟨w [up], .bar0, 0x58, by decide, by decide, _, rfl, by decide⟩⟩

/-- States and operands that meet the hypotheses of the clauses of MaskedBlocksIgnoreBar0. -/
theorem witness_MaskedBlocksIgnoreBar0 :
    (∃ (s : State) (i : Instr) (off : Nat), barWriteOff i = some off ∧ PathFree s .bar0 ∧ s.hostMasked .bar0 off = true) :=
  ⟨w [up, put F.SCP_HOSTMASK_MASK 1], .registerWrite .bar0 0x070 5 ⟨15, []⟩, 0x070, by decide, by decide, by decide⟩

/-- States and operands that meet the hypotheses of the clauses of ScpWriteAppliesItsWords. -/
theorem witness_ScpWriteAppliesItsWords :
    (∃ (s : State) (bytes : List Byte), Running s ∧ s.scp.held = none ∧ ∃ f, frameOf bytes = some f ∧ f.isWrite = true ∧
      f.need ≤ f.rest.length ∧ f.crcOk bytes = true ∧ f.ok = true) ∧
    (∃ (s : State) (bytes : List Byte), Running s ∧ s.scp.held = none ∧ ∃ f, frameOf bytes = some f ∧ f.isWrite = true ∧
      f.need ≤ f.rest.length ∧ f.crcOk bytes = false) :=
  ⟨
    ⟨State.reset, bs [0x10, 0, 0x70, 0, 0, 0, 5, 0x56], by decide, by decide, _, rfl, by decide, by decide, by decide,
      by decide⟩,
    ⟨State.reset, bs [0x10, 0, 0x70, 0, 0, 0, 5, 0], by decide, by decide, _, rfl, by decide, by decide, by decide⟩⟩

/-- States and operands that meet the hypotheses of the clauses of ScpReadIsOneSnapshot. -/
theorem witness_ScpReadIsOneSnapshot :
    (∃ (s : State) (r : ReadReq), PathFree s .bar0 ∧ r.off % 4 = 0 ∧ 1 ≤ r.n ∧ r.n ≤ 16 ∧ r.fbe = 15 ∧ r.lbe = 15 ∧
      r.bar2 = false ∧ r.off + 4 * r.n ≤ 0xC00 ∧ (∀ i, i < r.n → readActs (r.off + 4 * i) = false)) ∧
    (∃ (s : State) (r : ReadReq), PathFree s .bar0 ∧ r.off % 4 = 0 ∧ 1 ≤ r.n ∧ r.n ≤ 16 ∧ r.fbe = 15 ∧ r.lbe = 15 ∧
      r.bar2 = true ∧ ∃ n, n < 64 ∧ 0x1000 * n ≤ r.off ∧ r.off + 4 * r.n ≤ 0x1000 * (n + 1)) ∧
    (∃ (s : State) (bytes : List Byte), Running s ∧ s.scp.held = none ∧ ∃ f, frameOf bytes = some f ∧
      f.isWrite = false ∧ f.need ≤ f.rest.length ∧ f.crcOk bytes = true ∧ f.ok = true ∧
      (∀ i, i < f.n → readActs (f.off i) = false)) :=
  ⟨
    ⟨w [up], ⟨false, 0xBFC, 1, 15, 15⟩, by decide, by decide, by decide, by decide, by decide, by decide, by decide,
      by decide, by decide⟩,
    ⟨w [up], ⟨true, 0x3FFFC, 1, 15, 15⟩, by decide, by decide, by decide, by decide, by decide, by decide, by decide,
      63, by decide, by decide, by decide⟩,
    ⟨State.reset, bs [0x30, 0, 0, 0xE1], by decide, by decide, _, rfl, by decide, by decide, by decide, by decide,
      by decide⟩⟩

/-- States and operands that meet the hypotheses of the clauses of ScpErrorsTouchNothing. -/
theorem witness_ScpErrorsTouchNothing :
    (∃ (s : State) (bytes : List Byte), Running s ∧ s.scp.held = none ∧ ∃ f, frameOf bytes = some f ∧
      f.need ≤ f.rest.length ∧ f.crcOk bytes = false) ∧
    (∃ (s : State) (bytes : List Byte), Running s ∧ s.scp.held = none ∧ ∃ f, frameOf bytes = some f ∧
      f.need ≤ f.rest.length ∧ f.crcOk bytes = true ∧ f.ok = false) ∧
    (∃ (s : State) (bytes : List Byte), Running s ∧ s.scp.held = none ∧ ∃ f, frameOf bytes = some f ∧
      f.rest.length < f.need ∧ f.isWrite = true) ∧
    (∃ s : State, Running s ∧ s.scp.held.isSome = true) :=
  ⟨
    ⟨State.reset, bs [0x30, 0, 0, 0], by decide, by decide, _, rfl, by decide, by decide⟩,
    ⟨State.reset, bs [0x30, 0, 1, 0xE6], by decide, by decide, _, rfl, by decide, by decide, by decide⟩,
    ⟨State.reset, bs [0x10, 0, 0x70], by decide, by decide, _, rfl, by decide, by decide⟩,
    ⟨w [modScp fun x => { x with held := some (held .cmdWait 0x0E0) }], by decide, by decide⟩⟩

/-- States and operands that meet the hypotheses of the clauses of LatchedReads. -/
theorem witness_LatchedReads :
    (∃ (s : State) (p : Path), PathFree s p) :=
  ⟨State.reset, .scp, by decide⟩

/-- States and operands that meet the hypotheses of the clauses of DirtyLinesHaveOneHolder. -/
theorem witness_DirtyLinesHaveOneHolder :
    (∃ (i : Instr) (s t : State), exec i s = .next t ∧ s.wf = true ∧ s.oneHolder) :=
  ⟨.otpBurnDone, State.reset, State.reset, rfl, by decide, by decide⟩

/-- States and operands that meet the hypotheses of the clauses of WindowReadAfterWrite. -/
theorem witness_WindowReadAfterWrite :
    (∃ (s : State) (p : Path), Reaches s p 0x108 ∧ s.boot.inited = true ∧
      (s.fldI (pathInst p) F.WIN_CTL_SPACE = 1 ∨ s.fldI (pathInst p) F.WIN_CTL_SPACE = 2) ∧
      s.fldI (pathInst p) F.WIN_ADDR_ADDR < winSize (s.fldI (pathInst p) F.WIN_CTL_SPACE) ∧ s.oneHolder ∧
      s.protCheck (s.winAccess p true) = .ok) ∧
    (∃ (s : State) (p : Path), Reaches s p 0x108 ∧ s.boot.inited = true ∧
      (s.fldI (pathInst p) F.WIN_CTL_SPACE = 1 ∨ s.fldI (pathInst p) F.WIN_CTL_SPACE = 2) ∧
      s.fldI (pathInst p) F.WIN_ADDR_ADDR < winSize (s.fldI (pathInst p) F.WIN_CTL_SPACE) ∧ s.oneHolder ∧
      s.protCheck (s.winAccess p false) = .ok) ∧
    (∃ (s : State) (p : Path), Reaches s p 0x108 ∧ s.boot.inited = false ∧
      (s.fldI (pathInst p) F.WIN_CTL_SPACE = 1 ∨ s.fldI (pathInst p) F.WIN_CTL_SPACE = 2)) ∧
    (∃ (s : State) (p : Path), Reaches s p 0x108 ∧
      s.fldI (pathInst p) F.WIN_ADDR_ADDR < winSize (s.fldI (pathInst p) F.WIN_CTL_SPACE) ∧
      ∃ w, ((s.fldI (pathInst p) F.WIN_CTL_SPACE = 3 ∧
      w = s.capWord (s.fldI (pathInst p) F.WIN_ADDR_ADDR / 4 * 4)) ∨ (s.fldI (pathInst p) F.WIN_CTL_SPACE = 4 ∧
      w = s.readLe .errq (s.fldI (pathInst p) F.WIN_ADDR_ADDR / 4 * 4) 4) ∨ (s.fldI (pathInst p) F.WIN_CTL_SPACE = 5 ∧
      w = s.readLe .trace (s.fldI (pathInst p) F.WIN_ADDR_ADDR / 4 * 4) 4))) ∧
    (∃ (s : State) (p : Path), Reaches s p 0x108 ∧ s.oneHolder ∧ s.boot.inited = true ∧
      (s.fldI (pathInst p) F.WIN_CTL_SPACE = 1 ∨ s.fldI (pathInst p) F.WIN_CTL_SPACE = 2) ∧
      s.fldI (pathInst p) F.WIN_ADDR_ADDR < winSize (s.fldI (pathInst p) F.WIN_CTL_SPACE) ∧
      (s.fldI (pathInst p) F.WIN_CTL_SPACE = 1 → inChanRecords (s.fldI (pathInst p) F.WIN_ADDR_ADDR) = false) ∧
      s.fldI (pathInst p) F.WIN_CTL_INC = 0 ∧ s.protCheck (s.winAccess p true) = .ok ∧
      s.protCheck (s.winAccess p false) = .ok) :=
  ⟨
    ⟨w [modBoot fun b => { b with inited := true }, put F.WIN_CTL_SPACE 2, put F.WIN_ADDR_ADDR 0x1FFFFC], .scp,
      by decide, by decide, by decide, by decide, by decide, by decide⟩,
    ⟨w [modBoot fun b => { b with inited := true }, put F.WIN_CTL_SPACE 2, put F.WIN_ADDR_ADDR 0x1FFFFC], .scp,
      by decide, by decide, by decide, by decide, by decide, by decide⟩,
    ⟨w [put F.WIN_CTL_SPACE 1], .scp, by decide, by decide, by decide⟩,
    ⟨w [put F.WIN_CTL_SPACE 5, put F.WIN_ADDR_ADDR 0x3FFFC], .scp, by decide, by decide, 0, by decide⟩,
    ⟨w [modBoot fun b => { b with inited := true }, put F.WIN_CTL_SPACE 2, put F.WIN_ADDR_ADDR 0x1FFFFC,
      put F.WIN_CTL_INC 0], .scp, by decide, by decide, by decide, by decide, by decide, by decide, by decide,
      by decide, by decide⟩⟩

/-- States and operands that meet the hypotheses of the clauses of WindowFaults. -/
theorem witness_WindowFaults :
    (∃ (s : State) (p : Path), Reaches s p 0x108 ∧ winSize (s.fldI (pathInst p) F.WIN_CTL_SPACE) = 0) ∧
    (∃ (s : State) (p : Path), Reaches s p 0x108 ∧
      winSize (s.fldI (pathInst p) F.WIN_CTL_SPACE) ≤ s.fldI (pathInst p) F.WIN_ADDR_ADDR ∧
      winSize (s.fldI (pathInst p) F.WIN_CTL_SPACE) ≠ 0 ∧
      (s.boot.inited = true ∨ 3 ≤ s.fldI (pathInst p) F.WIN_CTL_SPACE)) ∧
    (∃ (s : State) (p : Path), Reaches s p 0x108 ∧ 3 ≤ s.fldI (pathInst p) F.WIN_CTL_SPACE ∧
      s.fldI (pathInst p) F.WIN_CTL_SPACE ≤ 5 ∧
      s.fldI (pathInst p) F.WIN_ADDR_ADDR < winSize (s.fldI (pathInst p) F.WIN_CTL_SPACE)) ∧
    (∃ (s : State) (p : Path), Reaches s p 0x108 ∧ s.boot.inited = true ∧
      (s.fldI (pathInst p) F.WIN_CTL_SPACE = 1 ∨ s.fldI (pathInst p) F.WIN_CTL_SPACE = 2) ∧
      s.fldI (pathInst p) F.WIN_ADDR_ADDR < winSize (s.fldI (pathInst p) F.WIN_CTL_SPACE) ∧
      ∃ (cause : _) (region : _) (shade : _), s.protCheck (s.winAccess p false) = .refuse cause region shade) ∧
    (∃ (s : State) (p : Path), Reaches s p 0x108 ∧ s.boot.inited = true ∧
      (s.fldI (pathInst p) F.WIN_CTL_SPACE = 1 ∨ s.fldI (pathInst p) F.WIN_CTL_SPACE = 2) ∧
      s.fldI (pathInst p) F.WIN_ADDR_ADDR < winSize (s.fldI (pathInst p) F.WIN_CTL_SPACE) ∧
      ∃ (cause : _) (region : _) (shade : _), s.protCheck (s.winAccess p true) = .refuse cause region shade) ∧
    (∃ (s : State) (p : Path), Reaches s p 0x108 ∧ ∃ u : State, ∃ h, (u.port p).held = some h ∧ h.reg = some .win ∧
      h.total = 1 ∧ h.got = [] ∧ h.fbe = 15 ∧ u.pathDead p = false ∧ u.wf = true ∧ u.bar.behind = []) :=
  ⟨
    ⟨State.reset, .scp, by decide, by decide⟩,
    ⟨w [put F.WIN_CTL_SPACE 5, put F.WIN_ADDR_ADDR 0x40000], .scp, by decide, by decide, by decide, by decide⟩,
    ⟨w [put F.WIN_CTL_SPACE 5, put F.WIN_ADDR_ADDR 0x3FFFC], .scp, by decide, by decide, by decide, by decide⟩,
    ⟨w [modBoot fun b => { b with inited := true }, shut, put F.WIN_CTL_SPACE 2, put F.WIN_ADDR_ADDR 0x1FFFFC], .scp,
      by decide, by decide, by decide, by decide, 1, 0x3F, 0, by decide⟩,
    ⟨w [modBoot fun b => { b with inited := true }, shut, put F.WIN_CTL_SPACE 2, put F.WIN_ADDR_ADDR 0x1FFFFC], .scp,
      by decide, by decide, by decide, by decide, 1, 0x3F, 0, by decide⟩,
    ⟨State.reset, .scp, by decide, w [modScp fun x => { x with held := some (held .win 0x108) }], held .win 0x108,
      by decide, by decide, by decide, by decide, by decide, by decide, by decide, by decide⟩⟩

/-- States and operands that meet the hypotheses of the clauses of MailboxCommandsBeginWhole. -/
theorem witness_MailboxCommandsBeginWhole :
    (∃ (s : State) (p : Path) (op : Nat), MbReady s p ∧ opInTable (op % 256) = false) ∧
    (∃ (s : State) (i : Instr), ∃ r, mailRow i = some r ∧ Reaches s r.1 0x0D8 ∧ s.pwr.seq = none ∧
      s.pwr.quiesced = false ∧ s.busy r.1 = false) ∧
    (∃ (s : State) (i : Instr), ∃ r, mailRow i = some r ∧ Reaches s r.1 0x0D8 ∧ s.pwr.seq = none ∧
      s.pwr.quiesced = false ∧ s.busy r.1 = true) ∧
    (∃ (s : State) (i : Instr), ∃ r, mailRow i = some r ∧ Reaches s r.1 0x0D8 ∧
      (s.pwr.seq.isSome = true ∨ s.pwr.quiesced = true)) :=
  ⟨
    ⟨State.reset, .scp, 0xFF, by decide, by decide⟩,
    ⟨State.reset, .ctxCreate .scp 1, (.scp, 1), by decide, by decide, by decide, by decide, by decide⟩,
    ⟨w [.upd (.jobScp (some job))], .ctxCreate .scp 1, (.scp, 1), by decide, by decide, by decide, by decide, by decide⟩,
    ⟨w [modPwr fun p => { p with quiesced := true }], .ctxCreate .scp 1, (.scp, 1), by decide, by decide, by decide⟩⟩

/-- States and operands that meet the hypotheses of the clauses of MailboxFinishes. -/
theorem witness_MailboxFinishes :
    (∃ (s : State) (p : Path), Running s ∧ ∃ j, s.job p = some j ∧ j.wait = .none ∧ j.second = false ∧
      j.discard = false) ∧
    (∃ (s : State) (p : Path), Running s ∧ s.pathDead p = false ∧ (s.port p).held = none) ∧
    (∃ (s : State) (p : Path), Running s ∧ ∃ h, (s.port p).held = some h ∧ h.reg = some .cmdWait ∧ h.total = 1 ∧
      h.got = [] ∧ s.busy p = true) :=
  ⟨
    ⟨w [.upd (.jobScp (some job))], .scp, by decide, job, by decide, by decide, by decide, by decide⟩,
    ⟨State.reset, .scp, by decide, by decide, by decide⟩,
    ⟨w [.upd (.jobScp (some job)), modScp fun x => { x with held := some (held .cmdWait 0x0E0) }], .scp, by decide,
      held .cmdWait 0x0E0, by decide, by decide, by decide, by decide, by decide⟩⟩

/-- States and operands that meet the hypotheses of the clauses of ContextCreateAndReinit. -/
theorem witness_ContextCreateAndReinit :
    (∃ (s : State) (p : Path) (n : Nat), MbReady s p ∧ s.arg p 0 ≤ 2 ∧ (s.arg p 1 + 2 ^ 32 * s.arg p 2) % 2 ^ 13 = 0 ∧
      s.arg p 1 + 2 ^ 32 * s.arg p 2 < 2 ^ 52 ∧
      (OldestFree 1 64 (fun i => (s.ctx i).st == .free) (fun i => (s.ctx i).freedAt) n)) ∧
    (∃ (s : State) (p : Path), MbReady s p ∧ ∃ m, s.ctxOf (s.arg p 0) = some m ∧ isDevCtx m = false ∧
      (s.ctx m).st = .lost) :=
  ⟨
    ⟨State.reset, .scp, 1, by decide, by decide, by decide, by decide, by decide⟩,
    ⟨w [args .scp [0x10000001], inCtx 1 .lost], .scp, by decide, 1, by decide, by decide, by decide⟩⟩

/-- States and operands that meet the hypotheses of the clauses of ContextTeardown. -/
theorem witness_ContextTeardown :
    (∃ (s : State) (p : Path), MbReady s p ∧ ∃ n, s.ctxOf (s.arg p 0) = some n ∧ isDevCtx n = false ∧
      (s.ctx n).st ≠ .dying) ∧
    (∃ s : State, Running s ∧ ∃ n, n < 64 ∧ n ≠ 0 ∧ (s.ctx n).st = .dying ∧ s.ctxQuiet n = true ∧
      s.cupBusyFor n = false ∧ s.jobWaits (.ctxQuiet n) = false) :=
  ⟨
    ⟨w [args .scp [0x10000001], inCtx 1 .live], .scp, by decide, 1, by decide, by decide, by decide⟩,
    ⟨w [inCtx 63 .dying], by decide, 63, by decide, by decide, by decide, by decide, by decide, by decide⟩⟩

/-- States and operands that meet the hypotheses of the clauses of QueueCreateAndDestroy. -/
theorem witness_QueueCreateAndDestroy :
    (∃ (s : State) (p : Path), MbReady s p ∧ ∃ n, s.ctxOf (s.arg p 0) = some n ∧ (s.ctx n).st = .live ∧ 4 ≤ s.arg p 1 ∧
      s.arg p 1 ≤ 12 ∧ RingAllowed n (2 ^ s.arg p 1) (s.arg p 2) (s.arg p 3) ∧
      RingAllowed n (2 ^ s.arg p 1) (s.arg p 4) (s.arg p 5) ∧
      ∃ (q : _) (slot : _), (OldestFree 0 1024 (fun i => !(s.queue i).live) (fun i => (s.queue i).freedAt) q) ∧
      slot < 256 ∧ s.slotQueue n slot = none ∧ (∀ k, k < slot → (s.slotQueue n k).isSome = true)) ∧
    (∃ (s : State) (p : Path), MbReady s p ∧ ∃ q, s.queueOf (s.arg p 0) = some q ∧ (s.queue q).destroying = false) :=
  ⟨
    ⟨w [args .scp [0x10000040, 4, 0, 0x1000000, 256, 0x1000000]], .scp, by decide, 64, by decide, by decide, by decide,
      by decide, by decide, by decide, 0, 0,
      ⟨by decide, by decide, by decide, fun m _ _ _ => Or.inr ⟨rfl, Nat.zero_le m⟩⟩, by decide, by decide, by decide⟩,
    ⟨w [args .scp [0x20000007], modQueue 7 fun q => { q with live := true, ctx := 64 }], .scp, by decide, 7, by decide,
      by decide⟩⟩

/-- States and operands that meet the hypotheses of the clauses of ChannelCreateDestroyReinit. -/
theorem witness_ChannelCreateDestroyReinit :
    (∃ (s : State) (p : Path), MbReady s p ∧ s.oneHolder ∧ ∃ n, s.ctxOf (s.arg p 0) = some n ∧ (s.ctx n).st = .live ∧
      chanArgsOk (s.arg p 1) (s.arg p 2) (s.arg p 3) = true ∧ (∀ d, (s.chan d).st ≠ .free → 0 < (s.chan d).count ∧
      (s.chan d).base + (s.chan d).count ≤ 8192) ∧ ∃ base, base + s.arg p 3 ≤ 8192 ∧ BlockFree s base (s.arg p 3) ∧
      (∀ b, b < base → ¬ BlockFree s b (s.arg p 3)) ∧
      ∃ c, (OldestFree 0 256 (fun i => (s.chan i).st == .free) (fun i => (s.chan i).freedAt) c)) ∧
    (∃ (s : State) (p : Path), MbReady s p ∧ ∃ c, s.chanOf (s.arg p 0) = some c ∧ (s.chan c).st ≠ .dying ∧
      (s.ctx (s.chan c).ctx).st ≠ .dying ∧ s.atomicBusy c = true) ∧
    (∃ (s : State) (p : Path), MbReady s p ∧ ∃ c, s.chanOf (s.arg p 0) = some c ∧ (s.chan c).st ≠ .dying ∧
      (s.ctx (s.chan c).ctx).st ≠ .dying ∧ s.atomicBusy c = false ∧ s.oneHolder ∧
      (s.chan c).base + (s.chan c).count ≤ 8192) ∧
    (∃ (s : State) (p : Path), MbReady s p ∧ ∃ c, s.chanOf (s.arg p 0) = some c ∧ (¬ (p = .bar0 ∧
      ((s.chan c).ctx = 64 ∨ (s.chan c).ctx = 65))) ∧
      ((s.chan c).st = .idle ∨ (s.chan c).st = .halted ∨ (s.chan c).st = .stopped)) :=
  ⟨
    ⟨w [args .scp [0x10000040, 4, 0, 8192]], .scp, by decide, by decide, 64, by decide, by decide, by decide,
      fun _ h => absurd rfl h, 0, by decide, fun _ h => absurd rfl h, fun b h => absurd h (Nat.not_lt_zero b), 0,
      by decide⟩,
    ⟨w [args .scp [0x300000FF], runs 255 64 (some (cur [0x22] .fenceRsp))], .scp, by decide, 255, by decide, by decide,
      by decide, by decide⟩,
    ⟨w [args .scp [0x300000FF], inChan 255 64 .idle], .scp, by decide, 255, by decide, by decide, by decide, by decide,
      by decide, by decide⟩,
    ⟨w [args .scp [0x300000FF], inChan 255 64 .halted], .scp, by decide, 255, by decide, by decide, by decide⟩⟩

/-- States and operands that meet the hypotheses of the clauses of MemoryObjectsAndReferences. -/
theorem witness_MemoryObjectsAndReferences :
    (∃ (s : State) (p : Path), MbReady s p ∧ ∃ n, s.ctxOf (s.arg p 0) = some n ∧ (s.ctx n).st = .live ∧ s.arg p 5 = 0 ∧
      memArgsOk n (s.arg p 1) (s.arg p 2 + 2 ^ 32 * s.arg p 3) (s.arg p 4) = true ∧
      (s.arg p 1 = 1 → s.arg p 2 + 2 ^ 32 * s.arg p 3 + s.arg p 4 ≤ driverPart (s.ctx n).mode * 4096) ∧
      ∃ i, (OldestFree 0 4096 (fun i => !(s.mobj i).live) (fun i => (s.mobj i).freedAt) i)) ∧
    (∃ (s : State) (p : Path), MbReady s p ∧ ∃ n, s.ctxOf (s.arg p 0) = some n ∧ (s.ctx n).st = .live ∧ s.arg p 5 ≠ 0 ∧
      ∃ f, s.fenceOf (s.arg p 5) = some f ∧ (s.fence f).usable n = true ∧ (s.fence f).destroy = false ∧
      (s.fence f).cnt < 2 ^ 32 - 1 ∧ memArgsOk n (s.arg p 1) (s.arg p 2 + 2 ^ 32 * s.arg p 3) (s.arg p 4) = true ∧
      (s.arg p 1 = 1 → s.arg p 2 + 2 ^ 32 * s.arg p 3 + s.arg p 4 ≤ driverPart (s.ctx n).mode * 4096) ∧
      ∃ i, (OldestFree 0 4096 (fun i => !(s.mobj i).live) (fun i => (s.mobj i).freedAt) i)) ∧
    (∃ (s : State) (p : Path), MbReady s p ∧ ∃ i, s.memOf (s.arg p 0) = none ∧ s.fenceOf (s.arg p 0) = some i ∧
      ((s.fence i).destroy = false ∨ (s.fence i).proxy = true) ∧ (s.fence i).cnt < 2 ^ 32 - 1) ∧
    (∃ (s : State) (p : Path), MbReady s p ∧ ∃ i, s.memOf (s.arg p 0) = none ∧ s.fenceOf (s.arg p 0) = some i ∧
      0 < (s.fence i).unattr) ∧
    (∃ (s : State) (p : Path), MbReady s p ∧ ∃ i, s.memOf (s.arg p 0) = some i ∧ (s.mobj i).destroy = false ∧
      (s.mobj i).cnt < 2 ^ 32 - 1) ∧
    (∃ (s : State) (p : Path), MbReady s p ∧ ∃ i, s.memOf (s.arg p 0) = some i ∧ 0 < (s.mobj i).unattr ∧
      (s.mobj i).destroy = false) ∧
    (∃ (s : State) (p : Path), MbReady s p ∧ ∃ i, s.memOf (s.arg p 0) = some i ∧ 0 < (s.mobj i).unattr ∧
      (s.mobj i).destroy = true) :=
  ⟨
    ⟨w [args .scp [0x10000040, 2, 0x1FF000, 0, 4096, 0]], .scp, by decide, 64, by decide, by decide, by decide,
      by decide, by decide, 0, ⟨by decide, by decide, by decide, fun m _ _ _ => Or.inr ⟨rfl, Nat.zero_le m⟩⟩⟩,
    ⟨w [args .scp [0x10000040, 2, 0x1FF000, 0, 4096, 0x50000009],
      modFence 9 fun x => { x with live := true, owner := 64 }], .scp, by decide, 64, by decide, by decide, by decide,
      9, by decide, by decide, by decide, by decide, by decide, by decide, 0,
      ⟨by decide, by decide, by decide, fun m _ _ _ => Or.inr ⟨rfl, Nat.zero_le m⟩⟩⟩,
    ⟨w [args .scp [0x50000FFF], modFence 4095 fun x => { x with live := true, unattr := 2 ^ 32 - 2 }], .scp, by decide,
      4095, by decide, by decide, by decide, by decide⟩,
    ⟨w [args .scp [0x50000FFF], modFence 4095 fun x => { x with live := true, unattr := 1 }], .scp, by decide, 4095,
      by decide, by decide, by decide⟩,
    ⟨w [args .scp [0x40000FFF], modMobj 4095 fun m => { m with live := true, unattr := 2 ^ 32 - 2 }], .scp, by decide,
      4095, by decide, by decide, by decide⟩,
    ⟨w [args .scp [0x40000FFF], modMobj 4095 fun m => { m with live := true, unattr := 1 }], .scp, by decide, 4095,
      by decide, by decide, by decide⟩,
    ⟨w [args .scp [0x40000FFF], modMobj 4095 fun m => { m with live := true, unattr := 1, destroy := true }], .scp,
      by decide, 4095, by decide, by decide, by decide⟩⟩

/-- States and operands that meet the hypotheses of the clauses of FencesOfTheMailbox. -/
theorem witness_FencesOfTheMailbox :
    (∃ (s : State) (p : Path), MbReady s p ∧ ∃ n, s.ctxOf (s.arg p 0) = some n ∧ (s.ctx n).st = .live ∧
      ∃ i, (OldestFree 0 4096 (fun i => !(s.fence i).live) (fun i => (s.fence i).freedAt) i)) ∧
    (∃ (s : State) (p : Path), MbReady s p ∧ ∃ i, s.fenceOf (s.arg p 0) = some i ∧ (s.fence i).proxy = false ∧
      (s.fence i).destroy = false) ∧
    (∃ (s : State) (p : Path), MbReady s p ∧ ∃ n, s.ctxOf (s.arg p 1) = some n ∧ (s.ctx n).st = .live ∧
      bits (s.arg p 0) 14 2 = 0 ∧ bits (s.arg p 0) 16 16 ≠ 0 ∧ bits (s.arg p 0) 12 2 = s.self ∧
      s.tokenFence (bits (s.arg p 0) 0 12) (bits (s.arg p 0) 16 16) = some (bits (s.arg p 0) 0 12) ∧
      (s.fence (bits (s.arg p 0) 0 12)).cnt < 2 ^ 32 - 1) :=
  ⟨
    ⟨w [args .scp [0x10000040, 5, 0]], .scp, by decide, 64, by decide, by decide, 0,
      ⟨by decide, by decide, by decide, fun m _ _ _ => Or.inr ⟨rfl, Nat.zero_le m⟩⟩⟩,
    ⟨w [args .scp [0x50000FFF], modFence 4095 fun f => { f with live := true }], .scp, by decide, 4095, by decide,
      by decide, by decide⟩,
    ⟨w [args .scp [0xFFFF0FFF, 0x10000040], modFence 4095 fun f => { f with live := true, nonce := 65535 }], .scp,
      by decide, 64, by decide, by decide, by decide, by decide, by decide, by decide, by decide⟩⟩

/-- States and operands that meet the hypotheses of the clauses of ViewsTablesLanesAndEngines. -/
theorem witness_ViewsTablesLanesAndEngines :
    (∃ (s : State) (p : Path), MbReady s p ∧ ∃ n, s.ctxOf (s.arg p 0) = some n ∧ (s.ctx n).st ≠ .dying ∧
      isDevCtx n = false ∧ s.arg p 1 ≤ 511 ∧ s.arg p 1 < driverPart (s.ctx n).mode ∧ ∃ (page : _) (ro : _), page < 512 ∧
      ro < 2 ∧ s.arg p 2 = page + 2 ^ 16 * ro ∧ s.inPool page = false) ∧
    (∃ (s : State) (p : Path), MbReady s p ∧ ∃ n, s.ctxOf (s.arg p 0) = some n ∧ (s.ctx n).st ≠ .dying ∧
      s.arg p 1 ≤ 15 ∧ s.admits (s.arg p 1) n = true) ∧
    (∃ (s : State) (p : Path), MbReady s p ∧ p = .scp ∧ s.arg p 0 ≤ 7 ∧ s.fldI 0 (F.LAN_CTL_EN.lane (s.arg p 0)) = 1 ∧
      (s.lane (s.arg p 0)).st ≠ .hold ∧ s.pwr.entering = false ∧ s.pwr.standby = false) ∧
    (∃ (s : State) (p : Path), MbReady s p ∧ p = .scp ∧ s.arg p 0 ≤ 3 ∧ bitAt (s.fld F.ERR_ENG_OFF) (s.arg p 0) = true ∧
      s.engineIdle (s.arg p 0) = true ∧ s.oneHolder) ∧
    (∃ (s : State) (p : Path), Running s ∧ s.job (otherPath p) = none ∧ ∃ j, s.job p = some j ∧
      ∃ (n : _) (e : _) (v : _), j.wait = .viewSet n e v ∧ j.second = false ∧
      ((s.ctx n).st = .live ∨ (s.ctx n).st = .lost)) :=
  ⟨
    ⟨w [args .scp [0x10000001, 511, 0x101FF], inCtx 1 .live], .scp, by decide, 1, by decide, by decide, by decide,
      by decide, by decide, 511, 1, by decide, by decide, by decide, by decide⟩,
    ⟨w [args .scp [0x10000040, 0], put F.CHR_TAB_CFG_BMC 1], .scp, by decide, 64, by decide, by decide, by decide,
      by decide⟩,
    ⟨w [args .scp [7], putI 0 (F.LAN_CTL_EN.lane 7) 1], .scp, by decide, by decide, by decide, by decide, by decide,
      by decide, by decide⟩,
    ⟨w [args .scp [3], put F.ERR_ENG_OFF 8], .scp, by decide, by decide, by decide, by decide, by decide, by decide⟩,
    ⟨w [.upd (.jobScp (some { job with wait := .viewSet 0 511 5 }))], .scp, by decide, by decide,
      { job with wait := .viewSet 0 511 5 }, by decide, 0, 511, 5, by decide, by decide, by decide⟩⟩

/-- States and operands that meet the hypotheses of the clauses of StopsRefusedOrWithoutEffect. -/
theorem witness_StopsRefusedOrWithoutEffect :
    (∃ (s : State) (p : Path) (c gen : Nat), Reaches s p 0x050 ∧
      ((s.chan c).st = .free ∨ (s.chan c).gen ≠ gen ∨ (p = .bar0 ∧ ((s.chan c).ctx = 64 ∨ (s.chan c).ctx = 65)))) ∧
    (∃ (s : State) (p : Path) (c gen : Nat), Reaches s p 0x050 ∧ (s.chan c).gen = gen ∧ (¬ (p = .bar0 ∧
      ((s.chan c).ctx = 64 ∨ (s.chan c).ctx = 65))) ∧
      ((s.chan c).st = .idle ∨ (s.chan c).st = .halted ∨ (s.chan c).st = .stopped ∨ (s.chan c).st = .dying)) ∧
    (∃ (s : State) (p : Path) (c gen : Nat), Reaches s p 0x050 ∧ (s.chan c).gen = gen ∧ (¬ (p = .bar0 ∧
      ((s.chan c).ctx = 64 ∨ (s.chan c).ctx = 65))) ∧ (s.chan c).st ≠ .free ∧ 1 ≤ (s.chan c).stopPend) ∧
    (∃ (s : State) (p : Path) (c gen : Nat), Reaches s p 0x050 ∧ (s.chan c).gen = gen ∧ (¬ (p = .bar0 ∧
      ((s.chan c).ctx = 64 ∨ (s.chan c).ctx = 65))) ∧ (s.chan c).st ≠ .free ∧ 2 ≤ (s.chan c).stopPend) ∧
    (∃ (s : State) (p : Path) (c gen : Nat), Reaches s p 0x050 ∧ (s.chan c).gen = gen ∧ (¬ (p = .bar0 ∧
      ((s.chan c).ctx = 64 ∨ (s.chan c).ctx = 65))) ∧ (s.chan c).st ≠ .free ∧ 3 ≤ (s.chan c).stopPend) :=
  ⟨
    ⟨State.reset, .scp, 255, 0, by decide, by decide⟩,
    ⟨w [inChan 3 64 .halted], .scp, 3, 0, by decide, by decide, by decide, by decide⟩,
    ⟨w [modChan 3 fun x => { x with st := .running, stopPend := 1 }], .scp, 3, 0, by decide, by decide, by decide,
      by decide, by decide⟩,
    ⟨w [modChan 3 fun x => { x with st := .running, stopPend := 2 }], .scp, 3, 0, by decide, by decide, by decide,
      by decide, by decide⟩,
    ⟨w [modChan 3 fun x => { x with st := .running, stopPend := 3 }], .scp, 3, 0, by decide, by decide, by decide,
      by decide, by decide⟩⟩

/-- States and operands that meet the hypotheses of the clauses of StopsTakeEffect. -/
theorem witness_StopsTakeEffect :
    (∃ (s : State) (p : Path) (c gen : Nat), StopNames s p c gen ∧
      ((s.chan c).st = .queued ∨ (s.chan c).st = .running ∨ (s.chan c).st = .parked) ∧ (s.chan c).stopPend = 0) ∧
    (∃ (s : State) (p : Path) (c gen : Nat), StopNames s p c gen ∧
      ((s.chan c).st = .queued ∨ (s.chan c).st = .running ∨ (s.chan c).st = .parked) ∧ (s.chan c).stopPend < 2 ∧
      (s.chan c).st = .running ∧ (s.chan c).run.isSome = true) ∧
    (∃ (s : State) (p : Path) (c gen : Nat), StopNames s p c gen ∧
      ((s.chan c).st = .queued ∨ (s.chan c).st = .running ∨ (s.chan c).st = .parked) ∧ (s.chan c).stopPend < 2 ∧
      (s.chan c).st ≠ .running ∧ s.haltWaits c = false ∧ (s.chan c).ringIdle = false ∧
      (∀ d, s.cur c = some d → ∀ st, d.phase ≠ .done st)) ∧
    (∃ (s : State) (p : Path) (c gen : Nat), StopNames s p c gen ∧
      ((s.chan c).st = .queued ∨ (s.chan c).st = .running ∨ (s.chan c).st = .parked) ∧ (s.chan c).stopPend < 2 ∧
      (s.chan c).st ≠ .running ∧ s.haltWaits c = false ∧ (s.chan c).ringIdle = false ∧ ∃ d, s.cur c = some d ∧
      d.phase = .done stDONE ∧ dFenceNext d.words = false ∧ endsAt d.words (dNext d.words) = false ∧
      dHaltAfter d.words = false) ∧
    (∃ (s : State) (p : Path) (c gen : Nat), StopNames s p c gen ∧
      ((s.chan c).st = .queued ∨ (s.chan c).st = .running ∨ (s.chan c).st = .parked) ∧ (s.chan c).stopPend < 3 ∧
      s.atomicBusy c = false ∧ (s.chan c).ringIdle = false) ∧
    (∃ (s : State) (c : Nat), Running s ∧ (s.chan c).st = .running ∧ (s.chan c).stopPend = 2 ∧
      ∃ r, (s.chan c).run = some r ∧ r.cur = none) ∧
    (∃ (s : State) (c : Nat), Running s ∧ (s.chan c).st = .running ∧ (s.chan c).stopPend = 2 ∧
      ∃ r, (s.chan c).run = some r ∧ ∃ d, r.cur = some d ∧ d.phase = .ready ∧ d.data = none ∧
      ((isMoveOp (dOp d.words) = true ∧
      d.off % max (s.burstBytes c d.words) 1 = 0) ∨ ((dOp d.words = 0x10 ∨ dOp d.words = 0x11) ∧
      s.haltWaits c = false))) ∧
    (∃ (s : State) (c : Nat), Running s ∧ (s.chan c).st = .running ∧ (s.chan c).stopPend = 2 ∧
      ∃ r, (s.chan c).run = some r ∧ ∃ d, r.cur = some d ∧ d.phase = .ready ∧ d.data = none ∧
      (isWaitOp (dOp d.words) = true ∨ isCtlOp (dOp d.words) = true)) :=
  ⟨
    ⟨w [inChan 3 64 .running], .scp, 3, 0, by decide, by decide, by decide⟩,
    ⟨w [runs 3 64 none, modChan 3 fun x => { x with stopPend := 1 }], .scp, 3, 0, by decide, by decide, by decide,
      by decide, by decide⟩,
    ⟨w [inChan 3 64 .parked, modChan 3 fun x => { x with stopPend := 1 }], .scp, 3, 0, by decide, by decide, by decide,
      by decide, by decide, by decide, fun _ h => (nomatch (show none = some _ from h))⟩,
    ⟨w [runs 3 64 (some (cur [1] (.done 0))), modChan 3 fun x => { x with st := .queued, stopPend := 1 }], .scp, 3, 0,
      by decide, by decide, by decide, by decide, by decide, by decide, cur [1] (.done 0), by decide, by decide,
      by decide, by decide, by decide⟩,
    ⟨w [inChan 3 64 .parked, modChan 3 fun x => { x with stopPend := 2 }], .scp, 3, 0, by decide, by decide, by decide,
      by decide, by decide⟩,
    ⟨w [runs 3 64 none, modChan 3 fun x => { x with stopPend := 2 }], 3, by decide, by decide, by decide, chain none,
      by decide, by decide⟩,
    ⟨w [runs 3 64 (some (cur [1, 32] .ready)), modChan 3 fun x => { x with stopPend := 2 }], 3, by decide, by decide,
      by decide, chain (some (cur [1, 32] .ready)), by decide, cur [1, 32] .ready, by decide, by decide, by decide,
      by decide⟩,
    ⟨w [runs 3 64 (some (cur [0x3F] .ready)), modChan 3 fun x => { x with stopPend := 2 }], 3, by decide, by decide,
      by decide, chain (some (cur [0x3F] .ready)), by decide, cur [0x3F] .ready, by decide, by decide, by decide,
      by decide⟩⟩

/-- States and operands that meet the hypotheses of the clauses of KeyedSequences. -/
theorem witness_KeyedSequences :
    (∃ s : State, Running s ∧ s.scp.held = none ∧ s.pwr.seq = none ∧ s.pwr.quiesced = false ∧
      ∃ k, s.pwr.rstKey = some k ∧ s.clk ≤ k + 80000) ∧
    (∃ s : State, Running s ∧ s.scp.held = none ∧ s.pwr.seq = none ∧ s.pwr.quiesced = false ∧
      ∃ k, s.pwr.cycKey = some k ∧ s.clk ≤ k + 80000) ∧
    (∃ (s : State) (v : Word), Running s ∧ s.scp.held = none ∧ s.pwr.seq = none ∧ s.pwr.quiesced = false ∧ v ≠ 0xC1A0 ∧
      (v ≠ 0x0A1C ∨ s.pwr.rstKey = none)) ∧
    (∃ (s : State) (v : Word), Running s ∧ s.scp.held = none ∧ s.pwr.seq = none ∧ s.pwr.quiesced = false ∧ v ≠ 0x50FF ∧
      (v ≠ 0xFF05 ∨ s.pwr.cycKey = none)) :=
  ⟨
    ⟨w [.upd (.tick 80000), modPwr fun p => { p with rstKey := some 0 }], by decide, by decide, by decide, by decide, 0,
      by decide, by decide⟩,
    ⟨w [.upd (.tick 80000), modPwr fun p => { p with cycKey := some 0 }], by decide, by decide, by decide, by decide, 0,
      by decide, by decide⟩,
    ⟨State.reset, 0x0A1C, by decide, by decide, by decide, by decide, by decide, by decide⟩,
    ⟨State.reset, 0xFF05, by decide, by decide, by decide, by decide, by decide, by decide⟩⟩

/-- States and operands that meet the hypotheses of the clauses of DeviceResetAndPowerCycle. -/
theorem witness_DeviceResetAndPowerCycle :
    (∃ s : State, Running s ∧ s.pwr.seq = some true ∧ s.kindle.entry = none ∧ s.scp.held = none ∧ s.bar.held = none) ∧
    (∃ s : State, Running s ∧ s.pwr.seq = some false ∧ s.kindle.entry = none) :=
  ⟨
    ⟨w [modPwr fun p => { p with seq := some true }], by decide, by decide, by decide, by decide, by decide⟩,
    ⟨w [modPwr fun p => { p with seq := some false }], by decide, by decide, by decide⟩⟩

/-- States and operands that meet the hypotheses of the clauses of ColdAndWarmResets. -/
theorem witness_ColdAndWarmResets :
    (∃ (s : State) (ns : Nat), s.wf = true ∧ 1000 ≤ ns ∧ (s.pwr.off = false ∨ s.pwr.clockLost = true)) ∧
    (∃ (s : State) (ns : Nat), s.wf = true ∧ ns < 100) :=
  ⟨
    ⟨State.reset, 1000, by decide, by decide, by decide⟩,
    ⟨State.reset, 99, by decide, by decide⟩⟩

/-- States and operands that meet the hypotheses of the clauses of StandbyEntryAndExit. -/
theorem witness_StandbyEntryAndExit :
    (∃ s : State, Running s ∧ s.scp.held = none ∧ s.refusing = false ∧ s.pwr.entering = false ∧
      (s.pwrState = 1 ∨ s.pwrState = 2)) ∧
    (∃ s : State, Running s ∧ s.scp.held = none ∧ s.refusing = false ∧ s.pwr.entering = false ∧
      (s.pwrState = 0 ∨ s.pwrState = 3)) ∧
    (∃ s : State, Running s ∧ s.pwr.entering = true ∧ s.pwr.exitPend = false ∧ s.kindle.entry = none ∧
      (s.chanList.any (fun c => ((s.chan c).ctx == 64 || (s.chan c).ctx == 65) && decide (2 ≤ (s.chan c).stopPend)) = false)) ∧
    (∃ s : State, Running s ∧ s.scp.held = none ∧ s.refusing = false ∧ s.pwr.entering = false ∧ s.pwr.standby = true) :=
  ⟨
    ⟨w [put F.BOOT_STAT_PHASE 4], by decide, by decide, by decide, by decide, by decide⟩,
    ⟨State.reset, by decide, by decide, by decide, by decide, by decide⟩,
    ⟨w [modPwr fun p => { p with entering := true }], by decide, by decide, by decide, by decide, by decide⟩,
    ⟨w [modPwr fun p => { p with standby := true }], by decide, by decide, by decide, by decide, by decide⟩⟩

/-- States and operands that meet the hypotheses of the clauses of PowerFail. -/
theorem witness_PowerFail :
    (∃ s : State, Running s ∧ s.pfHeld = false) ∧
    (∃ s : State, Running s ∧ ∃ k, s.pwr.pf = some k ∧ s.host.outq = [] ∧ s.host.unsent = [] ∧ s.clk ≤ k + 4000) ∧
    (∃ s : State, Running s ∧ ∃ k, s.pwr.pf = some k ∧ (s.host.outq ≠ [] ∨ s.host.unsent ≠ [])) :=
  ⟨
    ⟨State.reset, by decide, by decide⟩,
    ⟨w [.upd (.tick 4000), modPwr fun p => { p with pf := some 0 }], by decide, 0, by decide, by decide, by decide,
      by decide⟩,
    ⟨w [modPwr fun p => { p with pf := some 0 },
      modHost fun h => { h with outq := [⟨0, .data, 0, [1], false, false, 0⟩] }], by decide, 0, by decide, by decide⟩⟩

/-- States and operands that meet the hypotheses of the clauses of DoorbellsOfQueues. -/
theorem witness_DoorbellsOfQueues :
    (∃ (s : State) (n slot : Nat) (v : Word), Running s ∧ s.pageLive n = true ∧ ∃ q, s.slotQueue n slot = some q ∧
      (v.toNat % 65536 + 65536 - (s.queue q).sqHead) % 65536 ≤ 2 ^ (s.queue q).log2 ∧
      ((s.queue q).sqTail + 65536 - (s.queue q).sqHead) % 65536 ≤ (v.toNat % 65536 + 65536 - (s.queue q).sqHead) % 65536) ∧
    (∃ (s : State) (n slot : Nat) (v : Word), Running s ∧ s.pageLive n = true ∧ ∃ q, s.slotQueue n slot = some q ∧
      (2 ^ (s.queue q).log2 < (v.toNat % 65536 + 65536 - (s.queue q).sqHead) % 65536 ∨ (v.toNat % 65536 + 65536 - (s.queue q).sqHead) % 65536 < ((s.queue q).sqTail + 65536 - (s.queue q).sqHead) % 65536)) ∧
    (∃ (s : State) (n slot : Nat) (v : Word), Running s ∧ s.pageLive n = true ∧ ∃ q, s.slotQueue n slot = some q ∧
      (v.toNat % 65536 + 65536 - (s.queue q).cqHead) % 65536 ≤ ((s.queue q).cqTail + 65536 - (s.queue q).cqHead) % 65536) ∧
    (∃ (s : State) (n slot : Nat) (v : Word), Running s ∧ s.pageLive n = true ∧ ∃ q, s.slotQueue n slot = some q ∧
      ((s.queue q).cqTail + 65536 - (s.queue q).cqHead) % 65536 < (v.toNat % 65536 + 65536 - (s.queue q).cqHead) % 65536) ∧
    (∃ (s : State) (v : Word), Reaches s .scp 0x040 ∧ s.refusing = false ∧
      ∃ q, s.slotQueue 64 (v.toNat / 65536 % 256) = some q ∧ (s.queue q).tailOk (v.toNat % 65536) = true) ∧
    (∃ (s : State) (v : Word), Reaches s .scp 0x040 ∧ s.refusing = false ∧
      ∃ q, s.slotQueue 64 (v.toNat / 65536 % 256) = some q ∧ (s.queue q).tailOk (v.toNat % 65536) = false) ∧
    (∃ (s : State) (v : Word), Reaches s .scp 0x044 ∧ s.refusing = false ∧
      ∃ q, s.slotQueue 64 (v.toNat / 65536 % 256) = some q ∧ (s.queue q).headOk (v.toNat % 65536) = true) ∧
    (∃ (s : State) (v : Word), Reaches s .scp 0x044 ∧ s.refusing = false ∧
      ∃ q, s.slotQueue 64 (v.toNat / 65536 % 256) = some q ∧ (s.queue q).headOk (v.toNat % 65536) = false) :=
  ⟨
    ⟨w [up, modQueue 1 fun q => { q with live := true, ctx := 0, slot := 255 }], 0, 255, 16, by decide, by decide, 1,
      by decide, by decide, by decide⟩,
    ⟨w [up, modQueue 1 fun q => { q with live := true, ctx := 0, slot := 255 }], 0, 255, 17, by decide, by decide, 1,
      by decide, by decide⟩,
    ⟨w [up, modQueue 1 fun q => { q with live := true, ctx := 0, slot := 255, cqTail := 5 }], 0, 255, 5, by decide,
      by decide, 1, by decide, by decide⟩,
    ⟨w [up, modQueue 1 fun q => { q with live := true, ctx := 0, slot := 255, cqTail := 5 }], 0, 255, 6, by decide,
      by decide, 1, by decide, by decide⟩,
    ⟨w [modQueue 1 fun q => { q with live := true, ctx := 64, slot := 255 }], 0xFF0010, by decide, by decide, 1,
      by decide, by decide⟩,
    ⟨w [modQueue 1 fun q => { q with live := true, ctx := 64, slot := 255 }], 0xFF0011, by decide, by decide, 1,
      by decide, by decide⟩,
    ⟨w [modQueue 1 fun q => { q with live := true, ctx := 64, slot := 255, cqTail := 5 }], 0xFF0005, by decide,
      by decide, 1, by decide, by decide⟩,
    ⟨w [modQueue 1 fun q => { q with live := true, ctx := 64, slot := 255, cqTail := 5 }], 0xFF0006, by decide,
      by decide, 1, by decide, by decide⟩⟩

/-- States and operands that meet the hypotheses of the clauses of HoldsAndKicks. -/
theorem witness_HoldsAndKicks :
    (∃ (s : State) (n : Nat) (v : Word), Running s ∧ s.pageLive n = true ∧ ∃ i, s.fenceOf v.toNat = some i ∧
      (s.fence i).usable n = true ∧ (s.fence i).proxy = false ∧ (s.fence i).destroy = false ∧
      (s.fence i).broken = false ∧ (s.fence i).value.toNat < 2 ^ 64 - 1 ∧ (s.fence i).subs = 0 ∧
      (s.chans.all (fun e => match e.2.park with | .fence j _ => j != i | _ => true) = true)) ∧
    (∃ (s : State) (n : Nat) (v : Word), Running s ∧ s.pageLive n = true ∧ s.fenceOf v.toNat = none) ∧
    (∃ (s : State) (n : Nat) (v : Word), Running s ∧ s.pageLive n = true ∧ ∃ i, s.memOf v.toNat = some i ∧
      (n = 0 ∨ (s.mobj i).owner = n) ∧ bitAt (s.mobj i).holds n = false ∧ (s.mobj i).destroy = false ∧
      (s.mobj i).cnt < 2 ^ 32 - 1) ∧
    (∃ (s : State) (n : Nat) (v : Word), Running s ∧ s.pageLive n = true ∧ ∃ i, s.memOf v.toNat = some i ∧
      bitAt (s.mobj i).holds n = true ∧ (s.mobj i).destroy = false) ∧
    (∃ (s : State) (n : Nat) (v : Word), Running s ∧ s.pageLive n = true ∧ ∃ i, s.memOf v.toNat = none ∧
      s.fenceOf v.toNat = some i ∧ (s.fence i).proxy = false ∧ (s.fence i).destroy = false ∧
      (n = 0 ∨ (s.fence i).owner = n ∨ bitAt (s.fence i).imported n = true) ∧ bitAt (s.fence i).holds n = false ∧
      (s.fence i).cnt < 2 ^ 32 - 1) ∧
    (∃ (s : State) (n : Nat) (v : Word), Running s ∧ s.pageLive n = true ∧ ∃ i, s.memOf v.toNat = none ∧
      s.fenceOf v.toNat = some i ∧ (s.fence i).proxy = false ∧ (s.fence i).destroy = false ∧
      bitAt (s.fence i).holds n = true) ∧
    (∃ (s : State) (n : Nat), Running s ∧ s.pageLive n = true ∧ ∃ be, be < 15) ∧
    (∃ (s : State) (n : Nat) (v : Word), Running s ∧ s.pageLive n = true ∧ ∃ i, s.memOf v.toNat = some i ∧
      bitAt (s.mobj i).holds n = false) :=
  ⟨
    ⟨w [up, modFence 9 fun f => { f with live := true, value := 0xFFFFFFFFFFFFFFFE }], 0, 0x50000009, by decide,
      by decide, 9, by decide, by decide, by decide, by decide, by decide, by decide, by decide, by decide⟩,
    ⟨w [up], 0, 0x50000009, by decide, by decide, by decide⟩,
    ⟨w [up, modMobj 9 fun m => { m with live := true, unattr := 0xFFFFFFFE }], 0, 0x40000009, by decide, by decide, 9,
      by decide, by decide, by decide, by decide, by decide⟩,
    ⟨w [up, modMobj 9 fun m => { m with live := true, holds := 1 }], 0, 0x40000009, by decide, by decide, 9, by decide,
      by decide, by decide⟩,
    ⟨w [up, modFence 9 fun x => { x with live := true, unattr := 0xFFFFFFFE }], 0, 0x50000009, by decide, by decide, 9,
      by decide, by decide, by decide, by decide, by decide, by decide, by decide⟩,
    ⟨w [up, modFence 9 fun x => { x with live := true, holds := 1 }], 0, 0x50000009, by decide, by decide, 9, by decide,
      by decide, by decide, by decide, by decide⟩,
    ⟨w [up], 0, by decide, by decide, 14, by decide⟩,
    ⟨w [up, modMobj 9 fun m => { m with live := true }], 0, 0x40000009, by decide, by decide, 9, by decide, by decide⟩⟩

/-- States and operands that meet the hypotheses of the clauses of RingsReadAndWritten. -/
theorem witness_RingsReadAndWritten :
    (∃ (s : State) (q phys : Nat) (ns : Bool), Running s ∧ (s.queue q).ctx < 64 ∧ opSel (s.queue q).sqRing ≠ 1 ∧
      opSel (s.queue q).cqRing ≠ 1 ∧ s.queueRead q = true ∧ (s.queue q).reading = false ∧
      s.xlate (s.queue q).ctx (opAddr (ringAt (s.queue q).sqRing (s.queue q).log2 (s.queue q).sqHead)) false = .hit phys ns ∧
      opSel (ringAt (s.queue q).sqRing (s.queue q).log2 (s.queue q).sqHead) ≠ 1) ∧
    (∃ (s : State) (q phys : Nat) (ns : Bool), Running s ∧ (s.queue q).ctx < 64 ∧ opSel (s.queue q).sqRing ≠ 1 ∧
      opSel (s.queue q).cqRing ≠ 1 ∧ ∃ d, s.due.find? (·.queue == q) = some d ∧ s.ringRoom q 0 = true ∧
      s.recordHeld d = false ∧ s.linkUp = true ∧ s.pfHeld = false ∧ (∀ c, d.chan = some c → (s.chan c).dest = none) ∧
      opSel (ringAt (s.queue q).cqRing (s.queue q).log2 (s.queue q).cqTail) ≠ 1 ∧
      s.xlate (s.queue q).ctx (opAddr (ringAt (s.queue q).cqRing (s.queue q).log2 (s.queue q).cqTail)) true = .hit phys ns ∧
      phys % 16 = 0) ∧
    (∃ (s : State) (q : Nat), Running s ∧ s.oneHolder ∧ (s.queue q).ctx = 64 ∧ (s.queue q).log2 ≤ 12 ∧
      opAddr (s.queue q).sqRing + 16 * 2 ^ (s.queue q).log2 ≤ 0x200000 ∧
      opAddr (s.queue q).cqRing + 16 * 2 ^ (s.queue q).log2 ≤ 0x200000 ∧
      (s.queue q).sqRing = 2 ^ 56 + opAddr (s.queue q).sqRing ∧
      (s.queue q).cqRing = 2 ^ 56 + opAddr (s.queue q).cqRing ∧ s.queueRead q = true ∧ (s.ctx 64).st = .live ∧
      ∃ c, s.chanOf (sqEntry s q).1 = some c ∧ (s.chan c).ctx = 64 ∧ (s.chan c).inBlock (sqEntry s q).2.2.2 = true ∧
      ((s.chan c).st = .queued ∨ (s.chan c).st = .running ∨ (s.chan c).st = .parked) ∧ (s.chan c).subs.length < 16 ∧
      (sqEntry s q).2.2.2 ≠ 0xFFFF) ∧
    (∃ (s : State) (q : Nat), Running s ∧ s.oneHolder ∧ (s.queue q).ctx = 64 ∧ (s.queue q).log2 ≤ 12 ∧
      opAddr (s.queue q).sqRing + 16 * 2 ^ (s.queue q).log2 ≤ 0x200000 ∧
      opAddr (s.queue q).cqRing + 16 * 2 ^ (s.queue q).log2 ≤ 0x200000 ∧
      (s.queue q).sqRing = 2 ^ 56 + opAddr (s.queue q).sqRing ∧
      (s.queue q).cqRing = 2 ^ 56 + opAddr (s.queue q).cqRing ∧ s.queueRead q = true ∧ (s.ctx 64).st = .live ∧
      s.chanOf (sqEntry s q).1 = none) ∧
    (∃ (s : State) (q : Nat), Running s ∧ s.oneHolder ∧ (s.queue q).ctx = 64 ∧ (s.queue q).log2 ≤ 12 ∧
      opAddr (s.queue q).sqRing + 16 * 2 ^ (s.queue q).log2 ≤ 0x200000 ∧
      opAddr (s.queue q).cqRing + 16 * 2 ^ (s.queue q).log2 ≤ 0x200000 ∧
      (s.queue q).sqRing = 2 ^ 56 + opAddr (s.queue q).sqRing ∧
      (s.queue q).cqRing = 2 ^ 56 + opAddr (s.queue q).cqRing ∧ ∃ d, s.due.find? (·.queue == q) = some d ∧
      (∀ c, d.chan = some c → (s.chan c).dest = none) ∧ s.ringRoom q 0 = true ∧ s.recordHeld d = false) :=
  ⟨
    ⟨w [up, inCtx 5 .live, modCtx 5 fun x => { x with mode := 1, root := 8192 },
      .upd (.tlb [⟨5, false, 1, 0x7000, true, false⟩]),
      modQueue 1 fun q => { q with live := true, ctx := 5, log2 := 4, sqRing := 0x1000, cqRing := 0x1000, sqTail := 1 }],
      1, 0x7000, false, by decide, by decide, by decide, by decide, by decide, by decide, by decide, by decide⟩,
    ⟨w [up, inCtx 5 .live, modCtx 5 fun x => { x with mode := 1, root := 8192 },
      .upd (.tlb [⟨5, false, 1, 0x7000, true, false⟩]),
      modQueue 1 fun q => { q with live := true, ctx := 5, log2 := 4, sqRing := 0x1000, cqRing := 0x1000, sqTail := 1 },
      .upd (.due [theDue])], 1, 0x7000, false, by decide, by decide, by decide, by decide, theDue, by decide, by decide,
      by decide, by decide, by decide, fun _ h => (nomatch (show none = some _ from h)), by decide, by decide,
      by decide⟩,
    ⟨w [modQueue 1 fun q => { q with live := true, ctx := 64, log2 := 12, sqRing := 2 ^ 56 + 0x1F0000, cqRing := 2 ^ 56 + 0x1F0000, sqTail := 1 },
      inChan 2 64 .queued, storeBytes .stag 0x1F0000 (leBytes 4 0x30000002 ++ leBytes 10 0 ++ leBytes 2 15)], 1,
      by decide, by decide, by decide, by decide, by decide, by decide, by decide, by decide, by decide, by decide, 2,
      by decide, by decide, by decide, by decide, by decide, by decide⟩,
    ⟨w [modQueue 1 fun q => { q with live := true, ctx := 64, log2 := 12, sqRing := 2 ^ 56 + 0x1F0000, cqRing := 2 ^ 56 + 0x1F0000, sqTail := 1 }],
      1, by decide, by decide, by decide, by decide, by decide, by decide, by decide, by decide, by decide, by decide,
      by decide⟩,
    ⟨w [modQueue 1 fun q => { q with live := true, ctx := 64, log2 := 12, sqRing := 2 ^ 56 + 0x1F0000, cqRing := 2 ^ 56 + 0x1F0000, cqTail := 4095 },
      .upd (.due [theDue])], 1, by decide, by decide, by decide, by decide, by decide, by decide, by decide, by decide,
      theDue, by decide, fun _ h => (nomatch (show none = some _ from h)), by decide, by decide⟩⟩

/-- States and operands that meet the hypotheses of the clauses of HostReadsAnswered. -/
theorem witness_HostReadsAnswered :
    (∃ s : State, Running s ∧ s.linkUp = true ∧ ∃ tag, s.host.reads.any (·.tag == tag) = false) ∧
    (∃ s : State, Running s ∧ s.linkUp = true ∧ ∃ (tag : _) (r : _), s.host.reads.find? (·.tag == tag) = some r ∧
      ∃ bs : List Byte, r.got.length + bs.length < r.len) ∧
    (∃ s : State, Running s ∧ s.linkUp = true ∧ ∃ (tag : _) (r : _), s.host.reads.find? (·.tag == tag) = some r ∧
      r.dead = false ∧ ∃ x, ringLeaf r.purpose = some x ∧ r.got = [] ∧ r.len = 8 ∧ s.tlb.length < 512 ∧
      ∃ page, page < 2 ^ 40) ∧
    (∃ s : State, Running s ∧ s.linkUp = true ∧ ∃ (tag : _) (r : _), s.host.reads.find? (·.tag == tag) = some r ∧
      r.dead = false ∧ ∃ q, ringOf r.purpose = some q ∧ r.got = [] ∧ r.len = 16 ∧ s.queueRead q = true ∧
      (s.ctx (s.queue q).ctx).st = .live ∧ ∃ (c : _) (first : _) (tg : _), c < 256 ∧ first < 65535 ∧ tg < 2 ^ 32 ∧
      (s.chan c).gen < 4096 ∧ (s.chan c).ctx = (s.queue q).ctx ∧ (s.chan c).inBlock first = true ∧
      (s.chan c).subs.length < 16 ∧ ((s.chan c).st = .queued ∨ (s.chan c).st = .running ∨ (s.chan c).st = .parked)) ∧
    (∃ s : State, Running s ∧ s.linkUp = true ∧ ∃ (tag : _) (r : _), s.host.reads.find? (·.tag == tag) = some r ∧
      r.dead = true) ∧
    (∃ s : State, Running s ∧ s.linkUp = true ∧ ∃ (tag : _) (r : _), s.host.reads.find? (·.tag == tag) = some r ∧
      r.dead = false ∧ ∃ q, ringOf r.purpose = some q ∧ (s.queue q).live = true ∧ (s.ctx (s.queue q).ctx).st = .live) ∧
    (∃ s : State, Running s ∧ s.linkUp = true ∧ ∃ v, v < 65 ∧ bitAt s.host.pend v = true ∧ (s.msix v).masked = false ∧
      s.host.msixEn = true ∧ s.host.fmask = false ∧ (s.msix v).addr % 4 = 0) ∧
    (∃ s : State, Running s ∧ s.linkUp = true ∧ ∃ v, v < 65 ∧
      ((s.msix v).masked = true ∨ s.host.msixEn = false ∨ s.host.fmask = true)) :=
  ⟨
    ⟨w [up], by decide, by decide, 0, by decide⟩,
    ⟨w [up, hostRead (.data 0) 64], by decide, by decide, 0, theRead (.data 0) 64, by decide, bs [1], by decide⟩,
    ⟨w [up, hostRead (.walk (.sq 1) 5 0x1000 3 false true) 8], by decide, by decide, 0,
      theRead (.walk (.sq 1) 5 0x1000 3 false true) 8, by decide, by decide, (5, 0x1000), by decide, by decide,
      by decide, by decide, 2 ^ 40 - 1, by decide⟩,
    ⟨w [up, hostRead (.ring 1) 16, modQueue 1 fun q => { q with live := true, sqTail := 1, reading := true },
      inChan 255 0 .queued, modChan 255 fun x => { x with gen := 4095, base := 65519 }], by decide, by decide, 0,
      theRead (.ring 1) 16, by decide, by decide, 1, by decide, by decide, by decide, by decide, by decide, 255, 65534,
      2 ^ 32 - 1, by decide, by decide, by decide, by decide, by decide, by decide, by decide, by decide⟩,
    ⟨w [up, modHost fun h => { h with reads := [{ theRead (.ring 1) 16 with dead := true }] }], by decide, by decide, 0,
      { theRead (.ring 1) 16 with dead := true }, by decide, by decide⟩,
    ⟨w [up, hostRead (.ring 1) 16, modQueue 1 fun q => { q with live := true, sqTail := 1, reading := true }],
      by decide, by decide, 0, theRead (.ring 1) 16, by decide, by decide, 1, by decide, by decide, by decide⟩,
    ⟨w [up, modHost fun h => { h with msixEn := true, pend := 2 ^ 64, table := [(64, ⟨0x1000, 1, false⟩)] }], by decide,
      by decide, 64, by decide, by decide, by decide, by decide, by decide, by decide⟩,
    ⟨w [up], by decide, by decide, 64, by decide, by decide⟩⟩

/-- States and operands that meet the hypotheses of the clauses of TlbAndBar4. -/
theorem witness_TlbAndBar4 :
    (∃ s : State, ∃ (p : _) (v : Word), Reaches s p 0x924 ∧
      (s.tlbInv.isSome = true ∨ v.toNat / 256 % 4 = 3 ∨ (v.toNat / 256 % 4 ≤ 1 ∧ 63 < v.toNat % 128))) ∧
    (∃ s : State, ∃ (p : _) (v : Word), Reaches s p 0x924 ∧ s.tlbInv = none ∧ v.toNat / 256 % 4 ≠ 3 ∧
      (v.toNat / 256 % 4 = 2 ∨ v.toNat % 128 ≤ 63)) ∧
    (∃ s : State, Running s ∧ NoReadWaits s) ∧
    (∃ s : State, Running s ∧ ∃ b, s.tlbInv = some b ∧
      (s.host.waits.any (fun r => r.leaf.any (fun x => x.inScope b.1 b.2.1 b.2.2)) = true)) ∧
    (∃ s : State, Running s ∧ ∃ b, s.tlbInv = some b ∧
      (s.host.waits.any (fun r => r.leaf.any (fun x => x.inScope b.1 b.2.1 b.2.2)) = false)) ∧
    (∃ s : State, Running s ∧ s.linkUp = true ∧ ∃ (addr : _) (len : _), 0 < len ∧ addr + len ≤ 0x200000 ∧ s.oneHolder ∧
      s.firstRefused (s.bar4Access addr len false) = none) ∧
    (∃ s : State, Running s ∧ s.linkUp = true ∧ ∃ (addr : _) (len : _), 0 < len ∧ addr + len ≤ 0x200000 ∧
      ∃ (cause : _) (region : _) (shade : _), s.firstRefused (s.bar4Access addr len false) = some (0, .refuse cause region shade)) ∧
    (∃ s : State, Running s ∧ s.linkUp = true ∧ ∃ (addr : _) (bs : List Byte), addr + bs.length ≤ 0x200000 ∧
      s.oneHolder ∧ s.firstRefused (s.bar4Access addr bs.length true) = none) ∧
    (∃ s : State, Running s ∧ s.linkUp = true ∧ ∃ (addr : _) (bs : List Byte), 0 < bs.length ∧
      addr + bs.length ≤ 0x200000 ∧
      ∃ (cause : _) (region : _) (shade : _), s.firstRefused (s.bar4Access addr bs.length true) = some (0, .refuse cause region shade)) :=
  ⟨
    ⟨w [.upd (.tlbInv (some (2, 0, 0)))], .scp, 0, by decide, by decide⟩,
    ⟨State.reset, .scp, 63, by decide, by decide, by decide, by decide⟩,
    ⟨w [.upd (.tlbInv (some (2, 0, 0)))], by decide, by decide⟩,
    ⟨w [.upd (.tlbInv (some (0, 5, 1))), modHost fun h => { h with waits := [theWait] }], by decide, (0, 5, 1),
      by decide, by decide⟩,
    ⟨w [.upd (.tlbInv (some (0, 6, 1))), modHost fun h => { h with waits := [theWait] }], by decide, (0, 6, 1),
      by decide, by decide⟩,
    ⟨w [up], by decide, by decide, 0x1FFFFF, 1, by decide, by decide, by decide, by decide⟩,
    ⟨w [up, shut], by decide, by decide, 0x1FFFFF, 1, by decide, by decide, 1, 0x3F, 0, by decide⟩,
    ⟨w [up], by decide, by decide, 0x1FFFFF, bs [1], by decide, by decide, by decide⟩,
    ⟨w [up, shut], by decide, by decide, 0x1FFFFF, bs [1], by decide, by decide, 1, 0x3F, 0, by decide⟩⟩

/-- States and operands that meet the hypotheses of the clauses of FunctionResets. -/
theorem witness_FunctionResets :
    (∃ s : State, Running s ∧ ∃ cause, 5 ≤ cause) ∧
    (∃ s : State, Running s ∧ ∃ cause, cause < 5 ∧ s.host.fr = false) ∧
    (∃ s : State, Running s ∧ ∃ cause, cause < 5 ∧ s.host.fr = true) ∧
    (∃ s : State, Running s ∧ s.host.fr = true ∧ s.pwr.standby = false ∧ s.pwr.entering = false) ∧
    (∃ s : State, Running s ∧ s.host.fr = false) :=
  ⟨
    ⟨w [up], by decide, 5, by decide⟩,
    ⟨w [up], by decide, 4, by decide, by decide⟩,
    ⟨State.reset, by decide, 4, by decide, by decide⟩,
    ⟨State.reset, by decide, by decide, by decide, by decide⟩,
    ⟨w [up], by decide, by decide⟩⟩

/-- States and operands that meet the hypotheses of the clauses of ProtectionUnitRows. -/
theorem witness_ProtectionUnitRows :
    (∃ (s : State) (p : Path), Reaches s p 0x288 ∧ ∃ i, i < 32 ∧ s.fldI (i + 1) F.PRT_RGN_ATTR_LOCK = 0) ∧
    (∃ (s : State) (p : Path), Reaches s p 0x288 ∧ ∃ i, i < 32 ∧ s.fldI (i + 1) F.PRT_RGN_ATTR_LOCK = 1) ∧
    (∃ (s : State) (p : Path), Reaches s p 0x2AC ∧ s.filling = false ∧ ∃ g, s.shdGroup = some g) ∧
    (∃ (s : State) (p : Path), Reaches s p 0x2AC ∧ s.filling = true) ∧
    (∃ (s : State) (p : Path), Reaches s p 0x2B0 ∧ s.filling = false ∧ s.shdGroup.isSome = true) ∧
    (∃ (s : State) (p : Path), Reaches s p 0x2B0 ∧ s.filling = true) ∧
    (∃ s : State, Running s ∧ s.fillAt + s.fillLeft ≤ shadeCount ∧ s.clk + (s.fillLeft + 7) / 8 < s.fillEnd) ∧
    (∃ (s : State) (p : Path), ∃ v : Word, Reaches s p 0x280 ∧ (v.toNat % 2 = 1 ∧ s.fld F.PRT_CTL_LOCK = 0)) ∧
    (∃ (s : State) (p : Path), ∃ v : Word, Reaches s p 0x280 ∧ v.toNat % 2 = 0 ∧ s.fld F.PRT_CTL_LOCK = 0) ∧
    (∃ s : State, Running s ∧ ∃ c, (s.chan c).park = .stall ∧ ∃ d, s.cur c = some d) ∧
    (∃ s : State, Running s ∧ ∃ k, s.zhn.stalled.head? = some k) :=
  ⟨
    ⟨State.reset, .scp, by decide, 31, by decide, by decide⟩,
    ⟨w [putI 32 F.PRT_RGN_ATTR_LOCK 1], .scp, by decide, 31, by decide, by decide⟩,
    ⟨w [put F.PRT_SHD_ADDR_GRAN 32767], .scp, by decide, by decide, 32760, by decide⟩,
    ⟨w [.upd (.fillEnd 1)], .scp, by decide, by decide⟩,
    ⟨w [put F.PRT_SHD_ADDR_GRAN 32767], .scp, by decide, by decide, by decide⟩,
    ⟨w [.upd (.fillLeft 1)], .scp, by decide, by decide⟩,
    ⟨w [.upd (.fillLeft 1), .upd (.fillAt 45055), .upd (.fillEnd 2)], by decide, by decide, by decide⟩,
    ⟨State.reset, .scp, 1, by decide, by decide⟩,
    ⟨State.reset, .scp, 0, by decide, by decide, by decide⟩,
    ⟨w [runs 3 64 (some (cur [1] .ready)), modChan 3 fun x => { x with st := .queued, park := .stall }], by decide, 3,
      by decide, cur [1] .ready, by decide⟩,
    ⟨w [modZhn fun z => { z with stalled := [⟨zh 0 0, zmem, true, [], 0, 0⟩] }], by decide,
      ⟨zh 0 0, zmem, true, [], 0, 0⟩, by decide⟩⟩

/-- States and operands that meet the hypotheses of the clauses of EnginesDispatch. -/
theorem witness_EnginesDispatch :
    (∃ (s : State) (e : Nat), Running s ∧ s.pfHeld = false ∧ s.pwr.standby = false ∧ s.pwr.quiesced = false ∧ e < 4 ∧
      (s.engine e).chan = none ∧ bitAt (s.fld F.ERR_ENG_OFF) e = false ∧ s.asking e = []) ∧
    (∃ (s : State) (e : Nat), Running s ∧ s.pfHeld = false ∧ s.pwr.standby = false ∧ s.pwr.quiesced = false ∧ e < 4 ∧
      (s.engine e).chan = none ∧ bitAt (s.fld F.ERR_ENG_OFF) e = false ∧ ∃ w, w ∈ s.asking e ∧
      (s.fld F.ARB_CTL_ELDER_N = 0 ∨ (s.asking e).length = 1) ∧
      ((s.asking e).all (fun x => x.1 == w.1 || w.2.before x.2) = true)) ∧
    (∃ (s : State) (e : Nat), Running s ∧ s.pfHeld = false ∧ s.pwr.standby = false ∧ s.pwr.quiesced = false ∧ e < 4 ∧
      (s.engine e).chan = none ∧ bitAt (s.fld F.ERR_ENG_OFF) e = false ∧ ∃ w, w ∈ s.asking e ∧
      s.fld F.ARB_CTL_ELDER_N ≠ 0 ∧ 2 ≤ (s.asking e).length ∧
      max 2 (s.fld F.ARB_CTL_ELDER_N) ≤ SMap.get 0 s.elder e + 1 ∧
      ((s.asking e).all (fun x => x.1 == w.1 || w.2.older x.2) = true)) ∧
    (∃ (s : State) (e : Nat), Running s ∧ e < 4 ∧ ∃ c, (s.engine e).chan = some c ∧ (s.chan c).st = .running ∧
      s.grantSpent c = true ∧ ∃ d, s.cur c = some d ∧ d.phase = .ready ∧ dOp d.words = 0x3F ∧
      s.asking (s.chan c).engine ≠ []) ∧
    (∃ (s : State) (e : Nat), Running s ∧ e < 4 ∧ ∃ c, (s.engine e).chan = some c ∧ (s.chan c).st = .running ∧
      s.grantSpent c = true ∧ s.biteDue e = none ∧ (s.chan c).atBoundary (s.burstBytes c) = true) :=
  ⟨
    ⟨State.reset, 3, by decide, by decide, by decide, by decide, by decide, by decide, by decide, by decide⟩,
    ⟨w [runs 3 64 (some (cur [0x3F] .ready)), modChan 3 fun x => { x with st := .queued }], 3, by decide, by decide,
      by decide, by decide, by decide, by decide, by decide, (3, (w [runs 3 64 (some (cur [0x3F] .ready))]).chanRank 3),
      by decide, by decide, by decide⟩,
    ⟨w [runs 3 64 (some (cur [0x3F] .ready)), modChan 3 fun x => { x with st := .queued },
      runs 4 64 (some (cur [0x3F] .ready)), modChan 4 fun x => { x with st := .queued }, .upd (.elder 3 255)], 3,
      by decide, by decide, by decide, by decide, by decide, by decide, by decide,
      (3, (w [runs 3 64 (some (cur [0x3F] .ready))]).chanRank 3), by decide, by decide, by decide, by decide, by decide⟩,
    ⟨w [runs 3 64 (some (cur [0x3F] .ready)), modEngine 0 fun x => { x with chan := some 3, moved := 8160 },
      runs 4 64 (some (cur [0x3F] .ready)), modChan 4 fun x => { x with st := .queued }], 0, by decide, by decide, 3,
      by decide, by decide, by decide, cur [0x3F] .ready, by decide, by decide, by decide, by decide⟩,
    ⟨w [runs 3 64 none, modEngine 0 fun x => { x with chan := some 3, moved := 8160 }], 0, by decide, by decide, 3,
      by decide, by decide, by decide, by decide, by decide⟩⟩

/-- States and operands that meet the hypotheses of the clauses of FetchTakeAndComplete. -/
theorem witness_FetchTakeAndComplete :
    (∃ (s : State) (c : Nat), Running s ∧ ∃ r, (s.chan c).run = some r ∧ r.cur = none ∧ (s.chan c).copies = [] ∧
      (s.chan c).st = .queued ∧ s.pwr.standby = false ∧ (s.chan c).inBlock r.next = true) ∧
    (∃ (s : State) (c : Nat), Running s ∧ ∃ r, (s.chan c).run = some r ∧ r.cur = none ∧ (s.chan c).st = .running ∧
      (s.chan c).stopPend = 0 ∧ s.grantSpent c = false ∧ ∃ x, (s.chan c).copies.head? = some x ∧ x.1 = r.next ∧
      (dOp x.2 = 0x3F ∨ opListed (dOp x.2) = false) ∧ dFenceNext x.2 = false ∧ (s.chan c).subs.length = 1 ∧
      ∃ u, (s.chan c).subs.head? = some u ∧ u.queue < 1024 ∧ s.recordable u.queue = true ∧ s.pfHeld = false ∧
      r.status = 0 ∧ ∃ st, takeCheck s.self (s.chan c).ctx (s.chan c).base (s.chan c).count x.1 x.2 = some st) ∧
    (∃ (s : State) (c : Nat), Running s ∧ ∃ d, s.cur c = some d ∧ d.phase = .done 0 ∧ (s.chan c).st = .running ∧
      (s.chan c).stopPend = 0 ∧ d.refs = [] ∧ dFenceNext d.words = false ∧ dHaltAfter d.words = false ∧
      dIntr d.words = false ∧ d.late = false ∧ wtBefore d.l d.doneWT = false ∧ s.ringBlocked c = none ∧
      dNext d.words ≠ 0xFFFFFFFF) ∧
    (∃ (s : State) (c : Nat), Running s ∧ ∃ d, s.cur c = some d ∧ d.phase = .done 0 ∧ (s.chan c).st = .running ∧
      (s.chan c).stopPend = 0 ∧ d.refs = [] ∧ dFenceNext d.words = false ∧ dHaltAfter d.words = false ∧
      dIntr d.words = false ∧ d.late = false ∧ wtBefore d.l d.doneWT = false ∧ s.ringBlocked c = none ∧
      dNext d.words = 0xFFFFFFFF ∧ dOp d.words ≠ 0x40 ∧ (dOp d.words = 0x41 → (loopStep d.words).2.1 ≠ 1) ∧
      (s.chan c).subs.length = 1 ∧ ∃ u, (s.chan c).subs.head? = some u ∧ u.queue < 1024 ∧ ∃ r, (s.chan c).run = some r ∧
      r.status = 0 ∧ s.recordable u.queue = true ∧ s.pfHeld = false ∧ s.ringRoom u.queue s.due.length = true) :=
  ⟨
    ⟨w [runs 3 64 none, modChan 3 fun x => { x with st := .queued }], 3, by decide, chain none, by decide, by decide,
      by decide, by decide, by decide, by decide⟩,
    ⟨w [runs 3 64 none, modChan 3 fun x => { x with copies := [(0, dwords [0])] },
      modQueue 1 fun q => { q with live := true, ctx := 64 }], 3, by decide, chain none, by decide, by decide,
      by decide, by decide, by decide, (0, dwords [0]), by decide, by decide, by decide, by decide, by decide, subm 3,
      by decide, by decide, by decide, by decide, by decide, stBAD_DESC, by decide⟩,
    ⟨w [runs 3 64 (some (cur [0x3F] (.done 0)))], 3, by decide, cur [0x3F] (.done 0), by decide, by decide, by decide,
      by decide, by decide, by decide, by decide, by decide, by decide, by decide, by decide, by decide⟩,
    ⟨w [runs 3 64 (some (cur [0x3F, 0, 0, 0, 0, 0, 0, 0, 0, 0, 0xFFFFFFFF] (.done 0))),
      modQueue 1 fun q => { q with live := true, ctx := 64 }], 3, by decide,
      cur [0x3F, 0, 0, 0, 0, 0, 0, 0, 0, 0, 0xFFFFFFFF] (.done 0), by decide, by decide, by decide, by decide,
      by decide, by decide, by decide, by decide, by decide, by decide, by decide, by decide, by decide, by decide,
      by decide, subm 3, by decide, by decide,
      chain (some (cur [0x3F, 0, 0, 0, 0, 0, 0, 0, 0, 0, 0xFFFFFFFF] (.done 0))), by decide, by decide, by decide,
      by decide, by decide⟩⟩

/-- States and operands that meet the hypotheses of the clauses of SnufferBites. -/
theorem witness_SnufferBites :
    (∃ (s : State) (res : Nat), Running s ∧ res < 64 ∧ ∃ c, (s.chan c).st = .running ∧ (s.chan c).engine < 4 ∧
      res = (s.chan c).engine ∧ (s.engine res).chan = some c ∧ s.atomicBusy c = false ∧
      (s.host.reads.any (fun r => r.purpose.chan? == some c) = false) ∧ (s.ctx (s.chan c).ctx).st = .live ∧
      (s.ctx (s.chan c).ctx).losing = none) ∧
    (∃ (s : State) (res : Nat), Running s ∧ res < 64 ∧ ∃ p, s.pathDead p = false ∧
      (s.windowRes p = some res ∨ res = 0x21)) ∧
    (∃ (s : State) (res : Nat), Running s ∧ res < 64 ∧ s.linkUp = true ∧ ((0x10 ≤ res ∧ res < 0x20) ∨ res = 0x21)) ∧
    (∃ (s : State) (res : Nat), Running s ∧ res < 64 ∧ 0x10 ≤ res ∧ res ≤ 0x21) ∧
    (∃ (s : State) (res : Nat), Running s ∧ res < 64 ∧ 0x10 ≤ res ∧ res ≤ 0x21) ∧
    (∃ (s : State) (res : Nat), Running s ∧ res < 64 ∧ 0x10 ≤ res ∧ res < 0x30) :=
  ⟨
    ⟨w [runs 3 64 none, modEngine 0 fun x => { x with chan := some 3 }], 0, by decide, by decide, 3, by decide,
      by decide, by decide, by decide, by decide, by decide, by decide, by decide⟩,
    ⟨State.reset, 0x21, by decide, by decide, .scp, by decide, by decide⟩,
    ⟨w [up], 0x21, by decide, by decide, by decide, by decide⟩,
    ⟨State.reset, 0x21, by decide, by decide, by decide, by decide⟩,
    ⟨State.reset, 0x21, by decide, by decide, by decide, by decide⟩,
    ⟨State.reset, 0x2F, by decide, by decide, by decide, by decide⟩⟩

/-- States and operands that meet the hypotheses of the clauses of MovesOneBurst. -/
theorem witness_MovesOneBurst :
    (∃ (s : State) (c bursts : Nat), s.oneHolder ∧ 0 < bursts ∧ (s.chan c).engine < 4 ∧ (s.chan c).stopPend ≠ 2 ∧
      ∃ d, s.cur c = some d ∧ d.data = none ∧ d.off < dLen d.words ∧
      dLen d.words - d.off ≤ s.burstBytes c d.words - d.off % s.burstBytes c d.words ∧
      ∃ x, x ∈ [(0x01, Instr.copy c bursts), (0x03, Instr.gather c bursts), (0x04, Instr.scatter c bursts)] ∧
      Executes s c x.1 d ∧ blockLeft (x.1 == 0x03) d.words d.off (dLen d.words - d.off) = dLen d.words - d.off ∧
      blockLeft (x.1 == 0x04) d.words d.off (dLen d.words - d.off) = dLen d.words - d.off ∧
      (opSel (srcAt d.words d.off) = 1 ∨ opSel (srcAt d.words d.off) = 2) ∧
      (opSel (dstAt d.words d.off) = 1 ∨ opSel (dstAt d.words d.off) = 2) ∧
      ∃ sa, lands s c d false (srcAt d.words d.off) (dLen d.words - d.off) = some sa ∧
      ∃ da, lands s c d true (dstAt d.words d.off) (dLen d.words - d.off) = some da) ∧
    (∃ (s : State) (c bursts : Nat), s.oneHolder ∧ 0 < bursts ∧ (s.chan c).engine < 4 ∧ (s.chan c).stopPend ≠ 2 ∧
      ∃ d, s.cur c = some d ∧ d.data = none ∧ d.off < dLen d.words ∧
      dLen d.words - d.off ≤ s.burstBytes c d.words - d.off % s.burstBytes c d.words ∧ Executes s c 0x02 d ∧
      (opSel (dstAt d.words d.off) = 1 ∨ opSel (dstAt d.words d.off) = 2) ∧
      ∃ da, lands s c d true (dstAt d.words d.off) (dLen d.words - d.off) = some da) ∧
    (∃ (s : State) (c bursts : Nat), s.oneHolder ∧ 0 < bursts ∧ (s.chan c).engine < 4 ∧ (s.chan c).stopPend ≠ 2 ∧
      ∃ d, s.cur c = some d ∧ d.data = none ∧ d.off < dLen d.words ∧
      dLen d.words - d.off ≤ s.burstBytes c d.words - d.off % s.burstBytes c d.words ∧
      ∃ phys, hostPage s c false (srcAt d.words d.off) = some phys ∧ Executes s c 0x01 d ∧
      opSel (srcAt d.words d.off) = 0) ∧
    (∃ (s : State) (c bursts : Nat), s.oneHolder ∧ 0 < bursts ∧ (s.chan c).engine < 4 ∧ (s.chan c).stopPend ≠ 2 ∧
      ∃ d, s.cur c = some d ∧ d.data = none ∧ d.off < dLen d.words ∧
      dLen d.words - d.off ≤ s.burstBytes c d.words - d.off % s.burstBytes c d.words ∧ Running s ∧ s.linkUp = true ∧
      (s.chan c).st = .running ∧ dOp d.words = 0x01 ∧ d.phase = .hostData ∧
      ∃ tag, ∃ r, (s.host.reads.find? (fun x => x.tag == tag) = some r) ∧ r.dead = false ∧ r.purpose = .data c ∧
      r.got = [] ∧ ∃ bs : List Byte, bs.length = r.len ∧ bs.length = dLen d.words - d.off ∧
      undefinedBytes d.words d.off (dLen d.words - d.off) = 0 ∧
      (opSel (dstAt d.words d.off) = 1 ∨ opSel (dstAt d.words d.off) = 2) ∧
      ∃ da, lands s c d true (dstAt d.words d.off) (dLen d.words - d.off) = some da) ∧
    (∃ (s : State) (c bursts : Nat), s.oneHolder ∧ 0 < bursts ∧ (s.chan c).engine < 4 ∧ (s.chan c).stopPend ≠ 2 ∧
      ∃ d, s.cur c = some d ∧ d.data = none ∧ d.off < dLen d.words ∧
      dLen d.words - d.off ≤ s.burstBytes c d.words - d.off % s.burstBytes c d.words ∧
      ∃ phys, hostPage s c true (dstAt d.words d.off) = some phys ∧ Executes s c 0x02 d ∧
      opSel (dstAt d.words d.off) = 0 ∧ phys % 4096 + (dLen d.words - d.off) ≤ 4096 ∧
      phys % s.mrrsBytes + (dLen d.words - d.off) ≤ s.mrrsBytes ∧ opAddr (dstAt d.words d.off) % 4096 = phys % 4096) :=
  ⟨
    ⟨w [runs 3 64 (some (cur [1, 32, 0x100, 0x01000000, 0x200, 0x02000000] .ready))], 3, 1, by decide, by decide,
      by decide, by decide, cur [1, 32, 0x100, 0x01000000, 0x200, 0x02000000] .ready, by decide, by decide, by decide,
      by decide, (1, .copy 3 1), .head _, by decide, by decide, by decide, by decide, by decide, 0x100, by decide,
      0x200, by decide⟩,
    ⟨w [runs 3 64 (some (cur [2, 32, 0, 0, 0x1FFFE0, 0x01000000] .ready))], 3, 1, by decide, by decide, by decide,
      by decide, cur [2, 32, 0, 0, 0x1FFFE0, 0x01000000] .ready, by decide, by decide, by decide, by decide, by decide,
      by decide, 0x1FFFE0, by decide⟩,
    ⟨w [up, inCtx 5 .live, modCtx 5 fun x => { x with mode := 1, root := 8192 },
      .upd (.tlb [⟨5, false, 1, 0x7000, true, false⟩]),
      runs 3 5 (some (cur [1, 32, 0x1000, 0, 0x200, 0x01000000] .ready))], 3, 1, by decide, by decide, by decide,
      by decide, cur [1, 32, 0x1000, 0, 0x200, 0x01000000] .ready, by decide, by decide, by decide, by decide, 0x7000,
      by decide, by decide, by decide⟩,
    ⟨w [up, runs 3 64 (some (cur [1, 32, 0x1000, 0, 0x1FFFE0, 0x01000000] .hostData)), hostRead (.data 3) 32], 3, 1,
      by decide, by decide, by decide, by decide, cur [1, 32, 0x1000, 0, 0x1FFFE0, 0x01000000] .hostData, by decide,
      by decide, by decide, by decide, by decide, by decide, by decide, by decide, by decide, 0, theRead (.data 3) 32,
      by decide, by decide, by decide, by decide, List.replicate 32 0, by decide, by decide, by decide, by decide,
      0x1FFFE0, by decide⟩,
    ⟨w [up, modCtx 5 fun x => { x with st := .live, mode := 1, root := 8192 },
      .upd (.tlb [⟨5, false, 1, 0x7000, true, false⟩]), runs 3 5 (some (cur [2, 32, 0, 0, 0x1FE0, 0] .ready))], 3, 1,
      by decide, by decide, by decide, by decide, cur [2, 32, 0, 0, 0x1FE0, 0] .ready, by decide, by decide, by decide,
      by decide, 0x7FE0, by decide, by decide, by decide, by decide, by decide, by decide⟩⟩

/-- States and operands that meet the hypotheses of the clauses of SyncAndControlDescriptors. -/
theorem witness_SyncAndControlDescriptors :
    (∃ (s : State) (c : Nat), (s.chan c).stopPend = 0 ∧ s.oneHolder ∧ (s.chan c).engine < 4 ∧ ∃ d, s.cur c = some d ∧
      Executes s c 0x3F d) ∧
    (∃ (s : State) (c : Nat), (s.chan c).stopPend = 0 ∧ s.oneHolder ∧ (s.chan c).engine < 4 ∧ ∃ d, s.cur c = some d ∧
      Executes s c 0x40 d) ∧
    (∃ (s : State) (c : Nat), (s.chan c).stopPend = 0 ∧ s.oneHolder ∧ (s.chan c).engine < 4 ∧ ∃ d, s.cur c = some d ∧
      Executes s c 0x41 d ∧ d.idx < 8192 ∧ d.words.length = 16 ∧
      0 < (if bitAt (dOps d.words 3) 0 then dOps d.words 2 else dOps d.words 1) ∧ dOps d.words 1 ≠ 0xFFFFFFFF) ∧
    (∃ (s : State) (c : Nat), (s.chan c).stopPend = 0 ∧ s.oneHolder ∧ (s.chan c).engine < 4 ∧ ∃ d, s.cur c = some d ∧
      Executes s c 0x41 d ∧ d.idx < 8192 ∧ d.words.length = 16 ∧
      (if bitAt (dOps d.words 3) 0 then dOps d.words 2 else dOps d.words 1) = 0) ∧
    (∃ (s : State) (c : Nat), (s.chan c).stopPend = 0 ∧ s.oneHolder ∧ (s.chan c).engine < 4 ∧ ∃ d, s.cur c = some d ∧
      Executes s c 0x21 d ∧ (s.fence (hIdx (dOps d.words 0))).broken = false ∧
      dw64 d.words 14 ≤ (s.fence (hIdx (dOps d.words 0))).value.toNat) ∧
    (∃ (s : State) (c : Nat), (s.chan c).stopPend = 0 ∧ s.oneHolder ∧ (s.chan c).engine < 4 ∧ ∃ d, s.cur c = some d ∧
      Executes s c 0x21 d ∧ (s.fence (hIdx (dOps d.words 0))).broken = false ∧
      (s.fence (hIdx (dOps d.words 0))).value.toNat < dw64 d.words 14) ∧
    (∃ (s : State) (c : Nat), (s.chan c).stopPend = 0 ∧ s.oneHolder ∧ (s.chan c).engine < 4 ∧ ∃ d, s.cur c = some d ∧
      Executes s c 0x23 d ∧ opAddr (dSrc d.words) < 192 ∧
      s.wickMeets (opAddr (dSrc d.words)) (dOps d.words 0 % 4) = true) ∧
    (∃ (s : State) (c : Nat), (s.chan c).stopPend = 0 ∧ s.oneHolder ∧ (s.chan c).engine < 4 ∧ ∃ d, s.cur c = some d ∧
      Executes s c 0x23 d ∧ opAddr (dSrc d.words) < 192 ∧
      s.wickMeets (opAddr (dSrc d.words)) (dOps d.words 0 % 4) = false) ∧
    (∃ (s : State) (c : Nat), (s.chan c).stopPend = 0 ∧ s.oneHolder ∧ (s.chan c).engine < 4 ∧ ∃ d, s.cur c = some d ∧
      Executes s c 0x20 d ∧ s.pastWhen (wheelTarget d) = true) ∧
    (∃ (s : State) (c : Nat), (s.chan c).stopPend = 0 ∧ s.oneHolder ∧ (s.chan c).engine < 4 ∧ ∃ d, s.cur c = some d ∧
      Executes s c 0x21 d ∧ (s.fence (hIdx (dOps d.words 0))).broken = true) ∧
    (∃ (s : State) (c : Nat), (s.chan c).stopPend = 0 ∧ s.oneHolder ∧ (s.chan c).engine < 4 ∧ ∃ d, s.cur c = some d ∧
      Executes s c 0x20 d ∧ s.pastWhen (wheelTarget d) = false ∧ ∃ i, s.lampFree (s.chan c).ctx = some i) ∧
    (∃ (s : State) (c : Nat), (s.chan c).stopPend = 0 ∧ s.oneHolder ∧ (s.chan c).engine < 4 ∧ ∃ d, s.cur c = some d ∧
      Executes s c 0x22 d ∧ (s.fence (hIdx (dOps d.words 0))).proxy = false ∧
      ((s.chan c).run.bind (·.hostWrote)) = none) :=
  ⟨
    ⟨w [runs 3 64 (some (cur [0x3F] .ready))], 3, by decide, by decide, by decide, cur [0x3F] .ready, by decide,
      by decide⟩,
    ⟨w [runs 3 64 (some (cur [0x40] .ready))], 3, by decide, by decide, by decide, cur [0x40] .ready, by decide,
      by decide⟩,
    ⟨w [runs 3 64 (some (cur [0x41, 0, 0, 0, 0, 0, 0, 0, 0, 0, 0, 0, 0, 1] .ready))], 3, by decide, by decide,
      by decide, cur [0x41, 0, 0, 0, 0, 0, 0, 0, 0, 0, 0, 0, 0, 1] .ready, by decide, by decide, by decide, by decide,
      by decide, by decide⟩,
    ⟨w [runs 3 64 (some (cur [0x41] .ready))], 3, by decide, by decide, by decide, cur [0x41] .ready, by decide,
      by decide, by decide, by decide, by decide⟩,
    ⟨w [runs 3 64 (some (cur [0x21, 0, 0, 0, 0, 0, 0, 0, 0, 0, 0, 0, 0, 0, 7] .ready)),
      modFence 0 fun f => { f with value := 7 }], 3, by decide, by decide, by decide,
      cur [0x21, 0, 0, 0, 0, 0, 0, 0, 0, 0, 0, 0, 0, 0, 7] .ready, by decide, by decide, by decide, by decide⟩,
    ⟨w [runs 3 64 (some (cur [0x21, 0, 0, 0, 0, 0, 0, 0, 0, 0, 0, 0, 0, 0, 7] .ready)),
      modFence 0 fun f => { f with value := 6 }], 3, by decide, by decide, by decide,
      cur [0x21, 0, 0, 0, 0, 0, 0, 0, 0, 0, 0, 0, 0, 0, 7] .ready, by decide, by decide, by decide, by decide⟩,
    ⟨w [runs 3 64 (some (cur [0x23, 0, 191, 0, 0, 0, 0, 0, 0, 0, 0, 0, 3] .ready))], 3, by decide, by decide, by decide,
      cur [0x23, 0, 191, 0, 0, 0, 0, 0, 0, 0, 0, 0, 3] .ready, by decide, by decide, by decide, by decide⟩,
    ⟨w [runs 3 64 (some (cur [0x23, 0, 191, 0, 0, 0, 0, 0, 0, 0, 0, 0, 2] .ready))], 3, by decide, by decide, by decide,
      cur [0x23, 0, 191, 0, 0, 0, 0, 0, 0, 0, 0, 0, 2] .ready, by decide, by decide, by decide, by decide⟩,
    ⟨w [runs 3 64 (some (cur [0x20] .ready))], 3, by decide, by decide, by decide, cur [0x20] .ready, by decide,
      by decide, by decide⟩,
    ⟨w [runs 3 64 (some (cur [0x21] .ready)), modFence 0 fun x => { x with broken := true }], 3, by decide, by decide,
      by decide, cur [0x21] .ready, by decide, by decide, by decide⟩,
    ⟨w [runs 3 64 (some (cur [0x20, 0, 0, 0, 0, 0, 0, 0, 4096] .ready))], 3, by decide, by decide, by decide,
      cur [0x20, 0, 0, 0, 0, 0, 0, 0, 4096] .ready, by decide, by decide, by decide, 0, by decide⟩,
    ⟨w [runs 3 64 (some (cur [0x22] .ready))], 3, by decide, by decide, by decide, cur [0x22] .ready, by decide,
      by decide, by decide, by decide⟩⟩

/-- States and operands that meet the hypotheses of the clauses of LaneAndBusDescriptors. -/
theorem witness_LaneAndBusDescriptors :
    (∃ (s : State) (c : Nat), (s.chan c).stopPend = 0 ∧ s.oneHolder ∧ (s.chan c).engine < 4 ∧ ∃ d, s.cur c = some d ∧
      Executes s c 0x10 d ∧ opSel (dDst d.words) = 3 ∧
      ((s.lane (opAddr (dDst d.words) / 16 % 8)).st ≠ .trained ∨ bitAt (s.lane (opAddr (dDst d.words) / 16 % 8)).pcs (opAddr (dDst d.words) % 16) = false)) ∧
    (∃ (s : State) (c : Nat), (s.chan c).stopPend = 0 ∧ s.oneHolder ∧ (s.chan c).engine < 4 ∧ ∃ d, s.cur c = some d ∧
      Executes s c 0x10 d ∧ opSel (dDst d.words) = 3 ∧ (s.lane (opAddr (dDst d.words) / 16 % 8)).st = .trained ∧
      bitAt (s.lane (opAddr (dDst d.words) / 16 % 8)).pcs (opAddr (dDst d.words) % 16) = true ∧
      s.emitReady d.words = false) ∧
    (∃ (s : State) (c : Nat), (s.chan c).stopPend = 0 ∧ s.oneHolder ∧ (s.chan c).engine < 4 ∧ ∃ d, s.cur c = some d ∧
      Executes s c 0x10 d ∧ opSel (dDst d.words) = 3 ∧ (s.lane (opAddr (dDst d.words) / 16 % 8)).st = .trained ∧
      bitAt (s.lane (opAddr (dDst d.words) / 16 % 8)).pcs (opAddr (dDst d.words) % 16) = true ∧
      s.emitReady d.words = true ∧ 0 < dOps d.words 0 / 2 ^ 16 % 32 ∧
      (opSel (dSrc d.words) = 1 ∨ opSel (dSrc d.words) = 2) ∧
      ∃ k, k = max d.sent (d.off / (dOps d.words 0 / 2 ^ 16 % 32)) ∧
      opSel (dSrc d.words + k * (dOps d.words 0 / 2 ^ 16 % 32)) = opSel (dSrc d.words) ∧
      ∃ sa, lands s c d false (dSrc d.words + k * (dOps d.words 0 / 2 ^ 16 % 32)) (dOps d.words 0 / 2 ^ 16 % 32) = some sa) ∧
    (∃ (s : State) (c : Nat), (s.chan c).stopPend = 0 ∧ s.oneHolder ∧ (s.chan c).engine < 4 ∧ ∃ d, s.cur c = some d ∧
      Executes s c 0x11 d ∧ d.data = none ∧ d.sent = 0 ∧ d.off < dLen d.words ∧
      ((s.lane (dSrc d.words / 16 % 8)).rxbuf.any (fun f => f.addr % 16 == dSrc d.words % 16 && wtBefore d.takeWT f.wt) = false)) ∧
    (∃ (s : State) (c : Nat), (s.chan c).stopPend = 0 ∧ s.oneHolder ∧ (s.chan c).engine < 4 ∧ ∃ d, s.cur c = some d ∧
      Executes s c 0x11 d ∧ d.data = none ∧ d.sent = 0 ∧ d.off < dLen d.words ∧
      ∃ f, ((s.lane (dSrc d.words / 16 % 8)).rxbuf.find? (fun f => f.addr % 16 == dSrc d.words % 16 && wtBefore d.takeWT f.wt) = some f) ∧
      f.payload.length ≤ 16 ∧ d.off % 32 = 0 ∧ dLen d.words = d.off + 32 ∧ d.words.length = 16 ∧ d.idx < 8192 ∧
      opSel (sampleDst d) = 1 ∧ ∃ da, lands s c d true (sampleDst d) 32 = some da) ∧
    (∃ (s : State) (c : Nat), (s.chan c).stopPend = 0 ∧ s.oneHolder ∧ (s.chan c).engine < 4 ∧ ∃ d, s.cur c = some d ∧
      Executes s c 0x12 d ∧ d.after = none ∧ ∃ bs : List Byte, busBytes s c d = some bs ∧
      s.busEn (busOf d.words) = false) ∧
    (∃ (s : State) (c : Nat), (s.chan c).stopPend = 0 ∧ s.oneHolder ∧ (s.chan c).engine < 4 ∧ ∃ d, s.cur c = some d ∧
      Executes s c 0x12 d ∧ d.after = none ∧ ∃ bs : List Byte, busBytes s c d = some bs ∧
      s.busEn (busOf d.words) = true ∧ bufOk d.words bs = false) ∧
    (∃ (s : State) (c : Nat), (s.chan c).stopPend = 0 ∧ s.oneHolder ∧ (s.chan c).engine < 4 ∧ ∃ d, s.cur c = some d ∧
      Executes s c 0x12 d ∧ d.after = none ∧ ∃ bs : List Byte, busBytes s c d = some bs ∧
      s.busEn (busOf d.words) = true ∧ bufOk d.words bs = true ∧ (s.pmbp (busOf d.words)).user = none ∧
      s.busAsking (busOf d.words) = []) ∧
    (∃ (s : State) (c : Nat), (s.chan c).stopPend = 0 ∧ s.oneHolder ∧ (s.chan c).engine < 4 ∧ ∃ d, s.cur c = some d ∧
      Running s ∧ dOp d.words = 0x11 ∧ d.phase = .frame) :=
  ⟨
    ⟨w [runs 3 64 (some (cur [0x10, 0, 0, 0, 0x7F, 0x03000000] .ready))], 3, by decide, by decide, by decide,
      cur [0x10, 0, 0, 0, 0x7F, 0x03000000] .ready, by decide, by decide, by decide, by decide⟩,
    ⟨w [runs 3 64 (some (cur [0x10, 0, 0, 0, 0x7F, 0x03000000] .ready)),
      onLane 7 .trained fun x => { x with pcs := 0x8000, credits := [(15, 0)] }], 3, by decide, by decide, by decide,
      cur [0x10, 0, 0, 0, 0x7F, 0x03000000] .ready, by decide, by decide, by decide, by decide, by decide, by decide⟩,
    ⟨w [runs 3 64 (some (cur [0x10, 0, 0, 0x01000000, 0x7F, 0x03000000, 0, 0, 0, 0, 0, 0, 0x100000] .ready)),
      onLane 7 .trained fun x => { x with pcs := 0x8000 }], 3, by decide, by decide, by decide,
      cur [0x10, 0, 0, 0x01000000, 0x7F, 0x03000000, 0, 0, 0, 0, 0, 0, 0x100000] .ready, by decide, by decide,
      by decide, by decide, by decide, by decide, by decide, by decide, 0, by decide, by decide, 0, by decide⟩,
    ⟨w [runs 3 64 (some (cur [0x11, 32] .ready))], 3, by decide, by decide, by decide, cur [0x11, 32] .ready, by decide,
      by decide, by decide, by decide, by decide, by decide⟩,
    ⟨w [runs 3 64 (some (cur [0x11, 32, 0, 0, 0, 0x01000000] .ready)),
      modLane 0 fun x => { x with rxbuf := [⟨1, 0x40, 1, bs [5]⟩] }], 3, by decide, by decide, by decide,
      cur [0x11, 32, 0, 0, 0, 0x01000000] .ready, by decide, by decide, by decide, by decide, by decide,
      ⟨1, 0x40, 1, bs [5]⟩, by decide, by decide, by decide, by decide, by decide, by decide, by decide, 0, by decide⟩,
    ⟨w [put F.PMB0_CTL_EN 0, runs 3 64 (some (cur [0x12] .ready))], 3, by decide, by decide, by decide,
      cur [0x12] .ready, by decide, by decide, by decide, [], by decide, by decide⟩,
    ⟨w [put F.PMB0_CTL_EN 1, runs 3 64 (some (cur [0x12, 0, 0, 0, 0, 0, 0, 0, 0, 0, 0, 0, 0x70000] .ready))], 3,
      by decide, by decide, by decide, cur [0x12, 0, 0, 0, 0, 0, 0, 0, 0, 0, 0, 0, 0x70000] .ready, by decide,
      by decide, by decide, [], by decide, by decide, by decide⟩,
    ⟨w [put F.PMB0_CTL_EN 1, runs 3 64 (some (cur [0x12] .ready))], 3, by decide, by decide, by decide,
      cur [0x12] .ready, by decide, by decide, by decide, [], by decide, by decide, by decide, by decide, by decide⟩,
    ⟨w [runs 3 64 (some (cur [0x11, 32] .frame))], 3, by decide, by decide, by decide, cur [0x11, 32] .frame, by decide,
      by decide, by decide, by decide⟩⟩

/-- States and operands that meet the hypotheses of the clauses of ChairAndObjectDescriptors. -/
theorem witness_ChairAndObjectDescriptors :
    (∃ (s : State) (c : Nat), (s.chan c).stopPend = 0 ∧ Running s ∧ ∃ d, s.cur c = some d ∧
      s.tabRemote (descChair d.words / 8) = false ∧ s.admits (descChair d.words / 8) (s.chan c).ctx = true ∧
      Executes s c 0x30 d ∧ s.owns (descChair d.words) s.self (ctxMid (s.chan c).ctx) = false ∧
      (s.chair (descChair d.words)).held = false ∧ (s.chair (descChair d.words)).abandoned = false ∧
      (s.chair (descChair d.words)).waiters = []) ∧
    (∃ (s : State) (c : Nat), (s.chan c).stopPend = 0 ∧ Running s ∧ ∃ d, s.cur c = some d ∧
      s.tabRemote (descChair d.words / 8) = false ∧ s.admits (descChair d.words / 8) (s.chan c).ctx = true ∧
      Executes s c 0x30 d ∧ s.owns (descChair d.words) s.self (ctxMid (s.chan c).ctx) = false ∧
      (s.chair (descChair d.words)).held = true) ∧
    (∃ (s : State) (c : Nat), (s.chan c).stopPend = 0 ∧ Running s ∧ ∃ d, s.cur c = some d ∧
      s.tabRemote (descChair d.words / 8) = false ∧ s.admits (descChair d.words / 8) (s.chan c).ctx = true ∧
      Executes s c 0x31 d ∧ s.owns (descChair d.words) s.self (ctxMid (s.chan c).ctx) = true ∧
      (s.chair (descChair d.words)).waiters = [] ∧ s.kindle.load = none) ∧
    (∃ (s : State) (c : Nat), (s.chan c).stopPend = 0 ∧ Running s ∧ ∃ d, s.cur c = some d ∧
      s.tabRemote (descChair d.words / 8) = false ∧ s.admits (descChair d.words / 8) (s.chan c).ctx = true ∧
      Executes s c 0x31 d ∧ s.owns (descChair d.words) s.self (ctxMid (s.chan c).ctx) = false) ∧
    (∃ (s : State) (c : Nat), (s.chan c).stopPend = 0 ∧ Running s ∧ ∃ d, s.cur c = some d ∧
      s.tabRemote (descChair d.words / 8) = false ∧ s.admits (descChair d.words / 8) (s.chan c).ctx = false ∧
      Executes s c 0x30 d) ∧
    (∃ (s : State) (c : Nat), (s.chan c).stopPend = 0 ∧ Running s ∧ ∃ d, s.cur c = some d ∧
      s.tabRemote (descChair d.words / 8) = false ∧ s.admits (descChair d.words / 8) (s.chan c).ctx = false ∧
      Executes s c 0x31 d) ∧
    (∃ (s : State) (c : Nat), (s.chan c).stopPend = 0 ∧ Running s ∧ ∃ d, s.cur c = some d ∧ s.cup.op.isSome = true ∧
      d.data = none ∧ Executes s c 0x38 d) ∧
    (∃ (s : State) (c : Nat), (s.chan c).stopPend = 0 ∧ Running s ∧ ∃ d, s.cur c = some d ∧ s.cup.op.isSome = true ∧
      d.data = none ∧ Executes s c 0x39 d) ∧
    (∃ (s : State) (c : Nat), (s.chan c).stopPend = 0 ∧ Running s ∧ ∃ d, s.cur c = some d ∧ s.cup.op = none ∧
      d.data = none ∧ Executes s c 0x38 d) ∧
    (∃ (s : State) (c : Nat), (s.chan c).stopPend = 0 ∧ Running s ∧ ∃ d, s.cur c = some d ∧ s.cup.op = none ∧
      d.data = none ∧ Executes s c 0x39 d) ∧
    (∃ (s : State) (c : Nat), (s.chan c).stopPend = 0 ∧ Running s ∧ s.cup.op = none) ∧
    (∃ (s : State) (c : Nat), (s.chan c).stopPend = 0 ∧ Running s ∧ ∃ o, s.cup.op = some o ∧ s.cup.waits = [] ∧
      (s.chan o.chan).stopPend = 0 ∧ s.cupMine o = true ∧ dOp o.words = 0x38 ∧ ∃ k, allocFails s o = some k ∧ k < 8) ∧
    (∃ (s : State) (c : Nat), (s.chan c).stopPend = 0 ∧ Running s ∧ ∃ o, s.cup.op = some o ∧ s.cup.waits = [] ∧
      (s.chan o.chan).stopPend = 0 ∧ s.cupMine o = true ∧ dOp o.words = 0x39 ∧ ∃ i, s.memOf (dOps o.words 0) = some i ∧
      (s.mobj i).cnt = 0 ∧ (s.mobj i).release = 0) ∧
    (∃ (s : State) (c : Nat), (s.chan c).stopPend = 0 ∧ Running s ∧ ∃ o, s.cup.op = some o ∧ s.cup.waits = [] ∧
      (s.chan o.chan).stopPend = 0 ∧ s.cupMine o = true ∧ dOp o.words = 0x39 ∧ ∃ i, s.memOf (dOps o.words 0) = some i ∧
      0 < (s.mobj i).cnt) :=
  ⟨
    ⟨w [runs 3 64 (some (cur [0x30] .ready)), put F.CHR_TAB_CFG_BMC 1], 3, by decide, by decide, cur [0x30] .ready,
      by decide, by decide, by decide, by decide, by decide, by decide, by decide, by decide⟩,
    ⟨w [runs 3 64 (some (cur [0x30] .ready)), put F.CHR_TAB_CFG_BMC 1,
      modChair 0 fun x => { x with held := true, mid := 0x40 }], 3, by decide, by decide, cur [0x30] .ready, by decide,
      by decide, by decide, by decide, by decide, by decide⟩,
    ⟨w [runs 3 64 (some (cur [0x31] .ready)), put F.CHR_TAB_CFG_BMC 1,
      modChair 0 fun x => { x with held := true, mid := 1 }], 3, by decide, by decide, cur [0x31] .ready, by decide,
      by decide, by decide, by decide, by decide, by decide, by decide⟩,
    ⟨w [runs 3 64 (some (cur [0x31] .ready)), put F.CHR_TAB_CFG_BMC 1], 3, by decide, by decide, cur [0x31] .ready,
      by decide, by decide, by decide, by decide, by decide⟩,
    ⟨w [runs 3 64 (some (cur [0x30] .ready)), put F.CHR_TAB_CFG_BMC 0], 3, by decide, by decide, cur [0x30] .ready,
      by decide, by decide, by decide, by decide⟩,
    ⟨w [runs 3 64 (some (cur [0x31] .ready)), put F.CHR_TAB_CFG_BMC 0], 3, by decide, by decide, cur [0x31] .ready,
      by decide, by decide, by decide, by decide⟩,
    ⟨w [runs 3 64 (some (cur [0x38] .ready)), modCup fun x => { x with op := some ⟨4, 64, dwords [0x38]⟩ }], 3,
      by decide, by decide, cur [0x38] .ready, by decide, by decide, by decide, by decide⟩,
    ⟨w [runs 3 64 (some (cur [0x39] .ready)), modCup fun x => { x with op := some ⟨4, 64, dwords [0x38]⟩ }], 3,
      by decide, by decide, cur [0x39] .ready, by decide, by decide, by decide, by decide⟩,
    ⟨w [runs 3 64 (some (cur [0x38] .ready))], 3, by decide, by decide, cur [0x38] .ready, by decide, by decide,
      by decide, by decide⟩,
    ⟨w [runs 3 64 (some (cur [0x39] .ready))], 3, by decide, by decide, cur [0x39] .ready, by decide, by decide,
      by decide, by decide⟩,
    ⟨State.reset, 3, by decide, by decide, by decide⟩,
    ⟨w [runs 3 64 (some (cur [0x38] .cup)), modCup fun x => { x with op := some ⟨3, 64, dwords [0x38]⟩ }], 3, by decide,
      by decide, ⟨3, 64, dwords [0x38]⟩, by decide, by decide, by decide, by decide, by decide, 1, by decide, by decide⟩,
    ⟨w [runs 3 64 (some (cur [0x39, 0, 0, 0, 0, 0, 0, 0, 0, 0, 0, 0, 0x40000009] .cup)),
      modMobj 9 fun m => { m with live := true },
      modCup fun x => { x with op := some ⟨3, 64, dwords [0x39, 0, 0, 0, 0, 0, 0, 0, 0, 0, 0, 0, 0x40000009]⟩ }], 3,
      by decide, by decide, ⟨3, 64, dwords [0x39, 0, 0, 0, 0, 0, 0, 0, 0, 0, 0, 0, 0x40000009]⟩, by decide, by decide,
      by decide, by decide, by decide, 9, by decide, by decide, by decide⟩,
    ⟨w [runs 3 64 (some (cur [0x39, 0, 0, 0, 0, 0, 0, 0, 0, 0, 0, 0, 0x40000009] .cup)),
      modMobj 9 fun m => { m with live := true, unattr := 1 },
      modCup fun x => { x with op := some ⟨3, 64, dwords [0x39, 0, 0, 0, 0, 0, 0, 0, 0, 0, 0, 0, 0x40000009]⟩ }], 3,
      by decide, by decide, ⟨3, 64, dwords [0x39, 0, 0, 0, 0, 0, 0, 0, 0, 0, 0, 0, 0x40000009]⟩, by decide, by decide,
      by decide, by decide, by decide, 9, by decide, by decide⟩⟩

/-- States and operands that meet the hypotheses of the clauses of CupboardAndMemoryTime. -/
theorem witness_CupboardAndMemoryTime :
    (∃ s : State, Running s ∧ ∃ o, s.cup.op = some o ∧ dOp o.words = 0x38 ∧ isDevCtx o.ctx = true ∧
      (s.ctx o.ctx).losing = none ∧ (s.ctx o.ctx).st = .live ∧ s.cup.waits = [] ∧ ∃ x, allocGets s o = some x ∧
      x.2.1 + x.2.2 ≤ 32768) ∧
    (∃ s : State, Running s ∧ ∃ o, s.cup.op = some o ∧ dOp o.words = 0x38 ∧ isDevCtx o.ctx = false ∧
      (s.ctx o.ctx).losing = none ∧ (s.ctx o.ctx).st = .live ∧ s.cup.waits = [] ∧ ∃ x, allocPages s o = some x ∧
      (x.2.2.all (fun p => p < 512) = true)) ∧
    (∃ s : State, Running s ∧ ∃ r, s.cup.scrub.head? = some r ∧ r.1 + r.2 ≤ 32768 ∧ s.oneHolder ∧
      s.firstRefused ⟨3, 2, 15, 0, false, 0xFF, 0, 64 * r.1, 64 * r.2, true⟩ = none) ∧
    (∃ s : State, Running s ∧ ∃ n, n < 64 ∧ ∃ c, (s.ctx n).losing = some c ∧ (s.ctx n).st = .live ∧
      s.cupBusyFor n = false) ∧
    (∃ s : State, Running s ∧ ∃ e, e < 4 ∧ s.oneHolder) :=
  ⟨
    ⟨w [put F.CUP_CTL_EN 1, put F.CUP_POOL_BASE 511, put F.CUP_POOL_PAGES 1,
      modCup fun x => { x with op := some ⟨3, 64, dwords [0x38, 0, 0, 0, 0, 0, 0, 0, 0, 0, 0, 0, 4096]⟩ }], by decide,
      ⟨3, 64, dwords [0x38, 0, 0, 0, 0, 0, 0, 0, 0, 0, 0, 0, 4096]⟩, by decide, by decide, by decide, by decide,
      by decide, by decide, (0, 32704, 64), by decide, by decide⟩,
    ⟨w [put F.CUP_CTL_EN 1, put F.CUP_POOL_BASE 511, put F.CUP_POOL_PAGES 1, inCtx 5 .live,
      modCtx 5 fun x => { x with mode := 2, root := 8192 }, putWord 5 0x2B8 1,
      modCup fun x => { x with op := some ⟨3, 5, dwords [0x38, 0, 0, 0, 0, 0, 0, 0, 0, 0, 0, 0, 4096]⟩ }], by decide,
      ⟨3, 5, dwords [0x38, 0, 0, 0, 0, 0, 0, 0, 0, 0, 0, 0, 4096]⟩, by decide, by decide, by decide, by decide,
      by decide, by decide, (0, 256, [511]), by decide, by decide⟩,
    ⟨w [modCup fun x => { x with scrub := [(32767, 1)] }], by decide, (32767, 1), by decide, by decide, by decide,
      by decide⟩,
    ⟨w [modCtx 63 fun x => { x with st := .live, losing := some 3 }], by decide, 63, by decide, 3, by decide, by decide,
      by decide⟩,
    ⟨State.reset, by decide, 3, by decide, by decide⟩⟩

/-- States and operands that meet the hypotheses of the clauses of ChairPorts. -/
theorem witness_ChairPorts :
    (∃ (s : State) (p : Path) (n : Nat), n < 128 ∧ s.tabRemote (n / 8) = false ∧ Reaches s p (0x400 + 4 * n) ∧
      s.admits (n / 8) (pathCtx p) = true ∧ ∃ tag, tag < 65536 ∧ (s.chair n).held = false ∧ (s.chair n).waiters = []) ∧
    (∃ (s : State) (p : Path) (n : Nat), n < 128 ∧ s.tabRemote (n / 8) = false ∧ Reaches s p (0x400 + 4 * n) ∧
      s.admits (n / 8) (pathCtx p) = true ∧ ∃ tag, tag < 65536 ∧ (s.chair n).held = true) ∧
    (∃ (s : State) (p : Path) (n : Nat), n < 128 ∧ s.tabRemote (n / 8) = false ∧ Reaches s p (0x400 + 4 * n) ∧
      s.admits (n / 8) (pathCtx p) = true ∧ s.owns n s.self (pathMid p) = true ∧ (s.chair n).waiters = [] ∧
      s.kindle.load = none) ∧
    (∃ (s : State) (p : Path) (n : Nat), n < 128 ∧ s.tabRemote (n / 8) = false ∧ Reaches s p (0x400 + 4 * n) ∧
      s.admits (n / 8) (pathCtx p) = true ∧ s.owns n s.self (pathMid p) = false) ∧
    (∃ (s : State) (p : Path) (n : Nat), n < 128 ∧ s.tabRemote (n / 8) = false ∧ Reaches s p (0x400 + 4 * n) ∧
      s.admits (n / 8) (pathCtx p) = false) ∧
    (∃ (s : State) (p : Path) (n : Nat), n < 128 ∧ s.tabRemote (n / 8) = false ∧ Reaches s p (0x600 + 4 * n) ∧
      s.admits (n / 8) (pathCtx p) = true ∧ (s.chair n).held = false ∧ (s.chair n).waiters = []) ∧
    (∃ (s : State) (p : Path) (n : Nat), n < 128 ∧ s.tabRemote (n / 8) = false ∧ Reaches s p (0x600 + 4 * n) ∧
      s.admits (n / 8) (pathCtx p) = true ∧ (s.chair n).held = true ∧ s.owns n s.self (pathMid p) = false) ∧
    (∃ (s : State) (p : Path) (n : Nat), n < 128 ∧ s.tabRemote (n / 8) = false ∧ Running s ∧
      s.heldOn p (.chrWait n) = true ∧ (∀ h, (s.port p).held = some h → h.total = 1 ∧ h.got = [])) ∧
    (∃ (s : State) (n : Nat), n < 128 ∧ s.tabRemote (n / 8) = false ∧ Running s ∧ ∃ c, (s.chan c).st = .parked ∧
      (s.chan c).park = .chair n ∧ (s.chan c).run.isSome = true) ∧
    (∃ (s : State) (n : Nat), n < 128 ∧ s.tabRemote (n / 8) = false ∧ Running s ∧ s.gov.job = none) :=
  ⟨
    ⟨w [put F.CHR_TAB_CFG_BMC 1, putI 15 F.CHR_TAB_CFG_BMC 1], .scp, 127, by decide, by decide, by decide, by decide,
      65535, by decide, by decide, by decide⟩,
    ⟨w [putI 15 F.CHR_TAB_CFG_BMC 1, modChair 127 fun x => { x with held := true }], .scp, 127, by decide, by decide,
      by decide, by decide, 65535, by decide, by decide⟩,
    ⟨w [putI 15 F.CHR_TAB_CFG_BMC 1, modChair 127 fun x => { x with held := true, mid := 1 }], .scp, 127, by decide,
      by decide, by decide, by decide, by decide, by decide, by decide⟩,
    ⟨w [putI 15 F.CHR_TAB_CFG_BMC 1], .scp, 127, by decide, by decide, by decide, by decide, by decide⟩,
    ⟨w [putI 15 F.CHR_TAB_CFG_BMC 0], .scp, 127, by decide, by decide, by decide, by decide⟩,
    ⟨w [putI 15 F.CHR_TAB_CFG_BMC 1], .scp, 127, by decide, by decide, by decide, by decide, by decide, by decide⟩,
    ⟨w [putI 15 F.CHR_TAB_CFG_BMC 1, modChair 127 fun x => { x with held := true, mid := 0x40 }], .scp, 127, by decide,
      by decide, by decide, by decide, by decide, by decide⟩,
    ⟨w [modScp fun x => { x with held := some (held (.chrWait 127) 0x7FC) }], .scp, 127, by decide, by decide,
      by decide, by decide, fun _ e => by cases e; decide⟩,
    ⟨w [runs 3 64 none, modChan 3 fun x => { x with st := .parked, park := .chair 127 }], 127, by decide, by decide,
      by decide, 3, by decide, by decide, by decide⟩,
    ⟨State.reset, 127, by decide, by decide, by decide, by decide⟩⟩

/-- States and operands that meet the hypotheses of the clauses of LanesTransmit. -/
theorem witness_LanesTransmit :
    (∃ (s : State) (l : Nat), Running s ∧ l < 8 ∧ (s.lane l).tx = none ∧ (s.lane l).st = .trained ∧ (s.lane l).kq = [] ∧
      ∃ f, (s.lane l).resend.head? = some f ∧ (s.lane l).owed = none ∧ s.holdCalled = false) ∧
    (∃ (s : State) (l : Nat), Running s ∧ l < 8 ∧ (s.lane l).tx = none ∧ (s.lane l).st = .trained ∧ (s.lane l).kq = [] ∧
      (s.lane l).resend = [] ∧ (s.lane l).aborted.length = 1 ∧ ∃ f, (s.lane l).aborted.head? = some f ∧
      (s.lane l).waiting = [] ∧ (s.lane l).owed = none ∧ (s.lane l).turn = none ∧ s.holdCalled = false ∧
      (s.lane l).emitCan f.pc = true) ∧
    (∃ (s : State) (l : Nat), Running s ∧ l < 8 ∧ (s.lane l).tx = none ∧ (s.lane l).st = .trained ∧ (s.lane l).kq = [] ∧
      (s.lane l).resend = [] ∧ (s.lane l).aborted = [] ∧ (s.lane l).owed = none ∧ (s.lane l).turn = none ∧
      s.holdCalled = false ∧ (s.lane l).waiting.length = 1 ∧ ∃ f, (s.lane l).waiting.head? = some f ∧
      ∃ c, frameChan f = some c ∧ (s.lane l).emitCan f.pc = true) ∧
    (∃ (s : State) (l : Nat), Running s ∧ l < 8 ∧ (s.lane l).tx = none ∧
      ((s.lane l).st = .trained ∨ (s.lane l).st = .hold) ∧ ∃ f, (s.lane l).unacked.head? = some f ∧
      (s.lane l).dueAgain f = true) ∧
    (∃ (s : State) (l : Nat), Running s ∧ l < 8 ∧ (s.lane l).tx = none ∧
      ((s.lane l).st = .trained ∨ (s.lane l).st = .hold) ∧ ∃ f, (s.lane l).unacked.head? = some f ∧
      (s.lane l).st = .trained ∧ (s.lane l).dueAgain f = false ∧ f.retries < 3) ∧
    (∃ (s : State) (l : Nat), Running s ∧ l < 8 ∧ (s.lane l).tx = none ∧
      ((s.lane l).st = .trained ∨ (s.lane l).st = .hold) ∧ ∃ f, (s.lane l).unacked.head? = some f ∧
      (s.lane l).st = .trained ∧ (s.lane l).dueAgain f = false ∧ 3 ≤ f.retries) ∧
    (∃ (s : State) (l : Nat), Running s ∧ l < 8 ∧ (s.lane l).tx = none ∧ (s.lane l).turn = none ∧
      (s.lane l).owed = none ∧ (s.lane l).unacked = [] ∧ (s.lane l).resend = [] ∧ (s.lane l).kq = [] ∧
      (s.lane l).rxbuf = [] ∧ (s.lane l).st = .trained ∧ s.fldI 0 (F.LAN_CTL_TURNS.lane l) = 1 ∧ (s.lane l).pcs ≠ 0 ∧
      s.holdCalled = false) ∧
    (∃ (s : State) (l : Nat), Running s ∧ l < 8 ∧ (s.lane l).tx = none ∧ (s.lane l).turn = none ∧
      (s.lane l).owed = none ∧ (s.lane l).unacked = [] ∧ (s.lane l).resend = [] ∧ (s.lane l).kq = [] ∧
      (s.lane l).rxbuf = [] ∧ (s.lane l).st = .discover ∧ (s.lane l).disc < 16) ∧
    (∃ (s : State) (l : Nat), Running s ∧ l < 8 ∧ (s.lane l).tx = none ∧ (s.lane l).turn ≠ none) ∧
    (∃ (s : State) (l : Nat), Running s ∧ l < 8 ∧ (s.lane l).tx = none ∧ s.holdCalled = true ∧
      (s.lane l).st = .trained ∧ s.entryOn l = false ∧ (s.lane l).kq = []) :=
  ⟨
    ⟨w [onLane 7 .trained fun x => { x with resend := [frame] }], 7, by decide, by decide, by decide, by decide,
      by decide, frame, by decide, by decide, by decide⟩,
    ⟨w [onLane 7 .trained fun x => { x with aborted := [frame], credits := [(15, 1)] }], 7, by decide, by decide,
      by decide, by decide, by decide, by decide, by decide, frame, by decide, by decide, by decide, by decide,
      by decide, by decide⟩,
    ⟨w [onLane 7 .trained fun x => { x with waiting := [frame], credits := [(15, 1)] }], 7, by decide, by decide,
      by decide, by decide, by decide, by decide, by decide, by decide, by decide, by decide, by decide, frame,
      by decide, 3, by decide, by decide⟩,
    ⟨w [onLane 7 .trained fun x => { x with unacked := [frame], resend := [frame] }], 7, by decide, by decide,
      by decide, by decide, frame, by decide, by decide⟩,
    ⟨w [onLane 7 .trained fun x => { x with unacked := [{ frame with retries := 2 }] }], 7, by decide, by decide,
      by decide, by decide, { frame with retries := 2 }, by decide, by decide, by decide, by decide⟩,
    ⟨w [onLane 7 .trained fun x => { x with unacked := [{ frame with retries := 3 }] }], 7, by decide, by decide,
      by decide, by decide, { frame with retries := 3 }, by decide, by decide, by decide, by decide⟩,
    ⟨w [onLane 7 .trained fun x => { x with pcs := 0x8000 }, putI 0 (F.LAN_CTL_TURNS.lane 7) 1], 7, by decide,
      by decide, by decide, by decide, by decide, by decide, by decide, by decide, by decide, by decide, by decide,
      by decide, by decide⟩,
    ⟨w [onLane 7 .discover fun x => { x with disc := 15 }], 7, by decide, by decide, by decide, by decide, by decide,
      by decide, by decide, by decide, by decide, by decide, by decide⟩,
    ⟨w [onLane 7 .trained fun x => { x with turn := some 15 }], 7, by decide, by decide, by decide, by decide⟩,
    ⟨w [onLane 7 .trained fun x => x, modPwr fun p => { p with seq := some true }], 7, by decide, by decide, by decide,
      by decide, by decide, by decide, by decide⟩⟩

/-- States and operands that meet the hypotheses of the clauses of LanesReceiveAndTrain. -/
theorem witness_LanesReceiveAndTrain :
    (∃ (s : State) (l : Nat), Running s ∧ l < 8 ∧ (s.lane l).tx = none ∧ (s.lane l).st ≠ .hold ∧
      ∃ pc, (s.lane l).turn = some pc ∧ pc < 16 ∧ (s.lane l).rxbuf = [] ∧ (s.lane l).st = .trained ∧
      s.gov.measuring = false ∧ ∃ bs : List Byte, 8 ≤ bs.length ∧ bs.length ≤ 16 ∧ SMap.get 0 (s.lane l).rxSeq pc < 8) ∧
    (∃ (s : State) (l : Nat), Running s ∧ l < 8 ∧ (s.lane l).tx = none ∧ (s.lane l).st ≠ .hold ∧
      ∃ pc, (s.lane l).turn = some pc ∧ pc < 16 ∧ (s.lane l).rxbuf = [] ∧ (s.lane l).st = .trained ∧
      SMap.get 0 (s.lane l).rxSeq pc < 8 ∧ ∃ b : Byte, b.toNat < 2) ∧
    (∃ (s : State) (l : Nat), Running s ∧ l < 8 ∧ (s.lane l).tx = none ∧ (s.lane l).st ≠ .hold ∧
      ∃ pc, (s.lane l).turn = some pc ∧ pc < 16 ∧ (s.lane l).rxbuf = [] ∧ (s.lane l).st = .discover ∧
      SMap.get 0 (s.lane l).rxSeq pc < 8 ∧ ∃ bs : List Byte, bs.length = 4) ∧
    (∃ (s : State) (l : Nat), Running s ∧ l < 8 ∧ (s.lane l).tx = none ∧ (s.lane l).st ≠ .hold ∧
      ∃ pc, (s.lane l).turn = some pc ∧ pc < 16 ∧ (s.lane l).rxbuf = [] ∧ (s.lane l).st = .trained ∧
      SMap.get 0 (s.lane l).rxSeq pc < 8 ∧ ∃ b : Byte, 2 ≤ b.toNat ∧ b.toNat < 4) ∧
    (∃ (s : State) (l : Nat), Running s ∧ l < 8 ∧ (s.lane l).tx = none ∧ (s.lane l).st ≠ .hold ∧
      ∃ pc, (s.lane l).turn = some pc ∧ pc < 16 ∧ (s.lane l).rxbuf = [] ∧
      ((s.lane l).st = .trained ∨ (s.lane l).st = .discover) ∧ ∃ (chars : List Byte) (crc : Nat), crc ≠ crc16 chars) ∧
    (∃ (s : State) (l : Nat), Running s ∧ l < 8 ∧ (s.lane l).tx = none ∧ (s.lane l).st ≠ .hold ∧
      (s.lane l).owed ≠ none ∧ (s.lane l).kq = []) ∧
    (∃ (s : State) (l : Nat), Running s ∧ l < 8 ∧ (s.lane l).tx = none ∧ (s.lane l).st ≠ .hold ∧ (s.lane l).st = .lock) ∧
    (∃ (s : State) (l : Nat), Running s ∧ l < 8 ∧ (s.lane l).tx = none ∧ (s.lane l).st ≠ .hold ∧
      (s.lane l).st = .discover ∧ (s.lane l).disc = 16 ∧ (s.lane l).turn = none ∧ (s.lane l).owed = none ∧
      (s.lane l).pcs ≠ 0) ∧
    (∃ (s : State) (l : Nat), Running s ∧ l < 8 ∧ (s.lane l).tx = none ∧ (s.lane l).st ≠ .hold ∧
      (s.lane l).st = .discover ∧ (s.lane l).disc = 16 ∧ (s.lane l).turn = none ∧ (s.lane l).owed = none ∧
      (s.lane l).pcs = 0) ∧
    (∃ (s : State) (l : Nat), Running s ∧ l < 8 ∧ (s.lane l).tx = none ∧ (s.lane l).st ≠ .hold ∧ (s.lane l).st = .down ∧
      (s.lane l).trainAt ≠ 0 ∧ s.pwr.standby = false ∧ s.fldI 0 (F.LAN_CTL_EN.lane l) = 1 ∧
      s.fldI 0 (F.LAN_CTL_AUTO.lane l) = 1) ∧
    (∃ (s : State) (l : Nat), Running s ∧ l < 8 ∧ (s.lane l).tx = none ∧ (s.lane l).st ≠ .hold ∧
      ∃ p, Reaches s p (0x800 + 32 * l) ∧ s.fldI 0 (F.LAN_CTL_EN.lane l) = 1 ∧ s.fldI 0 (F.LAN_CTL_LOCK.lane l) = 0) :=
  ⟨
    ⟨w [onLane 7 .trained fun x => { x with turn := some 15 }], 7, by decide, by decide, by decide, by decide, 15,
      by decide, by decide, by decide, by decide, by decide, List.replicate 8 0, by decide, by decide, by decide⟩,
    ⟨w [onLane 7 .trained fun x => { x with turn := some 15 }], 7, by decide, by decide, by decide, by decide, 15,
      by decide, by decide, by decide, by decide, by decide, 1, by decide⟩,
    ⟨w [onLane 7 .discover fun x => { x with turn := some 15 }], 7, by decide, by decide, by decide, by decide, 15,
      by decide, by decide, by decide, by decide, by decide, List.replicate 4 0, by decide⟩,
    ⟨w [onLane 7 .trained fun x => { x with turn := some 15 }], 7, by decide, by decide, by decide, by decide, 15,
      by decide, by decide, by decide, by decide, by decide, 3, by decide, by decide⟩,
    ⟨w [onLane 7 .discover fun x => { x with turn := some 15 }], 7, by decide, by decide, by decide, by decide, 15,
      by decide, by decide, by decide, by decide, [], 5, by decide⟩,
    ⟨w [onLane 7 .trained fun x => { x with owed := some true }], 7, by decide, by decide, by decide, by decide,
      by decide, by decide⟩,
    ⟨w [onLane 7 .lock fun x => x], 7, by decide, by decide, by decide, by decide, by decide⟩,
    ⟨w [onLane 7 .discover fun x => { x with disc := 16, pcs := 0x8000 }], 7, by decide, by decide, by decide,
      by decide, by decide, by decide, by decide, by decide, by decide⟩,
    ⟨w [onLane 7 .discover fun x => { x with disc := 16 }], 7, by decide, by decide, by decide, by decide, by decide,
      by decide, by decide, by decide, by decide⟩,
    ⟨w [onLane 7 .down fun x => { x with trainAt := 1 }, putI 0 (F.LAN_CTL_EN.lane 7) 1,
      putI 0 (F.LAN_CTL_AUTO.lane 7) 1], 7, by decide, by decide, by decide, by decide, by decide, by decide, by decide,
      by decide, by decide⟩,
    ⟨w [putI 0 (F.LAN_CTL_EN.lane 7) 1], 7, by decide, by decide, by decide, by decide, .scp, by decide, by decide,
      by decide⟩⟩

/-- States and operands that meet the hypotheses of the clauses of KindleRequestsAndLoads. -/
theorem witness_KindleRequestsAndLoads :
    (∃ s : State, Running s ∧ ∃ mag, mag < 8 ∧ s.kindle.req = false ∧ s.kindleRefuses = true) ∧
    (∃ s : State, Running s ∧ ∃ (mag : _) (dir : _), mag < 8 ∧ s.kindle.req = false ∧ s.kindleRefuses = false ∧
      ((List.range 8).all (fun l => !bitAt s.armedMask l || !slotValid (s.slot l s.bankNow (8 * b2n dir + mag))) = true)) ∧
    (∃ s : State, Running s ∧ ∃ (mag : _) (dir : _), mag < 8 ∧ s.kindle.req = false ∧ s.kindleRefuses = false ∧
      ((List.range 8).any (fun l => bitAt s.armedMask l && slotValid (s.slot l s.bankNow (8 * b2n dir + mag))) = true)) ∧
    (∃ s : State, Running s ∧ s.kindle.req = true) ∧
    (∃ s : State, Running s ∧ ∃ e, s.kindle.entry = some e ∧ e.withdrawn = false) ∧
    (∃ s : State, Running s ∧ ∃ l, l < 8 ∧ (s.lane l).st = .trained ∧ (s.lane l).tx = none ∧ (s.lane l).kfirst = true ∧
      ∃ f, (s.lane l).kq.head? = some f ∧ s.placedWaits f = true ∧ 1 ≤ (s.lane l).credit f.pc) ∧
    (∃ s : State, Running s ∧ ∃ p, Reaches s p 0x210 ∧ s.loadable p = true ∧
      ((List.range 128).all (fun i => s.firstRefused (s.imgAccess i) == none) = true) ∧ s.oneHolder ∧
      s.fld F.KND_STAT_BANK ≤ 1 ∧ s.fld F.KND_IMG_BASE * 0x4000 + 0x4000 ≤ 0x200000) ∧
    (∃ s : State, Running s ∧ ∃ p, Reaches s p 0x210 ∧ s.loadable p = false) ∧
    (∃ s : State, Running s ∧ s.kindle.load ≠ none ∧ s.fld F.KND_STAT_BANK ≤ 1 ∧ s.kindle.loadErr = 0 ∧
      s.shadowFails = none) ∧
    (∃ s : State, Running s ∧ s.kindle.load ≠ none ∧ s.fld F.KND_STAT_BANK ≤ 1 ∧ ∃ f, s.loadFailure = some f ∧
      f.2 < 16 ∧ f.1 < 128) ∧
    (∃ s : State, Running s ∧ s.fld F.KND_STAT_FLIP_PEND = 1 ∧ s.kindle.entry = none ∧ s.fld F.KND_STAT_BANK ≤ 1) :=
  ⟨
    ⟨State.reset, by decide, 7, by decide, by decide, by decide⟩,
    ⟨w [armed], by decide, 7, true, by decide, by decide, by decide, by decide⟩,
    ⟨w [armed, storeBytes .lane (slotAddr 7 0 15) [1]], by decide, 7, true, by decide, by decide, by decide, by decide⟩,
    ⟨w [modKindle fun k => { k with req := true }], by decide, by decide⟩,
    ⟨w [modKindle fun k => { k with entry := some ⟨1, 7, true, 0, 0, 128, false, false, 0⟩ }], by decide,
      ⟨1, 7, true, 0, 0, 128, false, false, 0⟩, by decide, by decide⟩,
    ⟨w [put F.KND_CTL_UNPLACE_LOST 0,
      onLane 7 .trained fun x => { x with kfirst := true, credits := [(15, 1)], kq := [{ frame with placed := some 16 }] }],
      by decide, 7, by decide, by decide, by decide, by decide, { frame with placed := some 16 }, by decide, by decide,
      by decide⟩,
    ⟨w [put F.KND_CHAIR_EN 1, put F.CHR_TAB_CFG_BMC 1, modChair 0 fun x => { x with held := true, mid := 1 }],
      by decide, .scp, by decide, by decide, by decide, by decide, by decide, by decide⟩,
    ⟨State.reset, by decide, .scp, by decide, by decide⟩,
    ⟨w [modKindle fun k => { k with load := some 1 }], by decide, by decide, by decide, by decide, by decide⟩,
    ⟨w [modKindle fun k => { k with load := some 1, loadErr := 3, loadAt := 127 }], by decide, by decide, by decide,
      (127, 3), by decide, by decide, by decide⟩,
    ⟨w [put F.KND_STAT_FLIP_PEND 1], by decide, by decide, by decide, by decide⟩⟩

/-- States and operands that meet the hypotheses of the clauses of WheelTracker. -/
theorem witness_WheelTracker :
    (∃ s : State, Running s ∧ ∃ dt8, s.fld F.WHL_CTL_SRC = 0 ∧ s.wheel.st = .locked ∧ NoneMissed s dt8 ∧
      (edgeErr s dt8).natAbs ≤ s.winAt (edgeCyc s dt8) ∧ (edgeErr s dt8).natAbs ≤ s.lockTolAt (edgeCyc s dt8)) ∧
    (∃ s : State, Running s ∧ ∃ dt8, s.fld F.WHL_CTL_SRC = 0 ∧ s.wheel.st = .locked ∧ NoneMissed s dt8 ∧
      s.winAt (edgeCyc s dt8) < (edgeErr s dt8).natAbs) ∧
    (∃ s : State, Running s ∧ ∃ dt8, s.fld F.WHL_CTL_SRC = 0 ∧ s.wheel.st = .acquire ∧ s.wheel.qual = true ∧
      NoneMissed s dt8 ∧ 15 ≤ s.wheel.good ∧ (edgeErr s dt8).natAbs ≤ s.winAt (edgeCyc s dt8) ∧
      (edgeErr s dt8).natAbs ≤ s.lockTolAt (edgeCyc s dt8)) ∧
    (∃ s : State, Running s ∧ ∃ dt8, s.fld F.WHL_CTL_SRC = 0 ∧ s.wheel.st = .coast ∧ NoneMissed s dt8 ∧
      ∃ l, s.wheel.lastEdge = some l ∧ spacingOk (8 * s.clk + dt8 - l) = true ∧
      near2 (8 * s.clk + dt8 - l) s.wheel.est = true) ∧
    (∃ s : State, Running s ∧ ∃ dt8, s.fld F.WHL_CTL_SRC = 0 ∧ (s.wheel.st = .idle ∨ s.wheel.st = .lost) ∧
      ∃ l, s.wheel.lastEdge = some l ∧ s.wheel.spacings.length = 2 ∧ spacingOk (8 * s.clk + dt8 - l) = true ∧
      agree ((8 * s.clk + dt8 - l) :: s.wheel.spacings) = true) ∧
    (∃ s : State, Running s ∧ s.fld F.WHL_CTL_SRC = 0 ∧ s.wheel.st = .master) ∧
    (∃ s : State, Running s ∧ s.wheel.st = .locked ∧ s.wheel.miss < 64) ∧
    (∃ s : State, Running s ∧ (s.wheel.st = .coast ∨ s.wheel.st = .acquire) ∧ s.wheel.miss < 64) ∧
    (∃ s : State, Running s ∧ (s.wheel.st = .coast ∨ s.wheel.st = .acquire) ∧ 64 ≤ s.wheel.miss) ∧
    (∃ s : State, Running s ∧ 0 < s.wheel.hold ∧ 0 < s.wheel.inc) ∧
    (∃ s : State, Running s ∧ (s.wheel.st = .idle ∨ s.wheel.st = .lost ∨ s.wheel.st = .master) ∧
      ∃ n, s.wheel.nomPend = some n) ∧
    (∃ s : State, Running s ∧ ∃ (p : _) (v : Word), Reaches s p 0x180 ∧ s.fld F.WHL_CTL_LOCK = 0 ∧
      s.wheel.st ≠ .master ∧ bits v.toNat F.WHL_CTL_SRC.lo 1 ≠ s.fld F.WHL_CTL_SRC) :=
  ⟨
    ⟨w [modWheel fun x => { x with st := .locked }], by decide, 0, by decide, by decide, by decide, by decide,
      by decide⟩,
    ⟨w [modWheel fun x => { x with st := .locked, time := 2048 }], by decide, 0, by decide, by decide, by decide,
      by decide⟩,
    ⟨w [modWheel fun x => { x with st := .acquire, qual := true, good := 15 }], by decide, 0, by decide, by decide,
      by decide, by decide, by decide, by decide, by decide⟩,
    ⟨w [modWheel fun x => { x with st := .coast, lastEdge := some 0 }], by decide, 6528, by decide, by decide,
      by decide, 0, by decide, by decide, by decide⟩,
    ⟨w [modWheel fun x => { x with st := .lost, lastEdge := some 0, spacings := [32000, 32000] }], by decide, 31684,
      by decide, by decide, 0, by decide, by decide, by decide, by decide⟩,
    ⟨w [modWheel fun x => { x with st := .master }], by decide, by decide, by decide⟩,
    ⟨w [modWheel fun x => { x with st := .locked, miss := 63 }], by decide, by decide, by decide⟩,
    ⟨w [modWheel fun x => { x with st := .coast, miss := 63 }], by decide, by decide, by decide⟩,
    ⟨w [modWheel fun x => { x with st := .acquire, miss := 64 }], by decide, by decide, by decide⟩,
    ⟨w [modWheel fun x => { x with hold := 1 }], by decide, by decide, by decide⟩,
    ⟨w [modWheel fun x => { x with nomPend := some 12800 }], by decide, by decide, 12800, by decide⟩,
    ⟨State.reset, by decide, .scp, BitVec.ofNat 32 (2 ^ F.WHL_CTL_SRC.lo), by decide, by decide, by decide, by decide⟩⟩

/-- States and operands that meet the hypotheses of the clauses of LamplighterAndPtm. -/
theorem witness_LamplighterAndPtm :
    (∃ s : State, Running s ∧ s.lampNext = none) ∧
    (∃ s : State, Running s ∧ s.pfHeld = false ∧ ∃ e, s.lampNext = some e ∧
      ((s.lamp.entries.filter (fun x => x.idx == e.idx)).length = 1) ∧ s.lamp.waiters = [] ∧ s.lamp.fired ≤ 4 ∧
      ((s.chan e.chan).park = .wheel ∨ (s.chan e.chan).park = .class2)) ∧
    (∃ s : State, Running s ∧ s.lampWaiter = none) ∧
    (∃ s : State, Running s ∧ ∃ w, s.lampWaiter = some w ∧ ∃ i, s.lampFree w.ctx = some i) ∧
    (∃ s : State, Running s ∧ ∃ p, Reaches s p 0x1B0 ∧ s.ptm.start ≠ none) ∧
    (∃ s : State, Running s ∧ ∃ p, Reaches s p 0x1B0 ∧ s.ptm.start = none ∧ s.linkUp = true ∧ s.host.ptmEn = true) ∧
    (∃ s : State, Running s ∧ ∃ p, Reaches s p 0x1B0 ∧ s.ptm.start = none ∧ (s.linkUp = false ∨ s.host.ptmEn = false)) ∧
    (∃ s : State, Running s ∧ s.ptm.start = none ∧ s.linkUp = true ∧ s.host.ptmEn = true ∧
      s.fld F.WHL_PTM_CTL_INTERVAL ≠ 0) ∧
    (∃ s : State, Running s ∧ s.fld F.WHL_PTM_CTL_INTERVAL = 0) ∧
    (∃ s : State, Running s ∧ s.linkUp = true ∧ s.ptm.start ≠ none) ∧
    (∃ s : State, Running s ∧ ∃ k, s.ptm.start = some k) :=
  ⟨
    ⟨State.reset, by decide, by decide⟩,
    ⟨w [runs 3 64 (some (cur [0x20] .ready)), modChan 3 fun x => { x with st := .parked, park := .wheel },
      modLamp fun l => { l with entries := [⟨511, 3, 64, 4096, 0, none, false⟩] }], by decide, by decide,
      ⟨511, 3, 64, 4096, 0, none, false⟩, by decide, by decide, by decide, by decide, by decide⟩,
    ⟨State.reset, by decide, by decide⟩,
    ⟨w [modLamp fun l => { l with waiters := [⟨3, 64, 4096, 0, 0, false⟩] }], by decide, ⟨3, 64, 4096, 0, 0, false⟩,
      by decide, 0, by decide⟩,
    ⟨w [.upd (.ptm ⟨some 0, 0, false, 0⟩)], by decide, .scp, by decide, by decide⟩,
    ⟨w [up, modHost fun h => { h with ptmEn := true }], by decide, .scp, by decide, by decide, by decide, by decide⟩,
    ⟨w [up], by decide, .scp, by decide, by decide, by decide⟩,
    ⟨w [up, modHost fun h => { h with ptmEn := true }, put F.WHL_PTM_CTL_INTERVAL 1], by decide, by decide, by decide,
      by decide, by decide⟩,
    ⟨w [put F.WHL_PTM_CTL_INTERVAL 0], by decide, by decide⟩,
    ⟨w [up, .upd (.ptm ⟨some 0, 0, false, 0⟩)], by decide, by decide, by decide⟩,
    ⟨w [.upd (.ptm ⟨some 0, 0, false, 0⟩)], by decide, 0, by decide⟩⟩

/-- States and operands that meet the hypotheses of the clauses of GovernorDecides. -/
theorem witness_GovernorDecides :
    (∃ s : State, Governs s ∧ s.fld F.GOV_CTL_EN = 0) ∧
    (∃ s : State, Governs s ∧ s.fld F.GOV_CTL_EN = 1 ∧ s.gov.measuring = false) ∧
    (∃ s : State, Governs s ∧ s.fld F.GOV_CTL_EN = 1 ∧ s.gov.measuring = true ∧ s.gov.pmbRail = none) ∧
    (∃ s : State, Governs s ∧ s.gov.job = none ∧ s.gov.jobs = [] ∧ s.gov.reverting = false) ∧
    (∃ s : State, Governs s ∧ s.gov.job = none ∧ ∃ j, s.gov.jobs.head? = some j ∧ s.fld F.KND_CHAIR_EN = 0 ∧
      s.fld F.PRT_CTL_EN = 0 ∧ ∃ c, s.phaseChan = some c) ∧
    (∃ s : State, Governs s ∧ s.gov.job = none ∧ ∃ j, s.gov.jobs.head? = some j ∧ s.fld F.KND_CHAIR_EN = 0 ∧
      s.phaseChan = none) ∧
    (∃ s : State, Governs s ∧ s.gov.job = none ∧ ∃ j, s.gov.jobs.head? = some j ∧ s.fld F.KND_CHAIR_EN = 1 ∧
      s.admits (s.kindleChair / 8) 65 = true ∧ s.tabRemote (s.kindleChair / 8) = false ∧
      ((s.chair s.kindleChair).held = true ∨ (s.chair s.kindleChair).abandoned = true) ∧
      s.owns s.kindleChair s.self 0x02 = false) ∧
    (∃ s : State, Running s ∧ s.pfHeld = false ∧ s.gov.job = none) ∧
    (∃ s : State, Running s ∧ s.pfHeld = false ∧ ∃ j, s.gov.job = some (j, .chain) ∧
      ∃ e, (s.gov.ended.find? (fun e => e.1 < 0x10000) = some e) ∧ (e.2 = stDONE ∨ e.2 = stDONE_LATE)) ∧
    (∃ s : State, Running s ∧ s.pfHeld = false ∧ ∃ j, s.gov.job = some (j, .chain) ∧
      ∃ e, (s.gov.ended.find? (fun e => e.1 < 0x10000) = some e) ∧ e.2 ≠ stDONE ∧ e.2 ≠ stDONE_LATE ∧ e.2 ≠ stSTOPPED) ∧
    (∃ s : State, Governs s ∧ s.gov.pmbRail = none ∧ s.gov.measuring = false) ∧
    (∃ s : State, Governs s ∧ ∃ r, s.gov.pmbRail = none ∧ s.gov.measuring = true ∧ ReadsRail s r ∧
      ∃ c, s.phaseChan = some c) ∧
    (∃ (s : State) (p : Path), s.pwr.off = false ∧ Reaches s p 0x300 ∧ ∃ v : Word, s.locked 0 0x300 = false ∧
      s.fld F.GOV_CTL_EN = 0 ∧ bitAt v.toNat F.GOV_CTL_EN.lo = true ∧ bitAt v.toNat 2 = false) :=
  ⟨
    ⟨State.reset, by decide, by decide⟩,
    ⟨w [put F.GOV_CTL_EN 1], by decide, by decide, by decide⟩,
    ⟨w [put F.GOV_CTL_EN 1, modGov fun g => { g with measuring := true }], by decide, by decide, by decide, by decide⟩,
    ⟨State.reset, by decide, by decide, by decide, by decide⟩,
    ⟨w [modGov fun g => { g with jobs := [phaseJob] }, govChan, put F.KND_CHAIR_EN 0, put F.PRT_CTL_EN 0], by decide,
      by decide, phaseJob, by decide, by decide, by decide, 0, by decide⟩,
    ⟨w [modGov fun g => { g with jobs := [phaseJob] }, put F.KND_CHAIR_EN 0], by decide, by decide, phaseJob, by decide,
      by decide, by decide⟩,
    ⟨w [modGov fun g => { g with jobs := [phaseJob] }, put F.KND_CHAIR_EN 1, put F.CHR_TAB_CFG_GOV 1,
      modChair 0 fun x => { x with held := true, mid := 1 }], by decide, by decide, phaseJob, by decide, by decide,
      by decide, by decide, by decide, by decide⟩,
    ⟨State.reset, by decide, by decide, by decide⟩,
    ⟨w [modGov fun g => { g with job := some (phaseJob, .chain), ended := [(15, 1)] }], by decide, by decide, phaseJob,
      by decide, (15, 1), by decide, by decide⟩,
    ⟨w [modGov fun g => { g with job := some (phaseJob, .chain), ended := [(15, 3)] }], by decide, by decide, phaseJob,
      by decide, (15, 3), by decide, by decide, by decide, by decide⟩,
    ⟨State.reset, by decide, by decide, by decide⟩,
    ⟨w [put F.PRT_CTL_EN 0, modGov fun g => { g with measuring := true }, putI 15 F.GOV_RAIL_CFG0_MINPH 1,
      putI 15 F.GOV_RAIL_CFG0_MAXPH 1, govChan, .ask fun s => storeBytes .stag (s.profAddr 15) [1, 1]], by decide, 15,
      by decide, by decide, by decide, 0, by decide⟩,
    ⟨w [put F.GOV_CTL_EN 0], .scp, by decide, by decide, BitVec.ofNat 32 (2 ^ F.GOV_CTL_EN.lo), by decide, by decide,
      by decide, by decide⟩⟩

/-- States and operands that meet the hypotheses of the clauses of PinWicks. -/
theorem witness_PinWicks :
    (∃ (s : State) (w : Nat) (level : Bool), Running s ∧ w < 64 ∧
      ((s.wick w).parkEnd.isSome = true ∨ s.wckFunc w = 0 ∨ (s.wick w).level = level)) ∧
    (∃ (s : State) (w : Nat) (level : Bool), Running s ∧ w < 64 ∧ (s.wick w).parkEnd = none ∧ s.wckFunc w ≠ 0 ∧
      (s.wick w).level ≠ level ∧ s.pfHeld = false) ∧
    (∃ (s : State) (p : Path) (v : Word), s.pwr.off = false ∧ Reaches s p 0x384 ∧
      (s.fld F.WCK_CTL_LOCK = 1 ∨ 4 ≤ bits v.toNat 0 3)) ∧
    (∃ (s : State) (p : Path) (v : Word), s.pwr.off = false ∧ Reaches s p 0x384 ∧ s.fld F.WCK_CTL_LOCK = 0 ∧
      bits v.toNat 0 3 < 4) ∧
    (∃ (s : State) (w : Nat), Running s ∧ w < 64 ∧ (s.wick w).parkEnd = none) ∧
    (∃ (s : State) (w : Nat), Running s ∧ w < 64 ∧ ∃ e, (s.wick w).parkEnd = some e) :=
  ⟨
    ⟨State.reset, 63, true, by decide, by decide, by decide⟩,
    ⟨w [putI 63 F.WCK_CFG_FUNC 1], 63, true, by decide, by decide, by decide, by decide, by decide, by decide⟩,
    ⟨State.reset, .scp, 4, by decide, by decide, by decide⟩,
    ⟨State.reset, .scp, 3, by decide, by decide, by decide, by decide⟩,
    ⟨State.reset, 63, by decide, by decide, by decide⟩,
    ⟨w [modWick 63 fun x => { x with parkEnd := some 5 }], 63, by decide, by decide, 5, by decide⟩⟩

/-- States and operands that meet the hypotheses of the clauses of BusTransactions. -/
theorem witness_BusTransactions :
    (∃ s : State, Running s ∧ ∃ (port : _) (avs : _), (s.pmbp (port % 2 + 2 * b2n avs)).user = none) ∧
    (∃ s : State, Running s ∧ ∃ port, (s.pmbp (port % 2)).user = none) ∧
    (∃ s : State, Running s ∧ ∃ (port : _) (c : _), ∃ d, s.cur c = some d ∧ OnBus s (port % 2) c d ∧ pmbRd d.words = 0 ∧
      pmbForm d.words ≠ 5 ∧ pmbForm d.words ≠ 6 ∧ s.busAsking (port % 2) = []) ∧
    (∃ s : State, Running s ∧ ∃ (port : _) (c : _), ∃ d, s.cur c = some d ∧ OnBus s (port % 2) c d ∧
      ∃ (data : List Byte) (pec : Byte), pmbRd d.words = data.length ∧ data ≠ [] ∧
      (pmbPec d.words = true → crc8 ((s.pmbp (port % 2)).wire ++ data) = pec.toNat) ∧ pmbForm d.words ≠ 5 ∧
      pmbForm d.words ≠ 6 ∧ opSel (dSrc d.words) = 1 ∧ s.busAsking (port % 2) = [] ∧
      ∃ a, lands s c d true (dSrc d.words + pmbWr d.words) data.length = some a) ∧
    (∃ s : State, Running s ∧ ∃ (port : _) (c : _), ∃ d, s.cur c = some d ∧ OnBus s (port % 2) c d ∧
      ∃ cause, (cause = 1 ∨ cause = 2 ∨ cause = 5 ∨ cause = 6) ∧ s.busAsking (port % 2) = []) ∧
    (∃ s : State, Running s ∧ ∃ (port : _) (c : _), ∃ d, s.cur c = some d ∧ OnBus s (port % 2) c d ∧
      s.busAsking (port % 2) = [] ∧ s.fld F.PMB_CAP_VALID = 0) ∧
    (∃ s : State, Running s ∧ (s.pmbp 0).user = some .ara ∧ s.busWaiters 0 = [] ∧ (s.pmbp 0).alert = false ∧
      ∃ cause, cause ≠ 0 ∧ cause ≠ 6 ∧ cause < 16) ∧
    (∃ s : State, Running s ∧ ∃ port, (s.pmbp (port % 2)).alert = true) ∧
    (∃ s : State, Running s ∧ ∃ port, (s.pmbp (port % 2)).alert = false ∧ s.busWaiters (port % 2) = []) :=
  ⟨
    ⟨State.reset, by decide, 1, true, by decide⟩,
    ⟨State.reset, by decide, 1, by decide⟩,
    ⟨w [onBus1 [0x12, 0, 0, 0, 1, 0x04000000]], by decide, 1, 3, cur [0x12, 0, 0, 0, 1, 0x04000000] .bus, by decide,
      by decide, by decide, by decide, by decide, by decide⟩,
    ⟨w [onBus1 [0x12, 0, 0, 0x01000000, 1, 0x04000000, 0, 0, 0, 0, 0, 0, 0x100]], by decide, 1, 3,
      cur [0x12, 0, 0, 0x01000000, 1, 0x04000000, 0, 0, 0, 0, 0, 0, 0x100] .bus, by decide, by decide, [7], 0,
      by decide, by decide, by decide, by decide, by decide, by decide, by decide, 0, by decide⟩,
    ⟨w [onBus1 [0x12, 0, 0, 0, 1, 0x04000000]], by decide, 1, 3, cur [0x12, 0, 0, 0, 1, 0x04000000] .bus, by decide,
      by decide, 6, by decide, by decide⟩,
    ⟨w [onBus1 [0x12, 0, 0, 0, 1, 0x04000000]], by decide, 1, 3, cur [0x12, 0, 0, 0, 1, 0x04000000] .bus, by decide,
      by decide, by decide, by decide⟩,
    ⟨w [modPmbp 0 fun x => { x with user := some .ara }], by decide, by decide, by decide, by decide, 15, by decide,
      by decide, by decide⟩,
    ⟨w [modPmbp 1 fun x => { x with alert := true }], by decide, 1, by decide⟩,
    ⟨State.reset, by decide, 1, by decide, by decide⟩⟩

/-- States and operands that meet the hypotheses of the clauses of ZheynLinkPackets. -/
theorem witness_ZheynLinkPackets :
    (∃ s : State, Running s ∧ ∃ i, ∃ h, pktRow i = some h ∧ s.portOpen h.port = false) ∧
    (∃ s : State, Running s ∧ ∃ i, ∃ h, pktRow i = some h ∧ s.portOpen h.port = true ∧ h.lseq ≠ (s.zport h.port).rxSeq) ∧
    (∃ s : State, Running s ∧ ∃ port, s.portOpen port = true ∧ ∃ (bytes : List Byte) (crc : Nat), crc ≠ crc32 bytes) ∧
    (∃ s : State, Running s ∧ ∃ port, s.portOpen port = false) ∧
    (∃ s : State, Running s ∧ ∃ h : ZHdr, Arrives s h ∧ (s.zport h.port).clash = false) ∧
    (∃ s : State, Running s ∧ ∃ port, (s.portOpen port = false ∨ (s.zport port).up = false)) ∧
    (∃ s : State, Running s ∧ ∃ port, s.portOpen port = true ∧ (s.zport port).up = true) ∧
    (∃ s : State, Running s ∧ ∃ port, s.portOpen port = true) ∧
    (∃ s : State, Running s ∧ ∃ h : ZHdr, Arrives s h ∧ h.hops < 3 ∧ (s.zport (1 - h.port)).ready = true) ∧
    (∃ s : State, Running s ∧ ∃ h : ZHdr, Arrives s h ∧
      (s.follows = false ∨ s.headNow ≠ some h.src ∨ (s.peer h.src).route.map Prod.fst ≠ some h.port)) ∧
    (∃ s : State, Running s ∧ ∃ (h : ZHdr) (corr8 : _), Arrives s h ∧ s.follows = true ∧ s.headNow = some h.src ∧
      (s.peer h.src).route.map Prod.fst = some h.port ∧ s.wheel.st = .locked ∧
      s.closedWindows (s.wheel.valueBack ((s.zport h.port).delay8 + corr8) / 2 ^ 20) = 0 ∧
      (s.wheel.phaseErr ((s.zport h.port).delay8 + corr8)).natAbs ≤ s.winAt (s.wheel.edgeCycle ((s.zport h.port).delay8 + corr8)) ∧
      (s.wheel.phaseErr ((s.zport h.port).delay8 + corr8)).natAbs ≤ s.lockTolAt (s.wheel.edgeCycle ((s.zport h.port).delay8 + corr8))) ∧
    (∃ s : State, Running s ∧ s.headNow ≠ some s.self) ∧
    (∃ s : State, Running s ∧ s.headNow = some s.self) :=
  ⟨
    ⟨State.reset, by decide, .mark (zh 0 0) 0 0, zh 0 0, by decide, by decide⟩,
    ⟨w [zup], by decide, .mark { zh 0 0 with lseq := 255 } 0 0, { zh 0 0 with lseq := 255 }, by decide, by decide,
      by decide⟩,
    ⟨w [zup], by decide, 1, by decide, [], 5, by decide⟩,
    ⟨State.reset, by decide, 1, by decide⟩,
    ⟨w [zup], by decide, zh 7 0, by decide, by decide⟩,
    ⟨State.reset, by decide, 1, by decide⟩,
    ⟨w [zup], by decide, 1, by decide, by decide⟩,
    ⟨w [zup], by decide, 1, by decide⟩,
    ⟨w [zup], by decide, zh 7 2, by decide, by decide, by decide⟩,
    ⟨w [zup], by decide, zh 7 0, by decide, by decide⟩,
    ⟨w [zup, put F.WHL_CTL_SRC 1, modWheel fun x => { x with st := .locked },
      modZhn fun z => { z with peers := [(1, ⟨true, 0, some (0, 0), none, true, false⟩)] }], by decide, zh 7 0, 0,
      by decide, by decide, by decide, by decide, by decide, by decide, by decide, by decide⟩,
    ⟨State.reset, by decide, by decide⟩,
    ⟨w [modWheel fun x => { x with st := .master }], by decide, by decide⟩⟩

/-- States and operands that meet the hypotheses of the clauses of ZheynLinksAndPeers. -/
theorem witness_ZheynLinksAndPeers :
    (∃ s : State, Running s ∧ ∃ port, port < 2 ∧ (bitAt (s.fld F.PEL_CTL_EN) port = false ∨ (s.zport port).up = true)) ∧
    (∃ s : State, Running s ∧ ∃ port, port < 2 ∧ bitAt (s.fld F.PEL_CTL_EN) port = true ∧ (s.zport port).up = false) ∧
    (∃ s : State, Running s ∧ ∃ port, port < 2 ∧ s.portOpen port = true ∧
      ∃ l, (s.zport port).unacked.any (·.lseq == l) = false) ∧
    (∃ s : State, Running s ∧ ∃ port, port < 2 ∧ s.portOpen port = true ∧ ∃ k, k ∈ (s.zport port).unacked) ∧
    (∃ s : State, Running s ∧ ∃ port, port < 2 ∧ s.portOpen port = true ∧ (s.zport port).unacked = []) ∧
    (∃ s : State, Running s ∧ ∃ port, port < 2 ∧ s.portOpen port = true ∧ ∃ k, (s.zport port).unacked.head? = some k ∧
      k.tries < 3) ∧
    (∃ s : State, Running s ∧ ∃ port, port < 2 ∧ s.portOpen port = true ∧ ∃ k, (s.zport port).unacked.head? = some k ∧
      3 ≤ k.tries) ∧
    (∃ s : State, Running s ∧ ∃ port, port < 2 ∧ s.portOpen port = false) ∧
    (∃ s : State, Running s ∧ ∃ p, p < 4 ∧ p ≠ s.self ∧ (s.peer p).present = false) ∧
    (∃ s : State, Running s ∧ ∃ p, p < 4 ∧ p ≠ s.self ∧ (s.peer p).present = true) :=
  ⟨
    ⟨w [put F.PEL_CTL_EN 1], by decide, 1, by decide, by decide⟩,
    ⟨w [put F.PEL_CTL_EN 3], by decide, 1, by decide, by decide, by decide⟩,
    ⟨w [zup], by decide, 1, by decide, by decide, 5, by decide⟩,
    ⟨w [zup], by decide, 0, by decide, by decide, ⟨0x40, 1, 0, false, 0, 5, 0, [], 0, 0, 0⟩, by decide⟩,
    ⟨w [zup], by decide, 1, by decide, by decide, by decide⟩,
    ⟨w [zup], by decide, 0, by decide, by decide, ⟨0x40, 1, 0, false, 0, 5, 0, [], 0, 0, 0⟩, by decide, by decide⟩,
    ⟨w [zup, modZhn fun z => { z with p0 := { z.p0 with unacked := [⟨0x40, 1, 0, false, 0, 5, 0, [], 3, 0, 0⟩] } }],
      by decide, 0, by decide, by decide, ⟨0x40, 1, 0, false, 0, 5, 0, [], 3, 0, 0⟩, by decide, by decide⟩,
    ⟨State.reset, by decide, 1, by decide, by decide⟩,
    ⟨State.reset, by decide, 3, by decide, by decide, by decide⟩,
    ⟨w [zup], by decide, 1, by decide, by decide, by decide⟩⟩

/-- States and operands that meet the hypotheses of the clauses of ZheynOperations. -/
theorem witness_ZheynOperations :
    (∃ s : State, Running s ∧ s.oneHolder ∧ ∃ i, ∃ x, routedRow i = some x ∧ Arrives s x.1 ∧ x.1.dst ≠ s.self ∧
      x.1.dst < 4) ∧
    (∃ s : State, Running s ∧ s.oneHolder ∧ ∃ h : ZHdr, ForUs s h ∧
      ∃ d, (s.zhn.done.find? (fun d => d.src == h.src && d.opId == h.opId) = some d) ∧
      ∃ i, i ∈ [Instr.fenOp h 1 .kick, .fenOp h 0 (.signal 5), .chrOp h 3 0x40 7 0 .sit, .chrOp h 3 0x40 0 0 .give]) ∧
    (∃ s : State, Running s ∧ s.oneHolder ∧ ∃ (h : ZHdr) (m : _), AsksUs s h ∧ 1 ≤ m.len ∧ m.len ≤ 64 ∧
      (m.sel = 1 ∨ m.sel = 2) ∧ m.offset + m.len ≤ peerSpace m.sel ∧ s.firstRefused (zAccess h m false) = none) ∧
    (∃ s : State, Running s ∧ s.oneHolder ∧ ∃ (h : ZHdr) (m : _), AsksUs s h ∧ 1 ≤ m.len ∧ m.len ≤ 64 ∧
      (m.sel = 1 ∨ m.sel = 2) ∧ m.offset + m.len ≤ peerSpace m.sel ∧ ∃ data : List Byte, data.length = m.len ∧
      s.firstRefused (zAccess h m true) = none) ∧
    (∃ s : State, Running s ∧ s.oneHolder ∧ ∃ (h : ZHdr) (m : _), AsksUs s h ∧ 1 ≤ m.len ∧ m.len ≤ 64 ∧
      (m.sel = 1 ∨ m.sel = 2) ∧ m.offset + m.len ≤ peerSpace m.sel ∧
      ∃ (cause : _) (region : _) (shade : _), s.firstRefused (zAccess h m false) = some (0, .refuse cause region shade)) ∧
    (∃ s : State, Running s ∧ s.oneHolder ∧ ∃ h : ZHdr, ForUs s h ∧ ∃ o, s.outOf h = some o ∧
      ∃ c, (o.what = .rd c ∨ o.what = .wr c) ∧ ∃ d, s.cur c = some d ∧ d.phase = .peer ∧ (s.chan c).st = .running ∧
      s.zhn.nextOp ≠ o.opId ∧ s.pfHeld = false ∧ ∃ u, (s.chan c).subs.head? = some u ∧ u.queue < 1024 ∧
      s.recordable u.queue = true ∧ o.what = .wr c ∧ isMoveOp (dOp d.words) = true) ∧
    (∃ s : State, Running s ∧ s.oneHolder ∧ ∃ h : ZHdr, ForUs s h ∧ ∃ o, s.outOf h = some o ∧
      ∃ c, (o.what = .rd c ∨ o.what = .wr c) ∧ ∃ d, s.cur c = some d ∧ d.phase = .peer ∧ (s.chan c).st = .running ∧
      s.zhn.nextOp ≠ o.opId ∧ s.pfHeld = false ∧ ∃ u, (s.chan c).subs.head? = some u ∧ u.queue < 1024 ∧
      s.recordable u.queue = true ∧ ∃ data : List Byte, o.what = .rd c ∧ isMoveOp (dOp d.words) = true ∧
      data.length = d.sent) ∧
    (∃ s : State, Running s ∧ s.oneHolder ∧ ∃ h : ZHdr, ForUs s h ∧ ∃ o, s.outOf h = some o ∧
      ∃ c, (o.what = .rd c ∨ o.what = .wr c) ∧ ∃ d, s.cur c = some d ∧ d.phase = .peer ∧ (s.chan c).st = .running ∧
      s.zhn.nextOp ≠ o.opId ∧ s.pfHeld = false ∧ ∃ u, (s.chan c).subs.head? = some u ∧ u.queue < 1024 ∧
      s.recordable u.queue = true ∧ (s.zhn.outs.find? (fun x => x.opId == o.opId) = some o)) ∧
    (∃ s : State, Running s ∧ s.oneHolder ∧ ∃ op, (∀ o, o ∈ s.zhn.outs → o.opId ≠ op)) ∧
    (∃ s : State, Running s ∧ s.oneHolder ∧ ∃ (h : ZHdr) (idx : _), AsksUs s h ∧ (s.fence idx).live = true ∧
      (s.fence idx).proxy = false ∧ bitAt (s.fence idx).subs h.src = true) ∧
    (∃ s : State, Running s ∧ s.oneHolder ∧ ∃ (h : ZHdr) (idx : _), AsksUs s h ∧
      ∃ nonce, s.tokenFence idx nonce = some idx ∧ bitAt (s.fence idx).subs h.src = false ∧
      (s.fence idx).cnt < 2 ^ 32 - 1) ∧
    (∃ s : State, Running s ∧ s.oneHolder ∧ ∃ (h : ZHdr) (idx : _), AsksUs s h ∧ ∃ nonce, s.tokenFence idx nonce = none) ∧
    (∃ s : State, Running s ∧ s.oneHolder ∧ ∃ (h : ZHdr) (idx : _), AsksUs s h ∧
      ((s.fence idx).live = false ∨ bitAt (s.fence idx).subs h.src = false)) ∧
    (∃ s : State, Running s ∧ s.oneHolder ∧ ∃ (h : ZHdr) (idx : _), ForUs s h ∧ s.proxyOf h.src idx = none) ∧
    (∃ s : State, Running s ∧ s.oneHolder ∧ ∃ (h : ZHdr) (idx : _), ForUs s h ∧ ∃ i, s.proxyOf h.src idx = some i) ∧
    (∃ s : State, Running s ∧ s.oneHolder ∧ ∃ h : ZHdr, ForUs s h ∧ ∃ o, s.outOf h = some o ∧ ∃ c, o.what = .signal c ∧
      ∃ d, s.cur c = some d ∧ d.phase = .fenceRsp ∧ (s.chan c).stopPend = 0) ∧
    (∃ s : State, Running s ∧ s.oneHolder ∧ ∃ h : ZHdr, ForUs s h ∧ ∃ o, s.outOf h = some o ∧
      (o.what = .kick ∨ o.what = .free)) ∧
    (∃ s : State, Running s ∧ s.oneHolder ∧ ∃ (h : ZHdr) (n : _), AsksUs s h ∧ n < 128 ∧
      (s.tab (n / 8) F.CHR_TAB_CFG_SHARED ≠ 1 ∨ s.tabRemote (n / 8) = true)) ∧
    (∃ s : State, Running s ∧ s.oneHolder ∧ ∃ (h : ZHdr) (n : _), AsksUs s h ∧ n < 128 ∧
      s.tab (n / 8) F.CHR_TAB_CFG_SHARED = 1 ∧ s.tabRemote (n / 8) = false ∧ (s.chair n).held = false ∧
      (s.chair n).waiters = []) ∧
    (∃ s : State, Running s ∧ s.oneHolder ∧ ∃ (h : ZHdr) (n : _) (mid : _), AsksUs s h ∧ n < 128 ∧
      s.tab (n / 8) F.CHR_TAB_CFG_SHARED = 1 ∧ s.tabRemote (n / 8) = false ∧ (s.chair n).held = true ∧
      (¬ ((s.chair n).peer = h.src ∧ (s.chair n).mid = mid)) ∧
      (s.chair n).waiters.any (·.1 == .peer h.src mid h.opId) = false) ∧
    (∃ s : State, Running s ∧ s.oneHolder ∧ ∃ (h : ZHdr) (n : _) (mid : _), AsksUs s h ∧ n < 128 ∧
      s.tab (n / 8) F.CHR_TAB_CFG_SHARED = 1 ∧ s.tabRemote (n / 8) = false ∧ (s.chair n).held = true ∧
      (s.chair n).peer = h.src ∧ (s.chair n).mid = mid ∧ (s.chair n).waiters = [] ∧ s.kindle.load = none) ∧
    (∃ s : State, Running s ∧ s.oneHolder ∧ ∃ (h : ZHdr) (n : _), ForUs s h ∧ (¬ (n < 128 ∧ s.tabRemote (n / 8) = true ∧
      s.tab (n / 8) F.CHR_TAB_CFG_HOME = h.src))) ∧
    (∃ s : State, Running s ∧ s.oneHolder ∧ ∃ (h : ZHdr) (n : _), ForUs s h ∧ n < 128 ∧ s.tabRemote (n / 8) = true ∧
      s.tab (n / 8) F.CHR_TAB_CFG_HOME = h.src) ∧
    (∃ s : State, Running s ∧ s.oneHolder ∧ ∃ (h : ZHdr) (n : _), ForUs s h ∧ ∃ o, s.outOf h = some o ∧
      ∃ c, o.what = .chair c ∧ ∃ d, s.cur c = some d ∧ d.phase = .chairRsp ∧ (s.chan c).stopPend = 0 ∧
      s.tabRemote (n / 8) = false) ∧
    (∃ s : State, Running s ∧ s.oneHolder ∧ ∃ (h : ZHdr) (entry : List Byte), ForUs s h ∧ entry.length = 32 ∧
      s.fld F.PEL_CTL_ERR_FWD = 0) ∧
    (∃ s : State, Running s ∧ s.oneHolder ∧ ∃ (h : ZHdr) (entry : List Byte), ForUs s h ∧ entry.length = 32 ∧
      s.fld F.PEL_CTL_ERR_FWD = 1 ∧ (s.fld F.ERR_WR_WR + 65536 - s.fld F.ERR_RD_RD) % 65536 ≠ 256) :=
  ⟨
    ⟨w [zup], by decide, by decide, .err (zh 3 0) [], (zh 3 0, 0x40, []), by decide, by decide, by decide, by decide⟩,
    ⟨w [zup, modZhn fun z => { z with done := [⟨1, 9, ⟨0x22, 1, 0, false, 0, 0, 9, [], 0, 0, 0⟩⟩] }], by decide,
      by decide, zh 0 0, by decide, ⟨1, 9, ⟨0x22, 1, 0, false, 0, 0, 9, [], 0, 0, 0⟩⟩, by decide,
      .fenOp (zh 0 0) 1 .kick, .head _⟩,
    ⟨w [zup], by decide, by decide, zh 0 0, zmem, by decide, by decide, by decide, by decide, by decide, by decide⟩,
    ⟨w [zup], by decide, by decide, zh 0 0, zmem, by decide, by decide, by decide, by decide, by decide,
      List.replicate 64 0, by decide, by decide⟩,
    ⟨w [zup, put F.PRT_CTL_EN 1, put F.PRT_CTL_NOMATCH 1], by decide, by decide, zh 0 0, zmem, by decide, by decide,
      by decide, by decide, by decide, 1, 0x3F, 0, by decide⟩,
    ⟨w [zup, zout (.wr 3), runs 3 64 (some (cur [1] .peer)), modQueue 1 fun q => { q with live := true, ctx := 64 }],
      by decide, by decide, zh 0 0, by decide, ⟨9, 1, .wr 3, 0⟩, by decide, 3, by decide, cur [1] .peer, by decide,
      by decide, by decide, by decide, by decide, subm 3, by decide, by decide, by decide, by decide, by decide⟩,
    ⟨w [zup, zout (.rd 3), runs 3 64 (some (cur [1] .peer)), modQueue 1 fun q => { q with live := true, ctx := 64 }],
      by decide, by decide, zh 0 0, by decide, ⟨9, 1, .rd 3, 0⟩, by decide, 3, by decide, cur [1] .peer, by decide,
      by decide, by decide, by decide, by decide, subm 3, by decide, by decide, by decide, [], by decide, by decide,
      by decide⟩,
    ⟨w [zup, zout (.rd 3), runs 3 64 (some (cur [1] .peer)), modQueue 1 fun q => { q with live := true, ctx := 64 }],
      by decide, by decide, zh 0 0, by decide, ⟨9, 1, .rd 3, 0⟩, by decide, 3, by decide, cur [1] .peer, by decide,
      by decide, by decide, by decide, by decide, subm 3, by decide, by decide, by decide, by decide⟩,
    ⟨State.reset, by decide, by decide, 9, by decide⟩,
    ⟨w [zup, modFence 4095 fun f => { f with live := true, subs := 2 }], by decide, by decide, zh 0 0, 4095, by decide,
      by decide, by decide, by decide⟩,
    ⟨w [zup, modFence 4095 fun f => { f with live := true, nonce := 65535 }], by decide, by decide, zh 0 0, 4095,
      by decide, 65535, by decide, by decide, by decide⟩,
    ⟨w [zup], by decide, by decide, zh 0 0, 4095, by decide, 65535, by decide⟩,
    ⟨w [zup], by decide, by decide, zh 0 0, 4095, by decide, by decide⟩,
    ⟨w [zup], by decide, by decide, zh 0 0, 4095, by decide, by decide⟩,
    ⟨w [zup, modFence 7 fun f => { f with live := true, proxy := true, home := 1, homeIdx := 4095 }], by decide,
      by decide, zh 0 0, 4095, by decide, 7, by decide⟩,
    ⟨w [zup, zout (.signal 3), runs 3 64 (some (cur [0x22] .fenceRsp))], by decide, by decide, zh 0 0, by decide,
      ⟨9, 1, .signal 3, 0⟩, by decide, 3, by decide, cur [0x22] .fenceRsp, by decide, by decide, by decide⟩,
    ⟨w [zup, zout .kick], by decide, by decide, zh 0 0, by decide, ⟨9, 1, .kick, 0⟩, by decide, by decide⟩,
    ⟨w [zup], by decide, by decide, zh 0 0, 127, by decide, by decide, by decide⟩,
    ⟨w [zup, putI 15 F.CHR_TAB_CFG_SHARED 1], by decide, by decide, zh 0 0, 127, by decide, by decide, by decide,
      by decide, by decide, by decide⟩,
    ⟨w [zup, putI 15 F.CHR_TAB_CFG_SHARED 1, modChair 127 fun x => { x with held := true }], by decide, by decide,
      zh 0 0, 127, 0x40, by decide, by decide, by decide, by decide, by decide, by decide, by decide⟩,
    ⟨w [zup, putI 15 F.CHR_TAB_CFG_SHARED 1, modChair 127 fun x => { x with held := true, peer := 1, mid := 0x40 }],
      by decide, by decide, zh 0 0, 127, 0x40, by decide, by decide, by decide, by decide, by decide, by decide,
      by decide, by decide, by decide⟩,
    ⟨w [zup], by decide, by decide, zh 0 0, 128, by decide, by decide⟩,
    ⟨w [zup, putI 15 F.CHR_TAB_CFG_SHARED 1, putI 15 F.CHR_TAB_CFG_HOME 1], by decide, by decide, zh 0 0, 127,
      by decide, by decide, by decide, by decide⟩,
    ⟨w [zup, zout (.chair 3), runs 3 64 (some (cur [0x30] .chairRsp))], by decide, by decide, zh 0 0, 127, by decide,
      ⟨9, 1, .chair 3, 0⟩, by decide, 3, by decide, cur [0x30] .chairRsp, by decide, by decide, by decide, by decide⟩,
    ⟨w [zup, put F.PEL_CTL_ERR_FWD 0], by decide, by decide, zh 0 0, List.replicate 32 0, by decide, by decide,
      by decide⟩,
    ⟨w [zup, put F.PEL_CTL_ERR_FWD 1, put F.ERR_WR_WR 255], by decide, by decide, zh 0 0, List.replicate 32 0,
      by decide, by decide, by decide, by decide⟩⟩

/-- States and operands that meet the hypotheses of the clauses of BootLoads. -/
theorem witness_BootLoads :
    (∃ s : State, Running s ∧ s.boot.inited = true) ∧
    (∃ s : State, Running s ∧ s.boot.inited = false) ∧
    (∃ s : State, Running s ∧ ∃ bs : List Byte, (¬ (s.phase = 1 ∧ s.boot.headerOk = false ∧
      s.boot.spi.map (·.len) = some bs.length))) ∧
    (∃ s : State, Running s ∧ ∃ bs : List Byte, s.phase = 1 ∧ s.boot.headerOk = false ∧ s.fld F.PRT_CTL_EN = 0 ∧
      bs.length = 64 ∧ ∃ q, s.boot.spi = some q ∧ q.len = 64 ∧ q.addr = 0 ∧ headerErr bs = 0) ∧
    (∃ s : State, Running s ∧ ∃ bs : List Byte, s.phase = 1 ∧ s.boot.headerOk = false ∧ s.fld F.PRT_CTL_EN = 0 ∧
      bs.length = 64 ∧ ∃ q, s.boot.spi = some q ∧ q.len = 64 ∧ q.addr = 0 ∧ headerErr bs ≠ 0) ∧
    (∃ s : State, Running s ∧ ∃ bs : List Byte, s.phase = 1 ∧ s.boot.headerOk = true ∧ s.fld F.PRT_CTL_EN = 0 ∧
      ∃ q, s.boot.spi = some q ∧ q.len = bs.length ∧ q.addr = 64 ∧ bs.length < 0x80000 - 64) ∧
    (∃ s : State, Running s ∧
      ∃ bs : List Byte, (s.phase ≠ 1 ∨ s.boot.headerOk = false ∨ s.boot.spi.map (·.len) ≠ some bs.length)) ∧
    (∃ s : State, Running s ∧ Reaches s .scp 0x984 ∧ s.phase = 5 ∧ s.pfHeld = false) ∧
    (∃ s : State, Running s ∧ Reaches s .scp 0x984 ∧ (s.phase ≠ 5 ∨ s.pfHeld = true)) ∧
    (∃ s : State, Running s ∧ Reaches s .bar0 0x984) ∧
    (∃ s : State, Running s ∧ s.phase ≠ 2) ∧
    (∃ s : State, Running s ∧ s.phase = 2 ∧ headerErr (s.bootImage.take 64) = 0 ∧ ∃ e, s.sectErr s.bootImage = some e) ∧
    (∃ s : State, Running s ∧ s.phase = 2 ∧ headerErr (s.bootImage.take 64) = 0 ∧ s.sectErr s.bootImage = none ∧
      ∃ x, (sects (s.bootImage.length / 12 + 1) (s.bootImage.drop 0x40)).1.head? = some x ∧ x.typ = 7 ∧
      imgNsect s.bootImage = 1 ∧ s.fld F.PRT_CTL_EN = 0) ∧
    (∃ s : State, Running s ∧ s.phase = 2 ∧ headerErr (s.bootImage.take 64) ≠ 0) ∧
    (∃ s : State, Running s ∧ s.phase ≠ 3) ∧
    (∃ s : State, Running s ∧ s.phase = 3 ∧ s.fld F.PRT_CTL_EN = 0) ∧
    (∃ s : State, Running s ∧ (s.phase ≠ 1 ∨ s.boot.waitAt = 0)) ∧
    (∃ s : State, Running s ∧ s.phase = 1 ∧ s.boot.waitAt ≠ 0) ∧
    (∃ s : State, Running s ∧ ∃ v : Word, ∃ p : Path, Reaches s p 0x998 ∧ bitAt v.toNat 4 = false) ∧
    (∃ s : State, Running s ∧ ∃ v : Word, ∃ p : Path, Reaches s p 0x998 ∧ bitAt v.toNat 4 = true ∧ p = .scp ∧
      bits v.toNat 16 16 = 0x0B7A ∧ s.otp.hashEn = false ∧ s.otp.burning = false ∧ s.pfHeld = false) ∧
    (∃ s : State, Running s ∧ ∃ v : Word, ∃ p : Path, Reaches s p 0x998 ∧ bitAt v.toNat 4 = true ∧
      (p = .bar0 ∨ bits v.toNat 16 16 ≠ 0x0B7A ∨ s.otp.hashEn = true ∨ s.otp.burning = true)) ∧
    (∃ s : State, Running s ∧ s.otp.burning = false) ∧
    (∃ s : State, Running s ∧ s.otp.burning = true) :=
  ⟨
    ⟨w [modBoot fun b => { b with inited := true }], by decide, by decide⟩,
    ⟨State.reset, by decide, by decide⟩,
    ⟨State.reset, by decide, [], by decide⟩,
    ⟨w [put F.BOOT_STAT_PHASE 1, put F.PRT_CTL_EN 0, modBoot fun b => { b with spi := some ⟨3, 3, 0, 7, 64, 0⟩ }],
      by decide, imgHead 0x48 0 0xD0D0A20D, by decide, by decide, by decide, by decide, ⟨3, 3, 0, 7, 64, 0⟩, by decide,
      by decide, by decide, by decide +kernel⟩,
    ⟨w [put F.BOOT_STAT_PHASE 1, put F.PRT_CTL_EN 0, modBoot fun b => { b with spi := some ⟨3, 3, 0, 7, 64, 0⟩ }],
      by decide, imgHead 0x48 0 0, by decide, by decide, by decide, by decide, ⟨3, 3, 0, 7, 64, 0⟩, by decide,
      by decide, by decide, by decide +kernel⟩,
    ⟨w [put F.BOOT_STAT_PHASE 1, put F.PRT_CTL_EN 0,
      modBoot fun b => { b with headerOk := true, spi := some ⟨3, 3, 64, 7, 8, 0⟩ }], by decide, List.replicate 8 0,
      by decide, by decide, by decide, ⟨3, 3, 64, 7, 8, 0⟩, by decide, by decide, by decide, by decide⟩,
    ⟨State.reset, by decide, [], by decide⟩,
    ⟨w [put F.BOOT_STAT_PHASE 5], by decide, by decide, by decide, by decide⟩,
    ⟨State.reset, by decide, by decide, by decide⟩,
    ⟨w [up], by decide, by decide⟩,
    ⟨State.reset, by decide, by decide⟩,
    ⟨w [put F.BOOT_STAT_PHASE 2, storeBytes .stag bootBase (imgHead 0x48 0 0xD0D0A20D)], by decide, by decide,
      by decide +kernel, ⟨5, 1, none⟩, by decide +kernel⟩,
    ⟨w [put F.BOOT_STAT_PHASE 2, put F.PRT_CTL_EN 0, storeBytes .stag bootBase img], by decide, by decide,
      by decide +kernel, by decide +kernel, ⟨7, 0, (img.drop 72).take 72, true⟩, by decide +kernel, by decide,
      by decide +kernel, by decide⟩,
    ⟨w [put F.BOOT_STAT_PHASE 2], by decide, by decide, by decide⟩,
    ⟨State.reset, by decide, by decide⟩,
    ⟨w [put F.BOOT_STAT_PHASE 3, put F.PRT_CTL_EN 0], by decide, by decide, by decide⟩,
    ⟨State.reset, by decide, by decide⟩,
    ⟨w [put F.BOOT_STAT_PHASE 1, modBoot fun b => { b with waitAt := 1 }], by decide, by decide, by decide⟩,
    ⟨State.reset, by decide, 0x0B7A0000, .scp, by decide, by decide⟩,
    ⟨State.reset, by decide, 0x0B7A0010, .scp, by decide, by decide, by decide, by decide, by decide, by decide,
      by decide⟩,
    ⟨State.reset, by decide, 0x0B7B0010, .scp, by decide, by decide, by decide⟩,
    ⟨State.reset, by decide, by decide⟩,
    ⟨w [modOtp fun o => { o with burning := true }], by decide, by decide⟩⟩

/-- States and operands that meet the hypotheses of the clauses of GuardedWrites. -/
theorem witness_GuardedWrites :
    (∃ (s : State) (p : Path), s.pwr.off = false ∧ Reaches s p 0x2C0 ∧ s.fld F.CUP_CTL_LOCK = 1) ∧
    (∃ (s : State) (p : Path), s.pwr.off = false ∧ Reaches s p 0x2C0 ∧ s.fld F.CUP_CTL_LOCK = 0 ∧
      s.fld F.CUP_CTL_EN = 0 ∧ (s.mems.any (fun e => e.2.live && e.2.typ == 3) = false) ∧ s.cup.scrub = []) ∧
    (∃ (s : State) (p : Path), s.pwr.off = false ∧ Reaches s p 0x2C0 ∧ s.fld F.CUP_CTL_LOCK = 0 ∧
      (s.fld F.CUP_CTL_EN = 1 ∨ s.mems.any (fun e => e.2.live && e.2.typ == 3) = true ∨ s.cup.scrub ≠ [])) ∧
    (∃ (s : State) (p : Path) (v : Word), s.pwr.off = false ∧ Reaches s p 0x3C8 ∧
      (v.toNat % 65536 + 65536 - s.fld F.ERR_RD_RD) % 65536 ≤ (s.fld F.ERR_WR_WR + 65536 - s.fld F.ERR_RD_RD) % 65536) ∧
    (∃ (s : State) (p : Path) (v : Word), s.pwr.off = false ∧ Reaches s p 0x3C8 ∧
      (s.fld F.ERR_WR_WR + 65536 - s.fld F.ERR_RD_RD) % 65536 < (v.toNat % 65536 + 65536 - s.fld F.ERR_RD_RD) % 65536) ∧
    (∃ (s : State) (p : Path) (v : Word), s.pwr.off = false ∧ Reaches s p 0x9C0 ∧ bitAt v.toNat 2 = false) ∧
    (∃ (s : State) (p : Path), s.pwr.off = false ∧ Reaches s p 0x9C0 ∧ s.pfHeld = true) ∧
    (∃ (s : State) (p : Path), s.pwr.off = false ∧ Reaches s p 0x9C0 ∧ s.pfHeld = false ∧ s.boot.thawRec = false) ∧
    (∃ (s : State) (p : Path) (v : Word), s.pwr.off = false ∧ Reaches s p 0x9C0 ∧ s.pfHeld = false ∧
      s.boot.thawRec = true ∧ bitAt v.toNat 0 = true ∧ bitAt (bits v.toNat 8 8) 6 = true) :=
  ⟨
    ⟨w [put F.CUP_CTL_LOCK 1], .scp, by decide, by decide, by decide⟩,
    ⟨State.reset, .scp, by decide, by decide, by decide, by decide, by decide, by decide⟩,
    ⟨w [put F.CUP_CTL_EN 1], .scp, by decide, by decide, by decide, by decide⟩,
    ⟨w [put F.ERR_WR_WR 256], .scp, 256, by decide, by decide, by decide⟩,
    ⟨w [put F.ERR_WR_WR 256], .scp, 257, by decide, by decide, by decide⟩,
    ⟨State.reset, .scp, 3, by decide, by decide, by decide⟩,
    ⟨w [put F.DEV_PF_STAT_HELD 1], .scp, by decide, by decide, by decide⟩,
    ⟨State.reset, .scp, by decide, by decide, by decide, by decide⟩,
    ⟨w [modBoot fun b => { b with thawRec := true }], .scp, 0x4001, by decide, by decide, by decide, by decide,
      by decide, by decide⟩⟩

end Slice0

end
end

section
/-!
SUPPORT. The two facts every statement about single steps starts from: a step runs a meaning, and a meaning keeps what each of
its updates keeps.  Here: the canonical form of every memory, bank and table (`State.wf`), the clock and the hard-wired words.
-/

namespace Sys2Proof

/-- Every entry after a write is the written one or was there. -/
theorem SMap.mem_set {α : Type} [DecidableEq α] (d : α) (m : SMap α) (q : Nat) (x : α) (e : Nat × α)
    (h : e ∈ SMap.set d m q x) : e = (q, x) ∨ e ∈ m := by
  induction m with
  | nil =>
    simp only [SMap.set] at h
    split at h <;> simp_all
  | cons f rest ih =>
    simp only [SMap.set] at h
    split_ifs at h <;> grind

end Sys2Proof

namespace Sys2Proof.Machine

/-! ### The form of one piece of state -/

/-- A write of a shade in four bits on a granule that exists keeps the form of the shades (R315). -/
theorem Shades.wf_set (m : SMap Nat) (g v : Nat) (h : Shades.wf m = true) (hg : g < shadeCount) :
    Shades.wf (SMap.set 0 m g (v % 16)) = true := by
  simp only [Shades.wf, Bool.and_eq_true, List.all_eq_true, decide_eq_true_eq] at h ⊢
  obtain ⟨⟨hcanon, hkeys⟩, hbits⟩ := h
  refine ⟨⟨SMap.set_wf 0 m g _ hcanon, keysBelow_set _ 0 m g _ hkeys hg⟩, fun e he => ?_⟩
  rcases SMap.mem_set 0 m g _ e he with rfl | he
  · exact Nat.mod_lt v (by decide)
  · exact hbits e he

/-- The part of `State.wf` that speaks of one piece of state, the byte memories and the register words apart. -/
def Part.tableWf (p : Part) (s : State) : Bool :=
  match p with
  | .shades => Shades.wf s.shades
  | .ctxs => SMap.wf Ctx.init s.ctxs
  | .queues => SMap.wf Queue.init s.queues
  | .chans => SMap.wf Chan.init s.chans
  | .mems => SMap.wf MemObj.init s.mems
  | .fences => SMap.wf Fence.init s.fences
  | .engines => SMap.wf Engine.init s.engines
  | .elder => SMap.wf 0 s.elder
  | .ports => SMap.wf Port.init s.ports
  | .wbq => SMap.wf [] s.wbq
  | .chairs => SMap.wf Chair.init s.chairs
  | .lanes => SMap.wf Lane.init s.lanes
  | .pmb => SMap.wf PmbPort.init s.pmb
  | .wicks => SMap.wf Wick.init s.wicks
  | _ => true

theorem State.wf_iff (s : State) :
    s.wf = true ↔ MemsWf s ∧ Regs.wf s.regs = true ∧ ∀ p : Part, p.tableWf s = true := by
  constructor
  · intro h
    refine ⟨s.wf_mems h, s.wf_regs h, fun p => ?_⟩
    simp only [State.wf, Bool.and_eq_true] at h
    cases p <;> simp_all [Part.tableWf]
  · rintro ⟨hmems, hregs, htables⟩
    simp only [State.wf, Bool.and_eq_true, and_assoc]
    exact ⟨hmems .stag, hmems .objs, hmems .lane, hmems .errq, hmems .trace, htables .shades, hregs, htables .ctxs,
      htables .queues, htables .chans, htables .mems, htables .fences, htables .engines, htables .elder, htables .ports,
      htables .wbq, htables .chairs, htables .lanes, htables .pmb, htables .wicks⟩

/-- States that agree on a piece agree on its form. -/
theorem Part.tableWf_of_same (p : Part) (s t : State) (h : p.same s t) : p.tableWf t = p.tableWf s := by
  cases p <;> simp_all [Part.same, Part.tableWf]

/-- An update keeps the form of the piece it changes. -/
theorem Upd.apply_own_tableWf (u : Upd) (s : State) (p : Part) (hu : u.part = some p) (h : p.tableWf s = true) :
    p.tableWf (u.apply s) = true := by
  cases u with
  | mem m a b => cases m <;> cases hu <;> rfl
  | shade g v =>
    cases hu
    simp only [Upd.apply]
    split
    · next hg => exact Shades.wf_set s.shades g v h hg
    · exact h
  | wipe w => cases w <;> cases hu <;> rfl
  | elder | port | wbq | ctx | queue | chan | mobj | fence | engine | chair | lane | pmbp | wick =>
    cases hu
    exact SMap.set_wf _ _ _ _ h
  | _ => cases hu <;> rfl

/-- An update keeps the form of every table: of its own, and of the others because it leaves them alone. -/
theorem Upd.apply_tableWf (u : Upd) (s : State) (p : Part) (h : p.tableWf s = true) : p.tableWf (u.apply s) = true := by
  by_cases hu : u.part = some p
  · exact u.apply_own_tableWf s p hu h
  · rw [p.tableWf_of_same s _ (u.apply_same s p hu), h]

/-! ### What every update and every meaning keeps -/

theorem Upd.apply_wf (u : Upd) (s : State) (h : s.wf = true) : (u.apply s).wf = true := by
  rw [State.wf_iff] at h ⊢
  obtain ⟨hmems, hregs, htables⟩ := h
  exact ⟨u.apply_mems_wf s hmems, u.apply_regs_wf s hregs, fun p => u.apply_tableWf s p (htables p)⟩

theorem Act.run_wf (a : Act) (s : State) (h : s.wf = true) : (a.run s).wf = true :=
  Act.run_induct (fun t => t.wf = true) Upd.apply_wf a s h

/-- No update turns the clock back: a tick is the one that touches it. -/
theorem Upd.clk_le_apply (u : Upd) (s : State) : s.clk ≤ (u.apply s).clk := by
  by_cases hu : u.part = some .clk
  · cases u with
    | tick n => exact Nat.le_add_right _ n
    | mem m => cases m <;> cases hu
    | wipe w => cases w <;> cases hu
    | _ => cases hu
  · exact (u.apply_same s .clk hu).ge

theorem Act.clk_le_run (a : Act) (s : State) : s.clk ≤ (a.run s).clk :=
  Act.run_induct (fun t => s.clk ≤ t.clk) (fun u t h => h.trans (u.clk_le_apply t)) a s le_rfl

/-- A hard-wired register is never listed, so it reads its Reset word in every bank (R1, R2). -/
theorem word_hardWired (s : State) (inst off : Nat) (h : Regs.wf s.regs = true) (hoff : off < 0x1000)
    (hh : hardWired off = true) : s.word inst off = regReset off := by
  simp only [Regs.wf, Bool.and_eq_true, List.all_eq_true] at h
  obtain ⟨_, hentries⟩ := h
  rcases regs_get_mem s.regs (off + 0x1000 * inst) (keyReset (off + 0x1000 * inst)) with hread | hlisted
  · rw [State.word, hread, keyReset, keyOff_inst off inst hoff]
  · have := hentries _ hlisted
    simp [regWf, keyOff_inst off inst hoff, hh] at this

/-! ### What a step and a command run -/

/-- A command that is no reset and no supply trip runs as a row does: on a device that is on, and nothing otherwise. -/
theorem exec_eq_row (i : Instr) (s : State) (hreset : resetRow i = false) (htrip : i ≠ .supplyTrip) :
    ∃ a : Act, exec i s = .next ((row a).run s) := by
  cases i with
  | coldReset | warmReset => cases hreset
  | supplyTrip => exact absurd rfl htrip
  | _ => exact ⟨_, rfl⟩

/-- Every command runs a meaning: it answers a next state, and changes nothing but by updates. -/
theorem exec_eq_run (i : Instr) (s : State) : ∃ a : Act, exec i s = .next (a.run s) := by
  cases i <;> exact ⟨_, rfl⟩

/-- A row does nothing to a device that is off (R568). -/
theorem row_run_off (a : Act) (s : State) (h : s.pwr.off = true) : (row a).run s = s := by simp [row, h]

/-- A step runs a meaning on the state that is left when the front of the queue is taken. -/
theorem step_eq_run (s : State) : ∃ a : Act, step s = .next (a.run { s with pending := s.pending.tail }) := by
  cases hq : s.pending with
  | nil =>
    have hs : { s with pending := [] } = s := by rw [← hq]
    exact ⟨tickAct, by simp only [step, hq, tick, List.tail_nil, hs]⟩
  | cons i rest =>
    simp only [step, hq, List.tail_cons]
    exact exec_eq_run i _

/-! ### The statements -/

/-- Settles O2: a step runs a meaning, each update of a meaning keeps the form of its own piece of state and leaves the
other pieces alone, and the form does not look at the queue of waiting commands. -/
theorem stepKeepsWellFormed : Obligations.StepKeepsWellFormed := by
  intro s t hstep hwf
  obtain ⟨a, ha⟩ := step_eq_run s
  cases ha.symm.trans hstep
  exact a.run_wf _ hwf

/-- Settles O4: a command runs a meaning, and a meaning answers a state with the same queue, a clock not earlier and the
hard-wired words at their Reset values; a row does nothing to a device that is off. -/
theorem everyCommandAnswers : Obligations.EveryCommandAnswers := by
  intro i s
  constructor
  · intro hoff hreset htrip
    obtain ⟨a, ha⟩ := exec_eq_row i s hreset htrip
    rw [ha, row_run_off a s hoff]
  · obtain ⟨a, ha⟩ := exec_eq_run i s
    refine ⟨a.run s, ha, a.run_pending s, a.clk_le_run s, fun hwf => ?_⟩
    have hregs := a.run_regs_wf s (s.wf_regs hwf)
    rw [word_hardWired _ 0 0x000 hregs (by decide) rfl, word_hardWired _ 0 0x004 hregs (by decide) rfl]
    decide

end Sys2Proof.Machine
end

section
/-!
SUPPORT. What the rows of the wheel, the Lamplighter and the two paths share: when a row and a path's access act, what passing
time does to the wheel and what it leaves alone, and the frames of wheel events and of the Lamplighter's operations.
-/

namespace Sys2Proof.Machine

/-! ### A row and a path's access act -/

/-- On a device that is on, with nothing behind a held read, a row is its own effect alone (R93). -/
theorem row_run_of_running {s : State} (h : Running s) (a : Act) : (row a).run s = a.run s := by
  obtain ⟨_, hon, hbehind⟩ := h
  simp [row, hon, hbehind]

/-- What a command whose meaning is a row answers on a running device. -/
theorem row_next {s t : State} (h : Running s) {a : Act} (ht : a.run s = t) :
    (.next ((row a).run s) : Host.Outcome State Fault Refusal) = .next t := by
  rw [row_run_of_running h, ht]

theorem running_of_pathFree {s : State} {p : Path} (h : PathFree s p) : Running s := by
  obtain ⟨hwf, halive, _, hbehind⟩ := h
  simp only [State.pathDead, Bool.or_eq_false_iff] at halive
  exact ⟨hwf, halive.1, hbehind⟩

theorem pathWrite_run_of_reaches {s : State} {p : Path} {off : Nat} (h : Reaches s p off) (v : Word) (a : Act) :
    (pathWrite p off v a).run s = a.run s := by
  obtain ⟨⟨_, halive, hheld, _⟩, hmask⟩ := h
  simp [pathWrite, halive, hheld, hmask]

theorem pathRead_run_of_pathFree {s : State} {p : Path} (h : PathFree s p) (off : Nat) :
    (pathRead p off).run s = (readStart p off 1 false 15 15).run s := by
  obtain ⟨_, halive, hheld, _⟩ := h
  simp [pathRead, halive, hheld]

/-! ### What a frame says of a field -/

section
variable {ps : List Part} {offs : List Nat}

theorem Act.Only.fldI {a : Act} {s : State} (h : a.Only ps offs) (hw : Regs.wf s.regs = true) (inst : Nat) (f : Fld)
    (hoff : f.off < 0x1000) (hn : f.off ∉ offs) : (a.run s).fldI inst f = s.fldI inst f := by
  simp only [State.fldI, h.word a s hw inst f.off hoff hn]

theorem Act.Only.fld {a : Act} {s : State} (h : a.Only ps offs) (hw : Regs.wf s.regs = true) (f : Fld)
    (hoff : f.off < 0x1000) (hn : f.off ∉ offs) : (a.run s).fld f = s.fld f := h.fldI hw 0 f hoff hn

@[simp] theorem only_modPort (p : Path) (f : PathPort → PathPort) : (modPort p f).Only ps offs ↔ portPart p ∈ ps := by
  cases p <;> simp [modPort, portPart]

@[simp] theorem only_modCur (c : Nat) (f : Cur → Cur) : (modCur c f).Only ps offs ↔ .chans ∈ ps := by
  simp [modCur, modRun]

@[simp] theorem only_makeQueued (c : Nat) : (makeQueued c).Only ps offs ↔ .chans ∈ ps := by simp [makeQueued, all_states]

@[simp] theorem only_releaseWait (c status : Nat) : (releaseWait c status).Only ps offs ↔ .chans ∈ ps := by
  simp [releaseWait, descDone, all_states]

/-! ### Frames of a wheel event, of a record that becomes due, and of the queues -/

/-- A wheel event changes its own register and what a trace record and a posted entry change (R72). -/
theorem only_whlEvent (f : Fld) (posted : Bool) (hf : f.off < 0x1000) (hp : errParts ⊆ ps) (ho : f.off :: errOffs ⊆ offs) :
    (whlEvent f posted).Only ps offs := by
  intro s
  obtain ⟨hfo, herr⟩ := List.cons_subset.1 ho
  have hparts := hp
  have hoffs := herr
  simp only [errParts, errOffs, List.cons_subset, List.nil_subset, and_true] at hparts hoffs
  simp only [only_acts_cons, only_acts_nil, only_when, and_true]
  exact ⟨only_event f hf hfo (by simp [hparts]), only_traceRec _ _ (by simp [hparts]) (by simp [hoffs]),
    fun _ => only_postPlain _ _ _ _ hp herr⟩

/-- The registers of the wheel block that firing and arming entries change, and those of a posted entry. -/
def lampOffs : List Nat :=
  [F.WHL_EVT_LATE.off, F.WHL_CNT0_LATE.off, F.WHL_CNT1_MOVED.off, F.WHL_LL_HWM.off] ++ errOffs

/-- The pieces of state that arming an entry changes. -/
def armParts : List Part := .lamp :: errParts

/-- The pieces of state that firing an entry changes: the Lamplighter's, the channel's, and those of its submissions. -/
def fireParts : List Part := [.chans, .due, .gov, .queues, .freeSeq] ++ armParts

end

/-! ### The Lamplighter's operations (R51 to R55) -/

theorem only_lampPlace (c ctx i : Nat) (target : WTime) (forced : Bool) :
    (lampPlace c ctx i target forced).Only armParts lampOffs := by
  intro s
  simp only [only_acts_cons, only_acts_nil, and_true, only_ask, only_when, only_modLamp]
  exact ⟨by decide, fun t => ⟨fun _ => (only_put _ _ (by decide)).2 (by decide),
    fun _ => only_whlEvent _ _ (by decide) (by decide) (by decide)⟩⟩

theorem only_lampArmAct : lampArmAct.Only armParts lampOffs := by
  intro s
  simp only [only_forSome, only_acts_cons, only_acts_nil, and_true, only_modLamp]
  exact fun w _ => ⟨by decide, fun i _ => only_lampPlace _ _ _ _ _⟩

theorem only_lampRearm : lampRearm.Only armParts lampOffs := fun _ => only_rep _ _ only_lampArmAct

theorem only_lampArm (c : Nat) (target : WTime) (forced : Bool) : (lampArm c target forced).Only armParts lampOffs := by
  refine ⟨only_lampRearm, fun s => ?_⟩
  dsimp only
  split
  · trivial
  · split
    · exact only_lampPlace _ _ _ _ _
    · simp only [only_acts_cons, only_acts_nil, and_true, only_modLamp, only_when]
      exact ⟨by decide, (only_count _ (by decide)).2 (by decide),
        fun _ => only_whlEvent _ _ (by decide) (by decide) (by decide)⟩

theorem only_lateFire : lateFire.Only errParts lampOffs :=
  ⟨(only_count _ (by decide)).2 (by decide), only_whlEvent _ _ (by decide) (by decide) (by decide)⟩

theorem armParts_subset : armParts ⊆ fireParts := List.subset_append_right _ _

theorem errParts_subset : errParts ⊆ fireParts := List.Subset.trans (List.subset_cons_self _ _) armParts_subset

/-! ### Starting a submission (R135) -/

theorem only_addDue (d : Due) : (addDue d).Only fireParts lampOffs := by
  intro s
  dsimp only
  split
  · exact (only_modGov _).2 (by decide)
  · simp only [only_when, only_upd]
    exact fun _ => ⟨.due, rfl, by decide⟩

theorem only_unstarted (c : Nat) (sub : Sub) (status : Nat) : (unstarted c sub status).Only fireParts lampOffs :=
  fun _ _ => only_addDue _

theorem only_queueSettle : queueSettle.Only fireParts lampOffs := by
  intro s
  simp only [only_forEach]
  exact fun q _ => only_takeFreeSeq _ (by decide) fun _ => (only_modQueue _ _).2 (by decide)

theorem only_modSubs (c : Nat) (f : List Sub → List Sub) : (modSubs c f).Only fireParts lampOffs :=
  ⟨(only_modChan _ _).2 (by decide), only_queueSettle⟩

theorem only_beginSub (c : Nat) : (beginSub c).Only fireParts lampOffs := by
  intro s
  simp only [only_forSome, only_modChan]
  exact fun _ _ => by decide

theorem only_startFrom (c fuel : Nat) : (startFrom c fuel).Only fireParts lampOffs := by
  induction fuel with
  | zero => trivial
  | succ fuel ih =>
    intro s
    have harm := fun t => (only_lampArm c t false).mono armParts_subset (List.Subset.refl lampOffs)
    have hlate := only_lateFire.mono errParts_subset (List.Subset.refl lampOffs)
    have hchans : Part.chans ∈ fireParts := by decide
    dsimp only
    split
    · trivial
    · split
      · exact (only_modChan _ _).2 hchans
      · exact (only_modChan _ _).2 hchans
      · split
        · exact ⟨(only_modChan _ _).2 hchans, harm _⟩
        · split
          · exact ⟨only_unstarted _ _ _, only_modSubs _ _, ih⟩
          · exact ⟨(only_when _ _).2 fun _ => hlate, only_beginSub c⟩

theorem only_lampFireEnt (e : LampEnt) : (lampFireEnt e).Only fireParts lampOffs := by
  intro s
  have hrearm := only_lampRearm.mono armParts_subset (List.Subset.refl lampOffs)
  have hlate := only_lateFire.mono errParts_subset (List.Subset.refl lampOffs)
  have hchans : Part.chans ∈ fireParts := by decide
  simp only [only_acts_cons, only_acts_nil, and_true, only_modLamp, only_when]
  refine ⟨by decide, hrearm, fun _ => hlate, ?_⟩
  split
  · exact ⟨(only_modChan _ _).2 hchans, only_startFrom _ _⟩
  · exact ⟨(only_modCur _ _).2 hchans, (only_makeQueued _).2 hchans⟩
  · exact ⟨(only_modCur _ _).2 hchans, (only_releaseWait _ _).2 hchans⟩
  · trivial

/-! ### Passing time -/

@[simp] theorem tickBy_wheel (n : Nat) (s : State) : ((tickBy n).run s).wheel = s.wheel.after n := rfl

theorem tickBy_unchanged (n : Nat) {s : State} (h : s.wf = true) : UnchangedButTime [] [] s ((tickBy n).run s) :=
  Act.Only.unchanged _ s (only_tickBy n (List.subset_append_left _ _) (List.subset_append_left _ _)) (s.wf_regs h)

/-- Of everything but what time changes, the state is as it was (R41, R316, R388). -/
theorem tickBy_same (n : Nat) (s : State) (p : Part) (hp : p ∉ timeParts) : p.same s ((tickBy n).run s) :=
  (only_tickBy n (List.Subset.refl timeParts) (List.Subset.refl timeOffs)).part _ s p hp

theorem tickBy_fld (n : Nat) {s : State} (h : s.wf = true) (f : Fld) (hoff : f.off < 0x1000) (hn : f.off ∉ timeOffs) :
    ((tickBy n).run s).fld f = s.fld f :=
  (only_tickBy n (List.Subset.refl timeParts) (List.Subset.refl timeOffs)).fld (s.wf_regs h) f hoff hn

/-- What time does before the clock moves is of the fill, the writeback queues and the lanes. -/
theorem only_fillBy_fill (n : Nat) : (fillBy n).Only [.shades, .fillAt, .fillLeft] timeOffs := by
  intro s
  refine only_rep _ _ fun t => ?_
  simp [UpdIn, Upd.part, timeOffs, only_put F.PRT_SHD_ADDR_GRAN _ (by decide)]

@[simp] theorem tickBy_clk (n : Nat) (s : State) : ((tickBy n).run s).clk = s.clk + n := by
  have hfill : ((fillBy n).run s).clk = s.clk := (only_fillBy_fill n).part _ s .clk (by decide)
  have hdrain : ∀ t : State, ((wbqDrain n).run t).clk = t.clk := fun t =>
    (only_wbqDrain n (ps := [.wbq]) (offs := []) (by decide)).part _ t .clk (by decide)
  have heof : ∀ t : State, ((eofBy n).run t).clk = t.clk := fun t =>
    (only_eofBy n (ps := [.lanes]) (offs := []) (by decide)).part _ t .clk (by decide)
  exact congrArg (· + n) ((heof _).trans ((hdrain _).trans hfill))

/-- The clock in which an entry's target is reached, as it stands n core clocks from now (R55). -/
def State.sinceAfter (s : State) (n : Nat) (e : LampEnt) : Option Nat :=
  if e.since.isNone && s.wheel.clocksTo e.target ≤ n then some (s.clk + s.wheel.clocksTo e.target) else e.since

/-- Passing time marks the entries whose target it reaches, and does no more to the Lamplighter (R55). -/
theorem tickBy_lamp (n : Nat) (s : State) : ((tickBy n).run s).lamp =
    { s.lamp with entries := s.lamp.entries.map fun e => { e with since := s.sinceAfter n e } } := by
  have hmark : (fun e : LampEnt => if e.since.isNone && s.wheel.clocksTo e.target ≤ n
      then { e with since := some (s.clk + s.wheel.clocksTo e.target) } else e) =
      fun e => { e with since := s.sinceAfter n e } := by
    funext e
    unfold State.sinceAfter
    split <;> rfl
  exact congrArg (fun f => { s.lamp with entries := s.lamp.entries.map f }) hmark

end Sys2Proof.Machine
end

section
/-!
SUPPORT. Reads of one word that latch: WHL_TIME_LO (R57) and FEN_VAL_LO (R386), whose high words stand in latches of the reading
path (R582).
-/

namespace Sys2Proof.Machine

/-! ### A path's port -/

@[simp] theorem port_modPort (p : Path) (f : PathPort → PathPort) (s : State) :
    ((modPort p f).run s).port p = f (s.port p) := by cases p <;> rfl

@[simp] theorem regs_modPort (p : Path) (f : PathPort → PathPort) (s : State) : ((modPort p f).run s).regs = s.regs := by
  cases p <;> rfl

@[simp] theorem port_putI (p : Path) (inst : Nat) (f : Fld) (v : Nat) (s : State) :
    ((putI inst f v).run s).port p = s.port p := by cases p <;> rfl

@[simp] theorem word_modPort (p : Path) (f : PathPort → PathPort) (s : State) (inst off : Nat) :
    ((modPort p f).run s).word inst off = s.word inst off := by simp only [State.word, regs_modPort]

@[simp] theorem port_gotWord (p : Path) (w : Word) (s : State) : ((gotWord p w).run s).port p =
    { s.port p with held := (s.port p).held.map fun h => { h with reg := none, got := h.got ++ [w] } } := port_modPort p _ s

/-! ### A read of one word -/

/-- The read in progress right after a read of one word has begun. -/
def State.oneWord (s : State) (off : Nat) : HeldRead := ⟨none, s.clk, s.now, off, 1, false, 15, 15, []⟩

/-- A read of one word begins (R86). -/
def beginOne (p : Path) (off : Nat) : Act := .ask fun s =>
  modPort p fun x => { x with held := some (s.oneWord off), reply := [], cpls := [] }

@[simp] theorem port_beginOne (p : Path) (off : Nat) (s : State) : ((beginOne p off).run s).port p =
    { s.port p with held := some (s.oneWord off), reply := [], cpls := [] } := port_modPort p _ s

theorem readGo_run_begun {p : Path} {s : State} {h : HeldRead} (n : Nat) (hheld : (s.port p).held = some h)
    (hreg : h.reg = none) (htotal : h.total = 1) (hgot : h.got = []) :
    (readGo p (n + 1)).run s = (readGo p n).run ((readOne p h.off).run s) := by
  simp [readGo, hheld, hreg, htotal, hgot]

theorem readGo_run_full {p : Path} {s : State} {h : HeldRead} (n : Nat) (hheld : (s.port p).held = some h)
    (hreg : h.reg = none) (hfull : h.total ≤ h.got.length) : (readGo p (n + 1)).run s = (readDone p).run s := by
  simp [readGo, hheld, hreg, hfull]

/-- A read of one word whose effect is to latch a value in a field of the path's own bank. -/
def latchRead (p : Path) (off : Nat) (f : Fld) (v : Nat) (w : Word) : Act := acts [
  beginOne p off, putI (pathInst p) f v, gotWord p w, readDone p]

/-- The register latches and returns its word when it is read, in a state where the read has just begun. -/
abbrev LatchesOnRead (s : State) (p : Path) (off : Nat) (f : Fld) (v : Nat) (w : Word) : Prop :=
  (readOne p off).run ((beginOne p off).run s) =
    (acts [putI (pathInst p) f v, gotWord p w]).run ((beginOne p off).run s)

theorem readStart_run_latchRead {s : State} {p : Path} {off : Nat} {f : Fld} {v : Nat} {w : Word}
    (h : LatchesOnRead s p off f v w) :
    (readStart p off 1 false 15 15).run s = (latchRead p off f v w).run s := by
  show (readGo p 18).run ((beginOne p off).run s) = _
  rw [readGo_run_begun (h := s.oneWord off) 17 (by simp) rfl rfl rfl]
  show (readGo p 17).run ((readOne p off).run _) = _
  rw [h, readGo_run_full (h := { s.oneWord off with reg := none, got := [w] }) 16 (by simp [State.oneWord]) rfl le_rfl]
  rfl

theorem whlTimeLo_latches (s : State) (p : Path) : LatchesOnRead s p 0x190 F.WHL_TIME_HI_TIME_HI (s.now.toNat / 2 ^ 32)
    (BitVec.ofNat 32 (s.now.toNat % 2 ^ 32)) := by
  cases p <;> rfl

theorem fenValLo_latches (s : State) (p : Path) : LatchesOnRead s p 0x2D8 F.FEN_VAL_HI_VAL_HI
    ((s.fence (s.fld F.FEN_SEL_INDEX)).value.toNat / 2 ^ 32)
    (BitVec.ofNat 32 ((s.fence (s.fld F.FEN_SEL_INDEX)).value.toNat % 2 ^ 32)) := by
  cases p <;> rfl

/-! ### What the read shows, latches and leaves -/

/-- A read of one whole dword returns its four bytes (R92). -/
theorem HeldRead.bytes_one {h : HeldRead} {w : Word} (hgot : h.got = [w]) (hbe : h.fbe = 15) :
    h.bytes = leBytes 4 w.toNat := by
  simp [HeldRead.bytes, hgot, hbe, leBytes, bitAt]

section
variable (p : Path) (off : Nat) (f : Fld) (v : Nat) (w : Word) (s : State)

/-- The path shows the word read (R82, R93). -/
theorem latchRead_portShows : PortShows ((latchRead p off f v w).run s) p [w] := by
  cases p with
  | scp => exact ⟨rfl, rfl⟩
  | bar0 =>
    have hbytes := HeldRead.bytes_one (h := { s.oneWord off with reg := none, got := [w] }) rfl rfl
    exact ⟨rfl, congrArg (fun data => [Cpl.mk 0 data]) (hbytes.trans (by simp))⟩

/-- What is latched, cut to the field's width. -/
theorem latchRead_fldI (hw : Regs.wf s.regs = true) (hf : f.ok) :
    ((latchRead p off f v w).run s).fldI (pathInst p) f = v % 2 ^ f.width := by
  have hbegun : Regs.wf ((beginOne p off).run s).regs = true := Act.run_regs_wf _ s hw
  simp only [latchRead, gotWord, readDone, run_acts_cons, run_acts_nil, State.fldI, word_modPort]
  exact fldI_putI_same _ _ f v hbegun hf

/-- The latch of the other path is another register, and stays (R582). -/
theorem latchRead_other_word (hw : Regs.wf s.regs = true) :
    ((latchRead p off f v w).run s).word (pathInst (otherPath p)) f.off = s.word (pathInst (otherPath p)) f.off := by
  have hbegun : Regs.wf ((beginOne p off).run s).regs = true := Act.run_regs_wf _ s hw
  have hinst : f.off + 0x1000 * pathInst (otherPath p) ≠ f.off + 0x1000 * pathInst p := by
    cases p <;> simp [otherPath, pathInst]
  simp only [latchRead, gotWord, readDone, run_acts_cons, run_acts_nil, word_modPort]
  exact (word_setReg_ne _ _ _ _ _ hbegun hinst).trans (word_modPort p _ s _ _)

theorem latchRead_unchanged (hw : Regs.wf s.regs = true) (hf : f.off < 0x1000) :
    Unchanged [portPart p] [f.off] s ((latchRead p off f v w).run s) := by
  refine Act.Only.unchanged _ s ?_ hw
  simp only [latchRead, beginOne, gotWord, readDone, only_acts_cons, only_acts_nil, only_ask, only_modPort,
    only_putI _ _ _ hf, List.mem_singleton, implies_true, and_self]

end

/-- What a row that reads one latching word on a free path brings about. -/
theorem row_pathRead_latches {s : State} {p : Path} {off : Nat} {f : Fld} {v : Nat} {w : Word} (hfree : PathFree s p)
    (hf : f.ok) (hv : v < 2 ^ f.width) (h : LatchesOnRead s p off f v w) :
    ∃ t, (row (pathRead p off)).run s = t ∧ PortShows t p [w] ∧ t.fldI (pathInst p) f = v ∧
      t.word (pathInst (otherPath p)) f.off = s.word (pathInst (otherPath p)) f.off ∧ Unchanged [portPart p] [f.off] s t := by
  have hw : Regs.wf s.regs = true := s.wf_regs hfree.1
  refine ⟨(latchRead p off f v w).run s, ?_, latchRead_portShows .., ?_, latchRead_other_word _ _ _ _ _ _ hw,
    latchRead_unchanged _ _ _ _ _ _ hw hf.1⟩
  · rw [row_run_of_running (running_of_pathFree hfree), pathRead_run_of_pathFree hfree, readStart_run_latchRead h]
  · rw [latchRead_fldI _ _ _ _ _ _ hw hf, Nat.mod_eq_of_lt hv]

/-- A read of WHL_TIME_HI gives the latch of the reading path (R57, R582). -/
theorem readWord_timeHi (s : State) (p : Path) :
    s.readWord p 0x194 = BitVec.ofNat 32 (s.fldI (pathInst p) F.WHL_TIME_HI_TIME_HI) := by
  have hmask : readMask 0x194 = 2 ^ 16 - 1 := by decide
  have hword : s.readWord p 0x194 = s.word (pathInst p) 0x194 &&& BitVec.ofNat 32 (readMask 0x194) := rfl
  rw [hword, hmask]
  apply BitVec.eq_of_toNat_eq
  simp only [State.fldI, F.WHL_TIME_HI_TIME_HI, bits, BitVec.toNat_and, BitVec.toNat_ofNat]
  rw [Nat.mod_eq_of_lt (by decide : 2 ^ 16 - 1 < 2 ^ 32), Nat.and_two_pow_sub_one_eq_mod]
  omega

/-- Settles O12: a read of one word whose effect is a put in the path's own bank, for both registers. -/
theorem latchedReads : Obligations.LatchedReads := by
  intro s p hfree
  constructor
  · obtain ⟨t, hrun, hshow, hlatch, hother, hframe⟩ := row_pathRead_latches hfree ((Fld.ok_iff _).2 (by decide))
      (show s.now.toNat / 2 ^ 32 < 2 ^ 16 by have := s.now.isLt; omega) (whlTimeLo_latches s p)
    refine ⟨t, congrArg _ hrun, hshow, hlatch, ?_, ?_, hother, hframe⟩
    · rw [readWord_timeHi, hlatch]
    · rw [readWord_timeHi, readWord_timeHi, State.fldI, State.fldI, hother]
  · obtain ⟨t, hrun, hshow, hlatch, hother, hframe⟩ := row_pathRead_latches hfree ((Fld.ok_iff _).2 (by decide))
      (show (s.fence (s.fld F.FEN_SEL_INDEX)).value.toNat / 2 ^ 32 < 2 ^ 32 by
        have := (s.fence (s.fld F.FEN_SEL_INDEX)).value.isLt; omega) (fenValLo_latches s p)
    exact ⟨t, congrArg _ hrun, hshow, hlatch, hother, hframe⟩

end Sys2Proof.Machine
end

section
/-!
SUPPORT. PTM dialogues (R58, R59, R490): how one starts, fails and ends with its pair; and fields put one after another.
-/

namespace Sys2Proof.Machine

/-! ### Fields put one after another -/

/-- Two fields share no bit. -/
def Fld.apart (f g : Fld) : Bool := f.off != g.off || decide (g.lo + g.width ≤ f.lo) || decide (f.lo + f.width ≤ g.lo)

/-- Fields are set one after another. -/
def putAll (l : List (Fld × Nat)) : Act := forEach l fun e => put e.1 e.2

theorem fld_put_apart {s : State} {f g : Fld} (v : Nat) (hw : Regs.wf s.regs = true) (hf : f.ok) (hg : g.ok)
    (h : f.apart g = true) : ((put f v).run s).fld g = s.fld g := by
  simp only [Fld.apart, Bool.or_eq_true, bne_iff_ne, ne_eq, decide_eq_true_eq] at h
  by_cases hoff : g.off = f.off
  · exact fld_put_disjoint s f g v hw hf hg hoff (by grind)
  · exact fld_put_off s f g v hw hoff

theorem fld_putAll_apart {s : State} (l : List (Fld × Nat)) {g : Fld} (hw : Regs.wf s.regs = true)
    (hok : ∀ f ∈ l.map Prod.fst, f.ok) (hg : g.ok) (h : ∀ f ∈ l.map Prod.fst, f.apart g = true) :
    ((putAll l).run s).fld g = s.fld g := by
  induction l generalizing s with
  | nil => rfl
  | cons x l ih =>
    simp only [List.map_cons, List.forall_mem_cons] at hok h
    have hrest := ih (Act.run_regs_wf (put x.1 x.2) s hw) hok.2 h.2
    simp only [putAll, run_forEach_cons] at hrest ⊢
    rw [hrest, fld_put_apart _ hw hok.1 hg h.1]

/-- Fields that share no bit all read back after they have been put one after another. -/
theorem fld_putAll {s : State} {l : List (Fld × Nat)} (hw : Regs.wf s.regs = true) (hok : ∀ f ∈ l.map Prod.fst, f.ok)
    (hapart : (l.map Prod.fst).Pairwise fun f g => g.apart f = true) {f : Fld} {v : Nat} (hmem : (f, v) ∈ l) :
    ((putAll l).run s).fld f = v % 2 ^ f.width := by
  induction l generalizing s with
  | nil => cases hmem
  | cons x l ih =>
    simp only [List.map_cons, List.forall_mem_cons, List.pairwise_cons] at hok hapart
    have hw' := Act.run_regs_wf (put x.1 x.2) s hw
    show ((putAll (x :: l)).run s).fld f = _
    have hstep : (putAll (x :: l)).run s = (putAll l).run ((put x.1 x.2).run s) := run_forEach_cons ..
    rw [hstep]
    rcases List.mem_cons.1 hmem with rfl | hmem
    · rw [fld_putAll_apart l hw' hok.2 hok.1 hapart.1, fld_put_same s f v hw hok.1]
    · exact ih hw' hok.2 hapart.2 hmem

theorem only_putAll {ps : List Part} {offs : List Nat} (l : List (Fld × Nat))
    (h : ∀ f ∈ l.map Prod.fst, f.off < 0x1000 ∧ f.off ∈ offs) : (putAll l).Only ps offs := by
  simp only [putAll, only_forEach]
  intro e he
  obtain ⟨hoff, hmem⟩ := h e.1 (List.mem_map_of_mem he)
  exact (only_put _ _ hoff).2 hmem

/-! ### How a dialogue starts -/

/-- A dialogue starts in this core clock (R490). -/
def ptmBegin : Act := .ask fun s =>
  modPtm fun x => { x with start := some s.clk, sample := s.now, valid := s.wheel.st == .locked || s.wheel.st == .master }

theorem ptmBegin_start (s : State) : (ptmBegin.run s).ptm.start = some (ptmBegin.run s).clk := rfl

theorem ptmBegin_sample (s : State) : (ptmBegin.run s).ptm.sample = (ptmBegin.run s).now := rfl

theorem ptmBegin_anchor (s : State) : (ptmBegin.run s).ptm.anchor = s.ptm.anchor := rfl

theorem ptmStart_run_inProgress {s : State} (h : s.ptm.start ≠ none) : ptmStart.run s = s := by
  simp [ptmStart, Option.isNone_eq_false_iff.2 (Option.isSome_iff_ne_none.2 h)]

theorem ptmStart_run_begins {s : State} (hidle : s.ptm.start = none) (hup : s.linkUp = true) (hen : s.host.ptmEn = true) :
    ptmStart.run s = ptmBegin.run s := by
  simp [ptmStart, ptmBegin, hidle, hup, hen]

theorem ptmStart_run_fails {s : State} (hidle : s.ptm.start = none) (hdown : s.linkUp = false ∨ s.host.ptmEn = false) :
    ptmStart.run s = (put F.WHL_PTM_CTL_FAIL 1).run s := by
  have hno : (s.linkUp && s.host.ptmEn) = false := by rcases hdown with h | h <;> simp [h]
  simp only [ptmStart, run_ask, hidle, hno, Option.isNone_none, run_when, if_true, Bool.false_eq_true, if_false]

theorem exec_ptmRequest {s : State} {p : Path} (hrun : Running s) (h : Reaches s p 0x1B0) :
    exec (.ptmRequest p) s = .next (ptmStart.run s) := by
  refine row_next hrun ?_
  rw [run_ask, pathWrite_run_of_reaches h]

/-! ### How it goes on -/

/-- A dialogue's start by itself: INTERVAL is counted anew, and the dialogue starts (R58). -/
def ptmOwnStart (anchor : WTime) : Act :=
  .seq (.seq (advanceToWheel anchor) (modPtm fun x => { x with anchor := anchor })) ptmBegin

theorem ptmIntervalAct_run_starts {s : State} (hon : s.pwr.off = false) (hidle : s.ptm.start = none) (hup : s.linkUp = true)
    (hen : s.host.ptmEn = true) (hint : s.fld F.WHL_PTM_CTL_INTERVAL ≠ 0) :
    ptmIntervalAct.run s = (ptmOwnStart (wtAdd s.ptm.anchor (4096 * s.fld F.WHL_PTM_CTL_INTERVAL))).run s := by
  have hptm : ((advanceToWheel (wtAdd s.ptm.anchor (4096 * s.fld F.WHL_PTM_CTL_INTERVAL))).run s).ptm = s.ptm :=
    tickBy_same _ s .ptm (by decide)
  have hhost : ((advanceToWheel (wtAdd s.ptm.anchor (4096 * s.fld F.WHL_PTM_CTL_INTERVAL))).run s).host = s.host :=
    tickBy_same _ s .host (by decide)
  simp only [ptmIntervalAct, ptmOwnStart, run_ask, run_seq, hon, run_when, run_acts_cons, run_acts_nil, Bool.not_false,
    Bool.true_and, bne_iff_ne, ne_eq, hint, not_false_eq_true, if_true]
  generalize (advanceToWheel _).run s = t at hptm hhost ⊢
  refine ptmStart_run_begins ?_ ?_ ?_
  · exact (congrArg Ptm.start hptm).trans hidle
  · exact (congrArg (fun h => HostLink.link h && !h.fr) hhost).trans hup
  · exact (congrArg HostLink.ptmEn hhost).trans hen

/-- The registers of a dialogue's pair, its validity and its number. -/
def ptmFields : List Fld := [F.WHL_PTM_WLO_W_LO, F.WHL_PTM_WHI_W_HI, F.WHL_PTM_WHI_VALID, F.WHL_PTM_HLO_H_LO,
  F.WHL_PTM_HHI_H_HI, F.WHL_PTM_CTL_SEQ]

/-- What a dialogue that ends with its pair puts in them (R58). -/
def ptmPair (sample : WTime) (valid : Bool) (host : DWord) (seq : Nat) : List (Fld × Nat) := ptmFields.zip
  [sample.toNat % 2 ^ 32, sample.toNat / 2 ^ 32, b2n valid, host.toNat % 2 ^ 32, host.toNat / 2 ^ 32, seq]

/-- A dialogue ends with its pair. -/
def ptmEnd (sample : WTime) (valid : Bool) (host : DWord) (seq : Nat) : Act :=
  .seq (putAll (ptmPair sample valid host seq)) (modPtm fun x => { x with start := none })

theorem fld_modPtm (g : Ptm → Ptm) (f : Fld) (s : State) : ((modPtm g).run s).fld f = s.fld f := rfl

theorem run_acts_append (l l' : List Act) (s : State) : (acts (l ++ l')).run s = (acts l').run ((acts l).run s) := by
  induction l generalizing s with
  | nil => rfl
  | cons a l ih => simp only [List.cons_append, run_acts_cons, ih]

theorem ptmResponse_run {s : State} (host : DWord) (hon : s.pwr.off = false) (hup : s.linkUp = true) (h : s.ptm.start ≠ none) :
    (ptmResponse host).run s = (ptmEnd s.ptm.sample s.ptm.valid host (s.fld F.WHL_PTM_CTL_SEQ + 1)).run s := by
  have hact : ptmResponse host = .ask fun s => when_ (!s.pwr.off && s.linkUp && s.ptm.start.isSome) <|
      acts ((ptmPair s.ptm.sample s.ptm.valid host (s.fld F.WHL_PTM_CTL_SEQ + 1)).map (fun e => put e.1 e.2) ++
        [modPtm fun x => { x with start := none }]) := rfl
  rw [hact, run_ask, run_when, hon, hup, Option.isSome_iff_ne_none.2 h]
  exact run_acts_append _ _ s

section
variable {s : State} (sample : WTime) (valid : Bool) (host : DWord) (seq : Nat)

theorem fld_ptmEnd (hw : Regs.wf s.regs = true) {f : Fld} {v : Nat} (hmem : (f, v) ∈ ptmPair sample valid host seq) :
    ((ptmEnd sample valid host seq).run s).fld f = v % 2 ^ f.width := by
  have hfields : (ptmPair sample valid host seq).map Prod.fst = ptmFields := rfl
  rw [ptmEnd, run_seq, fld_modPtm]
  refine fld_putAll hw ?_ ?_ hmem
  · simp only [hfields, Fld.ok_iff]
    decide
  · rw [hfields]
    decide

theorem only_ptmEnd : (ptmEnd sample valid host seq).Only [.ptm] [0x1B0, F.WHL_PTM_WLO_W_LO.off, F.WHL_PTM_WHI_W_HI.off,
    F.WHL_PTM_HLO_H_LO.off, F.WHL_PTM_HHI_H_HI.off] := by
  have hin : ∀ f ∈ ptmFields, f.off < 0x1000 ∧ f.off ∈ [0x1B0, F.WHL_PTM_WLO_W_LO.off, F.WHL_PTM_WHI_W_HI.off,
    F.WHL_PTM_HLO_H_LO.off, F.WHL_PTM_HHI_H_HI.off] := by decide
  exact ⟨only_putAll _ hin, (only_modPtm _).2 (by decide)⟩

end

/-- A dialogue in progress ends with FAIL. -/
def ptmGiveUp : Act := acts [modPtm fun x => { x with start := none }, put F.WHL_PTM_CTL_FAIL 1]

theorem ptmGiveUp_start (s : State) : (ptmGiveUp.run s).ptm.start = none := rfl

theorem ptmGiveUp_clk (s : State) : (ptmGiveUp.run s).clk = s.clk := rfl

theorem ptmGiveUp_fail {s : State} (hw : Regs.wf s.regs = true) : (ptmGiveUp.run s).fld F.WHL_PTM_CTL_FAIL = 1 :=
  fld_put_same ((modPtm _).run s) _ 1 hw ((Fld.ok_iff _).2 (by decide))

theorem ptmGiveUp_seq {s : State} (hw : Regs.wf s.regs = true) :
    (ptmGiveUp.run s).fld F.WHL_PTM_CTL_SEQ = s.fld F.WHL_PTM_CTL_SEQ :=
  fld_put_apart (s := (modPtm _).run s) 1 hw ((Fld.ok_iff _).2 (by decide)) ((Fld.ok_iff _).2 (by decide)) (by decide)

/-- A dialogue that has lasted its time ends with FAIL (R490). -/
def ptmLapse (k : Nat) : Act := .seq (advanceTo (k + usClocks 100)) ptmGiveUp

theorem ptmTimeoutAct_run {s : State} {k : Nat} (hon : s.pwr.off = false) (h : s.ptm.start = some k) :
    ptmTimeoutAct.run s = (ptmLapse k).run s := by
  have hptm : ((advanceTo (k + usClocks 100)).run s).ptm = s.ptm := tickBy_same _ s .ptm (by decide)
  simp only [ptmTimeoutAct, ptmLapse, ptmGiveUp, ptmFail, run_ask, run_seq, run_when, run_acts_cons, run_acts_nil, hon,
    h, run_forSome_some, hptm, Bool.not_false, Option.isSome_some, if_true]

/-! ### What the rows answer -/

section
variable {s : State} (hrun : Running s)
include hrun

theorem exec_ptmRequest_begins {p : Path} (h : Reaches s p 0x1B0) (hidle : s.ptm.start = none) (hup : s.linkUp = true)
    (hen : s.host.ptmEn = true) :
    ∃ t, exec (.ptmRequest p) s = .next t ∧ t.ptm.start = some s.clk ∧ t.ptm.sample = s.now ∧
      (t.ptm.valid = true ↔ (s.wheel.st = .locked ∨ s.wheel.st = .master)) ∧ Unchanged [.ptm] [] s t := by
  refine ⟨ptmBegin.run s, ?_, rfl, rfl, ?_, Act.Only.unchanged _ s (by simp [ptmBegin]) (s.wf_regs hrun.1)⟩
  · rw [exec_ptmRequest hrun h, ptmStart_run_begins hidle hup hen]
  · show (_ || _) = true ↔ _
    simp

theorem exec_ptmRequest_fails {p : Path} (h : Reaches s p 0x1B0) (hidle : s.ptm.start = none)
    (hdown : s.linkUp = false ∨ s.host.ptmEn = false) :
    ∃ t, exec (.ptmRequest p) s = .next t ∧ t.fld F.WHL_PTM_CTL_FAIL = 1 ∧ Unchanged [] [0x1B0] s t := by
  have hw := s.wf_regs hrun.1
  refine ⟨(put F.WHL_PTM_CTL_FAIL 1).run s, ?_, ?_, Act.Only.unchanged _ s ((only_put _ _ (by decide)).2 (by decide)) hw⟩
  · rw [exec_ptmRequest hrun h, ptmStart_run_fails hidle hdown]
  · exact fld_put_same s _ 1 hw ((Fld.ok_iff _).2 (by decide))

theorem exec_ptmInterval_begins (hidle : s.ptm.start = none) (hup : s.linkUp = true) (hen : s.host.ptmEn = true)
    (hint : s.fld F.WHL_PTM_CTL_INTERVAL ≠ 0) :
    ∃ t, exec .ptmInterval s = .next t ∧ t.ptm.anchor = wtAdd s.ptm.anchor (4096 * s.fld F.WHL_PTM_CTL_INTERVAL) ∧
      t.ptm.start = some t.clk ∧ t.ptm.sample = t.now ∧ UnchangedButTime [.ptm] [] s t := by
  refine ⟨_, row_next hrun (ptmIntervalAct_run_starts hrun.2.1 hidle hup hen hint), ptmBegin_anchor _, ptmBegin_start _,
    ptmBegin_sample _, Act.Only.unchanged _ s ?_ (s.wf_regs hrun.1)⟩
  exact ⟨⟨fun _ => only_tickBy _ (List.subset_append_left _ _) (List.subset_append_left _ _), (only_modPtm _).2 (by decide)⟩,
    fun _ => (only_modPtm _).2 (by decide)⟩

theorem exec_ptmInterval_off (hint : s.fld F.WHL_PTM_CTL_INTERVAL = 0) : exec .ptmInterval s = .next s := by
  refine row_next hrun ?_
  simp only [ptmIntervalAct, run_ask, run_when, hint, bne_self_eq_false, Bool.and_false, Bool.false_eq_true, if_false]

theorem exec_ptmResponsed_ends (h : DWord) (hup : s.linkUp = true) (hbusy : s.ptm.start ≠ none) :
    ∃ t, exec (.ptmResponsed h) s = .next t ∧ t.ptm.start = none ∧
      t.fld F.WHL_PTM_WLO_W_LO + 2 ^ 32 * t.fld F.WHL_PTM_WHI_W_HI = s.ptm.sample.toNat ∧
      t.fld F.WHL_PTM_HLO_H_LO + 2 ^ 32 * t.fld F.WHL_PTM_HHI_H_HI = h.toNat ∧
      (t.fld F.WHL_PTM_WHI_VALID = 1 ↔ s.ptm.valid = true) ∧
      t.fld F.WHL_PTM_CTL_SEQ = (s.fld F.WHL_PTM_CTL_SEQ + 1) % 2 ^ F.WHL_PTM_CTL_SEQ.width ∧
      Unchanged [.ptm] [0x1B0, F.WHL_PTM_WLO_W_LO.off, F.WHL_PTM_WHI_W_HI.off, F.WHL_PTM_HLO_H_LO.off, F.WHL_PTM_HHI_H_HI.off]
        s t := by
  have hw := s.wf_regs hrun.1
  have hfld := fun {f v} => fld_ptmEnd (f := f) (v := v) s.ptm.sample s.ptm.valid h (s.fld F.WHL_PTM_CTL_SEQ + 1) hw
  have hwlo := hfld (.head _)
  have hwhi := hfld (.tail _ (.head _))
  have hvalid := hfld (.tail _ (.tail _ (.head _)))
  have hhlo := hfld (.tail _ (.tail _ (.tail _ (.head _))))
  have hhhi := hfld (.tail _ (.tail _ (.tail _ (.tail _ (.head _)))))
  have hseq := hfld (.tail _ (.tail _ (.tail _ (.tail _ (.tail _ (.head _))))))
  refine ⟨_, row_next hrun (ptmResponse_run h hrun.2.1 hup hbusy), rfl, ?_, ?_, ?_, hseq,
    (only_ptmEnd _ _ _ _).unchanged _ s hw⟩
  · rw [hwlo, hwhi]
    have := s.ptm.sample.isLt
    simp only [F.WHL_PTM_WLO_W_LO, F.WHL_PTM_WHI_W_HI]
    omega
  · rw [hhlo, hhhi]
    have := h.isLt
    simp only [F.WHL_PTM_HLO_H_LO, F.WHL_PTM_HHI_H_HI]
    omega
  · rw [hvalid]
    cases s.ptm.valid <;> decide

theorem exec_ptmTimeout_fails {k : Nat} (hstart : s.ptm.start = some k) :
    ∃ t, exec .ptmTimeout s = .next t ∧ t.ptm.start = none ∧ t.fld F.WHL_PTM_CTL_FAIL = 1 ∧ t.clk = max s.clk (k + 80000) ∧
      t.fld F.WHL_PTM_CTL_SEQ = s.fld F.WHL_PTM_CTL_SEQ ∧ UnchangedButTime [.ptm] [0x1B0] s t := by
  have hw := s.wf_regs hrun.1
  have hlapsed := (advanceTo (k + usClocks 100)).run_regs_wf s hw
  refine ⟨(ptmLapse k).run s, row_next hrun (ptmTimeoutAct_run hrun.2.1 hstart), ptmGiveUp_start _, ptmGiveUp_fail hlapsed, ?_,
    (ptmGiveUp_seq hlapsed).trans (tickBy_fld _ hrun.1 _ (by decide) (by decide)), Act.Only.unchanged _ s ?_ hw⟩
  · have hclk : ((advanceTo (k + usClocks 100)).run s).clk = s.clk + (k + usClocks 100 - s.clk) := tickBy_clk _ s
    rw [ptmLapse, run_seq, ptmGiveUp_clk, hclk, usClocks]
    omega
  · exact ⟨fun _ => only_tickBy _ (List.subset_append_left _ _) (List.subset_append_left _ _), (only_modPtm _).2 (by decide),
      (only_put _ _ (by decide)).2 (by decide)⟩

end

end Sys2Proof.Machine
end

section
/-!
SUPPORT. The Lamplighter (R51 to R55): which entry fires next, what lets time pass before it does, what its fire does to its
channel, and how a waiter takes an entry.
-/

namespace Sys2Proof.Machine

/-! ### The entry and the waiter that come next are among those there are -/

/-- What a choice among a list's elements ends with is one of them, or what it began with. -/
theorem foldl_choice_mem {α : Type} {f : Option α → α → Option α} (hf : ∀ b x, f b x = some x ∨ f b x = b) {l : List α}
    {b : Option α} {e : α} (h : l.foldl f b = some e) : e ∈ l ∨ b = some e := by
  induction l generalizing b with
  | nil => exact .inr h
  | cons x l ih =>
    rcases ih h with hl | hb
    · exact .inl (List.mem_cons_of_mem _ hl)
    · rcases hf b x with hx | hx
      · obtain rfl : x = e := Option.some_inj.1 (hx.symm.trans hb)
        exact .inl List.mem_cons_self
      · exact .inr (hx.symm.trans hb)

theorem mem_entries_of_lampNext {s : State} {e : LampEnt} (h : s.lampNext = some e) : e ∈ s.lamp.entries := by
  have hsub : ∀ due : List LampEnt, due ⊆ s.lamp.entries → e ∈ (if due.isEmpty then s.lamp.entries else due) →
      e ∈ s.lamp.entries := fun due hdue he => by split at he <;> [exact he; exact hdue he]
  refine hsub _ (List.filter_subset_self _) (Or.resolve_right (foldl_choice_mem (fun b x => ?_) h) nofun)
  cases b with
  | none => exact .inl rfl
  | some b => dsimp only; split <;> [exact .inl rfl; exact .inr rfl]

/-! ### The state while time passes -/

/-- From one state to the other only time has passed, as far as the Lamplighter and the channels go. -/
structure TimePassed (s t : State) : Prop where
  wf : s.wf = true → t.wf = true
  chans : t.chans = s.chans
  clk : s.clk ≤ t.clk
  lamp : ∃ since : LampEnt → Option Nat,
    t.lamp = { s.lamp with entries := s.lamp.entries.map fun e => { e with since := since e } }

theorem timePassed_tickBy (n : Nat) (s : State) : TimePassed s ((tickBy n).run s) where
  wf := (tickBy n).run_wf s
  chans := tickBy_same n s .chans (by decide)
  clk := by simp
  lamp := ⟨s.sinceAfter n, tickBy_lamp n s⟩

theorem TimePassed.refl (s : State) : TimePassed s s where
  wf := id
  chans := rfl
  clk := le_rfl
  lamp := ⟨LampEnt.since, by simp⟩

theorem TimePassed.trans {s t u : State} (h : TimePassed s t) (g : TimePassed t u) : TimePassed s u where
  wf := g.wf ∘ h.wf
  chans := g.chans.trans h.chans
  clk := h.clk.trans g.clk
  lamp := by
    obtain ⟨f, hf⟩ := h.lamp
    obtain ⟨k, hk⟩ := g.lamp
    exact ⟨fun e => k { e with since := f e }, by simp [hk, hf]⟩

theorem TimePassed.chan {s t : State} (h : TimePassed s t) (c : Nat) : t.chan c = s.chan c := by
  simp only [State.chan, h.chans]

theorem TimePassed.cur {s t : State} (h : TimePassed s t) (c : Nat) : t.cur c = s.cur c := by
  simp only [State.cur, h.chan]

/-! ### A channel that an entry releases -/

theorem State.wf_chans {s : State} (h : s.wf = true) : SMap.wf Chan.init s.chans = true := ((s.wf_iff.1 h).2.2 .chans :)

theorem chan_modChan {s : State} (h : s.wf = true) (c d : Nat) (f : Chan → Chan) :
    ((modChan c f).run s).chan d = if d = c then f (s.chan c) else s.chan d := chan_after c d _ s (State.wf_chans h)

theorem cur_modCur {s : State} (h : s.wf = true) (c : Nat) (f : Cur → Cur) :
    ((modCur c f).run s).cur c = (s.cur c).map f := by
  simp only [State.cur, modCur, modRun, chan_modChan h, if_true]
  cases (s.chan c).run <;> rfl

theorem chan_modCur_ne {s : State} (h : s.wf = true) {c d : Nat} (hne : d ≠ c) (f : Cur → Cur) :
    ((modCur c f).run s).chan d = s.chan d := by
  simp only [modCur, modRun, chan_modChan h, hne, if_false]

theorem chan_makeQueued {s : State} (h : s.wf = true) (c d : Nat) : ((makeQueued c).run s).chan d =
    if d = c then { s.chan c with
      st := .queued, park := .none, run := (s.chan c).run.map fun r => { r with q := s.now, i := s.now } } else s.chan d := by
  simp only [makeQueued, run_ask, chan_modChan h]

theorem cur_makeQueued {s : State} (h : s.wf = true) (c : Nat) : ((makeQueued c).run s).cur c = s.cur c := by
  simp only [State.cur, chan_makeQueued h, if_true]
  cases (s.chan c).run <;> rfl

/-- A channel is QUEUED, parked on nothing, its current descriptor changed, and every other channel and the Lamplighter are as
they were. -/
structure QueuedWith (s t : State) (c : Nat) (f : Cur → Cur) : Prop where
  st : (t.chan c).st = .queued
  park : (t.chan c).park = .none
  cur : t.cur c = (s.cur c).map f
  others : ∀ d, d ≠ c → t.chan d = s.chan d
  lamp : t.lamp = s.lamp

theorem modCur_makeQueued {s : State} (h : s.wf = true) (c : Nat) (f : Cur → Cur) :
    QueuedWith s ((makeQueued c).run ((modCur c f).run s)) c f := by
  have hwf := (modCur c f).run_wf s h
  constructor
  · rw [chan_makeQueued hwf, if_pos rfl]
  · rw [chan_makeQueued hwf, if_pos rfl]
  · rw [cur_makeQueued hwf, cur_modCur h]
  · intro d hne
    rw [chan_makeQueued hwf, if_neg hne, chan_modCur_ne h hne]
  · exact Act.Only.part (ps := [.chans]) (offs := []) (.seq (modCur c f) (makeQueued c)) s (by simp) .lamp (by decide)

theorem QueuedWith.after_modCur {s t : State} (h : s.wf = true) {c : Nat} {f g : Cur → Cur}
    (hq : QueuedWith ((modCur c f).run s) t c g) : QueuedWith s t c (g ∘ f) where
  st := hq.st
  park := hq.park
  cur := by rw [hq.cur, cur_modCur h, Option.map_map]
  others := fun d hne => (hq.others d hne).trans (chan_modCur_ne h hne f)
  lamp := hq.lamp

/-! ### The fire (R53, R55) -/

/-- The entries of an index are one entry. -/
abbrev OnlyEntry (l : List LampEnt) (e : LampEnt) : Prop := l.filter (fun x => x.idx == e.idx) = [e]

theorem onlyEntry_of_length {l : List LampEnt} {e : LampEnt} (hmem : e ∈ l)
    (h : (l.filter fun x => x.idx == e.idx).length = 1) : OnlyEntry l e := by
  obtain ⟨x, hx⟩ := List.length_eq_one_iff.1 h
  have he : e ∈ l.filter fun x => x.idx == e.idx := List.mem_filter.2 ⟨hmem, beq_self_eq_true _⟩
  rw [hx, List.mem_singleton] at he
  rw [OnlyEntry, hx, he]

theorem OnlyEntry.find {l : List LampEnt} {e : LampEnt} (h : OnlyEntry l e) :
    l.find? (fun x => x.idx == e.idx && x.chan == e.chan) = some e := by
  have hcomm : (fun x : LampEnt => x.idx == e.idx && x.chan == e.chan) = fun x => x.chan == e.chan && x.idx == e.idx :=
    funext fun _ => Bool.and_comm ..
  rw [hcomm, ← List.head?_filter, ← List.filter_filter, h]
  simp

theorem OnlyEntry.marked {l : List LampEnt} {e : LampEnt} (h : OnlyEntry l e) (since : LampEnt → Option Nat) :
    OnlyEntry (l.map fun x => { x with since := since x }) { e with since := since e } := by
  rw [OnlyEntry, List.filter_map]
  exact congrArg (List.map _) h

/-- Without the entry, the entries are those of the other indices. -/
theorem OnlyEntry.filter_ne {l : List LampEnt} {e : LampEnt} (h : OnlyEntry l e) :
    l.filter (· != e) = l.filter fun x => x.idx != e.idx := by
  refine List.filter_congr fun x hx => ?_
  by_cases hidx : x.idx = e.idx
  · have hxe : x ∈ l.filter fun x => x.idx == e.idx := List.mem_filter.2 ⟨hx, beq_iff_eq.2 hidx⟩
    rw [h, List.mem_singleton] at hxe
    simp [hxe]
  · have hne : x ≠ e := fun heq => hidx (congrArg LampEnt.idx heq)
    rw [bne_iff_ne.2 hidx, bne_iff_ne.2 hne]

/-- An entry that fires waits for one of the four places of a clock (R53). -/
theorem lampFireSlot_run (e : LampEnt) (s : State) (h : s.lamp.fired ≤ 4) :
    ∃ t, TimePassed s t ∧ (t.lamp.firedAt = t.clk → t.lamp.fired < 4) ∧ (lampFireSlot e).run s =
      (forSome (t.lamp.entries.find? fun x => x.idx == e.idx && x.chan == e.chan) lampFireEnt).run t := by
  by_cases hfull : s.lamp.firedAt = s.clk ∧ 4 ≤ s.lamp.fired
  · refine ⟨(tickBy 1).run s, timePassed_tickBy 1 s, ?_, ?_⟩
    · rw [tickBy_lamp, tickBy_clk]
      show s.lamp.firedAt = s.clk + 1 → _
      omega
    · simp [lampFireSlot, hfull]
  · refine ⟨s, .refl s, by omega, ?_⟩
    simp [lampFireSlot, hfull]

/-- LAMPLIGHTER_FIRE lets time pass to the clock in which the next entry may fire, and fires it (R53, R55). -/
theorem lampFireAct_run {s : State} {e : LampEnt} (hon : s.pwr.off = false) (hpf : s.pfHeld = false)
    (hnext : s.lampNext = some e) (hfired : s.lamp.fired ≤ 4) (honly : OnlyEntry s.lamp.entries e) :
    ∃ t e', TimePassed s t ∧ e.armed < t.clk ∧ (t.lamp.firedAt = t.clk → t.lamp.fired < 4) ∧ e'.idx = e.idx ∧
      e'.chan = e.chan ∧ OnlyEntry t.lamp.entries e' ∧ lampFireAct.run s = (lampFireEnt e').run t := by
  have hreach := timePassed_tickBy (s.wheel.clocksTo e.target) s
  obtain ⟨u, hu⟩ : ∃ u, u = (tickBy (s.wheel.clocksTo e.target)).run s := ⟨_, rfl⟩
  rw [← hu] at hreach
  have harm := timePassed_tickBy (e.armed + 1 - u.clk) u
  have harmed : e.armed < ((tickBy (e.armed + 1 - u.clk)).run u).clk := by rw [tickBy_clk]; omega
  obtain ⟨v, hv⟩ : ∃ v, v = (tickBy (e.armed + 1 - u.clk)).run u := ⟨_, rfl⟩
  rw [← hv] at harm harmed
  have hsv := hreach.trans harm
  have hfiredv : v.lamp.fired ≤ 4 := by obtain ⟨_, hl⟩ := hsv.lamp; rw [hl]; exact hfired
  obtain ⟨t, hvt, hfree, hslot⟩ := lampFireSlot_run e v hfiredv
  have hst := hsv.trans hvt
  obtain ⟨since, hlamp⟩ := hst.lamp
  have honlyt : OnlyEntry t.lamp.entries { e with since := since e } := by rw [hlamp]; exact honly.marked since
  refine ⟨t, { e with since := since e }, hst, harmed.trans_le hvt.clk, hfree, rfl, rfl, honlyt, ?_⟩
  have hrun : lampFireAct.run s = (lampFireSlot e).run v := by
    simp [lampFireAct, hon, hpf, hnext, advanceToWheel, advanceTo, hv, hu]
  rw [hrun, hslot, honlyt.find]
  rfl

end Sys2Proof.Machine
end

section
/-!
SUPPORT. What an entry's fire does (R52, R53, R55, R173), how a waiter takes an entry (R52), and the statement on the
Lamplighter and PTM.
-/

namespace Sys2Proof.Machine

/-! ### The entry leaves the Lamplighter -/

/-- An entry fires later than 2 core clocks after its target was reached, or is LATE whatever the measure (R55). -/
def State.firesLate (s : State) (e : LampEnt) : Bool :=
  e.forced || (match e.since with | some t => s.clk > t + 2 | none => false)

/-- What an entry's fire does to the Lamplighter: its place goes to a waiter, and a LATE fire counts. -/
def lampTake (e : LampEnt) : Act := .ask fun s => acts [
  modLamp fun l => { l with
    entries := l.entries.filter (· != e), used := l.used - 1, firedAt := s.clk,
    fired := if l.firedAt == s.clk then l.fired + 1 else 1 },
  lampRearm,
  when_ (s.firesLate e) lateFire]

/-- With no channel waiting, the entry goes, and the fire counts among those of its clock. -/
theorem lampTake_lamp {s : State} (e : LampEnt) (h : s.lamp.waiters = []) : ((lampTake e).run s).lamp = { s.lamp with
    entries := s.lamp.entries.filter (· != e), used := s.lamp.used - 1, firedAt := s.clk,
    fired := if s.lamp.firedAt == s.clk then s.lamp.fired + 1 else 1 } := by
  have hlate : ∀ t : State, ((when_ (s.firesLate e) lateFire).run t).lamp = t.lamp := fun t =>
    ((only_when _ _).2 fun _ => only_lateFire).part _ t .lamp (by decide)
  have hrearm : ∀ t : State, t.lamp.waiters = [] → (lampRearm.run t).lamp = t.lamp := fun t ht => by simp [lampRearm, ht]
  simp only [lampTake, run_ask, run_acts_cons, run_acts_nil, hlate]
  exact hrearm _ h

theorem only_lampTake (e : LampEnt) : (lampTake e).Only armParts lampOffs := by
  intro s
  refine ⟨(only_modLamp _).2 (by decide), only_lampRearm, (only_when _ _).2 fun _ => ?_⟩
  exact only_lateFire.mono (List.subset_cons_self _ _) (List.Subset.refl _)

/-! ### The channel goes on -/

/-- The current descriptor of a channel whose entry has fired. -/
def Cur.firedAs (d : Cur) (late : Bool) : Cur := { d with late := late, fired := true }

theorem lampFireEnt_run_class2 {s : State} {e : LampEnt} (h : (s.chan e.chan).park = .class2) : (lampFireEnt e).run s =
    (makeQueued e.chan).run ((modCur e.chan (Cur.firedAs · (s.firesLate e))).run ((lampTake e).run s)) := by
  simp only [lampFireEnt, lampTake, run_ask, run_acts_cons, run_acts_nil, h]
  rfl

theorem lampFireEnt_run_wheel {s : State} {e : LampEnt} (h : (s.chan e.chan).park = .wheel) : (lampFireEnt e).run s =
    (releaseWait e.chan stDONE).run ((modCur e.chan (Cur.firedAs · (s.firesLate e))).run ((lampTake e).run s)) := by
  simp only [lampFireEnt, lampTake, run_ask, run_acts_cons, run_acts_nil, h]
  rfl

/-- A parked wait that is over: its descriptor has met its condition, and its channel is QUEUED. -/
theorem queuedWith_releaseWait {s : State} (h : s.wf = true) (c status : Nat) : QueuedWith s ((releaseWait c status).run s) c
    fun d => { d with phase := .done status, doneWT := s.now } := modCur_makeQueued h c _

/-- The fire of an entry on which a channel is parked: the entry is taken, and the channel goes on (R55, R164, R173). -/
theorem lampFireEnt_queues {s : State} {e : LampEnt} (h : s.wf = true)
    (hpark : (s.chan e.chan).park = .wheel ∨ (s.chan e.chan).park = .class2) :
    ∃ f : Cur → Cur, QueuedWith ((lampTake e).run s) ((lampFireEnt e).run s) e.chan f ∧ (∀ d, (f d).fired = true) ∧
      ((s.chan e.chan).park = .wheel → ∀ d, (f d).phase = .done stDONE) := by
  have hwf := (lampTake e).run_wf s h
  rcases hpark with hpark | hpark
  · rw [lampFireEnt_run_wheel hpark]
    exact ⟨_, (queuedWith_releaseWait ((modCur _ _).run_wf _ hwf) _ _).after_modCur hwf, fun _ => rfl, fun _ _ => rfl⟩
  · rw [lampFireEnt_run_class2 hpark]
    exact ⟨_, modCur_makeQueued hwf _ _, fun _ => rfl, fun hwheel => by rw [hpark] at hwheel; cases hwheel⟩

theorem lampTake_chans (e : LampEnt) (s : State) : ((lampTake e).run s).chans = s.chans :=
  (only_lampTake e).part _ s .chans (by decide)

theorem lampFireEnt_clk (e : LampEnt) (s : State) : ((lampFireEnt e).run s).clk = s.clk :=
  (only_lampFireEnt e).part _ s .clk (by decide)

theorem doneStatus_of_done {s : State} {c status : Nat} {d : Cur} (hcur : s.cur c = some d) (hphase : d.phase = .done status) :
    doneStatus s c = some status := by
  simp only [doneStatus, hcur, hphase]

/-- An entry has fired, alone of its index, as one of the four of its clock (R53, R55). -/
structure EntryFired (s t : State) (e : LampEnt) : Prop where
  gone : t.lamp.entries.any (fun x => x.idx == e.idx) = false
  rest : t.lamp.entries.map (·.idx) = (s.lamp.entries.map (·.idx)).filter (· != e.idx)
  st : (t.chan e.chan).st = .queued
  park : (t.chan e.chan).park = .none
  done : (s.chan e.chan).park = .wheel → s.cur e.chan ≠ none → doneStatus t e.chan = some 0
  fired : ∀ d, t.cur e.chan = some d → d.fired = true
  others : ∀ c, c ≠ e.chan → t.chan c = s.chan c
  clk : t.clk = s.clk
  firedAt : t.lamp.firedAt = t.clk
  places : t.lamp.fired ≤ 4

theorem lampFireEnt_fires {s : State} {e : LampEnt} (h : s.wf = true) (hwait : s.lamp.waiters = [])
    (honly : OnlyEntry s.lamp.entries e) (hfree : s.lamp.firedAt = s.clk → s.lamp.fired < 4)
    (hpark : (s.chan e.chan).park = .wheel ∨ (s.chan e.chan).park = .class2) : EntryFired s ((lampFireEnt e).run s) e := by
  obtain ⟨f, hq, hmarked, hdone⟩ := lampFireEnt_queues h hpark
  have hlamp := hq.lamp.trans (lampTake_lamp e hwait)
  have hchan : ∀ c, ((lampTake e).run s).chan c = s.chan c := fun c => by simp only [State.chan, lampTake_chans]
  have hcur : ((lampFireEnt e).run s).cur e.chan = (s.cur e.chan).map f := by
    rw [hq.cur, State.cur, hchan, State.cur]
  constructor
  case st => exact hq.st
  case park => exact hq.park
  case others => exact fun c hne => (hq.others c hne).trans (hchan c)
  case clk => exact lampFireEnt_clk e s
  case gone =>
    rw [hlamp]
    simp [honly.filter_ne]
  case rest =>
    rw [hlamp, List.filter_map]
    exact congrArg _ honly.filter_ne
  case done =>
    intro hwheel hsome
    obtain ⟨d, hd⟩ := Option.ne_none_iff_exists'.1 hsome
    exact doneStatus_of_done (by rw [hcur, hd]; rfl) (hdone hwheel d)
  case fired =>
    intro d hd
    rw [hcur, Option.map_eq_some_iff] at hd
    obtain ⟨d', _, rfl⟩ := hd
    exact hmarked d'
  case firedAt => rw [hlamp, lampFireEnt_clk]
  case places =>
    rw [hlamp]
    dsimp only
    split
    · next hat => exact hfree (beq_iff_eq.1 hat)
    · decide

/-! ### A waiter takes an entry (R52) -/

theorem lampPlace_lamp (c ctx i : Nat) (target : WTime) (forced : Bool) (s : State) : ∃ since,
    ((lampPlace c ctx i target forced).run s).lamp = { s.lamp with
      entries := s.lamp.entries ++ [⟨i, c, ctx, target, s.clk, since, forced⟩], used := s.lamp.used + 1 } := by
  have hput : ∀ (b : Bool) (v : Nat) (t : State), ((when_ b (put F.WHL_LL_HWM v)).run t).lamp = t.lamp := fun b v t => by
    cases b <;> rfl
  have hevent : ∀ (b : Bool) (t : State), ((when_ b (whlEvent F.WHL_EVT_LL_FULL false)).run t).lamp = t.lamp := fun b t =>
    ((only_when _ _).2 fun _ => only_whlEvent (ps := errParts) (offs := lampOffs) _ _ (by decide) (by decide)
      (by decide)).part _ t .lamp (by decide)
  refine ⟨if wtAtOrAfter s.now target then some (s.wheel.reachedAt s.clk target) else none, ?_⟩
  simp only [lampPlace, run_ask, run_acts_cons, run_acts_nil, hput, hevent]
  rfl

theorem lampArmAct_run {s : State} {w : LampWait} {i : Nat} (hwait : s.lampWaiter = some w)
    (hfree : s.lampFree w.ctx = some i) : lampArmAct.run s = (lampPlace w.chan w.ctx i w.target w.forced).run
      ((modLamp fun l => { l with waiters := l.waiters.filter (· != w) }).run s) := by
  simp only [lampArmAct, run_ask, run_acts_cons, run_acts_nil, hwait, hfree, run_forSome_some]

/-! ### The statement -/

/-- The pairs of a list are marked and their other parts kept. -/
theorem TimePassed.map_entries {s t : State} (h : TimePassed s t) {α : Type} {g : LampEnt → α}
    (hg : ∀ e since, g { e with since := since } = g e) : t.lamp.entries.map g = s.lamp.entries.map g := by
  obtain ⟨since, hlamp⟩ := h.lamp
  simp [hlamp, hg]

section
variable {s : State} (hrun : Running s)
include hrun

theorem exec_lamplighterFire_none (h : s.lampNext = none) : exec .lamplighterFire s = .next s := by
  refine row_next hrun ?_
  simp only [lampFireAct, run_ask, run_when, h, run_forSome_none, ite_self]

theorem exec_lamplighterFire_fires (hpf : s.pfHeld = false) {e : LampEnt} (hnext : s.lampNext = some e)
    (hlen : (s.lamp.entries.filter fun x => x.idx == e.idx).length = 1) (hwait : s.lamp.waiters = [])
    (hfired : s.lamp.fired ≤ 4) (hpark : (s.chan e.chan).park = .wheel ∨ (s.chan e.chan).park = .class2) :
    ∃ t, exec .lamplighterFire s = .next t ∧ t.lamp.entries.any (fun x => x.idx == e.idx) = false ∧
      (t.lamp.entries.map (·.idx)) = (s.lamp.entries.map (·.idx)).filter (· != e.idx) ∧ (t.chan e.chan).st = .queued ∧
      (t.chan e.chan).park = .none ∧ ((s.chan e.chan).park = .wheel → s.cur e.chan ≠ none → doneStatus t e.chan = some 0) ∧
      (∀ d, t.cur e.chan = some d → d.fired = true) ∧ (∀ c, c ≠ e.chan → t.chan c = s.chan c) ∧ s.clk ≤ t.clk ∧
      e.armed < t.clk ∧ t.lamp.firedAt = t.clk ∧ t.lamp.fired ≤ 4 := by
  obtain ⟨t, e', hst, harmed, hplace, hidx, hchan, honly, hfire⟩ := lampFireAct_run hrun.2.1 hpf hnext hfired
    (onlyEntry_of_length (mem_entries_of_lampNext hnext) hlen)
  have hwaitt : t.lamp.waiters = [] := by obtain ⟨_, hl⟩ := hst.lamp; rw [hl]; exact hwait
  have hf := lampFireEnt_fires (hst.wf hrun.1) hwaitt honly hplace (by rw [hchan, hst.chan]; exact hpark)
  obtain ⟨gone, rest, st, park, done, fired, others, clk, firedAt, places⟩ := hf
  rw [hidx, hst.map_entries fun _ _ => rfl] at rest
  simp only [hidx] at gone
  simp only [hchan, hst.chan, hst.cur] at st park done fired others
  exact ⟨_, row_next hrun hfire, gone, rest, st, park, done, fired, others, hst.clk.trans clk.ge, harmed.trans_le clk.ge,
    firedAt, places⟩

theorem exec_lamplighterArm_none (h : s.lampWaiter = none) : exec .lamplighterArm s = .next s := by
  refine row_next hrun ?_
  simp only [lampArmAct, run_ask, h, run_forSome_none]

theorem exec_lamplighterArm_places {w : LampWait} {i : Nat} (hwait : s.lampWaiter = some w)
    (hfree : s.lampFree w.ctx = some i) :
    ∃ t, exec .lamplighterArm s = .next t ∧ t.lamp.waiters = s.lamp.waiters.filter (· != w) ∧
      (t.lamp.entries.map (fun x => (x.idx, x.chan, x.ctx, x.target))) =
        s.lamp.entries.map (fun x => (x.idx, x.chan, x.ctx, x.target)) ++ [(i, w.chan, w.ctx, w.target)] ∧
      t.chans = s.chans := by
  obtain ⟨since, hlamp⟩ := lampPlace_lamp w.chan w.ctx i w.target w.forced
    ((modLamp fun l => { l with waiters := l.waiters.filter (· != w) }).run s)
  refine ⟨_, row_next hrun (lampArmAct_run hwait hfree), ?_, ?_, ?_⟩
  · rw [hlamp]
    rfl
  · rw [hlamp]
    exact List.map_append
  · exact (only_lampPlace _ _ _ _ _).part _ _ .chans (by decide)

end

/-- Settles O52: the entry that comes next fires once time has passed to its clock, and its channel goes on; a waiter takes
the place that comes free; a PTM dialogue starts, ends with its pair, or fails. -/
theorem lamplighterAndPtm : Obligations.LamplighterAndPtm := fun _ hrun =>
  ⟨exec_lamplighterFire_none hrun,
    fun hpf _ hnext hlen hwait hfired hpark => exec_lamplighterFire_fires hrun hpf hnext hlen hwait hfired hpark,
    exec_lamplighterArm_none hrun,
    fun _ hwait _ hfree => exec_lamplighterArm_places hrun hwait hfree,
    fun _ hreach => ⟨fun hbusy => by rw [exec_ptmRequest hrun hreach, ptmStart_run_inProgress hbusy],
      exec_ptmRequest_begins hrun hreach, exec_ptmRequest_fails hrun hreach⟩,
    exec_ptmInterval_begins hrun, exec_ptmInterval_off hrun, exec_ptmResponsed_ends hrun,
    fun _ hstart => exec_ptmTimeout_fails hrun hstart⟩

end Sys2Proof.Machine
end

section
/-!
SUPPORT. The wheel while time passes (R41, R45): what of the tracker it leaves alone; and what of the tracker a phase correction
leaves alone, whatever entries it makes fire (R45, R67).
-/

namespace Sys2Proof.Machine

/-! ### Passing time leaves the tracker's own state alone -/

section
variable (w : Wheel) (n : Nat)

/-- Time moves wheel time, the hold, the absorption and the output, and nothing else of the wheel. -/
theorem Wheel.after_eq : ∃ time frac hold slewLeft outWait, w.after n =
    { w with time := time, frac := frac, hold := hold, slewLeft := slewLeft, outWait := outWait } := by
  unfold Wheel.after
  split
  · exact ⟨_, _, _, _, _, rfl⟩
  · exact ⟨_, _, _, _, _, rfl⟩

@[simp] theorem Wheel.after_st : (w.after n).st = w.st := by obtain ⟨_, _, _, _, _, h⟩ := w.after_eq n; rw [h]
@[simp] theorem Wheel.after_est : (w.after n).est = w.est := by obtain ⟨_, _, _, _, _, h⟩ := w.after_eq n; rw [h]
@[simp] theorem Wheel.after_genP : (w.after n).genP = w.genP := by obtain ⟨_, _, _, _, _, h⟩ := w.after_eq n; rw [h]
@[simp] theorem Wheel.after_miss : (w.after n).miss = w.miss := by obtain ⟨_, _, _, _, _, h⟩ := w.after_eq n; rw [h]
@[simp] theorem Wheel.after_good : (w.after n).good = w.good := by obtain ⟨_, _, _, _, _, h⟩ := w.after_eq n; rw [h]
@[simp] theorem Wheel.after_lastEdge : (w.after n).lastEdge = w.lastEdge := by
  obtain ⟨_, _, _, _, _, h⟩ := w.after_eq n; rw [h]
@[simp] theorem Wheel.after_spacings : (w.after n).spacings = w.spacings := by
  obtain ⟨_, _, _, _, _, h⟩ := w.after_eq n; rw [h]
@[simp] theorem Wheel.after_qual : (w.after n).qual = w.qual := by obtain ⟨_, _, _, _, _, h⟩ := w.after_eq n; rw [h]
@[simp] theorem Wheel.after_judged : (w.after n).judged = w.judged := by
  obtain ⟨_, _, _, _, _, h⟩ := w.after_eq n; rw [h]
@[simp] theorem Wheel.after_trkOld : (w.after n).trkOld = w.trkOld := by
  obtain ⟨_, _, _, _, _, h⟩ := w.after_eq n; rw [h]

end

/-- A hold has run out after the clocks it takes at the present speed (R45). -/
theorem Wheel.after_hold (w : Wheel) (h : 0 < w.inc) : (w.after ((w.hold + w.inc - 1) / w.inc)).hold = 0 := by
  have hdiv := Nat.div_add_mod (w.hold + w.inc - 1) w.inc
  have hmod := Nat.mod_lt (w.hold + w.inc - 1) h
  rw [Nat.mul_comm] at hdiv
  unfold Wheel.after
  split
  · dsimp only
    omega
  · rfl

/-! ### The wheel's registers while time passes -/

/-- The setting of the tracker in force at a sync stays while WHL_TRK and its former word do (R70). -/
theorem State.trkAt_congr {s t : State} (hword : t.word 0 0x188 = s.word 0 0x188) (hold : t.wheel.trkOld = s.wheel.trkOld) :
    t.trkAt = s.trkAt := by
  funext cyc
  simp only [State.trkAt, hword, hold]

theorem tickBy_trkAt (n : Nat) {s : State} (h : s.wf = true) : ((tickBy n).run s).trkAt = s.trkAt :=
  State.trkAt_congr ((only_tickBy n (List.Subset.refl timeParts) (List.Subset.refl timeOffs)).word _ s (s.wf_regs h) 0 0x188
    (by decide) (by decide)) (by simp)

/-! ### What a phase correction leaves alone -/

/-- What the tracker says of itself. -/
structure Tracking where
  st : Trk
  miss : Nat
  est : Nat
  qual : Bool
  lastEdge : Option Nat

def Wheel.tracking (w : Wheel) : Tracking := ⟨w.st, w.miss, w.est, w.qual, w.lastEdge⟩

/-- A meaning leaves what the tracker says of itself as it was. -/
def KeepsTracking (a : Act) : Prop := ∀ s, (a.run s).wheel.tracking = s.wheel.tracking

theorem keepsTracking_of_only {a : Act} {ps : List Part} {offs : List Nat} (h : a.Only ps offs) (hp : .wheel ∉ ps) :
    KeepsTracking a := fun s => congrArg Wheel.tracking (h.part a s .wheel hp)

theorem keepsTracking_seq {a b : Act} (ha : KeepsTracking a) (hb : KeepsTracking b) : KeepsTracking (.seq a b) :=
  fun s => (hb _).trans (ha s)

theorem keepsTracking_ask {k : State → Act} (h : ∀ s, KeepsTracking (k s)) : KeepsTracking (.ask k) := fun s => h s s

theorem keepsTracking_when {b : Bool} {a : Act} (h : KeepsTracking a) : KeepsTracking (when_ b a) := by
  cases b
  · exact fun _ => rfl
  · exact h

theorem keepsTracking_forEach {α : Type} {l : List α} {f : α → Act} (h : ∀ x, KeepsTracking (f x)) :
    KeepsTracking (forEach l f) := by
  induction l with
  | nil => exact fun _ => rfl
  | cons x l ih => exact fun s => by rw [run_forEach_cons]; exact (ih _).trans (h x s)

theorem keepsTracking_forSome {α : Type} {o : Option α} {f : α → Act} (h : ∀ x, KeepsTracking (f x)) :
    KeepsTracking (forSome o f) := by
  cases o
  · exact fun _ => rfl
  · exact h _

theorem keepsTracking_modWheel {f : Wheel → Wheel} (h : ∀ w, (f w).tracking = w.tracking) : KeepsTracking (modWheel f) :=
  fun s => h s.wheel

theorem keepsTracking_tickBy (n : Nat) : KeepsTracking (tickBy n) := fun s => by simp [Wheel.tracking]

theorem keepsTracking_whlEvent (f : Fld) (posted : Bool) (hf : f.off < 0x1000) : KeepsTracking (whlEvent f posted) :=
  keepsTracking_of_only (only_whlEvent (ps := errParts) (offs := f.off :: errOffs) f posted hf (List.Subset.refl _)
    (List.Subset.refl _)) (by decide)

/-- Entries that fire at once let time pass, and change nothing else of the wheel. -/
theorem keepsTracking_fireNow (l : List LampEnt) : KeepsTracking (fireNow l) :=
  keepsTracking_forEach fun _ => keepsTracking_ask fun _ => keepsTracking_when <| keepsTracking_ask fun _ =>
    keepsTracking_seq (keepsTracking_when (keepsTracking_tickBy 1)) <| keepsTracking_ask fun _ =>
      keepsTracking_forSome fun e => keepsTracking_of_only (only_lampFireEnt e) (by decide)

theorem keepsTracking_jumpEntries (hit : LampEnt → Bool) (new : WTime) : KeepsTracking (jumpEntries hit new) := by
  refine keepsTracking_ask fun s => ?_
  dsimp only
  split
  · exact keepsTracking_of_only (ps := [.lamp]) (offs := [F.WHL_CNT1_MOVED.off])
      ⟨(only_countBy _ _ (by decide)).2 (by decide), (only_modLamp _).2 (by decide)⟩ (by decide)
  · exact keepsTracking_seq (keepsTracking_of_only ((only_modLamp (offs := []) _).2 (List.mem_singleton_self _)) (by decide))
      (keepsTracking_fireNow _)

theorem keepsTracking_absorb (e : Int) : KeepsTracking (absorb e) := fun _ => rfl

/-- Aligning the phase moves wheel time, and leaves the state, the counts and the estimate alone (R45). -/
theorem keepsTracking_align (e : Int) (cyc : Nat) : KeepsTracking (align e cyc) := by
  have hjump := keepsTracking_whlEvent F.WHL_EVT_JUMP false (by decide)
  refine keepsTracking_ask fun s => keepsTracking_seq (keepsTracking_modWheel fun _ => rfl) ?_
  split
  · exact keepsTracking_absorb e
  · split
    · exact keepsTracking_seq (keepsTracking_modWheel fun _ => rfl) hjump
    · exact keepsTracking_seq (keepsTracking_modWheel fun _ => rfl) (keepsTracking_seq hjump (keepsTracking_jumpEntries _ _))

end Sys2Proof.Machine
end

section
/-!
SUPPORT. What a sync edge does in each state of the tracker (R44, R46, R60 to R66), and the rows of a missing sync, a hold, the
generator and a change of source.
-/

namespace Sys2Proof.Machine

/-! ### A wheel event's own bit -/

theorem fld_whlEvent {s : State} {f : Fld} (posted : Bool) (hw : Regs.wf s.regs = true) (hf : f.ok) (hone : f.width = 1)
    (hno : f.off ∉ errOffs) : ((whlEvent f posted).run s).fld f = 1 := by
  have htrace : ∀ typ data, (traceRec typ data).Only errParts errOffs := fun _ _ => only_traceRec _ _ (by decide) (by decide)
  have hpost : (when_ (posted && !s.flag f) (postPlain 0x02 4 (2 ^ f.lo) s.wheel.st.code)).Only errParts errOffs :=
    (only_when _ _).2 fun _ => only_postPlain _ _ _ _ (List.Subset.refl _) (List.Subset.refl _)
  have hev := (event f).run_regs_wf s hw
  show (Act.run (when_ _ _) (Act.run (traceRec _ _) _)).fld f = 1
  rw [hpost.fld ((traceRec _ _).run_regs_wf _ hev) f hf.1 hno, (htrace _ _).fld hev f hf.1 hno, fld_event_same s f hw hf hone]

/-! ### The row of an edge -/

/-- An edge with a phase error is judged, in the window of the sync of a cycle or not. -/
def judgeAs (te8 back8 : Nat) (wt : Option WTime) (e : Int) (cyc : Nat) (inside : Bool) : Act := .ask fun s =>
  let w := s.wheel
  if w.st == .master then .skip
  else acts [
    when_ inside (modWheel fun w => { w with judged := cyc, miss := if w.st == .acquire && !w.qual then 0 else w.miss }),
    if w.measures then acqEdge te8 back8 wt
    else if w.st == .coast then coastEdge te8 back8
    else if inside then goodSync e cyc
    else when_ (w.st == .locked) (count F.WHL_CNT0_STRAY)]

/-- An edge lies inside the window of the sync it is nearest to (R44). -/
def State.inWindow (s : State) (back8 : Nat) : Bool :=
  s.wheel.windowed && (s.wheel.phaseErr back8).natAbs ≤ s.winAt (s.wheel.edgeCycle back8)

/-- The edge is judged, no window having closed before it. -/
def judgeEdge (te8 back8 : Nat) (wt : Option WTime) : Act := .ask fun s =>
  judgeAs te8 back8 wt (s.wheel.phaseErr back8) (s.wheel.edgeCycle back8) (s.inWindow back8)

theorem edgeAt_run {s : State} {back8 : Nat} (te8 : Nat) (wt : Option WTime)
    (h : s.wheel.windowed = true → s.closedWindows (s.wheel.valueBack back8 / 2 ^ 20) = 0) :
    (edgeAt te8 back8 wt).run s = (judgeEdge te8 back8 wt).run s := by
  have hmiss : (missClosed (s.wheel.valueBack back8 / 2 ^ 20)).run s = s := by
    rw [missClosed, run_ask, run_when]
    split
    · next hwin => rw [h hwin]; rfl
    · rfl
  show (judgeEdge te8 back8 wt).run ((missClosed _).run s) = _
  rw [hmiss]

section
variable {s : State} (hrun : Running s)
include hrun

theorem exec_syncEdge_inactive (dt8 : Nat) : exec (.syncEdge ⟨dt8, !activeEdge s⟩) s = .next (atEdge s dt8) := by
  refine row_next hrun ?_
  simp [syncEdgeAct, hrun.2.1]

theorem exec_syncEdge_active {dt8 : Nat} (hsrc : s.fld F.WHL_CTL_SRC = 0) : exec (.syncEdge ⟨dt8, activeEdge s⟩) s =
    .next ((edgeAt (8 * s.clk + dt8) (edgeBack dt8) none).run (atEdge s dt8)) := by
  refine row_next hrun ?_
  simp [syncEdgeAct, hrun.2.1, State.flag, hsrc]

end

/-! ### Each state's answer -/

theorem run_modWheel_congr {f g : Wheel → Wheel} {s : State} (h : f s.wheel = g s.wheel) :
    (modWheel f).run s = (modWheel g).run s := congrArg (fun w => (Upd.wheel w).apply s) h

/-- An edge in its window is judged the edge of its sync, and clears MISS only while acquisition is not yet qualified (R73). -/
theorem run_judged {s : State} (cyc : Nat) (h : (s.wheel.st == .acquire && !s.wheel.qual) = false) :
    (modWheel fun w => { w with judged := cyc, miss := if w.st == .acquire && !w.qual then 0 else w.miss }).run s =
      (modWheel fun w => { w with judged := cyc }).run s :=
  run_modWheel_congr (by simp only [h, Bool.false_eq_true, if_false])

section
variable {s : State} (te8 back8 : Nat) (wt : Option WTime)

theorem judgeEdge_run_master (h : s.wheel.st = .master) : (judgeEdge te8 back8 wt).run s = s := by
  simp [judgeEdge, judgeAs, h]

theorem judgeEdge_run_stray (h : s.wheel.st = .locked) (hout : s.inWindow back8 = false) :
    (judgeEdge te8 back8 wt).run s = (count F.WHL_CNT0_STRAY).run s := by
  simp [judgeEdge, judgeAs, Wheel.measures, h, hout]

theorem judgeAs_run_good (e : Int) (cyc : Nat) (h : s.wheel.st = .locked ∨ s.wheel.st = .acquire ∧ s.wheel.qual = true) :
    (judgeAs te8 back8 wt e cyc true).run s = (goodSync e cyc).run ((modWheel fun w => { w with judged := cyc }).run s) := by
  have hunq : (s.wheel.st == .acquire && !s.wheel.qual) = false := by rcases h with h | ⟨h, hq⟩ <;> simp [*]
  have hmeas : s.wheel.measures = false := by rcases h with h | ⟨h, hq⟩ <;> simp [Wheel.measures, *]
  have hmaster : (s.wheel.st == .master) = false := by rcases h with h | ⟨h, _⟩ <;> rw [h] <;> rfl
  have hcoast : (s.wheel.st == .coast) = false := by rcases h with h | ⟨h, _⟩ <;> rw [h] <;> rfl
  simp only [judgeAs, run_ask, hmeas, hmaster, hcoast, run_acts_cons, run_acts_nil, run_when, Bool.false_eq_true, if_true,
    if_false, run_judged _ hunq]

theorem judgeEdge_run_good (h : s.wheel.st = .locked ∨ s.wheel.st = .acquire ∧ s.wheel.qual = true)
    (hin : s.inWindow back8 = true) :
    (judgeEdge te8 back8 wt).run s = (goodSync (s.wheel.phaseErr back8) (s.wheel.edgeCycle back8)).run
      ((modWheel fun w => { w with judged := s.wheel.edgeCycle back8 }).run s) := by
  rw [judgeEdge, run_ask, hin]
  exact judgeAs_run_good te8 back8 wt _ _ h

/-- An edge in COAST is judged by its spacing; one in its window is the edge of its sync too (R44, R62). -/
theorem judgeEdge_run_coast (h : s.wheel.st = .coast) : ∃ cyc, (judgeEdge te8 back8 wt).run s =
    (coastEdge te8 back8).run ((modWheel fun w => { w with judged := cyc }).run s) := by
  have hunq : (s.wheel.st == .acquire && !s.wheel.qual) = false := by rw [h]; rfl
  have hmeas : s.wheel.measures = false := by rw [Wheel.measures, h]; rfl
  have hmaster : (s.wheel.st == .master) = false := by rw [h]; rfl
  have hcoast : (s.wheel.st == .coast) = true := by rw [h]; rfl
  simp only [judgeEdge, judgeAs, run_ask, hmeas, hmaster, hcoast, run_acts_cons, run_acts_nil, run_when, Bool.false_eq_true,
    if_true, if_false, run_judged _ hunq]
  split
  · exact ⟨_, rfl⟩
  · exact ⟨s.wheel.judged, rfl⟩

theorem judgeEdge_run_measures (h : s.wheel.st = .idle ∨ s.wheel.st = .lost) :
    (judgeEdge te8 back8 wt).run s = (acqEdge te8 back8 wt).run s := by
  rcases h with h | h <;> simp [judgeEdge, judgeAs, State.inWindow, Wheel.windowed, Wheel.measures, h]

end

end Sys2Proof.Machine
end

section
/-!
SUPPORT. The tracker after a good sync, a resync, an acquisition and a missing sync (R43, R46, R60 to R63).
-/

namespace Sys2Proof.Machine

/-! ### A good sync (R44, R46) -/

theorem only_goodSync (e : Int) (cyc : Nat) :
    (goodSync e cyc).Only ([.gov, .freeCtr, .wheel] ++ errParts) (F.WHL_EVT_UNLOCK.off :: errOffs) := by
  intro s
  refine ⟨fun _ => (only_when _ _).2 fun _ => (only_modGov _).2 (by decide),
    fun _ => only_drawFree _ (by decide) fun _ => (only_modWheel _).2 (by decide), (only_modWheel _).2 (by decide), fun t => ?_⟩
  dsimp only
  split
  · exact (only_modWheel _).2 (by decide)
  · exact (only_when _ _).2 fun _ => ⟨(only_modWheel _).2 (by decide), (only_modGov _).2 (by decide),
      only_whlEvent _ _ (by decide) (by decide) (by decide)⟩

/-- The loop corrects the estimate and the phase, and nothing else of the wheel (R44). -/
theorem loopCorrect_wheel (e : Int) (fine : Bool) (s : State) : ∃ est slew slewLeft resid unset,
    ((loopCorrect e fine).run s).wheel =
      { s.wheel with est := est, slew := slew, slewLeft := slewLeft, resid := resid, unset := unset } :=
  ⟨_, _, _, _, _, rfl⟩

theorem measureSync_wheel (e : Nat) (fine : Bool) (s : State) : ((measureSync e fine).run s).wheel = s.wheel := by
  rw [measureSync, run_ask, run_when]
  split <;> rfl

/-- A good sync within LOCK_TOL: its error is recorded and MISS cleared; the sixteenth in ACQUIRE locks (R46). -/
theorem goodSync_fine {s : State} {e : Int} {cyc : Nat} (h : e.natAbs ≤ s.lockTolAt cyc) :
    ∃ w : Wheel, (w.st = s.wheel.st ∧ w.err = e ∧ w.miss = 0 ∧ w.good = s.wheel.good + 1 ∧ w.bad = 0 ∧
        w.judged = s.wheel.judged) ∧
      ((goodSync e cyc).run s).wheel = if w.st == .acquire && w.good ≥ 16 then w.enter .locked 0 else w := by
  have hfine : decide (e.natAbs ≤ s.lockTolAt cyc) = true := decide_eq_true h
  have hmeasured := measureSync_wheel e.natAbs true s
  simp only [goodSync, run_ask, hfine, run_acts_cons, run_acts_nil, if_true]
  generalize (measureSync e.natAbs true).run s = m at hmeasured ⊢
  obtain ⟨est, slew, slewLeft, resid, unset, hcorr⟩ := loopCorrect_wheel e true m
  generalize (loopCorrect e true).run m = u at hcorr ⊢
  have hu : ((modWheel fun w => { w with err := e, miss := 0, good := w.good + 1, bad := 0 }).run u).wheel =
    { u.wheel with err := e, miss := 0, good := u.wheel.good + 1, bad := 0 } := rfl
  generalize (modWheel fun w => { w with err := e, miss := 0, good := w.good + 1, bad := 0 }).run u = v at hu ⊢
  have hst : v.wheel.st = s.wheel.st := by rw [hu, hcorr, hmeasured]
  have hbad : v.wheel.bad = 0 := by rw [hu]
  refine ⟨v.wheel, ⟨hst, by rw [hu], by rw [hu], by rw [hu, hcorr, hmeasured], hbad, by rw [hu, hcorr, hmeasured]⟩, ?_⟩
  split
  · rfl
  · rw [hbad]
    simp

theorem lockTolAt_judged (s : State) (cyc c : Nat) :
    State.lockTolAt ((modWheel fun w => { w with judged := c }).run s) cyc = s.lockTolAt cyc := by
  rw [State.lockTolAt, State.trkAt_congr (t := Act.run _ s) (s := s) rfl rfl, State.lockTolAt]

/-- A good sync within LOCK_TOL judged the edge of its sync. -/
theorem goodSync_judged {s : State} {e : Int} {cyc : Nat} (h : e.natAbs ≤ s.lockTolAt cyc) :
    ∃ w : Wheel, (w.st = s.wheel.st ∧ w.err = e ∧ w.miss = 0 ∧ w.good = s.wheel.good + 1 ∧ w.bad = 0 ∧ w.judged = cyc) ∧
      ((goodSync e cyc).run ((modWheel fun w => { w with judged := cyc }).run s)).wheel =
        if w.st == .acquire && w.good ≥ 16 then w.enter .locked 0 else w :=
  goodSync_fine (h.trans (lockTolAt_judged s cyc cyc).ge)

theorem goodSync_judged_same (s : State) (e : Int) (cyc : Nat) :
    ((goodSync e cyc).run ((modWheel fun w => { w with judged := cyc }).run s)).chans = s.chans ∧
      ((goodSync e cyc).run ((modWheel fun w => { w with judged := cyc }).run s)).clk = s.clk :=
  ⟨(only_goodSync e cyc).part _ _ .chans (by decide), (only_goodSync e cyc).part _ _ .clk (by decide)⟩

/-! ### Resync and acquisition (R43, R62) -/

theorem coastEdge_run_locks {s : State} {te8 back8 l : Nat} (hlast : s.wheel.lastEdge = some l)
    (hok : spacingOk (te8 - l) = true) (hnear : near2 (te8 - l) s.wheel.est = true) :
    (coastEdge te8 back8).run s = (acts [modWheel fun w => w.enter .locked 0,
      align (s.wheel.phaseErr back8) (s.wheel.edgeCycle back8)]).run s := by
  rw [coastEdge, run_ask]
  dsimp only
  rw [hlast]
  dsimp only
  rw [hok, hnear]
  rfl

/-- A second edge of a resync that fits the estimate locks (R62). -/
theorem coastEdge_locks {s : State} {te8 back8 l : Nat} (hlast : s.wheel.lastEdge = some l) (hok : spacingOk (te8 - l) = true)
    (hnear : near2 (te8 - l) s.wheel.est = true) :
    ((coastEdge te8 back8).run s).wheel.tracking = (s.wheel.enter .locked 0).tracking := by
  rw [coastEdge_run_locks hlast hok hnear, run_acts_cons, run_acts_cons, run_acts_nil]
  exact keepsTracking_align _ _ _

theorem acqEdge_run_acquires {s : State} {te8 back8 l : Nat} (hlast : s.wheel.lastEdge = some l)
    (hlen : s.wheel.spacings.length = 2) (hok : spacingOk (te8 - l) = true)
    (hagree : agree ((te8 - l) :: s.wheel.spacings) = true) :
    (acqEdge te8 back8 none).run s = (acts [
      modWheel fun w => { w.enter .acquire 0 with est := meanPeriod ((te8 - l) :: s.wheel.spacings) },
      align (s.wheel.phaseErr back8) (s.wheel.edgeCycle back8)]).run s := by
  have htake : ((te8 - l) :: s.wheel.spacings).take 3 = (te8 - l) :: s.wheel.spacings :=
    List.take_of_length_le (by simp [hlen])
  rw [acqEdge, run_ask]
  dsimp only
  rw [hlast]
  dsimp only
  rw [htake, hok, hagree]
  rfl

/-- The fourth edge of equal spacings enters ACQUIRE with their mean as the estimate (R43). -/
theorem acqEdge_acquires {s : State} {te8 back8 l : Nat} (hlast : s.wheel.lastEdge = some l)
    (hlen : s.wheel.spacings.length = 2) (hok : spacingOk (te8 - l) = true)
    (hagree : agree ((te8 - l) :: s.wheel.spacings) = true) :
    ((acqEdge te8 back8 none).run s).wheel.tracking =
      { s.wheel.enter .acquire 0 with est := meanPeriod ((te8 - l) :: s.wheel.spacings) : Wheel }.tracking := by
  rw [acqEdge_run_acquires hlast hlen hok hagree, run_acts_cons, run_acts_cons, run_acts_nil]
  exact keepsTracking_align _ _ _

/-! ### A missing sync (R60, R61, R63) -/

/-- The next expected sync is judged. -/
def Wheel.judgeNext (w : Wheel) : Wheel := { w with judged := (w.judged + 1) % 2 ^ 36 }

theorem missOne_run_coasts {s : State} (hst : s.wheel.st = .locked) (hmiss : s.wheel.miss < 64) :
    missOne.run s = (acts [modWheel Wheel.judgeNext, modWheel fun w => w.enter .coast 1, notLocked,
      whlEvent F.WHL_EVT_COAST false]).run s := by
  have hfew : ¬ s.wheel.miss + 1 ≥ 65 := by omega
  rw [missOne, run_ask]
  dsimp only
  rw [if_neg hfew, Wheel.windowed, hst]
  rfl

theorem missOne_run_counts {s : State} (hst : s.wheel.st = .coast ∨ s.wheel.st = .acquire) (hmiss : s.wheel.miss < 64) :
    missOne.run s = (modWheel fun w => { w with
      miss := w.miss + 1, good := 0, judged := (w.judged + 1) % 2 ^ 36 }).run s := by
  have hfew : ¬ s.wheel.miss + 1 ≥ 65 := by omega
  rw [missOne, run_ask]
  dsimp only
  rcases hst with hst | hst <;> rw [if_neg hfew, Wheel.windowed, hst] <;> rfl

theorem missOne_run_loses {s : State} (hst : s.wheel.st = .coast ∨ s.wheel.st = .acquire) (hmiss : 64 ≤ s.wheel.miss) :
    missOne.run s = (acts [modWheel Wheel.judgeNext, loneCandidate,
      modWheel fun w => { w.enter .lost 65 with
        genP := w.est, nomPend := some (s.fld F.WHL_NOMINAL_PERIOD), nomFrom := (w.time.toNat / 4096 + 1) % 2 ^ 36 },
      notLocked, whlEvent F.WHL_EVT_LOST true]).run s := by
  have hmany : s.wheel.miss + 1 ≥ 65 := by omega
  rw [missOne, run_ask]
  dsimp only
  rcases hst with hst | hst <;> rw [if_pos hmany, Wheel.windowed, hst] <;> rfl

/-- The tracker as the 65th missing sync leaves it: on its generator, at the period estimated last (R63). -/
def Wheel.losing (w : Wheel) (nominal : Nat) : Wheel :=
  { { w with judged := (w.judged + 1) % 2 ^ 36 }.enter .lost 65 with
    genP := w.est, nomPend := some nominal, nomFrom := (w.time.toNat / 4096 + 1) % 2 ^ 36 }

theorem only_notLocked {ps : List Part} {offs : List Nat} (h : .gov ∈ ps) : notLocked.Only ps offs := (only_modGov _).2 h

/-- A candidate counted as stray changes one count, in a register of the wheel's own (R62). -/
theorem only_loneCandidate : loneCandidate.Only [] [F.WHL_CNT0_STRAY.off] := fun _ =>
  (only_when _ _).2 fun _ => (only_count _ (by decide)).2 (by decide)

theorem missOne_loses {s : State} (hst : s.wheel.st = .coast ∨ s.wheel.st = .acquire) (hmiss : 64 ≤ s.wheel.miss)
    (hw : Regs.wf s.regs = true) :
    (missOne.run s).wheel = s.wheel.losing (s.fld F.WHL_NOMINAL_PERIOD) ∧ (missOne.run s).fld F.WHL_EVT_LOST = 1 := by
  rw [missOne_run_loses hst hmiss]
  simp only [run_acts_cons, run_acts_nil]
  refine ⟨?_, fld_whlEvent true (Act.run_regs_wf _ _ (Act.run_regs_wf _ _ (Act.run_regs_wf _ _ (Act.run_regs_wf _ _ hw))))
    ((Fld.ok_iff _).2 (by decide)) rfl (by decide)⟩
  have hlone := only_loneCandidate.part _ ((modWheel Wheel.judgeNext).run s) .wheel (by decide)
  have hlost := only_whlEvent (ps := errParts) F.WHL_EVT_LOST true (by decide) (List.Subset.refl _) (List.Subset.refl _)
  refine (hlost.part _ _ .wheel (by decide)).trans ?_
  refine ((only_notLocked (ps := [.gov]) (offs := []) (by decide)).part _ _ .wheel (by decide)).trans ?_
  generalize loneCandidate.run _ = u at hlone ⊢
  exact congrArg (fun w : Wheel => { w.enter .lost 65 with
    genP := w.est, nomPend := some (s.fld F.WHL_NOMINAL_PERIOD), nomFrom := (w.time.toNat / 4096 + 1) % 2 ^ 36 }) hlone

/-- A missing sync in LOCKED enters COAST with MISS 1 and an event (R60). -/
theorem missOne_coasts {s : State} (hst : s.wheel.st = .locked) (hmiss : s.wheel.miss < 64) (hw : Regs.wf s.regs = true) :
    (missOne.run s).wheel = s.wheel.judgeNext.enter .coast 1 ∧ (missOne.run s).clk = s.clk ∧
      (missOne.run s).fld F.WHL_EVT_COAST = 1 := by
  have hcoast := only_whlEvent (ps := errParts) F.WHL_EVT_COAST false (by decide) (List.Subset.refl _) (List.Subset.refl _)
  have hgov := only_notLocked (ps := [.gov]) (offs := []) (by decide)
  rw [missOne_run_coasts hst hmiss]
  simp only [run_acts_cons, run_acts_nil]
  exact ⟨(hcoast.part _ _ .wheel (by decide)).trans (hgov.part _ _ .wheel (by decide)),
    (hcoast.part _ _ .clk (by decide)).trans (hgov.part _ _ .clk (by decide)),
    fld_whlEvent false (Act.run_regs_wf _ _ (Act.run_regs_wf _ _ (Act.run_regs_wf _ _ hw))) ((Fld.ok_iff _).2 (by decide)) rfl
      (by decide)⟩

end Sys2Proof.Machine
end

section
/-!
SUPPORT. The rows of the wheel's tracker on a running device: a sync edge in each state, a missing sync, the end of a hold,
the generator's step and a change of source (R37, R40, R43 to R46, R60 to R63, R69); and the statement on the wheel tracker.
-/

namespace Sys2Proof.Machine

/-! ### A sync edge (R37, R44) -/

section
variable {s : State} {dt8 : Nat}

theorem windowed_atEdge : (atEdge s dt8).wheel.windowed = s.wheel.windowed := by simp [Wheel.windowed]

theorem winAt_atEdge (hwf : s.wf = true) (cyc : Nat) : (atEdge s dt8).winAt cyc = s.winAt cyc := by
  rw [State.winAt, State.winAt, tickBy_trkAt _ hwf]

/-- The window of a pin edge, in the terms of the state before it. -/
theorem inWindow_atEdge (hwf : s.wf = true) (hwin : s.wheel.windowed = true) :
    (atEdge s dt8).inWindow (edgeBack dt8) = decide ((edgeErr s dt8).natAbs ≤ s.winAt (edgeCyc s dt8)) := by
  rw [State.inWindow, windowed_atEdge, hwin, winAt_atEdge hwf, Bool.true_and]
  rfl

theorem lockTolAt_atEdge (hwf : s.wf = true) (cyc : Nat) : (atEdge s dt8).lockTolAt cyc = s.lockTolAt cyc := by
  rw [State.lockTolAt, State.lockTolAt, tickBy_trkAt _ hwf]

variable (hrun : Running s) (hsrc : s.fld F.WHL_CTL_SRC = 0)
include hrun hsrc

/-- With no window closed before it, an active pin edge is judged in the clock at or after it. -/
theorem exec_syncEdge_judged (hnone : s.wheel.windowed = true → NoneMissed s dt8) :
    exec (.syncEdge ⟨dt8, activeEdge s⟩) s =
      .next ((judgeEdge (8 * s.clk + dt8) (edgeBack dt8) none).run (atEdge s dt8)) := by
  rw [exec_syncEdge_active hrun hsrc, edgeAt_run _ _ fun h => hnone (windowed_atEdge ▸ h)]

/-- A good sync within LOCK_TOL: what it records, and that the sixteenth in ACQUIRE locks (R44, R46). -/
theorem exec_syncEdge_good (hst : s.wheel.st = .locked ∨ s.wheel.st = .acquire ∧ s.wheel.qual = true) (hnone : NoneMissed s dt8)
    (hin : (edgeErr s dt8).natAbs ≤ s.winAt (edgeCyc s dt8)) (htol : (edgeErr s dt8).natAbs ≤ s.lockTolAt (edgeCyc s dt8)) :
    ∃ (t : State) (w : Wheel), exec (.syncEdge ⟨dt8, activeEdge s⟩) s = .next t ∧
      t.wheel = (if w.st == .acquire && w.good ≥ 16 then w.enter .locked 0 else w) ∧
      (w.st = s.wheel.st ∧ w.err = edgeErr s dt8 ∧ w.miss = 0 ∧ w.good = s.wheel.good + 1 ∧ w.bad = 0 ∧
        w.judged = edgeCyc s dt8) ∧ t.clk = s.clk + (dt8 + 7) / 8 ∧ t.chans = s.chans := by
  have hwin : s.wheel.windowed = true := by rcases hst with h | ⟨h, _⟩ <;> rw [Wheel.windowed, h] <;> rfl
  have hinside := (inWindow_atEdge (dt8 := dt8) hrun.1 hwin).trans (decide_eq_true hin)
  have hst' : (atEdge s dt8).wheel.st = .locked ∨ (atEdge s dt8).wheel.st = .acquire ∧ (atEdge s dt8).wheel.qual = true := by
    simpa using hst
  obtain ⟨w, ⟨hwst, hwerr, hwmiss, hwgood, hwbad, hwjudged⟩, hwheel⟩ :=
    goodSync_judged (htol.trans (lockTolAt_atEdge (dt8 := dt8) hrun.1 _).ge)
  obtain ⟨hchans, hclk⟩ := goodSync_judged_same (atEdge s dt8) (edgeErr s dt8) (edgeCyc s dt8)
  exact ⟨_, w, (exec_syncEdge_judged hrun hsrc fun _ => hnone).trans (congrArg _ (judgeEdge_run_good _ _ none hst' hinside)),
    hwheel, ⟨hwst.trans (Wheel.after_st _ _), hwerr, hwmiss, hwgood.trans (by simp), hwbad, hwjudged⟩,
    hclk.trans (tickBy_clk _ s), hchans.trans (tickBy_same _ s .chans (by decide))⟩

/-- An edge outside its window in LOCKED counts STRAY and does no more (R44). -/
theorem exec_syncEdge_stray (hst : s.wheel.st = .locked) (hnone : NoneMissed s dt8)
    (hout : s.winAt (edgeCyc s dt8) < (edgeErr s dt8).natAbs) :
    ∃ t, exec (.syncEdge ⟨dt8, activeEdge s⟩) s = .next t ∧ t.wheel = s.wheel.after ((dt8 + 7) / 8) ∧
      t.fld F.WHL_CNT0_STRAY = min (s.fld F.WHL_CNT0_STRAY + 1) 65535 ∧ t.chans = s.chans := by
  have hwin : s.wheel.windowed = true := by rw [Wheel.windowed, hst]; rfl
  have houtside := (inWindow_atEdge (dt8 := dt8) hrun.1 hwin).trans (decide_eq_false (Nat.not_le_of_lt hout))
  have hcount := (only_count (ps := []) (offs := [F.WHL_CNT0_STRAY.off]) F.WHL_CNT0_STRAY (by decide)).2 (by decide)
  refine ⟨_, (exec_syncEdge_judged hrun hsrc fun _ => hnone).trans
    (congrArg _ (judgeEdge_run_stray _ _ none (by simpa using hst) houtside)), hcount.part _ _ .wheel (by decide), ?_,
    (hcount.part _ _ .chans (by decide)).trans (tickBy_same _ s .chans (by decide))⟩
  rw [fld_count _ _ (Act.run_regs_wf _ _ (s.wf_regs hrun.1)) ((Fld.ok_iff _).2 (by decide)),
    tickBy_fld _ hrun.1 _ (by decide) (by decide)]
  rfl

/-- A second edge in COAST, at a spacing that fits the estimate, locks (R62). -/
theorem exec_syncEdge_coast (hst : s.wheel.st = .coast) (hnone : NoneMissed s dt8) {l : Nat} (hlast : s.wheel.lastEdge = some l)
    (hok : spacingOk (8 * s.clk + dt8 - l) = true) (hnear : near2 (8 * s.clk + dt8 - l) s.wheel.est = true) :
    ∃ t, exec (.syncEdge ⟨dt8, activeEdge s⟩) s = .next t ∧ t.wheel.st = .locked ∧ t.wheel.miss = 0 ∧
      t.wheel.lastEdge = none := by
  obtain ⟨cyc, hjudge⟩ := judgeEdge_run_coast (s := atEdge s dt8) (8 * s.clk + dt8) (edgeBack dt8) none (by simpa using hst)
  have hlock := coastEdge_locks (s := (modWheel fun w => { w with judged := cyc }).run (atEdge s dt8)) (te8 := 8 * s.clk + dt8)
    (back8 := edgeBack dt8) (l := l) ((Wheel.after_lastEdge _ _).trans hlast) hok
    ((congrArg _ (Wheel.after_est _ _)).trans hnear)
  exact ⟨_, (exec_syncEdge_judged hrun hsrc fun _ => hnone).trans (congrArg _ hjudge), congrArg Tracking.st hlock,
    congrArg Tracking.miss hlock, congrArg Tracking.lastEdge hlock⟩

/-- The fourth of edges at equal spacings enters ACQUIRE with their mean as the estimate (R43). -/
theorem exec_syncEdge_measures (hst : s.wheel.st = .idle ∨ s.wheel.st = .lost) {l : Nat} (hlast : s.wheel.lastEdge = some l)
    (hlen : s.wheel.spacings.length = 2) (hok : spacingOk (8 * s.clk + dt8 - l) = true)
    (hagree : agree ((8 * s.clk + dt8 - l) :: s.wheel.spacings) = true) :
    ∃ t, exec (.syncEdge ⟨dt8, activeEdge s⟩) s = .next t ∧ t.wheel.st = .acquire ∧ t.wheel.miss = 0 ∧ t.wheel.qual = true ∧
      t.wheel.est = 2 * ((8 * s.clk + dt8 - l) + s.wheel.spacings.sum) / 3 := by
  have hclosed : s.wheel.windowed = true → NoneMissed s dt8 := by rcases hst with h | h <;> simp [Wheel.windowed, h]
  have hspacings : (atEdge s dt8).wheel.spacings = s.wheel.spacings := Wheel.after_spacings _ _
  have hacq := acqEdge_acquires (s := atEdge s dt8) (te8 := 8 * s.clk + dt8) (back8 := edgeBack dt8) (l := l)
    ((Wheel.after_lastEdge _ _).trans hlast) (hspacings ▸ hlen) hok (hspacings ▸ hagree)
  refine ⟨_, (exec_syncEdge_judged hrun hsrc hclosed).trans
    (congrArg _ (judgeEdge_run_measures _ _ none (by simpa using hst))), congrArg Tracking.st hacq,
    congrArg Tracking.miss hacq, congrArg Tracking.qual hacq, (congrArg Tracking.est hacq).trans ?_⟩
  show meanPeriod _ = _
  rw [hspacings, meanPeriod, List.sum_cons]

/-- In MASTER an edge does nothing (R37). -/
theorem exec_syncEdge_master (hst : s.wheel.st = .master) :
    ∃ t, exec (.syncEdge ⟨dt8, activeEdge s⟩) s = .next t ∧ t.wheel = s.wheel.after ((dt8 + 7) / 8) ∧
      UnchangedButTime [] [] s t := by
  have hclosed : s.wheel.windowed = true → NoneMissed s dt8 := by simp [Wheel.windowed, hst]
  exact ⟨_, (exec_syncEdge_judged hrun hsrc hclosed).trans
    (congrArg _ (judgeEdge_run_master _ _ none (by simpa using hst))), tickBy_wheel _ s, tickBy_unchanged _ hrun.1⟩

end

/-! ### A missing sync (R60, R61, R63) -/

/-- A change of the wheel once time has passed is within what time changes. -/
theorem unchangedButTime_modWheel {s : State} (hwf : s.wf = true) (n : Nat) (f : Wheel → Wheel) :
    UnchangedButTime [] [] s ((modWheel f).run ((tickBy n).run s)) :=
  Act.Only.unchanged (ps := timeParts ++ []) (offs := timeOffs ++ []) (.seq (tickBy n) (modWheel f)) s
    ⟨only_tickBy n (List.subset_append_left _ _) (List.subset_append_left _ _), (only_modWheel f).2 (by decide)⟩
    (s.wf_regs hwf)

/-- Until the window of the next expected sync closes, nothing but time passes. -/
theorem atClose_eq (s : State) : ∃ n, atClose s = (tickBy n).run s := ⟨_, rfl⟩

section
variable {s : State} (hrun : Running s)
include hrun

theorem exec_syncMissing (hwin : s.wheel.windowed = true) : exec .syncMissing s = .next (missOne.run (atClose s)) := by
  refine row_next hrun ?_
  rw [syncMissingAct, run_ask, hrun.2.1, hwin]
  rfl

theorem exec_syncMissing_locked (hst : s.wheel.st = .locked) (hmiss : s.wheel.miss < 64) :
    ∃ t, exec .syncMissing s = .next t ∧ t.wheel.st = .coast ∧ t.wheel.miss = 1 ∧ t.wheel.time = (atClose s).wheel.time ∧
      t.clk = (atClose s).clk ∧ t.wheel.est = s.wheel.est ∧ t.fld F.WHL_EVT_COAST = 1 := by
  have hexec := exec_syncMissing hrun (by rw [Wheel.windowed, hst]; rfl)
  obtain ⟨n, hclose⟩ := atClose_eq s
  rw [hclose] at hexec ⊢
  obtain ⟨hwheel, hclk, hevent⟩ := missOne_coasts (s := (tickBy n).run s) (by simpa using hst) (by simpa using hmiss)
    (Act.run_regs_wf _ s (s.wf_regs hrun.1))
  exact ⟨_, hexec, congrArg Wheel.st hwheel, congrArg Wheel.miss hwheel, (congrArg Wheel.time hwheel :), hclk,
    (congrArg Wheel.est hwheel).trans (Wheel.after_est _ _), hevent⟩

theorem exec_syncMissing_counts (hst : s.wheel.st = .coast ∨ s.wheel.st = .acquire) (hmiss : s.wheel.miss < 64) :
    ∃ t, exec .syncMissing s = .next t ∧ t.clk = (atClose s).clk ∧
      t.wheel = { (atClose s).wheel with miss := s.wheel.miss + 1, good := 0, judged := (s.wheel.judged + 1) % 2 ^ 36 } ∧
      UnchangedButTime [] [] s t := by
  have hexec := exec_syncMissing hrun (by rcases hst with h | h <;> rw [Wheel.windowed, h] <;> rfl)
  obtain ⟨n, hclose⟩ := atClose_eq s
  rw [hclose] at hexec ⊢
  rw [missOne_run_counts (by simpa using hst) (by simpa using hmiss)] at hexec
  refine ⟨_, hexec, rfl, ?_, unchangedButTime_modWheel hrun.1 n _⟩
  rw [← Wheel.after_miss s.wheel n, ← Wheel.after_judged s.wheel n]
  rfl

theorem exec_syncMissing_loses (hst : s.wheel.st = .coast ∨ s.wheel.st = .acquire) (hmiss : 64 ≤ s.wheel.miss) :
    ∃ t, exec .syncMissing s = .next t ∧ t.wheel.st = .lost ∧ t.wheel.time = (atClose s).wheel.time ∧
      t.wheel.genP = s.wheel.est ∧ t.wheel.nomPend = some (s.fld F.WHL_NOMINAL_PERIOD) ∧ t.fld F.WHL_EVT_LOST = 1 := by
  have hexec := exec_syncMissing hrun (by rcases hst with h | h <;> rw [Wheel.windowed, h] <;> rfl)
  obtain ⟨n, hclose⟩ := atClose_eq s
  rw [hclose] at hexec ⊢
  obtain ⟨hwheel, hevent⟩ := missOne_loses (s := (tickBy n).run s) (by simpa using hst) (by simpa using hmiss)
    (Act.run_regs_wf _ s (s.wf_regs hrun.1))
  rw [tickBy_fld n hrun.1 _ (by decide) (by decide)] at hwheel
  exact ⟨_, hexec, congrArg Wheel.st hwheel, (congrArg Wheel.time hwheel :), (congrArg Wheel.genP hwheel).trans
    (Wheel.after_est _ _), congrArg Wheel.nomPend hwheel, hevent⟩

/-! ### The end of a hold and the generator's step (R40, R45) -/

theorem exec_holdRelease (hhold : 0 < s.wheel.hold) (hinc : 0 < s.wheel.inc) :
    ∃ t, exec .holdRelease s = .next t ∧ t.wheel.hold = 0 ∧ t.wheel.st = s.wheel.st ∧
      t.clk = s.clk + (s.wheel.hold + s.wheel.inc - 1) / s.wheel.inc ∧ UnchangedButTime [] [] s t := by
  refine ⟨_, row_next hrun (t := (tickBy ((s.wheel.hold + s.wheel.inc - 1) / s.wheel.inc)).run s) ?_,
    Wheel.after_hold _ hinc, Wheel.after_st _ _, tickBy_clk _ s, tickBy_unchanged _ hrun.1⟩
  rw [holdReleaseAct, run_ask, hrun.2.1, Nat.max_eq_left hinc, bne_iff_ne.2 hhold.ne']
  rfl

end

/-- A step toward a nominal period is at most 2% of the present one, and reaches one no further away (R40). -/
theorem nomStep_bounds (p n : Nat) : nomStep p n ≤ p + p / 50 ∧ p - p / 50 ≤ nomStep p n ∧
    (n ≤ p + p / 50 → p - p / 50 ≤ n → nomStep p n = n) := by
  unfold nomStep
  split <;> omega

/-- The generator's step, in the clock it is taken (R40). -/
def nominalStep (n : Nat) : Act := modWheel fun w =>
  { w with genP := nomStep w.genP n, nomPend := if nomStep w.genP n == n then none else some n,
           nomFrom := (w.time.toNat / 4096 + 1) % 2 ^ 36 }

theorem exec_nominalApply {s : State} (hrun : Running s) (hst : s.wheel.st = .idle ∨ s.wheel.st = .lost ∨ s.wheel.st = .master)
    {n : Nat} (hpend : s.wheel.nomPend = some n) :
    ∃ t, exec .nominalApply s = .next t ∧ t.wheel.genP ≤ s.wheel.genP + s.wheel.genP / 50 ∧
      s.wheel.genP - s.wheel.genP / 50 ≤ t.wheel.genP ∧
      (n ≤ s.wheel.genP + s.wheel.genP / 50 → s.wheel.genP - s.wheel.genP / 50 ≤ n →
        t.wheel.genP = n ∧ t.wheel.nomPend = none) ∧
      t.wheel.nomFrom = (t.wheel.time.toNat / 4096 + 1) % 2 ^ 36 ∧ t.wheel.st = s.wheel.st ∧ UnchangedButTime [] [] s t := by
  have hexec : exec .nominalApply s = .next ((nominalStep n).run ((tickBy (s.wheel.clocksTo s.wheel.nomAt)).run s)) := by
    refine row_next hrun ?_
    rw [nominalApplyAct, run_ask, hrun.2.1, hpend]
    rcases hst with h | h | h <;> rw [h] <;> rfl
  generalize s.wheel.clocksTo s.wheel.nomAt = k at hexec
  obtain ⟨hle, hge, hreach⟩ := nomStep_bounds s.wheel.genP n
  have hgenP : ((nominalStep n).run ((tickBy k).run s)).wheel.genP = nomStep s.wheel.genP n :=
    congrArg (nomStep · n) (Wheel.after_genP _ _)
  refine ⟨_, hexec, hgenP.trans_le hle, hge.trans hgenP.ge, fun hup hdown => ⟨hgenP.trans (hreach hup hdown), ?_⟩, rfl,
    Wheel.after_st _ _, unchangedButTime_modWheel hrun.1 k _⟩
  show (if nomStep (s.wheel.after k).genP n == n then none else some n) = none
  rw [Wheel.after_genP, hreach hup hdown, if_pos (beq_self_eq_true n)]

end Sys2Proof.Machine
end

section
/-!
SUPPORT. A change of the tracker's source by a write to WHL_CTL (R69): what the write leaves in the register, field by field,
and what the change does; and the statement on the wheel tracker.
-/

namespace Sys2Proof.Machine

/-! ### What a write leaves in a field (R18, R584) -/

/-- A mask that holds all of a field leaves it as it is. -/
theorem bits_and_mask (x m lo width : Nat) (h : bits m lo width = 2 ^ width - 1) :
    bits (x &&& m) lo width = bits x lo width := by
  apply Nat.eq_of_testBit_eq
  intro i
  have hm := congrArg (fun n => n.testBit i) h
  simp only [testBit_bits, Nat.testBit_two_pow_sub_one, Nat.testBit_and] at hm ⊢
  cases hi : decide (i < width) <;> simp_all

/-- A word cut to 32 bits keeps the fields in them. -/
theorem bits_mod_word (x lo width : Nat) (h : lo + width ≤ 32) : bits (x % 2 ^ 32) lo width = bits x lo width := by
  apply Nat.eq_of_testBit_eq
  intro i
  simp only [testBit_bits, Nat.testBit_mod_two_pow]
  by_cases hi : i < width
  · simp [show lo + i < 32 by omega]
  · simp [hi]

/-- The alert pin's vector changes no register. -/
theorem fldI_withAlert (s : State) (inst off inst' : Nat) (a : Act) (g : Fld) :
    ((withAlert inst off a).run s).fldI inst' g = (a.run s).fldI inst' g := by
  simp only [withAlert, run_ask, run_acts_cons, run_acts_nil, run_when]
  split <;> rfl

/-- A field of a single register after a write: its bits of the word that the fields' access types leave. -/
theorem fld_plainWrite {s : State} {f : Fld} (v : Word) (hw : Regs.wf s.regs = true) (hf : f.ok) :
    ((plainWrite 0 f.off v).run s).fld f =
      bits (writeNext f.off (s.locked 0 f.off) (s.word 0 f.off).toNat v.toNat) f.lo f.width := by
  obtain ⟨hoff, hwired, hin, hmask⟩ := hf
  rw [plainWrite, run_ask, State.fld, fldI_withAlert, State.fldI, putWord, run_upd, word_setReg_same s 0 _ _ hw hoff hwired,
    BitVec.toNat_and, BitVec.toNat_ofNat, BitVec.toNat_ofNat, bits_and_mask _ _ _ _ hmask,
    bits_mod_word _ _ _ hin]

theorem only_plainWrite (inst off : Nat) (v : Word) (h : off < 0x1000) : (plainWrite inst off v).Only [.host] [off] := fun _ =>
  only_withAlert _ _ _ ((only_putWord _ _ _ h).2 (List.mem_singleton_self _)) (List.mem_singleton_self _)

/-- WHL_CTL in Table REG-7. -/
theorem regFind_whlCtl : regFind 0x180 = some ⟨0x180, 0x00001C00, false,
    [⟨0, 0, .rwl⟩, ⟨1, 1, .rwl⟩, ⟨2, 2, .rwl⟩, ⟨3, 3, .rwl⟩, ⟨15, 8, .rw⟩, ⟨31, 31, .lock⟩]⟩ := rfl

theorem writeNext_of_regFind {off : Nat} {r : RegDesc} (h : regFind off = some r) (hclr : r.clr = false) (locked : Bool)
    (old v : Nat) : writeNext off locked old v = (r.flds.map fun f => f.next locked old v * 2 ^ f.lo).sum := by
  simp [writeNext, h, hclr]

/-- The bits of one field of a word built of fields, those below it filling no more than the bits below it. -/
theorem bits_sum_fields (g : RField → Nat) {pre post : List RField} {f : RField} {width : Nat}
    (hpre : (pre.map fun x => g x * 2 ^ x.lo).sum < 2 ^ f.lo) (hpost : ∀ x ∈ post, f.lo + width ≤ x.lo) :
    bits ((pre ++ f :: post).map fun x => g x * 2 ^ x.lo).sum f.lo width = g f % 2 ^ width := by
  obtain ⟨k, hk⟩ : 2 ^ (f.lo + width) ∣ (post.map fun x => g x * 2 ^ x.lo).sum := List.dvd_sum fun y hy => by
    obtain ⟨x, hx, rfl⟩ := List.mem_map.1 hy
    exact Dvd.dvd.mul_left (pow_dvd_pow 2 (hpost x hx)) _
  rw [List.map_append, List.sum_append, List.map_cons, List.sum_cons, hk, pow_add, mul_assoc, Nat.mul_comm (g f),
    ← Nat.mul_add, bits, Nat.add_mul_div_left _ _ (Nat.two_pow_pos _), Nat.div_eq_of_lt hpre, Nat.zero_add,
    Nat.add_mul_mod_self_left]

/-- Bit 1 of a word written to an unlocked WHL_CTL is what the register holds there. -/
theorem bits_writeNext_src (old v : Nat) : bits (writeNext 0x180 false old v) 1 1 = bits v 1 1 := by
  rw [writeNext_of_regFind regFind_whlCtl rfl]
  exact (bits_sum_fields (RField.next · false old v) (pre := [⟨0, 0, .rwl⟩]) (f := ⟨1, 1, .rwl⟩) (width := 1)
    (by simpa [RField.next] using bits_lt v 0 1) (by decide)).trans (Nat.mod_eq_of_lt (bits_lt v 1 1))

/-- A write to an unlocked WHL_CTL puts its bit 1 into SRC. -/
theorem fld_plainWrite_src {s : State} (v : Word) (hw : Regs.wf s.regs = true) (hlock : s.fld F.WHL_CTL_LOCK = 0) :
    ((plainWrite 0 0x180 v).run s).fld F.WHL_CTL_SRC = bits v.toNat 1 1 := by
  have hfree : s.locked 0 0x180 = false := beq_false_of_ne (ne_of_eq_of_ne hlock (by decide))
  have hwrite := fld_plainWrite (f := F.WHL_CTL_SRC) v hw ((Fld.ok_iff _).2 (by decide))
  exact hwrite.trans (hfree ▸ bits_writeNext_src _ _)

/-! ### A change of source (R69) -/

theorem fieldWrite_whlCtl (p : Path) (v : Word) (s : State) : (fieldWrite p 0x180 v).run s = (plainWrite 0 0x180 v).run s := by
  cases p <;> rfl

theorem sourceChange_wheel (s : State) : (sourceChange.run s).wheel =
    { s.wheel.enter .acquire 0 with qual := false, judged := s.wheel.time.toNat / 4096 } := by
  have hgov := only_notLocked (ps := [.gov]) (offs := []) (by decide)
  have hlone := only_loneCandidate.part _ s .wheel (by decide)
  simp only [sourceChange, run_acts_cons, run_acts_nil]
  refine (hgov.part _ _ .wheel (by decide)).trans ?_
  exact congrArg (fun w : Wheel => { w.enter .acquire 0 with qual := false, judged := w.time.toNat / 4096 }) hlone

theorem only_sourceChange : sourceChange.Only [.wheel, .gov] [F.WHL_CNT0_STRAY.off] :=
  ⟨only_loneCandidate.mono (by decide) (List.Subset.refl _), (only_modWheel _).2 (by decide), only_notLocked (by decide)⟩

/-- A write that changes SRC, of a device that is no master, changes the source. -/
theorem whlCtlWrite_run {s : State} {p : Path} {v : Word} (hmaster : s.wheel.st ≠ .master)
    (hsrc : ((plainWrite 0 0x180 v).run s).flag F.WHL_CTL_SRC ≠ s.flag F.WHL_CTL_SRC) :
    (whlCtlWrite p v).run s = sourceChange.run ((plainWrite 0 0x180 v).run s) := by
  have hwheel : ((plainWrite 0 0x180 v).run s).wheel = s.wheel :=
    (only_plainWrite 0 0x180 v (by decide)).part _ s .wheel (by decide)
  rw [whlCtlWrite, run_ask]
  simp only [run_acts_cons, run_acts_nil, run_ask, fieldWrite_whlCtl, hwheel, beq_false_of_ne hmaster, bne_iff_ne.2 hsrc,
    Bool.false_eq_true, if_false, run_when, if_true]

theorem exec_whlCtlSrcChange {s : State} {p : Path} {v : Word} (hreach : Reaches s p 0x180) (hlock : s.fld F.WHL_CTL_LOCK = 0)
    (hmaster : s.wheel.st ≠ .master) (hnew : bits v.toNat F.WHL_CTL_SRC.lo 1 ≠ s.fld F.WHL_CTL_SRC) :
    ∃ t, exec (.whlCtlSrcChange p v) s = .next t ∧ t.wheel.st = .acquire ∧ t.wheel.miss = 0 ∧ t.wheel.qual = false ∧
      t.wheel.time = s.wheel.time ∧ t.wheel.est = s.wheel.est ∧ t.fld F.WHL_CTL_SRC = 1 - s.fld F.WHL_CTL_SRC := by
  have hw := s.wf_regs hreach.1.1
  have hput := fld_plainWrite_src v hw hlock
  have hwheel : ((plainWrite 0 0x180 v).run s).wheel = s.wheel :=
    (only_plainWrite 0 0x180 v (by decide)).part _ s .wheel (by decide)
  have hold : s.fld F.WHL_CTL_SRC < 2 := fld_lt s F.WHL_CTL_SRC
  have hbit : bits v.toNat 1 1 < 2 := bits_lt _ _ _
  have hother : bits v.toNat 1 1 = 1 - s.fld F.WHL_CTL_SRC := by
    have hne : bits v.toNat 1 1 ≠ s.fld F.WHL_CTL_SRC := hnew
    omega
  have hflag : ((plainWrite 0 0x180 v).run s).flag F.WHL_CTL_SRC ≠ s.flag F.WHL_CTL_SRC := by
    rw [State.flag, State.flag, hput, hother]
    interval_cases s.fld F.WHL_CTL_SRC <;> decide
  have hrun := (pathWrite_run_of_reaches hreach v (whlCtlWrite p v)).trans (whlCtlWrite_run hmaster hflag)
  have hchange := sourceChange_wheel ((plainWrite 0 0x180 v).run s)
  rw [hwheel] at hchange
  exact ⟨_, row_next (running_of_pathFree hreach.1) hrun, congrArg Wheel.st hchange, congrArg Wheel.miss hchange,
    congrArg Wheel.qual hchange, (congrArg Wheel.time hchange :), (congrArg Wheel.est hchange :),
    (only_sourceChange.fld (Act.run_regs_wf _ _ hw) _ (by decide) (by decide)).trans (hput.trans hother)⟩

/-! ### The statement -/

/-- Settles O51: each clause is the rule of its row above. -/
theorem wheelTracker : Obligations.WheelTracker := by
  intro s hrun
  refine ⟨fun dt8 hsrc => ⟨?_, ?_, ?_, ?_, ?_, ?_, ?_⟩, ?_, ?_, ?_, ?_, ?_⟩
  · exact ⟨_, exec_syncEdge_inactive hrun dt8, tickBy_wheel _ s, tickBy_clk _ s, tickBy_unchanged _ hrun.1⟩
  · intro hst hnone hin htol
    obtain ⟨t, w, hexec, hwheel, ⟨hwst, herr, hmiss, _, hbad, hjudged⟩, hclk, hchans⟩ :=
      exec_syncEdge_good hrun hsrc (.inl hst) hnone hin htol
    rw [hwst.trans hst] at hwheel
    obtain rfl : t.wheel = w := hwheel
    exact ⟨t, hexec, hwst.trans hst, herr, hmiss, hbad, hjudged, hclk, hchans⟩
  · exact exec_syncEdge_stray hrun hsrc
  · intro hst hqual hnone hgood hin htol
    obtain ⟨t, w, hexec, hwheel, ⟨hwst, _, _, hwgood, _, _⟩, _, _⟩ :=
      exec_syncEdge_good hrun hsrc (.inr ⟨hst, hqual⟩) hnone hin htol
    have hlocks : w.st = .acquire ∧ w.good ≥ 16 := ⟨hwst.trans hst, by omega⟩
    rw [if_pos (by simpa using hlocks)] at hwheel
    exact ⟨t, hexec, congrArg Wheel.st hwheel, congrArg Wheel.miss hwheel⟩
  · exact fun hst hnone l => exec_syncEdge_coast hrun hsrc hst hnone
  · exact fun hst l => exec_syncEdge_measures hrun hsrc hst
  · exact exec_syncEdge_master hrun hsrc
  · exact exec_syncMissing_locked hrun
  · exact fun hst => ⟨exec_syncMissing_counts hrun hst, exec_syncMissing_loses hrun hst⟩
  · exact exec_holdRelease hrun
  · exact fun hst n => exec_nominalApply hrun hst
  · exact fun p v => exec_whlCtlSrcChange

end Sys2Proof.Machine
end

section
/-!
SUPPORT. Counts and event bits of the control port, and the rows that write a register over BAR0 (R91, R92).
-/

namespace Sys2Proof.Machine

/-- No event of the control port raises vector 0 (R88, R573). -/
theorem vec0Of_scpEvt (s : State) : vec0Of 0 s 0x094 = 0 := by
  simp [vec0Of, evtSources, evtSingles, List.range_succ]

theorem event_run_scp {f : Fld} (h : f.off = 0x094) (s : State) : (event f).run s = (put f 1).run s := by
  simp only [event, eventI, withAlert, h, run_ask, run_acts_cons, run_acts_nil, run_when, vec0Of_scpEvt]
  rfl

/-- Between two states a counter has counted one and an event bit of the control port has been set, and nothing else. -/
structure Noted (c e : Fld) (s t : State) : Prop where
  count : t.fld c = min (s.fld c + 1) (2 ^ c.width - 1)
  event : t.fld e = 1
  others : ∀ g : Fld, g.ok → c.apart g = true → e.apart g = true → t.fld g = s.fld g
  frame : Unchanged [] [c.off, e.off] s t

theorem noted_countEvent {c e : Fld} {s : State} (hw : Regs.wf s.regs = true) (hc : c.ok) (he : e.ok) (hevt : e.off = 0x094)
    (hone : e.width = 1) (hapart : e.apart c = true) : Noted c e s ((acts [count c, event e]).run s) := by
  have hw' := Act.run_regs_wf (count c) s hw
  have hrun : (acts [count c, Machine.event e]).run s = (put e 1).run ((Machine.count c).run s) := by
    rw [run_acts_cons, run_acts_cons, run_acts_nil, event_run_scp hevt]
  rw [hrun]
  constructor
  · rw [fld_put_apart 1 hw' he hc hapart, fld_count s c hw hc]
  · rw [fld_put_same _ _ _ hw' he, hone]
    rfl
  · intro g hg hcg heg
    rw [fld_put_apart 1 hw' he hg heg]
    exact fld_put_apart _ hw hc hg hcg
  · exact Act.Only.unchanged (.seq (count c) (put e 1)) s ⟨(only_count c hc.1).2 (by simp), (only_put e 1 he.1).2 (by simp)⟩ hw

theorem pathWrite_run_masked {s : State} {p : Path} {off : Nat} (h : PathFree s p) (hmask : s.hostMasked p off = true) (v : Word)
    (a : Act) : (pathWrite p off v a).run s = (acts [count F.SCP_CNT1_HOST_DENY, event F.SCP_EVT_HOST_DENY]).run s := by
  obtain ⟨_, halive, hheld, _⟩ := h
  simp [pathWrite, halive, hheld, hmask]

/-- A whole write of one register over a free BAR0 (R92). -/
theorem busWrite_run_bar0 {s : State} (h : PathFree s .bar0) {off : Nat} (v : Word) (hal : off % 4 = 0) (hoff : off < 0xC00) :
    (busWrite .bar0 off v 15 []).run s = (writeReg .bar0 off v).run s := by
  obtain ⟨_, halive, hheld, _⟩ := h
  have hheld : s.bar.held = none := hheld
  simp [busWrite, barWriteReq, barDword, barShapeOk, barWrite, bitAt, hal, hoff, halive, hheld]

/-- A row that writes a register over BAR0 is an access of the path to its offset. -/
theorem exec_eq_pathWrite_bar0 {i : Instr} {off : Nat} (hrow : barWriteOff i = some off) {s : State} (h : PathFree s .bar0) :
    ∃ v a, exec i s = .next ((pathWrite .bar0 off v a).run s) := by
  have hrun := running_of_pathFree h
  cases i with
  | registerWrite p o v x =>
    obtain ⟨be, more⟩ := x
    cases p with
    | scp => cases hrow
    | bar0 =>
      cases more with
      | cons e l => cases hrow
      | nil =>
        have hrow : (if o % 4 == 0 && o < 0xC00 && be == 15 then some o else none) = some off := hrow
        simp only [Option.ite_none_right_eq_some, Bool.and_eq_true, beq_iff_eq, decide_eq_true_eq, Option.some.injEq] at hrow
        obtain ⟨⟨⟨hal, hoff⟩, rfl⟩, rfl⟩ := hrow
        exact ⟨v, regWrite .bar0 o v, row_next hrun (busWrite_run_bar0 h v hal hoff)⟩
  | chrSit p n | chrGive p n =>
    cases p with
    | scp => cases hrow
    | bar0 =>
      have hrow : (if n < 128 then some (0x400 + 4 * n) else none) = some off := hrow
      obtain ⟨hn, hrow⟩ := Option.ite_none_right_eq_some.1 hrow
      cases hrow
      exact ⟨_, _, row_next hrun (by simp only [chrSitAct, chrGiveAct, hn, decide_true, run_when, if_true]; rfl)⟩
  | lanCtlEnClear p l v =>
    cases p with
    | scp => cases hrow
    | bar0 =>
      have hrow : (if l < 8 then some (0x800 + 32 * l) else none) = some off := hrow
      obtain ⟨hl, hrow⟩ := Option.ite_none_right_eq_some.1 hrow
      cases hrow
      exact ⟨_, _, row_next hrun (by rw [Nat.mod_eq_of_lt hl])⟩
  | ctxCreate p | ctxDestroy p | ctxReinit p | queueCreate p | queueDestroy p | chanCreate p | chanDestroy p | chanReinit p
  | memCreate p | memDestroy p | ref p | unref p | fenceCreate p | fenceDestroy p | fenceExport p | fenceImport p
  | stageMap p | stageUnmap p | chairtabOpen p | laneReinit p | engineReinit p | devStopDrain p | devStopHalt p
  | devStopAbort p | winDataWrite p | tlbInvalidate p | regionSelect p | regionCommit p | prtShdDataWrite p | prtShdFill p
  | protUnitEnable p | kndLoadGo p | whlCtlSrcChange p | ptmRequest p | revert p | govCtlEnSet p | wckCfgSwitch p
  | bootCtlGo p | otpProgram p | cupPoolWrite p | errRdWrite p | traceFreeze p | traceThaw p =>
    cases p with
    | scp => cases hrow
    | bar0 =>
      cases hrow
      exact ⟨_, _, row_next hrun rfl⟩
  | _ => cases hrow

/-- Settles O8: every such row is an access of BAR0 to its offset, and a masked access only counts and notes its denial. -/
theorem maskedBlocksIgnoreBar0 : Obligations.MaskedBlocksIgnoreBar0 := by
  intro s i off hrow hfree hmask
  obtain ⟨v, a, hexec⟩ := exec_eq_pathWrite_bar0 hrow hfree
  rw [pathWrite_run_masked hfree hmask] at hexec
  have hok : ∀ f ∈ [F.SCP_CNT1_HOST_DENY, F.SCP_EVT_HOST_DENY, F.SCP_CNT1_ABANDON, F.SCP_EVT_CRC, F.SCP_EVT_FRAME,
      F.SCP_EVT_ABANDON], f.ok := by simp only [Fld.ok_iff]; decide
  simp only [List.forall_mem_cons] at hok
  obtain ⟨hc, he, habandon, hcrc, hframe, hevt, _⟩ := hok
  obtain ⟨hcount, hevent, hothers, hunch⟩ := noted_countEvent (s.wf_regs hfree.1) hc he rfl rfl (by decide)
  exact ⟨_, hexec, hcount, hevent, hothers _ habandon (by decide) (by decide), hothers _ hcrc (by decide) (by decide),
    hothers _ hframe (by decide) (by decide), hothers _ hevt (by decide) (by decide), hunch⟩

end Sys2Proof.Machine
end

section
/-!
SUPPORT. Two states of the control port and the windows that the statements on CMD_WAIT and WIN_DATA do not foresee.
-/

namespace Sys2Proof.Machine

/-- A BAR0 command is in progress, and a BAR0 read of one byte of CMD_WAIT is held on it. -/
def byteWait : State := { State.reset with
  jobBar := some ⟨0x01, [], 0, mbOK, [], .none, false, false⟩
  bar := { PathPort.init with held := some ⟨some .cmdWait, 0, 0, 0x0E0, 1, false, 1, 15, []⟩ } }

/-- The held read was of one byte, so one byte is what it returns (R92). -/
theorem byteWait_completes_one_byte :
    ((row (waitTimeoutAct .bar0)).run byteWait).bar.cpls.map (fun c => c.data.length) = [1] := by decide

/-- Refutes O17: a held CMD_WAIT read over BAR0 whose byte enables select one byte returns one byte, not the whole word. -/
theorem not_mailboxFinishes : ¬ Obligations.MailboxFinishes := by
  intro h
  obtain ⟨_, _, timesOut⟩ := h byteWait .bar0 (by decide)
  obtain ⟨t, hexec, _, ⟨_, hcpls⟩, _⟩ := timesOut _ rfl rfl rfl rfl rfl
  cases hexec
  have hshort := byteWait_completes_one_byte
  rw [hcpls] at hshort
  exact absurd hshort (by decide)

/-- Engine 0 buffers a byte 5 that it wrote into channel 0's record, and the control port's window is on that record. -/
def bufferedRecord : State := {
  (acts [put F.WIN_CTL_SPACE 1, put F.WIN_ADDR_ADDR 0x80000, modBoot fun b => { b with inited := true }]).run State.reset with
  engines := [(0, { Engine.init with wcb := [⟨1, 0x80000 / 64, 1, [5], 0, 0⟩] })] }

theorem bufferedRecord_reads : bufferedRecord.cohByte 1 0x80000 = 5 := by decide

/-- The access flushes the engine's line, and the record takes nothing of it (R284). -/
theorem bufferedRecord_read_drops :
    ((row (pathRead .scp 0x108)).run bufferedRecord).cohByte 1 0x80000 = 0 := by decide

/-- Refutes O14: a byte that an engine buffers for a channel record is lost when the window's read flushes it. -/
theorem not_windowReadAfterWrite : ¬ Obligations.WindowReadAfterWrite := by
  intro h
  obtain ⟨inStaging, _⟩ := h.1 bufferedRecord .scp 0 (by decide)
  obtain ⟨_, reads⟩ := inStaging (by decide) (by decide) (by decide)
  obtain ⟨t, hexec, _, _, hkept⟩ := reads (by decide) (by decide)
  cases hexec
  have hsame := hkept 1 0x80000 (by decide) (by decide)
  exact absurd ((bufferedRecord_read_drops.symm.trans hsame).trans bufferedRecord_reads) (by decide)

end Sys2Proof.Machine
end

section
/-!
SUPPORT. Control-port frames that fail, and the rise of SCP_CS# (R83 to R85, R107, R108).
-/

namespace Sys2Proof.Machine

section
variable {ps : List Part} {offs : List Nat}

theorem Unchanged.mono {ps' : List Part} {offs' : List Nat} {s t : State} (h : Unchanged ps offs s t) (hp : ps ⊆ ps')
    (ho : offs ⊆ offs') : Unchanged ps' offs' s t := by
  obtain ⟨hpending, hparts, hwords⟩ := h
  exact ⟨hpending, fun p hn => hparts p fun hm => hn (hp hm), fun inst off hoff hn => hwords inst off hoff fun hm => hn (ho hm)⟩

theorem Unchanged.trans {s t u : State} (h : Unchanged ps offs s t) (h' : Unchanged ps offs t u) : Unchanged ps offs s u := by
  obtain ⟨hpending, hparts, hwords⟩ := h
  obtain ⟨hpending', hparts', hwords'⟩ := h'
  exact ⟨hpending'.trans hpending, fun p hn => Part.same_trans p _ _ _ (hparts p hn) (hparts' p hn),
    fun inst off hoff hn => (hwords' inst off hoff hn).trans (hwords inst off hoff hn)⟩

theorem only_zForward (peer typ : Nat) (user : Bool) (what : ZFor) (body : List Byte) (hp : [.zhn, .ports] ⊆ ps) :
    (zForward peer typ user what body).Only ps offs := by
  intro s
  have hz : Part.zhn ∈ ps := hp (by simp)
  simp [hz, only_zSend _ _ _ _ _ hp]

theorem only_chairUnwait (w : Sitter) (hp : [.chairs, .zhn, .ports] ⊆ ps) : (chairUnwait w).Only ps offs := by
  intro s
  have hc : Part.chairs ∈ ps := hp (by simp)
  simp [hc, only_zForward _ _ _ _ _ (List.Subset.trans (List.subset_cons_self _ _) hp)]

end

/-- A change of the control port alone. -/
theorem modScp_unchanged (f : PathPort → PathPort) {s : State} (hw : s.wf = true) :
    Unchanged [.scp] [] s ((modScp f).run s) := Act.Only.unchanged _ s (by simp) (s.wf_regs hw)

/-- The control port with an answer of one byte behind its lead. -/
def PathPort.answered (x : PathPort) (b n : Nat) : PathPort := { x with reply := leBytes 1 b, cpls := [], lead := n, waits := 0 }

theorem run_frameError (s : State) (b n : Nat) (c e : Fld) :
    (acts [scpLead n, acts [scpReply b, count c, event e]]).run s =
      (acts [count c, event e]).run { s with scp := s.scp.answered b n } := rfl

/-- The counters and events of the control port's frames. -/
theorem scp_fields_ok : F.SCP_CNT0_CRC_ERR.ok ∧ F.SCP_CNT0_FRAME_ERR.ok ∧ F.SCP_CNT1_ABANDON.ok ∧ F.SCP_EVT_CRC.ok ∧
    F.SCP_EVT_FRAME.ok ∧ F.SCP_EVT_ABANDON.ok := by
  simp only [Fld.ok_iff]; decide

/-- A frame that fails is answered with one byte, counted and noted. -/
theorem frameError_noted {s : State} (hw : s.wf = true) (b n : Nat) {c e : Fld} (hc : c.ok) (he : e.ok) (hevt : e.off = 0x094)
    (hone : e.width = 1) (hapart : e.apart c = true) {t : State}
    (ht : (acts [scpLead n, acts [scpReply b, count c, event e]]).run s = t) :
    t.scp = s.scp.answered b n ∧ t.fld c = min (s.fld c + 1) (2 ^ c.width - 1) ∧ t.fld e = 1 ∧
      (∀ g : Fld, g.ok → c.apart g = true → e.apart g = true → t.fld g = s.fld g) ∧ Unchanged [.scp] [c.off, e.off] s t := by
  subst ht
  rw [run_frameError]
  have hanswered := (modScp_unchanged (fun x => x.answered b n) hw).mono (List.Subset.refl _) (List.nil_subset [c.off, e.off])
  obtain ⟨hcount, hevent, hothers, hframe⟩ :=
    noted_countEvent (s := { s with scp := s.scp.answered b n }) (s.wf_regs hw) hc he hevt hone hapart
  exact ⟨hframe.2.1 .scp (by simp), hcount, hevent, hothers,
    hanswered.trans (hframe.mono (List.nil_subset _) (List.Subset.refl _))⟩

/-- A whole frame that reaches the device is judged: CRC first, then OP, address and range. -/
theorem scpFrame_run_whole {s : State} {bytes : List Byte} {f : Frame} (hon : s.pwr.off = false) (hheld : s.scp.held = none)
    (hf : frameOf bytes = some f) (hwhole : f.need ≤ f.rest.length) :
    (scpFrame bytes).run s = (acts [scpLead (f.need + 4), if !f.crcOk bytes then scpCrcErr
      else if !f.ok then scpFrameErr
      else if f.isWrite then acts [forEach (List.range f.n) fun i => writeReg .scp (f.off i) (f.word i), scpReply 0x5A]
      else readStart .scp f.addr f.n f.fixed 15 15]).run s := by
  have hlead : 3 + f.need + 1 = f.need + 4 := by omega
  simp [scpFrame, State.pathDead, hon, hheld, hf, forSome, Nat.not_lt.2 hwhole, hlead]

/-- A write frame that ends before its CRC is counted alone (R107). -/
theorem scpFrame_run_cut {s : State} {bytes : List Byte} {f : Frame} (hon : s.pwr.off = false) (hheld : s.scp.held = none)
    (hf : frameOf bytes = some f) (hshort : f.rest.length < f.need) (hwrite : f.isWrite = true) :
    (scpFrame bytes).run s = scpCut.run s := by
  simp [scpFrame, State.pathDead, hon, hheld, hf, forSome, hshort, hwrite]

theorem csRise_run_held {s : State} (hon : s.pwr.off = false) (hheld : s.scp.held.isSome = true) (bytes : List Byte) :
    (csRise bytes).run s = scpWithdraw.run s := by
  simp [csRise, hon, hheld]

/-- SCP_CS# rises before the CRC of a write frame: the cut is counted and the port is as it begins. -/
theorem csRise_run_cut {s : State} {bytes : List Byte} {f : Frame} (hw : s.wf = true) (hon : s.pwr.off = false)
    (hheld : s.scp.held = none) (hf : frameOf bytes = some f) (hshort : f.rest.length < f.need) (hwrite : f.isWrite = true) :
    (csRise bytes).run s = (modScp fun x => { PathPort.init with behind := x.behind }).run (scpCut.run s) := by
  have hkept : (scpCut.run s).scp.held = none := by
    obtain ⟨hcrc, hframe, _, _, hevt, _⟩ := scp_fields_ok
    have h := noted_countEvent (s.wf_regs hw) hframe hevt rfl rfl (by decide)
    have hscp : (scpCut.run s).scp = s.scp := h.frame.2.1 .scp (by simp)
    rw [hscp, hheld]
  simp [csRise, hon, hheld, hf, scpFrame_run_cut hon hheld hf hshort hwrite, hkept]

theorem scpWithdraw_run (s : State) : scpWithdraw.run s =
    (acts [count F.SCP_CNT1_ABANDON, event F.SCP_EVT_ABANDON]).run
      ((modScp fun x => { x with held := none }).run ((chairUnwait (.path .scp)).run s)) := rfl

/-- Settles O11: a failing frame is counted and noted, and its answer is one byte of the control port. -/
theorem scpErrorsTouchNothing : Obligations.ScpErrorsTouchNothing := by
  intro s bytes hrun
  have ⟨hw, hon, _⟩ := hrun
  obtain ⟨hcrc, hframe, habandon, hevtCrc, hevtFrame, hevtAbandon⟩ := scp_fields_ok
  refine ⟨fun hheld f hf => ⟨fun hwhole hbad => ?_, fun hwhole hgood hillegal => ?_, fun hshort hwrite => ?_⟩, fun hheld => ?_⟩
  · have hact := scpFrame_run_whole hon hheld hf hwhole
    rw [hbad] at hact
    obtain ⟨hscp, hcount, hevent, hothers, hunch⟩ :=
      frameError_noted hw 0x3C (f.need + 4) hcrc hevtCrc rfl rfl (by decide) hact.symm
    exact ⟨_, row_next hrun rfl, row_next hrun rfl, row_next hrun rfl, row_next hrun rfl, hscp, hcount,
      hothers _ hframe (by decide) (by decide), hevent, hothers _ hevtFrame (by decide) (by decide), hunch⟩
  · have hact := scpFrame_run_whole hon hheld hf hwhole
    rw [hgood, hillegal] at hact
    obtain ⟨hscp, hcount, hevent, hothers, hunch⟩ :=
      frameError_noted hw 0xC3 (f.need + 4) hframe hevtFrame rfl rfl (by decide) hact.symm
    exact ⟨_, row_next hrun rfl, row_next hrun rfl, row_next hrun rfl, row_next hrun rfl, hscp, hcount,
      hothers _ hcrc (by decide) (by decide), hevent, hothers _ hevtCrc (by decide) (by decide), hunch⟩
  · obtain ⟨hcount, hevent, hothers, hunch⟩ := noted_countEvent (s.wf_regs hw) hframe hevtFrame rfl rfl (by decide)
    have hport := modScp_unchanged (fun x => { PathPort.init with behind := x.behind }) (Act.run_wf scpCut s hw)
    exact ⟨_, row_next hrun (csRise_run_cut hw hon hheld hf hshort hwrite), rfl, rfl, hcount,
      hothers _ hcrc (by decide) (by decide), hevent,
      (hunch.mono (List.nil_subset _) (List.Subset.refl _)).trans (hport.mono (List.Subset.refl _) (List.nil_subset _))⟩
  · have hunwait : (chairUnwait (.path .scp)).Only [.scp, .chairs, .zhn, .ports] [] := only_chairUnwait _ (List.subset_cons_self _ _)
    have hfirst := Act.Only.unchanged _ s hunwait (s.wf_regs hw)
    have hw' := Act.run_wf (chairUnwait (.path .scp)) s hw
    have hsecond := modScp_unchanged (fun x => { x with held := none }) hw'
    obtain ⟨hcount, hevent, _, hunch⟩ := noted_countEvent (State.wf_regs _ (Act.run_wf (modScp fun x => { x with held := none }) _ hw'))
      habandon hevtAbandon rfl rfl (by decide)
    have hfld : ((chairUnwait (.path .scp)).run s).fld F.SCP_CNT1_ABANDON = s.fld F.SCP_CNT1_ABANDON :=
      hunwait.fld (s.wf_regs hw) _ habandon.1 (by simp)
    refine ⟨_, row_next hrun (by rw [csRise_run_held hon hheld, scpWithdraw_run]), ?_, ?_, hevent, ?_⟩
    · rw [show _ = _ from hunch.2.1 .scp (by simp)]
      rfl
    · rw [hcount, ← hfld]
      rfl
    · exact ((hfirst.mono (List.Subset.refl _) (List.nil_subset _)).trans (hsecond.mono (by simp) (List.nil_subset _))).trans
        (hunch.mono (List.nil_subset _) (List.Subset.refl _))

end Sys2Proof.Machine
end

section
/-!
SUPPORT. Reads of registers whose read has no effect: one snapshot of their words (R86, R92), and reads of a doorbell page (R152).
-/

namespace Sys2Proof.Machine

/-! ### Changes of a path's port -/

theorem modPort_run_congr {p : Path} {f g : PathPort → PathPort} {s : State} (h : f (s.port p) = g (s.port p)) :
    (modPort p f).run s = (modPort p g).run s := by
  cases p
  · exact congrArg (fun x => { s with scp := x }) h
  · exact congrArg (fun x => { s with bar := x }) h

theorem modPort_run_modPort (p : Path) (f g : PathPort → PathPort) (s : State) :
    (modPort p f).run ((modPort p g).run s) = (modPort p fun x => f (g x)).run s := by cases p <;> rfl

/-- What registers read does not depend on the paths' ports. -/
@[simp] theorem readWord_modPort (s : State) (p q : Path) (f : PathPort → PathPort) (off : Nat) :
    ((modPort p f).run s).readWord q off = s.readWord q off := by cases p <;> rfl

theorem modPort_unchanged (p : Path) (f : PathPort → PathPort) {s : State} (hw : s.wf = true) :
    Unchanged [portPart p] [] s ((modPort p f).run s) := Act.Only.unchanged _ s (by simp) (s.wf_regs hw)

/-! ### The words of a read -/

/-- The offset of a read's word. -/
def HeldRead.offAt (h : HeldRead) (i : Nat) : Nat := if h.fixed then h.off else h.off + 4 * i

/-- The port when a read has ended with its words: the control port replies them, BAR0 completes. -/
def PathPort.ended (x : PathPort) (p : Path) (h : HeldRead) : PathPort := match p with
  | .scp => { x with held := none, reply := [0x5A] ++ h.got.flatMap wireWord ++ leBytes 1 (crc8 (h.got.flatMap wireWord)) }
  | .bar0 => { x with held := none, cpls := [⟨0, h.bytes⟩] }

theorem readDone_run {p : Path} {s : State} {h : HeldRead} (hheld : (s.port p).held = some h) :
    (readDone p).run s = (modPort p fun x => x.ended p h).run s := by
  refine modPort_run_congr ?_
  rw [hheld]
  cases p <;> rfl

/-- A register whose read has no effect is read by taking its word. -/
theorem readOne_run_plain {off : Nat} (hplain : readActs off = false) (hoff : off < 0xC00) (p : Path) (s : State) :
    (readOne p off).run s = (gotWord p (s.readWord p off)).run s := by
  simp only [readActs, Bool.or_eq_false_iff, List.contains_cons, List.contains_nil, Bool.or_false, beq_eq_false_iff_ne,
    Bool.and_eq_false_iff, decide_eq_false_iff_not] at hplain
  obtain ⟨⟨htime, hfence, hwin, hshades, hwait⟩, hchairs⟩ := hplain
  have hbelow : ¬ (0xC00 ≤ off) := by omega
  have hchairs : ¬ (0x600 ≤ off ∧ off < 0x800) := by omega
  simp [readOne, htime, hfence, hwin, hshades, hwait, hchairs, hbelow]

/-- A read that is not held takes its remaining words as they stand, one after another, and ends. -/
theorem readGo_run_plain {p : Path} {n fuel : Nat} {s : State} {h : HeldRead} (hfuel : n < fuel) (htotal : h.total = h.got.length + n)
    (hheld : (s.port p).held = some h) (hreg : h.reg = none)
    (hplain : ∀ i, i < h.total → readActs (h.offAt i) = false ∧ h.offAt i < 0xC00) :
    (readGo p fuel).run s = (modPort p fun x => x.ended p
      { h with got := h.got ++ (List.range' h.got.length n).map fun i => s.readWord p (h.offAt i) }).run s := by
  induction n generalizing fuel s h with
  | zero =>
    obtain ⟨fuel, rfl⟩ : ∃ k, fuel = k + 1 := ⟨fuel - 1, by omega⟩
    rw [readGo_run_full fuel hheld hreg htotal.le, readDone_run hheld]
    simp
  | succ n ih =>
    obtain ⟨fuel, rfl⟩ : ∃ k, fuel = k + 1 := ⟨fuel - 1, by omega⟩
    have hmore : ¬ h.total ≤ h.got.length := by omega
    have hfirst := hplain h.got.length (by omega)
    have hstep : (readGo p (fuel + 1)).run s =
        (readGo p fuel).run ((gotWord p (s.readWord p (h.offAt h.got.length))).run s) := by
      rw [← readOne_run_plain hfirst.1 hfirst.2]
      simp [readGo, hheld, hreg, hmore, HeldRead.offAt]
    rw [hstep, ih (h := { h with reg := none, got := h.got ++ [s.readWord p (h.offAt h.got.length)] }) (by omega)
      (by simp; omega) (by simp [hheld]) rfl hplain, gotWord, modPort_run_modPort]
    refine modPort_run_congr ?_
    simp only [readWord_modPort, List.length_append, List.length_cons, List.length_nil, List.append_assoc, List.range'_succ,
      List.map_cons, List.cons_append, List.nil_append]
    cases p <;> simp [PathPort.ended, HeldRead.offAt, HeldRead.bytes]

/-- A read begun in a state that has taken some words. -/
def State.readOf (s : State) (off total : Nat) (fixed : Bool) (fbe lbe : Nat) (got : List Word) : HeldRead :=
  ⟨none, s.clk, s.now, off, total, fixed, fbe, lbe, got⟩

/-- The words that the registers of a read hold, in read order. -/
def State.snapshot (s : State) (p : Path) (off total : Nat) (fixed : Bool) : List Word :=
  (List.range total).map fun i => s.readWord p (if fixed then off else off + 4 * i)

/-- A whole read of plain registers, from its beginning. -/
theorem readStart_run_plain {p : Path} {off total : Nat} {fixed : Bool} {fbe lbe : Nat} {s : State} (hfuel : total < 18)
    (hplain : ∀ i, i < total → readActs (if fixed then off else off + 4 * i) = false ∧ (if fixed then off else off + 4 * i) < 0xC00) :
    (readStart p off total fixed fbe lbe).run s = (modPort p fun x => PathPort.ended { x with reply := [], cpls := [] } p
      (s.readOf off total fixed fbe lbe (s.snapshot p off total fixed))).run s := by
  show (readGo p 18).run ((modPort p _).run s) = _
  rw [readGo_run_plain (n := total) (h := s.readOf off total fixed fbe lbe []) hfuel (by simp [State.readOf])
    (by simp [State.readOf]) rfl hplain, modPort_run_modPort]
  refine modPort_run_congr ?_
  simp only [readWord_modPort, State.readOf, List.nil_append, List.length_nil, ← List.range_eq_range']
  cases p <;> rfl

/-- The whole dwords of a BAR read (R92). -/
theorem HeldRead.bytes_whole {h : HeldRead} (hfirst : h.fbe = 15) (hlast : h.lbe = 15) :
    h.bytes = h.got.flatMap fun w => leBytes 4 w.toNat := by
  have hword : ∀ e : Word × Nat, ((leBytes 4 e.1.toNat).zipIdx.filter (fun b => bitAt 15 b.2)).map Prod.fst =
      leBytes 4 e.1.toNat := fun e => by simp [leBytes, bitAt]
  simp only [HeldRead.bytes, hfirst, hlast, ite_self, hword]
  have hmap : h.got = h.got.zipIdx.map Prod.fst := (List.zipIdx_map_fst 0 h.got).symm
  conv_rhs => rw [hmap, List.flatMap_map]

/-- The port that a finished read leaves shows its words. -/
theorem ended_portShows {p : Path} {s : State} (f : PathPort → PathPort) {h : HeldRead} (hfirst : h.fbe = 15) (hlast : h.lbe = 15) :
    PortShows ((modPort p fun x => (f x).ended p h).run s) p h.got := by
  cases p with
  | scp => exact ⟨rfl, rfl⟩
  | bar0 => exact ⟨rfl, congrArg (fun data => [Cpl.mk 0 data]) (HeldRead.bytes_whole hfirst hlast)⟩

/-! ### Read requests of BAR0 and BAR2 -/

section
variable {s : State} {r : ReadReq}

theorem barRead_run_bar0 (h : PathFree s .bar0) (hal : r.off % 4 = 0) (hn : 1 ≤ r.n) (hn16 : r.n ≤ 16) (hbar : r.bar2 = false)
    (hend : r.off + 4 * r.n ≤ 0xC00) : (barRead r).run s = (readStart .bar0 r.off r.n false r.fbe r.lbe).run s := by
  obtain ⟨_, halive, hheld, _⟩ := h
  have hheld : s.bar.held = none := hheld
  have hsome : r.n ≠ 0 := by omega
  have hshape : barShapeOk r.off r.n = true := by
    simp only [barShapeOk, Bool.and_eq_true, decide_eq_true_eq, Bool.or_eq_true, Bool.not_eq_true', Bool.or_eq_false_iff,
      Bool.and_eq_false_iff, decide_eq_false_iff_not]
    omega
  simp [barRead, halive, hal, hsome, hbar, hshape, hheld]

/-- The read of a doorbell page as it completes. -/
def State.pageRead (s : State) (r : ReadReq) : HeldRead := ⟨none, s.clk, s.now, r.off, r.n, false, r.fbe, r.lbe,
  (List.range r.n).map fun i => BitVec.ofNat 32 (s.pageWord ((r.off + 4 * i) / 4096 % 64) ((r.off + 4 * i) % 4096))⟩

theorem barRead_run_bar2 (h : PathFree s .bar0) (hal : r.off % 4 = 0) (hn : 1 ≤ r.n) (hn16 : r.n ≤ 16) (hbar : r.bar2 = true) :
    (barRead r).run s = (modPort .bar0 fun x => x.ended .bar0 (s.pageRead r)).run s := by
  obtain ⟨_, halive, hheld, hbehind⟩ := h
  have hheld : s.bar.held = none := hheld
  have hsome : r.n ≠ 0 := by omega
  have hwaits : s.writeWaits = false := by simp [State.writeWaits, hbehind]
  have hrun : (barRead r).run s = (modBar fun x => { x with cpls := [⟨0, (s.pageRead r).bytes⟩] }).run s := by
    simp [barRead, halive, hal, hsome, hbar, hn16, hwaits, State.pageRead]
  rw [hrun]
  refine modPort_run_congr (p := .bar0) (f := fun x => { x with cpls := [⟨0, (s.pageRead r).bytes⟩] }) (g := fun x => x.ended .bar0 (s.pageRead r)) ?_
  show _ = { s.bar with held := none, cpls := [⟨0, (s.pageRead r).bytes⟩] }
  rw [← hheld]
  rfl

/-- Every word of a read inside one doorbell page is of that page. -/
theorem pageRead_got {n : Nat} (hn : n < 64) (hlo : 0x1000 * n ≤ r.off) (hhi : r.off + 4 * r.n ≤ 0x1000 * (n + 1)) :
    (s.pageRead r).got = (List.range r.n).map fun i => BitVec.ofNat 32 (s.pageWord n (r.off + 4 * i - 0x1000 * n)) := by
  refine List.map_congr_left fun i hi => ?_
  have hi := List.mem_range.1 hi
  have hpage : (r.off + 4 * i) / 4096 % 64 = n := by omega
  have hword : (r.off + 4 * i) % 4096 = r.off + 4 * i - 0x1000 * n := by omega
  rw [hpage, hword]

end

/-! ### Read frames -/

theorem scpFrame_run_read {s : State} {bytes : List Byte} {f : Frame} (hrun : Running s) (hheld : s.scp.held = none)
    (hf : frameOf bytes = some f) (hread : f.isWrite = false) (hwhole : f.need ≤ f.rest.length) (hcrc : f.crcOk bytes = true)
    (hok : f.ok = true) :
    (scpFrame bytes).run s = (readStart .scp f.addr f.n f.fixed 15 15).run ((scpLead (f.need + 4)).run s) := by
  obtain ⟨_, hon, _⟩ := hrun
  rw [scpFrame_run_whole hon hheld hf hwhole]
  simp [hcrc, hok, hread]

/-- A frame has at most 16 words. -/
theorem frameOf_n_le {bytes : List Byte} {f : Frame} (hf : frameOf bytes = some f) : f.n ≤ 16 := by
  match bytes, hf with
  | c :: hi :: lo :: rest, hf =>
    cases hf
    show c.toNat % 16 + 1 ≤ 16
    omega

/-- The words of a legal frame are words of registers. -/
theorem Frame.off_lt {f : Frame} (hok : f.ok = true) {i : Nat} (hi : i < f.n) : f.off i < 0xC00 := by
  simp only [Frame.ok, Bool.and_eq_true, decide_eq_true_eq, beq_iff_eq] at hok
  obtain ⟨⟨_, hal⟩, hend⟩ := hok
  simp only [Frame.off]
  split <;> simp_all <;> omega

/-- Settles O10: the words are taken one after another from registers that taking a word does not change. -/
theorem scpReadIsOneSnapshot : Obligations.ScpReadIsOneSnapshot := by
  refine ⟨fun s r hfree hal hn hn16 hfbe hlbe => ⟨fun hbar hend hplain => ?_, fun hbar n hn64 hlo hhi => ?_⟩,
    fun s bytes hrun hheld f hf hread hwhole hcrc hok hplain => ?_⟩
  · have hall : ∀ i, i < r.n → readActs (r.off + 4 * i) = false ∧ r.off + 4 * i < 0xC00 :=
      fun i hi => ⟨hplain i hi, by omega⟩
    refine ⟨_, row_next (running_of_pathFree hfree) ((barRead_run_bar0 hfree hal hn hn16 hbar hend).trans
      (readStart_run_plain (by omega) hall)), ?_, modPort_unchanged _ _ hfree.1⟩
    exact ended_portShows (p := .bar0) _ hfbe hlbe
  · refine ⟨_, row_next (running_of_pathFree hfree) (barRead_run_bar2 hfree hal hn hn16 hbar), ?_, modPort_unchanged _ _ hfree.1⟩
    rw [← pageRead_got hn64 hlo hhi]
    exact ended_portShows (p := .bar0) id hfbe hlbe
  · have hle := frameOf_n_le hf
    have hall : ∀ i, i < f.n → readActs (f.off i) = false ∧ f.off i < 0xC00 := fun i hi => ⟨hplain i hi, Frame.off_lt hok hi⟩
    have hact := (scpFrame_run_read hrun hheld hf hread hwhole hcrc hok).trans
      (readStart_run_plain (s := (scpLead (f.need + 4)).run s) (by omega) hall)
    refine ⟨_, row_next hrun hact, row_next hrun hact, ended_portShows (p := .scp) _ rfl rfl, ?_⟩
    exact (modScp_unchanged _ hrun.1).trans (modPort_unchanged .scp _ (Act.run_wf (scpLead (f.need + 4)) s hrun.1))

end Sys2Proof.Machine
end

section
/-!
SUPPORT. Faulting window accesses (R95 to R98): what a fault captures, WIN_ADDR's advance, and the reads and writes that fault.
-/

namespace Sys2Proof.Machine

/-! ### WIN_ADDR, a multiple of 4 -/

/-- A register word holds implemented bits alone, and the hard-wired registers are not listed. -/
theorem word_and_regMask {s : State} (hw : Regs.wf s.regs = true) (inst off : Nat) (hoff : off < 0x1000)
    (hreset : regReset off &&& BitVec.ofNat 32 (regMask off) = regReset off) :
    s.word inst off &&& BitVec.ofNat 32 (regMask off) = s.word inst off := by
  have hkey := keyOff_inst off inst hoff
  obtain hget | hmem := regs_get_mem s.regs (off + 0x1000 * inst) (keyReset (off + 0x1000 * inst))
  · rw [State.word, hget, keyReset, hkey, hreset]
  · simp only [Regs.wf, Bool.and_eq_true, List.all_eq_true] at hw
    have hregWf := hw.2 _ hmem
    simp only [regWf, hkey, Bool.and_eq_true, beq_iff_eq] at hregWf
    exact hregWf.2

theorem testBit_winAddrMask (i : Nat) : (regMask 0x104).testBit i = (decide (2 ≤ i) && decide (i < 24)) := by
  have hmask : regMask 0x104 = 2 ^ 2 * (2 ^ 22 - 1) := by decide
  rw [hmask, Nat.testBit_two_pow_mul, Nat.testBit_two_pow_sub_one]
  by_cases h : 2 ≤ i
  · simp only [ge_iff_le, h, decide_true, Bool.true_and, decide_eq_decide]; omega
  · simp [h]

theorem winAddr_mod_four {s : State} (hw : Regs.wf s.regs = true) (inst : Nat) : s.fldI inst F.WIN_ADDR_ADDR % 4 = 0 := by
  have hword := word_and_regMask hw inst 0x104 (by decide) (by decide)
  apply Nat.eq_of_testBit_eq
  intro i
  rw [show (4 : Nat) = 2 ^ 2 from rfl, Nat.testBit_mod_two_pow, Nat.zero_testBit]
  by_cases hi : i < 2
  · have hbit : (s.word inst 0x104).toNat.testBit i = false := by
      rw [← hword, BitVec.toNat_and, Nat.testBit_and, BitVec.toNat_ofNat, Nat.testBit_mod_two_pow, testBit_winAddrMask]
      simp [Nat.not_le.2 hi]
    simp [State.fldI, F.WIN_ADDR_ADDR, testBit_bits, hbit]
  · simp [hi]

theorem winAddr_putI {s : State} (hw : Regs.wf s.regs = true) (inst : Nat) {v : Nat} (hv : v % 4 = 0) :
    ((putI inst F.WIN_ADDR_ADDR v).run s).fldI inst F.WIN_ADDR_ADDR = v % 2 ^ 24 := by
  simp only [putI, putWord, run_ask, run_upd, State.fldI, word_setReg_same s inst F.WIN_ADDR_ADDR.off _ hw (by decide) (by decide)]
  apply Nat.eq_of_testBit_eq
  intro i
  simp only [testBit_bits, BitVec.toNat_and, BitVec.toNat_ofNat, Nat.testBit_and, putField_testBit _ F.WIN_ADDR_ADDR _ _ (by decide),
    Nat.testBit_mod_two_pow]
  simp only [F.WIN_ADDR_ADDR, testBit_winAddrMask, Nat.zero_add, Nat.sub_zero, Nat.zero_le, true_and]
  by_cases hlow : i < 2
  · have hbit : v.testBit i = false := by
      have h := congrArg (fun n => n.testBit i) hv
      rw [show (4 : Nat) = 2 ^ 2 from rfl, Nat.testBit_mod_two_pow] at h
      simpa [hlow] using h
    simp [hbit, show i < 24 by omega]
  · by_cases hi : i < 24
    · simp [hi, show 2 ≤ i by omega, show i < 32 by omega]
    · simp [hi]

/-! ### A fault -/

/-- The registers of the windows that a faulting access changes. -/
def winOffs : List Nat := [0x100, 0x104, 0x10C]

/-- A window access faults: the fault, and WIN_ADDR's advance. -/
def winFaulted (p : Path) (cause : Nat) : Act := acts [winFault p cause, winAdvance p]

theorem winFaulted_only (p : Path) (cause : Nat) : (winFaulted p cause).Only [.host] winOffs := by
  refine ⟨fun s => ?_, fun s => ?_⟩
  · simp only [only_when, only_acts_cons, only_acts_nil, and_true]
    exact fun _ => ⟨(only_putI _ _ _ (by decide)).2 (by decide), (only_putI _ _ _ (by decide)).2 (by decide),
      only_eventI _ _ (by decide) (by decide) (by decide)⟩
  · simp only [only_when]
    exact fun _ => (only_putI _ _ _ (by decide)).2 (by decide)

theorem win_fields_ok : F.WIN_CTL_FAULT.ok ∧ F.WIN_CTL_INC.ok ∧ F.WIN_FAULT_ADDR.ok ∧ F.WIN_FAULT_CAUSE.ok := by
  simp only [Fld.ok_iff]; decide

/-- The first fault's address and cause are captured. -/
def winCapture (inst addr cause : Nat) : Act := acts [putI inst F.WIN_FAULT_ADDR addr, putI inst F.WIN_FAULT_CAUSE cause]

theorem winCapture_only (inst addr cause : Nat) : (winCapture inst addr cause).Only [] [0x10C] :=
  ⟨(only_putI _ _ _ (by decide)).2 (by decide), (only_putI _ _ _ (by decide)).2 (by decide)⟩

section
variable {s : State} {inst addr cause : Nat} (hw : Regs.wf s.regs = true)
include hw

theorem winCapture_cause (hcause : cause < 16) : ((winCapture inst addr cause).run s).fldI inst F.WIN_FAULT_CAUSE = cause :=
  (fldI_putI_same _ _ _ _ (Act.run_regs_wf (putI inst F.WIN_FAULT_ADDR addr) s hw) win_fields_ok.2.2.2).trans
    (Nat.mod_eq_of_lt hcause)

theorem winCapture_addr (haddr : addr < 2 ^ F.WIN_FAULT_ADDR.width) : ((winCapture inst addr cause).run s).fldI inst F.WIN_FAULT_ADDR = addr := by
  obtain ⟨_, _, haddrOk, hcauseOk⟩ := win_fields_ok
  have hw' := Act.run_regs_wf (putI inst F.WIN_FAULT_ADDR addr) s hw
  exact (fldI_putI_disjoint _ _ _ _ _ hw' hcauseOk haddrOk rfl (.inl le_rfl)).trans
    ((fldI_putI_same _ _ _ _ hw haddrOk).trans (Nat.mod_eq_of_lt haddr))

/-- FAULT becomes 1, and the fields of other registers and WIN_CTL.INC stay. -/
theorem winFaultBit (g : Fld) (hg : g.off ≠ 0x100 ∨ g = F.WIN_CTL_INC) :
    ((eventI inst F.WIN_CTL_FAULT).run s).fldI inst g = s.fldI inst g := by
  obtain ⟨hfault, hinc, _⟩ := win_fields_ok
  rw [fldI_eventI]
  obtain hoff | rfl := hg
  · have hne : g.off ≠ F.WIN_CTL_FAULT.off := hoff
    exact fldI_putI_off _ _ _ _ _ _ hw (by omega)
  · exact fldI_putI_disjoint _ _ _ _ _ hw hfault hinc rfl (by decide)

end

theorem winFault_run (s : State) (p : Path) (cause : Nat) : (winFault p cause).run s =
    if s.fldI (pathInst p) F.WIN_CTL_FAULT = 0 then (eventI (pathInst p) F.WIN_CTL_FAULT).run
      ((winCapture (pathInst p) (s.fldI (pathInst p) F.WIN_ADDR_ADDR) cause).run s) else s := by
  have hthree : ∀ a b c : Act, (acts [a, b, c]).run s = c.run ((acts [a, b]).run s) := fun _ _ _ => rfl
  rw [winFault, run_ask, run_when, hthree]
  simp only [beq_iff_eq]
  rfl

/-- What a fault does to the fault register: the first is captured alone (R98). -/
theorem winFault_captures {s : State} (hw : Regs.wf s.regs = true) (p : Path) {cause : Nat} (hcause : cause < 16) :
    ∀ t, (winFault p cause).run s = t →
    t.fldI (pathInst p) F.WIN_CTL_FAULT = 1 ∧
    t.fldI (pathInst p) F.WIN_FAULT_CAUSE =
      (if s.fldI (pathInst p) F.WIN_CTL_FAULT = 0 then cause else s.fldI (pathInst p) F.WIN_FAULT_CAUSE) ∧
    t.fldI (pathInst p) F.WIN_FAULT_ADDR =
      (if s.fldI (pathInst p) F.WIN_CTL_FAULT = 0 then s.fldI (pathInst p) F.WIN_ADDR_ADDR
        else s.fldI (pathInst p) F.WIN_FAULT_ADDR) ∧
    t.fldI (pathInst p) F.WIN_CTL_INC = s.fldI (pathInst p) F.WIN_CTL_INC ∧
    t.fldI (pathInst p) F.WIN_ADDR_ADDR = s.fldI (pathInst p) F.WIN_ADDR_ADDR := by
  rintro t rfl
  have hlt := fldI_lt s (pathInst p) F.WIN_CTL_FAULT
  have haddr : s.fldI (pathInst p) F.WIN_ADDR_ADDR < 2 ^ F.WIN_FAULT_ADDR.width := by
    rw [show F.WIN_FAULT_ADDR.width = F.WIN_ADDR_ADDR.width from rfl]
    exact fldI_lt s (pathInst p) F.WIN_ADDR_ADDR
  by_cases hfirst : s.fldI (pathInst p) F.WIN_CTL_FAULT = 0
  · have hrun : (winFault p cause).run s = (eventI (pathInst p) F.WIN_CTL_FAULT).run
        ((winCapture (pathInst p) (s.fldI (pathInst p) F.WIN_ADDR_ADDR) cause).run s) := by
      rw [winFault_run, if_pos hfirst]
    have honly := winCapture_only (pathInst p) (s.fldI (pathInst p) F.WIN_ADDR_ADDR) cause
    have hw' := Act.run_regs_wf (winCapture (pathInst p) (s.fldI (pathInst p) F.WIN_ADDR_ADDR) cause) s hw
    rw [hrun, if_pos hfirst, if_pos hfirst]
    exact ⟨fldI_eventI_same _ _ _ hw' win_fields_ok.1 rfl,
      (winFaultBit hw' _ (.inl (by decide))).trans (winCapture_cause hw hcause),
      (winFaultBit hw' _ (.inl (by decide))).trans (winCapture_addr hw haddr),
      (winFaultBit hw' _ (.inr rfl)).trans (honly.fldI hw _ _ (by decide) (by decide)),
      (winFaultBit hw' _ (.inl (by decide))).trans (honly.fldI hw _ _ (by decide) (by decide))⟩
  · have hrun : (winFault p cause).run s = s := by rw [winFault_run, if_neg hfirst]
    have hwidth : F.WIN_CTL_FAULT.width = 1 := rfl
    rw [hwidth] at hlt
    rw [hrun, if_neg hfirst, if_neg hfirst]
    exact ⟨by omega, rfl, rfl, rfl, rfl⟩

theorem winFaulted_windowFault {s : State} (hw : Regs.wf s.regs = true) (p : Path) {cause : Nat} (hcause : cause < 16) :
    WindowFault p cause s ((winFaulted p cause).run s) := by
  obtain ⟨hfault, hcauseIs, hfaultAddr, hinc, haddr⟩ := winFault_captures hw p hcause _ rfl
  have hw' := Act.run_regs_wf (winFault p cause) s hw
  have hal : (s.fldI (pathInst p) F.WIN_ADDR_ADDR + 4) % 4 = 0 := by
    have := winAddr_mod_four hw (pathInst p)
    omega
  have hrun : (winFaulted p cause).run s = (winAdvance p).run ((winFault p cause).run s) := rfl
  rw [hrun]
  by_cases hone : s.fldI (pathInst p) F.WIN_CTL_INC = 1
  · have hadv : (winAdvance p).run ((winFault p cause).run s) =
        (putI (pathInst p) F.WIN_ADDR_ADDR (s.fldI (pathInst p) F.WIN_ADDR_ADDR + 4)).run ((winFault p cause).run s) := by
      simp [winAdvance, hinc, haddr, hone]
    have hoff : ∀ g : Fld, g.off ≠ F.WIN_ADDR_ADDR.off → ((winAdvance p).run ((winFault p cause).run s)).fldI (pathInst p) g =
        ((winFault p cause).run s).fldI (pathInst p) g := fun g hne => by
      rw [hadv, fldI_putI_off _ _ _ _ _ _ hw' (by omega)]
    refine ⟨(hoff _ (by decide)).trans hfault, (hoff _ (by decide)).trans hcauseIs, (hoff _ (by decide)).trans hfaultAddr, ?_⟩
    rw [hadv, winAddr_putI hw' _ hal, winNext, if_pos hone]
  · have hadv : (winAdvance p).run ((winFault p cause).run s) = (winFault p cause).run s := by
      simp [winAdvance, hinc, hone]
    rw [hadv]
    exact ⟨hfault, hcauseIs, hfaultAddr, by rw [haddr, winNext, if_neg hone]⟩

/-! ### An access that faults, and what stands before and after its fault -/

/-- What a window access does before its fault, the fault, and what it does after it. -/
def faultedAccess (p : Path) (cause : Nat) (before after : Act) : Act := acts [before, winFaulted p cause, after]

section
variable {p : Path} {cause : Nat} {before after : Act} {ps : List Part} {offs : List Nat} {s : State}

theorem faultedAccess_run (s : State) : (faultedAccess p cause before after).run s =
    after.run ((winFaulted p cause).run (before.run s)) := rfl

theorem faultedAccess_unchanged (hw : s.wf = true) (hbefore : before.Only ps offs) (hafter : after.Only ps []) :
    Unchanged (ps ++ [.host]) (winOffs ++ offs) s ((faultedAccess p cause before after).run s) := by
  refine Act.Only.unchanged _ s ⟨hbefore.mono ?_ ?_, (winFaulted_only p cause).mono ?_ ?_, hafter.mono ?_ ?_⟩ (s.wf_regs hw) <;> simp

/-- The fault is judged and captured on the window's registers as the access found them. -/
theorem faultedAccess_windowFault (hw : s.wf = true) (hcause : cause < 16) (hbefore : before.Only ps offs)
    (hoffs : ∀ off ∈ winOffs, off ∉ offs) (hafter : after.Only ps []) :
    WindowFault p cause s ((faultedAccess p cause before after).run s) := by
  have hwr := s.wf_regs hw
  have hw1 := Act.run_regs_wf before s hwr
  have hw2 := Act.run_regs_wf (winFaulted p cause) _ hw1
  have hpre : ∀ f : Fld, f.off ∈ winOffs → f.off < 0x1000 → (before.run s).fldI (pathInst p) f = s.fldI (pathInst p) f :=
    fun f hf hlt => hbefore.fldI hwr _ f hlt (hoffs _ hf)
  have hpost : ∀ f : Fld, f.off < 0x1000 → ((faultedAccess p cause before after).run s).fldI (pathInst p) f =
      ((winFaulted p cause).run (before.run s)).fldI (pathInst p) f :=
    fun f hlt => hafter.fldI hw2 _ f hlt (by simp)
  have hfault := winFaulted_windowFault hw1 p hcause
  simp only [WindowFault, winNext] at hfault ⊢
  rw [hpre _ (by decide) (by decide), hpre _ (by decide) (by decide), hpre _ (by decide) (by decide),
    hpre _ (by decide) (by decide), hpre _ (by decide) (by decide)] at hfault
  rwa [hpost _ (by decide), hpost _ (by decide), hpost _ (by decide), hpost _ (by decide)]

end

/-- A read of one word ends with a word. -/
def finishRead (p : Path) (w : Word) : Act := acts [gotWord p w, readDone p]

theorem finishRead_only (p : Path) (w : Word) : (finishRead p w).Only [portPart p] [] := by
  simp [finishRead, gotWord, readDone]

theorem finishRead_portShows {p : Path} {s : State} {h : HeldRead} (hheld : (s.port p).held = some h) (hgot : h.got = [])
    (hbe : h.fbe = 15) (w : Word) : PortShows ((finishRead p w).run s) p [w] := by
  have hrun : (finishRead p w).run s = (modPort p fun x => x.ended p { h with reg := none, got := [w] }).run s := by
    rw [finishRead, run_acts_cons, run_acts_cons, run_acts_nil,
      readDone_run (h := { h with reg := none, got := [w] }) (by simp [hheld, hgot]), gotWord, modPort_run_modPort]
    exact modPort_run_congr (by cases p <;> rfl)
  rw [hrun]
  cases p with
  | scp => exact ⟨rfl, rfl⟩
  | bar0 =>
    have hbytes := HeldRead.bytes_one (h := { h with reg := none, got := [w] }) rfl hbe
    exact ⟨rfl, congrArg (fun data => [Cpl.mk 0 data]) (hbytes.trans (by simp))⟩

/-! ### Accesses that fault at once -/

section
variable {s : State} {p : Path}

theorem winRead_run_noSpace (h : winSize (s.fldI (pathInst p) F.WIN_CTL_SPACE) = 0) (k : Word → Act) :
    (winRead p k).run s = (faultedAccess p 1 .skip (k 0)).run s := by
  simp only [winRead, run_ask, h, beq_self_eq_true, if_true]
  rfl

theorem winRead_run_beyond (hw : s.wf = true) (hspace : winSize (s.fldI (pathInst p) F.WIN_CTL_SPACE) ≠ 0)
    (h : winSize (s.fldI (pathInst p) F.WIN_CTL_SPACE) ≤ s.fldI (pathInst p) F.WIN_ADDR_ADDR) (k : Word → Act) :
    (winRead p k).run s = (faultedAccess p 2 .skip (k 0)).run s := by
  have hal := winAddr_mod_four (s.wf_regs hw) (pathInst p)
  have hbeyond : s.fldI (pathInst p) F.WIN_ADDR_ADDR / 4 * 4 ≥ winSize (s.fldI (pathInst p) F.WIN_CTL_SPACE) := by omega
  simp only [winRead, run_ask, beq_iff_eq, hspace, if_false, hbeyond, if_true]
  rfl

/-- The refusal of a window access is captured by the protection unit before it faults (R98, R328). -/
def winRefused (s : State) (p : Path) (wr : Bool) (cause region shade : Nat) : Act :=
  protCapture (s.winAccess p wr) cause region shade

theorem winRead_run_refused (hspace : s.fldI (pathInst p) F.WIN_CTL_SPACE = 1 ∨ s.fldI (pathInst p) F.WIN_CTL_SPACE = 2)
    (h : s.fldI (pathInst p) F.WIN_ADDR_ADDR < winSize (s.fldI (pathInst p) F.WIN_CTL_SPACE)) {cause region shade : Nat}
    (hcheck : s.protCheck (s.winAccess p false) = .refuse cause region shade) (k : Word → Act) :
    (winRead p k).run s = (faultedAccess p 4 (winRefused s p false cause region shade) (k 0)).run s := by
  have hsize : winSize (s.fldI (pathInst p) F.WIN_CTL_SPACE) ≠ 0 := by omega
  have hinside : ¬ s.fldI (pathInst p) F.WIN_ADDR_ADDR / 4 * 4 ≥ winSize (s.fldI (pathInst p) F.WIN_CTL_SPACE) := by omega
  have hmem : (s.fldI (pathInst p) F.WIN_CTL_SPACE == 1 || s.fldI (pathInst p) F.WIN_CTL_SPACE == 2) = true := by
    simpa using hspace
  simp only [winRead, run_ask, beq_iff_eq, hsize, if_false, hinside, hmem, if_true, hcheck]
  rfl

/-- A window write that need not wait for INIT does not end it. -/
theorem run_winEarly (hearly : s.winEarly p = false) : (Act.ask fun s => when_ (s.winEarly p) initAct).run s = s := by
  rw [run_ask, run_when, hearly]
  rfl

theorem winWrite_run_noSpace (hearly : s.winEarly p = false) (h : winSize (s.fldI (pathInst p) F.WIN_CTL_SPACE) = 0) (v : Word) :
    (winWrite p v).run s = (faultedAccess p 1 .skip .skip).run s := by
  rw [winWrite, run_seq, run_winEarly hearly]
  simp only [run_ask, h, beq_self_eq_true, if_true]
  rfl

theorem winWrite_run_beyond (hearly : s.winEarly p = false) (hw : s.wf = true)
    (hspace : winSize (s.fldI (pathInst p) F.WIN_CTL_SPACE) ≠ 0)
    (h : winSize (s.fldI (pathInst p) F.WIN_CTL_SPACE) ≤ s.fldI (pathInst p) F.WIN_ADDR_ADDR) (v : Word) :
    (winWrite p v).run s = (faultedAccess p 2 .skip .skip).run s := by
  have hal := winAddr_mod_four (s.wf_regs hw) (pathInst p)
  have hbeyond : s.fldI (pathInst p) F.WIN_ADDR_ADDR / 4 * 4 ≥ winSize (s.fldI (pathInst p) F.WIN_CTL_SPACE) := by omega
  rw [winWrite, run_seq, run_winEarly hearly]
  simp only [run_ask, beq_iff_eq, hspace, if_false, hbeyond, if_true]
  rfl

theorem winWrite_run_readOnly (hearly : s.winEarly p = false) (hspace : 3 ≤ s.fldI (pathInst p) F.WIN_CTL_SPACE)
    (h : s.fldI (pathInst p) F.WIN_ADDR_ADDR < winSize (s.fldI (pathInst p) F.WIN_CTL_SPACE)) (v : Word) :
    (winWrite p v).run s = (faultedAccess p 3 .skip .skip).run s := by
  have hsize : winSize (s.fldI (pathInst p) F.WIN_CTL_SPACE) ≠ 0 := by omega
  have hinside : ¬ s.fldI (pathInst p) F.WIN_ADDR_ADDR / 4 * 4 ≥ winSize (s.fldI (pathInst p) F.WIN_CTL_SPACE) := by omega
  have hmem : ¬ (s.fldI (pathInst p) F.WIN_CTL_SPACE = 1 ∨ s.fldI (pathInst p) F.WIN_CTL_SPACE = 2) := by omega
  rw [winWrite, run_seq, run_winEarly hearly]
  simp only [run_ask, Bool.or_eq_true, beq_iff_eq, hsize, if_false, hinside, hmem]
  rfl

theorem winWrite_run_refused (hearly : s.winEarly p = false)
    (hspace : s.fldI (pathInst p) F.WIN_CTL_SPACE = 1 ∨ s.fldI (pathInst p) F.WIN_CTL_SPACE = 2)
    (h : s.fldI (pathInst p) F.WIN_ADDR_ADDR < winSize (s.fldI (pathInst p) F.WIN_CTL_SPACE)) {cause region shade : Nat}
    (hcheck : s.protCheck (s.winAccess p true) = .refuse cause region shade) (v : Word) :
    (winWrite p v).run s = (faultedAccess p 4 (winRefused s p true cause region shade) .skip).run s := by
  have hsize : winSize (s.fldI (pathInst p) F.WIN_CTL_SPACE) ≠ 0 := by omega
  have hinside : ¬ s.fldI (pathInst p) F.WIN_ADDR_ADDR / 4 * 4 ≥ winSize (s.fldI (pathInst p) F.WIN_CTL_SPACE) := by omega
  rw [winWrite, run_seq, run_winEarly hearly]
  simp only [run_ask, Bool.or_eq_true, beq_iff_eq, hsize, if_false, hinside, hspace, if_true, hcheck]
  rfl

end

/-! ### What the protection unit captures of a refusal (R328) -/

/-- The registers of the protection unit's capture. -/
def protOffs : List Nat := [0x284, 0x294, 0x298, 0x29C, 0x2A0, F.PRT_VCNT_COUNT.off]

theorem protCapture_only (a : Access) (cause region shade : Nat) : (protCapture a cause region shade).Only [.host] protOffs := by
  intro s
  dsimp only
  split
  · exact (only_count _ (by decide)).2 (by decide)
  · simp only [only_acts_cons, only_acts_nil, and_true]
    exact ⟨(only_putWord _ _ _ (by decide)).2 (by decide), (only_putWord _ _ _ (by decide)).2 (by decide),
      (only_putWord _ _ _ (by decide)).2 (by decide), (only_putWord _ _ _ (by decide)).2 (by decide),
      only_event _ (by decide) (by decide) (by decide)⟩

/-- PRT_EVT.VIOL stands once a refusal has been captured or counted. -/
theorem protCapture_viol {s : State} (hw : Regs.wf s.regs = true) (a : Access) (cause region shade : Nat) :
    ((protCapture a cause region shade).run s).fld F.PRT_EVT_VIOL = 1 := by
  have hok : F.PRT_EVT_VIOL.ok := (Fld.ok_iff _).2 (by decide)
  have hlast : ∀ a b c d e : Act, (acts [a, b, c, d, e]).run s = e.run ((acts [a, b, c, d]).run s) := fun _ _ _ _ _ => rfl
  rw [protCapture, run_ask]
  split
  case isTrue h =>
    have hone : s.fld F.PRT_EVT_VIOL = 1 := by simpa [State.flag] using h
    have honly : (count F.PRT_VCNT_COUNT).Only [] [F.PRT_VCNT_COUNT.off] := (only_count _ (by decide)).2 (List.mem_singleton_self _)
    rw [honly.fld hw _ (by decide) (by decide), hone]
  case isFalse =>
    rw [hlast]
    exact fld_event_same _ _ (Act.run_regs_wf _ s hw) hok rfl

/-! ### The rows of window accesses that fault -/

section
variable {s : State} {p : Path} {cause : Nat} {before : Act} {offs : List Nat}

/-- A write whose window access faults stores nothing. -/
theorem row_winDataWrite_faults (h : Reaches s p 0x108) (hcause : cause < 16) {v : Word}
    (hrun : (winWrite p v).run s = (faultedAccess p cause before .skip).run s) (hbefore : before.Only [.host] offs)
    (hoffs : ∀ off ∈ winOffs, off ∉ offs) :
    ∃ t, exec (.winDataWrite p v) s = .next t ∧ WindowFault p cause s t ∧ Unchanged [.host] (winOffs ++ offs) s t ∧
      t = (winFaulted p cause).run (before.run s) := by
  have hw := h.1.1
  refine ⟨_, row_next (running_of_pathFree h.1) ((pathWrite_run_of_reaches h _ _).trans hrun),
    faultedAccess_windowFault hw hcause hbefore hoffs only_skip, ?_, rfl⟩
  exact (faultedAccess_unchanged hw hbefore only_skip).mono (by simp) (List.Subset.refl _)

theorem readOne_run_win {u : State} (hearly : u.winEarly p = false) :
    (readOne p 0x108).run u = (winRead p (gotWord p)).run u := by
  simp only [readOne, run_ask, Nat.reduceBEq, if_false, if_true, Bool.false_eq_true, hearly]

theorem winEarly_beginOne (off : Nat) : ((beginOne p off).run s).winEarly p = s.winEarly p := by cases p <;> rfl

theorem port_of_only {a : Act} (ha : a.Only [.host] offs) (q : Path) (u : State) : (a.run u).port q = u.port q := by
  cases q
  · exact ha.part _ u .scp (by decide)
  · exact ha.part _ u .bar (by decide)

/-- A read of WIN_DATA whose window access faults takes 0 and ends. -/
theorem pathRead_run_faults (h : PathFree s p) (hearly : s.winEarly p = false) (hbefore : before.Only [.host] offs)
    (hrun : (winRead p (gotWord p)).run ((beginOne p 0x108).run s) =
      (faultedAccess p cause before (gotWord p 0)).run ((beginOne p 0x108).run s)) :
    (pathRead p 0x108).run s = (faultedAccess p cause (.seq (beginOne p 0x108) before) (finishRead p 0)).run s := by
  have hport : (((faultedAccess p cause before (gotWord p 0)).run ((beginOne p 0x108).run s)).port p).held =
      some { s.oneWord 0x108 with reg := none, got := [0] } := by
    rw [faultedAccess_run, port_gotWord, port_of_only (winFaulted_only p cause), port_of_only hbefore, port_beginOne]
    rfl
  rw [pathRead_run_of_pathFree h]
  show (readGo p 18).run ((beginOne p 0x108).run s) = _
  rw [readGo_run_begun (h := s.oneWord 0x108) 17 (by simp) rfl rfl rfl]
  show (readGo p 17).run ((readOne p 0x108).run _) = _
  rw [readOne_run_win ((winEarly_beginOne _).trans hearly), hrun, readGo_run_full 16 hport rfl le_rfl]
  rfl

theorem row_winDataRead_faults (h : PathFree s p) (hearly : s.winEarly p = false) (hcause : cause < 16)
    (hbefore : before.Only [.host] offs) (hoffs : ∀ off ∈ winOffs, off ∉ offs)
    (hrun : (winRead p (gotWord p)).run ((beginOne p 0x108).run s) =
      (faultedAccess p cause before (gotWord p 0)).run ((beginOne p 0x108).run s)) :
    ∃ t, exec (.winDataRead p) s = .next t ∧ PortShows t p [0] ∧ WindowFault p cause s t ∧
      Unchanged [portPart p, .host] (winOffs ++ offs) s t ∧
      t = (finishRead p 0).run ((winFaulted p cause).run (before.run ((beginOne p 0x108).run s))) := by
  have hw := h.1
  have hafter := (finishRead_only p 0).mono (ps' := [portPart p, .host]) (by simp) (List.nil_subset [])
  have hall : (Act.seq (beginOne p 0x108) before).Only [portPart p, .host] offs :=
    ⟨fun _ => (only_modPort _ _).2 (by simp), hbefore.mono (by simp) (List.Subset.refl _)⟩
  refine ⟨_, row_next (running_of_pathFree h) (pathRead_run_faults h hearly hbefore hrun), ?_,
    faultedAccess_windowFault hw hcause hall hoffs hafter, ?_, rfl⟩
  · refine finishRead_portShows (h := s.oneWord 0x108) ?_ rfl rfl 0
    rw [port_of_only (winFaulted_only p cause)]
    show ((before.run ((beginOne p 0x108).run s)).port p).held = _
    rw [port_of_only hbefore, port_beginOne]
  · exact (faultedAccess_unchanged hw hall hafter).mono (by simp) (List.Subset.refl _)

end

/-! ### The 10 microsecond limit (R97, R98) -/

/-- A read of WIN_DATA that begins as its limit bites it (log 13). -/
def beginBitten (p : Path) (u : State) : Act := modPort p fun x => { x with held := some (u.oneWord 0x108), reply := [], cpls := [] }

section
variable {u : State} {p : Path}

theorem windowBitten_run_free (h : (u.port p).held = none) : (windowBitten p).run u =
    (Act.seq (beginBitten p u) (finishRead p 0)).run ((winFaulted p 5).run u) := by
  rw [windowBitten, run_ask, h]
  rfl

theorem windowBitten_run_held {h : HeldRead} (hheld : (u.port p).held = some h) (hreg : h.reg = some .win) (htotal : h.total = 1)
    (hgot : h.got = []) : (windowBitten p).run u =
    (Act.seq (heldWaits p h.since) (finishRead p 0)).run ((winFaulted p 5).run u) := by
  have hafter : (windowBitten p).run u =
      (readGo p 18).run ((gotWord p 0).run ((heldWaits p h.since).run ((winFaulted p 5).run u))) := by
    rw [windowBitten, run_ask, hheld]
    simp only [hreg, beq_self_eq_true, when_, if_true]
    rfl
  rw [hafter, readGo_run_full (h := { h with reg := none, got := [0] }) 17 ?_ rfl (by simp [htotal])]
  · rfl
  · rw [port_gotWord, heldWaits, run_ask, port_modPort, port_of_only (winFaulted_only p 5), hheld]
    simp [hgot]

theorem port_tickBy (n : Nat) : ((tickBy n).run u).port p = u.port p := by
  cases p
  · exact tickBy_same n u .scp (by decide)
  · exact tickBy_same n u .bar (by decide)

theorem winTimeout_run_free (halive : u.pathDead p = false) (h : (u.port p).held = none) : (winTimeout p).run u =
    (faultedAccess p 5 (tickBy 8000) (.seq (beginBitten p ((tickBy 8000).run u)) (finishRead p 0))).run u := by
  rw [winTimeout, run_ask, run_when, halive, h]
  exact windowBitten_run_free ((congrArg PathPort.held (port_tickBy 8000)).trans h)

theorem winTimeout_run_held {h : HeldRead} (halive : u.pathDead p = false) (hheld : (u.port p).held = some h)
    (hreg : h.reg = some .win) (htotal : h.total = 1) (hgot : h.got = []) : (winTimeout p).run u =
    (faultedAccess p 5 (tickBy (h.since + 8000 - u.clk)) (.seq (heldWaits p h.since) (finishRead p 0))).run u := by
  rw [winTimeout, run_ask, run_when, halive, hheld]
  simp only [hreg, beq_self_eq_true, when_, if_true]
  exact windowBitten_run_held ((congrArg PathPort.held (port_tickBy _)).trans hheld) hreg htotal hgot

/-- What the row of the limit brings about, when its read ends with 0 behind the fault. -/
theorem row_winTimeout (hrunning : Running u) {n : Nat} {after : Act}
    (hrun : (winTimeout p).run u = (faultedAccess p 5 (tickBy n) after).run u) (hafter : after.Only [portPart p] [])
    (hshows : PortShows (after.run ((winFaulted p 5).run ((tickBy n).run u))) p [0]) :
    ∃ t, exec (.winReadTimeout p) u = .next t ∧ PortShows t p [0] ∧ WindowFault p 5 u t ∧ t.clk = u.clk + n ∧
      UnchangedButTime [portPart p, .host] [0x100, 0x104, 0x10C] u t := by
  have htime := only_tickBy n (ps := timeParts ++ [portPart p]) (offs := timeOffs) (List.subset_append_left _ _)
    (List.Subset.refl _)
  have hafter' := hafter.mono (ps' := timeParts ++ [portPart p]) (List.subset_append_right _ _) (List.Subset.refl _)
  refine ⟨_, row_next hrunning hrun, hshows,
    faultedAccess_windowFault hrunning.1 (by decide) htime (by decide) hafter', ?_, ?_⟩
  · have hclk : (after.run ((winFaulted p 5).run ((tickBy n).run u))).clk = ((winFaulted p 5).run ((tickBy n).run u)).clk :=
      hafter.part _ _ .clk (by cases p <;> decide)
    exact hclk.trans (((winFaulted_only p 5).part _ _ .clk (by decide)).trans (tickBy_clk n u))
  · refine (faultedAccess_unchanged hrunning.1 htime hafter').mono ?_ (by decide)
    rw [List.append_assoc]
    exact List.Subset.refl _

end

/-! ### The faults of window accesses -/

theorem winEarly_of_noSpace {s : State} {p : Path} (h : winSize (s.fldI (pathInst p) F.WIN_CTL_SPACE) = 0) :
    s.winEarly p = false := by
  have hone : s.fldI (pathInst p) F.WIN_CTL_SPACE ≠ 1 := fun e => by rw [e] at h; exact absurd h (by decide)
  have htwo : s.fldI (pathInst p) F.WIN_CTL_SPACE ≠ 2 := fun e => by rw [e] at h; exact absurd h (by decide)
  simp [State.winEarly, hone, htwo]

theorem winEarly_of_ready {s : State} {p : Path} (h : s.boot.inited = true ∨ 3 ≤ s.fldI (pathInst p) F.WIN_CTL_SPACE) :
    s.winEarly p = false := by
  obtain hinited | hspace := h
  · simp [State.winEarly, hinited]
  · have hone : s.fldI (pathInst p) F.WIN_CTL_SPACE ≠ 1 := by omega
    have htwo : s.fldI (pathInst p) F.WIN_CTL_SPACE ≠ 2 := by omega
    simp [State.winEarly, hone, htwo]

theorem fldI_beginOne (p : Path) (off inst : Nat) (f : Fld) (s : State) : ((beginOne p off).run s).fldI inst f = s.fldI inst f := by
  simp [beginOne, State.fldI]

theorem protCheck_beginOne (p q : Path) (off : Nat) (wr : Bool) (s : State) :
    ((beginOne p off).run s).protCheck (((beginOne p off).run s).winAccess q wr) = s.protCheck (s.winAccess q wr) := by
  cases p <;> rfl

/-- The fault of a refused access leaves the refusal's event. -/
theorem viol_winFaulted {s : State} (hw : Regs.wf s.regs = true) (p : Path) (a : Access) (cause region shade : Nat) :
    ((winFaulted p 4).run ((protCapture a cause region shade).run s)).fld F.PRT_EVT_VIOL = 1 :=
  ((winFaulted_only p 4).fld (Act.run_regs_wf _ s hw) _ (by decide) (by decide)).trans (protCapture_viol hw a cause region shade)

/-- Settles O15: every faulting access is its fault between what stands before and behind it. -/
theorem windowFaults : Obligations.WindowFaults := by
  intro s p v hreach
  have ⟨hfree, _⟩ := hreach
  have ⟨hw, halive, hheld, _⟩ := hfree
  have hw0 : ((beginOne p 0x108).run s).wf = true := Act.run_wf _ s hw
  have hskip : Act.skip.Only [.host] [] := trivial
  have hnone : ∀ off ∈ winOffs, off ∉ ([] : List Nat) := fun _ _ => List.not_mem_nil
  have hprot : ∀ off ∈ winOffs, off ∉ protOffs := by decide
  refine ⟨fun hspace => ?_, fun hbeyond hspace hready => ?_, fun hspace _ hinside => ?_,
    fun hinited hspace hinside cause region shade => ?_, ?_, fun u h hheld hreg htotal hgot hbe halive hwu hbehind => ?_⟩
  · have hearly := winEarly_of_noSpace hspace
    obtain ⟨t, hexec, hshows, hfault, hframe, _⟩ := row_winDataRead_faults (cause := 1) hfree hearly (by decide) hskip hnone
      (winRead_run_noSpace (by simp only [fldI_beginOne, hspace]) _)
    obtain ⟨t', hexec', hfault', hframe', _⟩ := row_winDataWrite_faults (v := v) hreach (by decide)
      (winWrite_run_noSpace hearly hspace v) hskip hnone
    exact ⟨⟨t, hexec, hshows, hfault, hframe⟩, ⟨t', hexec', hfault', hframe'⟩⟩
  · have hearly := winEarly_of_ready hready
    obtain ⟨t, hexec, hshows, hfault, hframe, _⟩ := row_winDataRead_faults (cause := 2) hfree hearly (by decide) hskip hnone
      (winRead_run_beyond hw0 (by simpa only [fldI_beginOne] using hspace) (by simpa only [fldI_beginOne] using hbeyond) _)
    obtain ⟨t', hexec', hfault', hframe', _⟩ := row_winDataWrite_faults (v := v) hreach (by decide)
      (winWrite_run_beyond hearly hw hspace hbeyond v) hskip hnone
    exact ⟨⟨t, hexec, hshows, hfault, hframe⟩, ⟨t', hexec', hfault', hframe'⟩⟩
  · obtain ⟨t, hexec, hfault, hframe, _⟩ := row_winDataWrite_faults (v := v) hreach (by decide)
      (winWrite_run_readOnly (winEarly_of_ready (.inr hspace)) hspace hinside v) hskip hnone
    exact ⟨t, hexec, hfault, hframe⟩
  · have hearly := winEarly_of_ready (p := p) (.inl hinited)
    refine ⟨fun hcheck => ?_, fun hcheck => ?_⟩
    · obtain ⟨t, hexec, hshows, hfault, hframe, rfl⟩ := row_winDataRead_faults (cause := 4) hfree hearly (by decide)
        (protCapture_only _ cause region shade) hprot (winRead_run_refused (by simpa only [fldI_beginOne] using hspace)
          (by simpa only [fldI_beginOne] using hinside) ((protCheck_beginOne _ _ _ _ _).trans hcheck) _)
      have hkept := fun u hu => (finishRead_only p 0).fld (s := u) hu F.PRT_EVT_VIOL (by decide) (by decide)
      exact ⟨_, hexec, hshows, hfault, (hkept _ (Act.run_regs_wf _ _ (Act.run_regs_wf _ _ (State.wf_regs _ hw0)))).trans
        (viol_winFaulted (State.wf_regs _ hw0) p _ cause region shade), hframe⟩
    · obtain ⟨t, hexec, hfault, hframe, rfl⟩ := row_winDataWrite_faults (v := v) hreach (by decide)
        (winWrite_run_refused hearly hspace hinside hcheck v) (protCapture_only _ cause region shade) hprot
      exact ⟨_, hexec, hfault, viol_winFaulted (s.wf_regs hw) p _ cause region shade, hframe⟩
  · exact row_winTimeout (running_of_pathFree hfree) (winTimeout_run_free halive hheld) (by simp [finishRead_only, beginBitten])
      (finishRead_portShows (h := ((tickBy 8000).run s).oneWord 0x108) (by simp [beginBitten]) rfl rfl 0)
  · have hon : u.pwr.off = false := by
      simp only [State.pathDead, Bool.or_eq_false_iff] at halive
      exact halive.1
    have hclk : u.clk + (h.since + 8000 - u.clk) = max u.clk (h.since + 8000) := by omega
    rw [← hclk]
    refine row_winTimeout ⟨hwu, hon, hbehind⟩ (winTimeout_run_held halive hheld hreg htotal hgot)
      (by simp [finishRead_only, heldWaits]) (finishRead_portShows (h := h) ?_ hgot hbe 0)
    rw [heldWaits, run_ask, port_modPort, port_of_only (winFaulted_only p 5), port_tickBy]
    exact hheld

end Sys2Proof.Machine
end

section
/-!
SUPPORT. Meanings that keep away from the paths: they do not look at the control port, and they change neither a path's port nor
its command in progress.  One lemma per function of the model, in the model's order.
-/

namespace Sys2Proof.Machine

-- The many short proofs are checked one after another, for each would else hold a thread of its own.
set_option Elab.async false

/-! ### The predicate and the combinators of meanings -/

/-- The update leaves the ports and the commands of both paths. -/
def Upd.quiet (u : Upd) : Bool := u.part.all fun p => !([.scp, .bar, .jobScp, .jobBar].contains p)

/-- No update of the meaning reaches a port or a command of a path, and no choice of it depends on the control port. -/
def Act.Quiet : Act → Prop
  | .skip => True
  | .upd u => u.quiet = true
  | .seq a b => a.Quiet ∧ b.Quiet
  | .ask k => (∀ s x, k { s with scp := x } = k s) ∧ ∀ s, (k s).Quiet

theorem quiet_ask {k : State → Act} (h : ∀ s, (k s).Quiet) (hk : ∀ s x, k { s with scp := x } = k s := by intros; rfl) :
    (Act.ask k).Quiet := ⟨hk, h⟩
@[simp] theorem quiet_skip : Act.skip.Quiet := trivial
@[simp] theorem quiet_upd (u : Upd) : (Act.upd u).Quiet ↔ u.quiet = true := Iff.rfl
@[simp] theorem quiet_seq (a b : Act) : (Act.seq a b).Quiet ↔ a.Quiet ∧ b.Quiet := Iff.rfl
@[simp] theorem quiet_acts_nil : (acts []).Quiet := trivial
@[simp] theorem quiet_acts_cons (a : Act) (l : List Act) : (acts (a :: l)).Quiet ↔ a.Quiet ∧ (acts l).Quiet := by
  cases l <;> simp [acts]
@[simp] theorem quiet_when (b : Bool) (a : Act) : (when_ b a).Quiet ↔ (b = true → a.Quiet) := by cases b <;> simp [when_]
@[simp] theorem quiet_ite (c : Prop) [Decidable c] (a b : Act) : (if c then a else b).Quiet ↔ (c → a.Quiet) ∧ (¬c → b.Quiet) := by
  split <;> simp_all
@[simp] theorem quiet_forEach {α : Type} (l : List α) (f : α → Act) : (forEach l f).Quiet ↔ ∀ x ∈ l, (f x).Quiet := by
  induction l with
  | nil => simp [forEach]
  | cons x l ih => simp only [forEach, List.map_cons, quiet_acts_cons] at *; simp [ih]
@[simp] theorem quiet_forSome {α : Type} (o : Option α) (f : α → Act) : (forSome o f).Quiet ↔ ∀ x, o = some x → (f x).Quiet := by
  cases o <;> simp [forSome]
theorem quiet_rep (n : Nat) {a : Act} (h : a.Quiet) : (rep n a).Quiet := by
  induction n with
  | zero => trivial
  | succ n ih => exact ⟨h, ih⟩

/-! ### Changes of one piece of state -/

@[simp] theorem quiet_modCtx (i : Nat) (f : Ctx → Ctx) : (modCtx i f).Quiet := quiet_ask fun _ => rfl
@[simp] theorem quiet_modQueue (i : Nat) (f : Queue → Queue) : (modQueue i f).Quiet := quiet_ask fun _ => rfl
@[simp] theorem quiet_modChan (i : Nat) (f : Chan → Chan) : (modChan i f).Quiet := quiet_ask fun _ => rfl
@[simp] theorem quiet_modMobj (i : Nat) (f : MemObj → MemObj) : (modMobj i f).Quiet := quiet_ask fun _ => rfl
@[simp] theorem quiet_modFence (i : Nat) (f : Fence → Fence) : (modFence i f).Quiet := quiet_ask fun _ => rfl
@[simp] theorem quiet_modEngine (i : Nat) (f : Engine → Engine) : (modEngine i f).Quiet := quiet_ask fun _ => rfl
@[simp] theorem quiet_modChair (i : Nat) (f : Chair → Chair) : (modChair i f).Quiet := quiet_ask fun _ => rfl
@[simp] theorem quiet_modLane (i : Nat) (f : Lane → Lane) : (modLane i f).Quiet := quiet_ask fun _ => rfl
@[simp] theorem quiet_modPmbp (i : Nat) (f : PmbPort → PmbPort) : (modPmbp i f).Quiet := quiet_ask fun _ => rfl
@[simp] theorem quiet_modLamp (f : Lamp → Lamp) : (modLamp f).Quiet := quiet_ask fun _ => rfl
@[simp] theorem quiet_modHost (f : HostLink → HostLink) : (modHost f).Quiet := quiet_ask fun _ => rfl
@[simp] theorem quiet_modKindle (f : Kindle → Kindle) : (modKindle f).Quiet := quiet_ask fun _ => rfl
@[simp] theorem quiet_modGov (f : Gov → Gov) : (modGov f).Quiet := quiet_ask fun _ => rfl
@[simp] theorem quiet_modZhn (f : Zhn → Zhn) : (modZhn f).Quiet := quiet_ask fun _ => rfl
@[simp] theorem quiet_modCup (f : Cup → Cup) : (modCup f).Quiet := quiet_ask fun _ => rfl
@[simp] theorem quiet_modZport (p : Nat) (f : ZPort → ZPort) : (modZport p f).Quiet := quiet_modZhn _
theorem quiet_storeBytes (m : MemId) (a : Nat) (l : List Byte) : (storeBytes m a l).Quiet := by
  induction l generalizing a with
  | nil => trivial
  | cons b l ih => exact ⟨by cases m <;> rfl, ih (a + 1)⟩
theorem quiet_drawFree {k : Nat → Act} (h : ∀ n, (k n).Quiet) : (drawFree k).Quiet := quiet_ask fun _ => ⟨rfl, h _⟩
theorem quiet_takeFreeSeq {k : Nat → Act} (h : ∀ n, (k n).Quiet) : (takeFreeSeq k).Quiet := quiet_ask fun _ => ⟨rfl, h _⟩

/-! ### Registers, events, trace records and posted errors -/

@[simp] theorem quiet_putWord (inst off : Nat) (w : Word) : (putWord inst off w).Quiet := rfl
@[simp] theorem quiet_putI (inst : Nat) (f : Fld) (v : Nat) : (putI inst f v).Quiet := quiet_ask fun _ => rfl
@[simp] theorem quiet_put (f : Fld) (v : Nat) : (put f v).Quiet := quiet_putI 0 f v
@[simp] theorem quiet_countBy (f : Fld) (n : Nat) : (countBy f n).Quiet := quiet_ask fun _ => quiet_put _ _
@[simp] theorem quiet_count (f : Fld) : (count f).Quiet := quiet_countBy f 1
@[simp] theorem quiet_raiseVec (v : Nat) : (raiseVec v).Quiet := quiet_modHost _
theorem quiet_withAlert (inst off : Nat) {a : Act} (h : a.Quiet) : (withAlert inst off a).Quiet :=
  quiet_ask fun _ => ⟨h, quiet_ask fun _ => by simp⟩
@[simp] theorem quiet_eventI (inst : Nat) (f : Fld) : (eventI inst f).Quiet := quiet_withAlert _ _ (quiet_putI _ _ _)
@[simp] theorem quiet_event (f : Fld) : (event f).Quiet := quiet_eventI 0 f
@[simp] theorem quiet_portBeat (q : FReq) (res : Nat) : (portBeat q res).Quiet := quiet_ask fun _ => rfl
@[simp] theorem quiet_traceRec (typ : Nat) (data : List Byte) : (traceRec typ data).Quiet :=
  quiet_ask fun _ => by simp [quiet_storeBytes, Upd.quiet, Upd.part]
@[simp] theorem quiet_zSend (typ dst : Nat) (user : Bool) (opId : Nat) (body : List Byte) : (zSend typ dst user opId body).Quiet :=
  quiet_ask fun _ => (quiet_forSome _ _).2 fun _ _ => quiet_ask fun _ => by simp
@[simp] theorem quiet_postBytes (body : Nat → List Byte) : (postBytes body).Quiet := quiet_ask fun _ => by simp [quiet_storeBytes]
@[simp] theorem quiet_postErr (e : ErrInfo) : (postErr e).Quiet := quiet_ask fun _ => by simp
@[simp] theorem quiet_postPlain (code block info0 info1 : Nat) : (postPlain code block info0 info1).Quiet := quiet_postErr _
@[simp] theorem quiet_whlEvent (f : Fld) (posted : Bool) : (whlEvent f posted).Quiet := quiet_ask fun _ => by simp

/-! ### Fabric ports and engine buffers -/

@[simp] theorem quiet_lateGrant (l : WTime) (n : Nat) : (lateGrant l n).Quiet := quiet_ask fun _ => by simp
theorem quiet_arbitrate (key : Nat) (l : List (Nat × Rank)) {grant : Nat → Act} (h : ∀ n, (grant n).Quiet) :
    (arbitrate key l grant).Quiet := quiet_ask fun _ => by
  dsimp only
  split
  · trivial
  · simp [h, Upd.quiet, Upd.part]
@[simp] theorem quiet_portGrant (q : FReq) (res beats : Nat) : (portGrant q res beats).Quiet :=
  quiet_ask fun _ => ⟨rfl, rfl, quiet_lateGrant _ _⟩
@[simp] theorem quiet_memGrant (q : FReq) (space a n : Nat) : (memGrant q space a n).Quiet := by simp [memGrant]
@[simp] theorem quiet_wbqPut (res : Nat) (b : WBeat) : (wbqPut res b).Quiet := quiet_ask fun _ => rfl
@[simp] theorem quiet_storeByte (space a : Nat) (b : Byte) : (storeByte space a b).Quiet := by
  unfold storeByte spaceMem
  split
  · trivial
  · split <;> rfl
@[simp] theorem quiet_drainLine (l : WLine) : (drainLine l).Quiet := by simp [drainLine]
@[simp] theorem quiet_flushKeep (e : Nat) (l : WLine) : (flushKeep e l).Quiet := by simp [flushKeep]
@[simp] theorem quiet_flushLine (e : Nat) (l : WLine) : (flushLine e l).Quiet := by simp [flushLine]
@[simp] theorem quiet_flushEngine (e : Nat) : (flushEngine e).Quiet := quiet_ask fun _ => by simp
@[simp] theorem quiet_giveUp (e space line : Nat) : (giveUp e space line).Quiet := quiet_ask fun _ => by simp
@[simp] theorem quiet_recalled : recalled.Quiet := quiet_count _
@[simp] theorem quiet_dirGrant (q : FReq) : (dirGrant q).Quiet := by simp [dirGrant]
@[simp] theorem quiet_touchWriteLine (q : FReq) (eng : Option Nat) (space line : Nat) : (touchWriteLine q eng space line).Quiet :=
  (quiet_forEach _ _).2 fun _ _ => quiet_ask fun _ => by split <;> simp
@[simp] theorem quiet_otherWriteBe (q : FReq) (space a : Nat) (bs : List Byte) (be : List Bool) :
    (otherWriteBe q space a bs be).Quiet := by simp [otherWriteBe]
@[simp] theorem quiet_otherWrite (q : FReq) (space a : Nat) (bs : List Byte) : (otherWrite q space a bs).Quiet :=
  quiet_otherWriteBe _ _ _ _ _

/-! ### Channels' descriptors, and forwarded operations -/

@[simp] theorem quiet_modRun (c : Nat) (f : Run → Run) : (modRun c f).Quiet := quiet_modChan _ _
@[simp] theorem quiet_modCur (c : Nat) (f : Cur → Cur) : (modCur c f).Quiet := quiet_modRun _ _
@[simp] theorem quiet_makeQueued (c : Nat) : (makeQueued c).Quiet := quiet_ask fun _ => quiet_modChan _ _
@[simp] theorem quiet_descDone (c status : Nat) : (descDone c status).Quiet := quiet_ask fun _ => quiet_modCur _ _
@[simp] theorem quiet_releaseWait (c status : Nat) : (releaseWait c status).Quiet := by simp [releaseWait]
@[simp] theorem quiet_zForward (peer typ : Nat) (user : Bool) (what : ZFor) (body : List Byte) :
    (zForward peer typ user what body).Quiet := quiet_ask fun _ => by simp
@[simp] theorem quiet_fenForward (i : Nat) (user : Bool) (what : ZFor) (op : FenOp) : (fenForward i user what op).Quiet :=
  quiet_ask fun _ => quiet_zForward _ _ _ _ _
@[simp] theorem quiet_chairUnwait (w : Sitter) : (chairUnwait w).Quiet := quiet_ask fun _ => by simp

/-! ### Fences and memory objects -/

@[simp] theorem quiet_fenTell (i : Nat) (dead : Bool) : (fenTell i dead).Quiet := quiet_ask fun _ => by simp
@[simp] theorem quiet_wakeFence (i : Nat) : (wakeFence i).Quiet :=
  quiet_ask fun _ => (quiet_forEach _ _).2 fun _ _ => by split <;> simp
@[simp] theorem quiet_fenceTo (i : Nat) (v : DWord) : (fenceTo i v).Quiet := quiet_ask fun _ => by simp
@[simp] theorem quiet_fenceInc (i : Nat) : (fenceInc i).Quiet := quiet_ask fun _ => by simp
@[simp] theorem quiet_fenceTryFree (i : Nat) : (fenceTryFree i).Quiet := quiet_ask fun _ => by simp [quiet_takeFreeSeq]
@[simp] theorem quiet_abortFenceWaits (i : Nat) : (abortFenceWaits i).Quiet :=
  quiet_ask fun _ => (quiet_forEach _ _).2 fun _ _ => by split <;> simp
@[simp] theorem quiet_fenceDestroyReq (i : Nat) : (fenceDestroyReq i).Quiet := by simp [fenceDestroyReq]
@[simp] theorem quiet_unmapRun (ctx first n : Nat) : (unmapRun ctx first n).Quiet := quiet_modCtx _ _
@[simp] theorem quiet_fenceDropUnattr (i : Nat) : (fenceDropUnattr i).Quiet := by simp [fenceDropUnattr]
@[simp] theorem quiet_memFree (i : Nat) : (memFree i).Quiet := quiet_ask fun _ => by simp [quiet_takeFreeSeq]
@[simp] theorem quiet_memTryFree (i : Nat) : (memTryFree i).Quiet := quiet_ask fun _ => by simp
@[simp] theorem quiet_memDestroyReq (i : Nat) : (memDestroyReq i).Quiet := by simp [memDestroyReq]
@[simp] theorem quiet_dropRef (r : Bool × Nat) : (dropRef r).Quiet := by simp [dropRef]
@[simp] theorem quiet_dropRefs (c : Nat) : (dropRefs c).Quiet := quiet_ask fun _ => by simp

/-! ### Reads of host memory and walks -/

@[simp] theorem quiet_issueRead (r : HReq) : (issueRead r).Quiet :=
  quiet_ask fun _ => ⟨quiet_portBeat _ _, quiet_modHost _, quiet_ask fun _ => quiet_put _ _⟩
theorem quiet_readGrants (n : Nat) : (readGrants n).Quiet := by
  induction n with
  | zero => trivial
  | succ n ih =>
    exact quiet_ask fun _ => by simp [ih, quiet_arbitrate]
@[simp] theorem quiet_readPump : readPump.Quiet := quiet_ask fun _ => quiet_readGrants _
@[simp] theorem quiet_raiseRead (r : HReq) : (raiseRead r).Quiet := by simp [raiseRead]
@[simp] theorem quiet_walkBegin (k : WalkReq) : (walkBegin k).Quiet := quiet_ask fun _ => quiet_raiseRead _
theorem quiet_walkPump (n : Nat) : (walkPump n).Quiet := by
  induction n with
  | zero => trivial
  | succ n ih => exact quiet_ask fun _ => by simp [ih]
@[simp] theorem quiet_walkNext : walkNext.Quiet := quiet_ask fun _ => quiet_walkPump _
@[simp] theorem quiet_dropReads (gone : Purpose → Bool) : (dropReads gone).Quiet := by simp [dropReads]
@[simp] theorem quiet_killReads (c : Nat) : (killReads c).Quiet := quiet_dropReads _
@[simp] theorem quiet_killRing (q : Nat) : (killRing q).Quiet := quiet_dropReads _

/-! ### The Lamplighter -/

@[simp] theorem quiet_lampPlace (c ctx i : Nat) (target : WTime) (forced : Bool) : (lampPlace c ctx i target forced).Quiet :=
  quiet_ask fun _ => ⟨quiet_modLamp _, quiet_ask fun _ => by simp⟩
@[simp] theorem quiet_lampArmAct : lampArmAct.Quiet := quiet_ask fun _ => by simp
@[simp] theorem quiet_lampRearm : lampRearm.Quiet := quiet_ask fun _ => quiet_rep _ quiet_lampArmAct
@[simp] theorem quiet_lampArm (c : Nat) (target : WTime) (forced : Bool) : (lampArm c target forced).Quiet :=
  ⟨quiet_lampRearm, quiet_ask fun _ => by
    dsimp only
    split
    · trivial
    · split <;> simp⟩
@[simp] theorem quiet_lampDrop (gone : Nat → Nat → Bool) : (lampDrop gone).Quiet := by simp [lampDrop]
@[simp] theorem quiet_lampRelease (c : Nat) : (lampRelease c).Quiet := quiet_lampDrop _
@[simp] theorem quiet_lateFire : lateFire.Quiet := by simp [lateFire]

/-! ### Submissions, queues and stops -/

@[simp] theorem quiet_addDue (d : Due) : (addDue d).Quiet := quiet_ask fun _ => by simp [Upd.quiet, Upd.part]
@[simp] theorem quiet_endRecord (c : Nat) (sub : Sub) (status : Nat) (wt : WTime) (bytes : Nat) (intr : Bool) (acks : List Nat)
    (q : FReq) : (endRecord c sub status wt bytes intr acks q).Quiet := quiet_ask fun _ => quiet_addDue _
@[simp] theorem quiet_unstarted (c : Nat) (sub : Sub) (status : Nat) : (unstarted c sub status).Quiet :=
  quiet_ask fun _ => quiet_endRecord _ _ _ _ _ _ _ _
@[simp] theorem quiet_queueFree (q : Nat) : (queueFree q).Quiet := quiet_takeFreeSeq fun _ => quiet_modQueue _ _
@[simp] theorem quiet_queueSettle : queueSettle.Quiet := quiet_ask fun _ => by simp
@[simp] theorem quiet_modSubs (c : Nat) (f : List Sub → List Sub) : (modSubs c f).Quiet := by simp [modSubs]
@[simp] theorem quiet_dropSubs (c status : Nat) : (dropSubs c status).Quiet := quiet_ask fun _ => by simp
@[simp] theorem quiet_leaveEngine (c : Nat) : (leaveEngine c).Quiet := (quiet_forEach _ _).2 fun _ _ => quiet_ask fun _ => by simp
@[simp] theorem quiet_flushOf (c : Nat) : (flushOf c).Quiet := quiet_ask fun _ => quiet_flushEngine _
@[simp] theorem quiet_addBytes (c n : Nat) : (addBytes c n).Quiet := by simp [addBytes]
@[simp] theorem quiet_killForwards (c : Nat) : (killForwards c).Quiet := quiet_ask fun _ => by simp
@[simp] theorem quiet_leaveBus (c : Nat) : (leaveBus c).Quiet := (quiet_forEach _ _).2 fun _ _ => quiet_ask fun _ => by simp
@[simp] theorem quiet_creditBack (l pc : Nat) : (creditBack l pc).Quiet := quiet_modLane _ _
@[simp] theorem quiet_cutFirst (l : Nat) (f : TxFrame) : (cutFirst l f).Quiet := by simp [cutFirst]
@[simp] theorem quiet_cutEmit (c : Nat) : (cutEmit c).Quiet := (quiet_forEach _ _).2 fun _ _ => quiet_ask fun _ => by simp
@[simp] theorem quiet_orphanEmit (c : Nat) : (orphanEmit c).Quiet := by simp [orphanEmit]
@[simp] theorem quiet_beginSub (c : Nat) : (beginSub c).Quiet := quiet_ask fun _ => by simp
theorem quiet_startFrom (c fuel : Nat) : (startFrom c fuel).Quiet := by
  induction fuel with
  | zero => trivial
  | succ fuel ih =>
    refine quiet_ask fun _ => ?_
    split
    · trivial
    · split <;> simp [ih]
@[simp] theorem quiet_startNext (c : Nat) : (startNext c).Quiet := quiet_startFrom c 17
@[simp] theorem quiet_resumeNext (c : Nat) : (resumeNext c).Quiet := quiet_ask fun _ => by simp
@[simp] theorem quiet_chanFree (c : Nat) : (chanFree c).Quiet := quiet_ask fun _ =>
  ⟨quiet_otherWrite _ _ _ _, quiet_ask fun _ => rfl, quiet_ask fun _ => rfl, quiet_takeFreeSeq fun _ => quiet_modChan _ _,
    quiet_queueSettle⟩
@[simp] theorem quiet_arrive (c : Nat) : (arrive c).Quiet := quiet_ask fun _ => by simp
@[simp] theorem quiet_stopTo (c : Nat) (st : ChanSt) : (stopTo c st).Quiet := quiet_ask fun _ => by simp
@[simp] theorem quiet_releaseWaits (c : Nat) : (releaseWaits c).Quiet := by simp [releaseWaits]
@[simp] theorem quiet_chainEnd (c status : Nat) : (chainEnd c status).Quiet := quiet_ask fun _ => by
  refine (quiet_acts_cons _ _).2 ⟨?_, by simp⟩
  split <;> simp
@[simp] theorem quiet_chainEndNormal (c : Nat) (drained : Bool) : (chainEndNormal c drained).Quiet := quiet_ask fun _ => by simp
@[simp] theorem quiet_dropWaiting (c : Nat) : (dropWaiting c).Quiet := by simp [dropWaiting]
@[simp] theorem quiet_cutTime (c : Nat) : (cutTime c).Quiet := quiet_ask fun _ => quiet_modRun _ _
@[simp] theorem quiet_haltChain (c desc off : Nat) : (haltChain c desc off).Quiet := quiet_ask fun _ => by simp
@[simp] theorem quiet_haltAt (c desc off : Nat) : (haltAt c desc off).Quiet := by simp [haltAt]
@[simp] theorem quiet_haltAfter (c nxt : Nat) : (haltAfter c nxt).Quiet := quiet_ask fun _ => by simp
@[simp] theorem quiet_abortRun (c status : Nat) : (abortRun c status).Quiet := quiet_ask fun _ => by simp
@[simp] theorem quiet_abortChan (c status subStatus : Nat) : (abortChan c status subStatus).Quiet := quiet_ask fun _ => by
  simp only [quiet_acts_cons, quiet_acts_nil, quiet_abortRun, quiet_dropSubs, quiet_modChan, true_and, and_true]
  split <;> simp
@[simp] theorem quiet_stopParked (c : Nat) : (stopParked c).Quiet := quiet_ask fun _ => by simp
@[simp] theorem quiet_parkChan (c : Nat) (p : Park) : (parkChan c p).Quiet := quiet_ask fun _ => by simp

/-! ### The end of a descriptor: faults, lost contexts and progress -/

@[simp] theorem quiet_captureFault (n status desc chan addr : Nat) : (captureFault n status desc chan addr).Quiet :=
  quiet_ask fun _ => by simp
@[simp] theorem quiet_holdRefs (n c : Nat) : (holdRefs n c).Quiet := quiet_ask fun _ => by simp
@[simp] theorem quiet_loseCtx (n c : Nat) : (loseCtx n c).Quiet := quiet_ask fun _ => by
  refine (quiet_when _ _).2 fun _ => ⟨quiet_modCtx _ _, (quiet_forEach _ _).2 fun _ _ => quiet_ask fun _ => by simp⟩
@[simp] theorem quiet_faultAfter (c status desc off addr : Nat) : (faultAfter c status desc off addr).Quiet :=
  quiet_ask fun _ => by simp
@[simp] theorem quiet_faultChan (c status off : Nat) : (faultChan c status off).Quiet := quiet_ask fun _ => by
  have hlast : (Act.ask fun s => if (s.chan c).st == .dying then stopTo c .idle
      else if (s.chan c).stopPend ≥ 2 then acts [
        dropSubs c (if (s.chan c).stopPend == 3 then s.abortStatus c else stSTOPPED), stopTo c .idle]
      else startNext c).Quiet := quiet_ask fun _ => by simp
  simp only [quiet_acts_cons, quiet_acts_nil, quiet_ite, quiet_when, quiet_flushOf, quiet_releaseWaits, quiet_killReads,
    quiet_killForwards, quiet_cutEmit, quiet_orphanEmit, quiet_leaveBus, quiet_modChan, quiet_holdRefs, quiet_dropRefs,
    quiet_cutTime, quiet_chainEnd, quiet_faultAfter, hlast, implies_true, and_true]
@[simp] theorem quiet_progressRecord (c : Nat) (d : Cur) (status bytes : Nat) : (progressRecord c d status bytes).Quiet :=
  quiet_ask fun _ => by split <;> simp
@[simp] theorem quiet_chainGo (c nxt : Nat) (d : Cur) (ok : Bool) : (chainGo c nxt d ok).Quiet := quiet_ask fun _ => by
  simp only [quiet_ite, quiet_acts_cons, quiet_acts_nil, quiet_abortChan, quiet_chainEndNormal, quiet_haltAt, quiet_haltAfter,
    quiet_modChan, implies_true, true_and, and_true]
  exact fun _ _ _ _ => quiet_ask fun _ => by simp
@[simp] theorem quiet_finishDesc (c status nxt : Nat) : (finishDesc c status nxt).Quiet := quiet_ask fun _ => by
  refine (quiet_forSome _ _).2 fun d _ => ?_
  have hend : ∀ st, (Act.ask fun s => chainEnd c ((s.chan c).run.elim st (·.status))).Quiet :=
    fun _ => quiet_ask fun _ => quiet_chainEnd _ _
  simp [hend]
@[simp] theorem quiet_flushRead (c : Nat) : (flushRead c).Quiet := quiet_ask fun _ => by split <;> simp
@[simp] theorem quiet_settle (c : Nat) : (settle c).Quiet := quiet_ask fun _ => by
  refine (quiet_forSome _ _).2 fun d _ => ?_
  split
  · simp only [quiet_ite, quiet_faultChan, quiet_finishDesc, implies_true, true_and, and_true]
    intro _ _
    split <;> simp
  · trivial
@[simp] theorem quiet_haltIdle (c : Nat) : (haltIdle c).Quiet :=
  ⟨quiet_ask fun _ => by simp, quiet_ask fun _ => by simp⟩
@[simp] theorem quiet_settleStop (c : Nat) : (settleStop c).Quiet := ⟨quiet_ask fun _ => by simp, quiet_haltIdle c⟩

/-! ### Wicks, rings, and channels and contexts that die -/

@[simp] theorem quiet_wickEdge (w : Nat) (level : Bool) : (wickEdge w level).Quiet := quiet_ask fun _ =>
  (quiet_forEach _ _).2 fun c _ => quiet_ask fun _ => by
    refine ⟨by simp, ?_⟩
    split <;> simp
@[simp] theorem quiet_ringWake : ringWake.Quiet := quiet_ask fun _ => (quiet_forEach _ _).2 fun c _ => quiet_ask fun _ => by
  split
  · simp
  · split <;> simp
@[simp] theorem quiet_dropDue (q : Nat) : (dropDue q).Quiet := quiet_ask fun _ => ⟨rfl, quiet_ringWake⟩
@[simp] theorem quiet_dyingChan (c status : Nat) : (dyingChan c status).Quiet := ⟨quiet_modChan _ _, quiet_ask fun _ => by simp⟩
@[simp] theorem quiet_ctxDie (n : Nat) : (ctxDie n).Quiet := quiet_ask fun _ => by simp
@[simp] theorem quiet_queueLeave (q c : Nat) : (queueLeave q c).Quiet := quiet_ask fun _ => by simp
@[simp] theorem quiet_chanMake (c n base a1 a2 a3 : Nat) : (chanMake c n base a1 a2 a3).Quiet :=
  quiet_ask fun _ => ⟨rfl, quiet_otherWrite _ _ _ _, quiet_modChan _ _⟩
@[simp] theorem quiet_importBits (i n : Nat) : (importBits i n).Quiet := by simp [importBits]

/-! ### Lanes -/

@[simp] theorem quiet_setLaneSt (l : Nat) (st : LaneSt) : (setLaneSt l st).Quiet := quiet_ask fun _ => by simp
@[simp] theorem quiet_laneEvent (l : Nat) (f : Fld) : (laneEvent l f).Quiet := quiet_event _
@[simp] theorem quiet_setLaneWick (b : Nat) (level : Bool) : (setLaneWick b level).Quiet :=
  quiet_ask fun _ => by simp [Upd.quiet, Upd.part]
@[simp] theorem quiet_emitFail (c : Nat) : (emitFail c).Quiet := quiet_ask fun _ => by split <;> simp
@[simp] theorem quiet_laneLock (l : Nat) : (laneLock l).Quiet := ⟨quiet_setLaneSt _ _, quiet_ask fun _ => quiet_modLane _ _⟩
@[simp] theorem quiet_laneDown (l : Nat) (post : Option Nat) (reinit : Bool) : (laneDown l post reinit).Quiet :=
  quiet_ask fun _ => (quiet_when _ _).2 fun _ =>
    ⟨quiet_modKindle _, quiet_modLane _ _, by simp, by simp, by simp, by simp, by simp, quiet_ask fun _ => by simp⟩

end Sys2Proof.Machine
end

section
/-!
SUPPORT. Mailbox commands as they begin (R100, R103 to R105): each is refused and changes nothing more, or is performed and
answers OK.
-/

namespace Sys2Proof.Machine

-- As in the section above: many short proofs, one after another.
set_option Elab.async false

/-! ### What stays of the paths -/

/-- A quiet meaning leaves both paths' ports and commands. -/
theorem Act.Quiet.same {a : Act} (h : a.Quiet) (s : State) (p : Part) (hp : p ∈ [Part.scp, .bar, .jobScp, .jobBar]) :
    p.same s (a.run s) := by
  induction a generalizing s with
  | skip => exact p.same_refl s
  | upd u =>
    refine Upd.apply_same u s p fun e => ?_
    have hq : u.quiet = true := h
    simp [Upd.quiet, e] at hq
    simp_all
  | seq a b iha ihb => exact Part.same_trans p _ _ _ (iha h.1 s) (ihb h.2 _)
  | ask k ih => exact ih s (h.2 s) s

theorem Act.Quiet.job {a : Act} (h : a.Quiet) (s : State) (p : Path) : (a.run s).job p = s.job p := by
  cases p
  · exact h.same s .jobScp (by simp)
  · exact h.same s .jobBar (by simp)

@[simp] theorem job_modJob (p : Path) (f : Option Job → Option Job) (s : State) : ((modJob p f).run s).job p = f (s.job p) := by
  cases p <;> rfl

@[simp] theorem only_modJob {ps : List Part} {offs : List Nat} (p : Path) (f : Option Job → Option Job) :
    (modJob p f).Only ps offs ↔ jobPart p ∈ ps := by
  cases p <;> simp [modJob, jobPart, UpdIn, Upd.part, all_states]

/-! ### Performed, or refused with nothing changed -/

/-- The meaning performs the command in progress: its result is OK, and but for what it returns and waits for it is as it was. -/
def Performs (p : Path) (a : Act) : Prop := ∀ s j, s.job p = some j →
  ∃ res w, (a.run s).job p = some { j with result := mbOK, res := res, wait := w }

/-- The meaning answers the command in progress; with a result other than OK, nothing else changes but for the count and the
event of a bad token (R104). -/
def Answers (p : Path) (a : Act) : Prop := ∀ s j, s.wf = true → s.job p = some j →
  ∃ result res w, (a.run s).job p = some { j with result := result, res := res, wait := w } ∧
    (result ≠ mbOK → Unchanged [jobPart p, .host] [0x2F8, 0x2F4] s (a.run s))

section
variable {p : Path}

theorem Performs.answers {a : Act} (h : Performs p a) : Answers p a := fun s j _ hj =>
  let ⟨res, w, hjob⟩ := h s j hj
  ⟨mbOK, res, w, hjob, fun hne => absurd rfl hne⟩

theorem performs_answer (res : List Nat) (w : JobWait) : Performs p (answer p mbOK res w) := fun s j hj =>
  ⟨res.map (BitVec.ofNat 32), w, by simp [answer, hj]⟩

theorem performs_ask {k : State → Act} (h : ∀ s, Performs p (k s)) : Performs p (.ask k) := fun s => h s s

theorem performs_after {a b : Act} (ha : a.Quiet) (hb : Performs p b) : Performs p (.seq a b) := fun s j hj =>
  hb (a.run s) j ((ha.job s p).trans hj)

theorem performs_before {a b : Act} (ha : Performs p a) (hb : b.Quiet) : Performs p (.seq a b) := fun s j hj =>
  let ⟨res, w, hjob⟩ := ha s j hj
  ⟨res, w, (hb.job (a.run s) p).trans hjob⟩

theorem answers_ask {k : State → Act} (h : ∀ s, Answers p (k s)) : Answers p (.ask k) := fun s => h s s

@[simp] theorem answers_ite (c : Prop) [Decidable c] (a b : Act) :
    Answers p (if c then a else b) ↔ (c → Answers p a) ∧ (¬c → Answers p b) := by
  split <;> simp_all

@[simp] theorem answers_refuse (result : Nat) : Answers p (refuse p result) := fun s j hw hj =>
  ⟨result, [], .none, by simp [refuse, answer, hj], fun _ =>
    Act.Only.unchanged _ s ((only_modJob p _).2 (by simp)) (s.wf_regs hw)⟩

@[simp] theorem answers_badOp : Answers p (badOp p) := answers_refuse _

/-- A bad token is counted and noted, and its command refused (R375). -/
@[simp] theorem answers_tokenBad : Answers p (tokenBad p) := fun s j hw hj => by
  have hquiet : (acts [count F.FEN_CNT_TOKEN_BAD, event F.FEN_EVT_TOKEN_BAD]).Quiet := by simp
  have hjob : (((acts [count F.FEN_CNT_TOKEN_BAD, event F.FEN_EVT_TOKEN_BAD]).run s).job p) = some j := (hquiet.job s p).trans hj
  have hrun : (tokenBad p).run s =
      (refuse p mbBAD_ARG).run ((acts [count F.FEN_CNT_TOKEN_BAD, event F.FEN_EVT_TOKEN_BAD]).run s) := rfl
  refine ⟨mbBAD_ARG, [], .none, by rw [hrun, refuse, answer, job_modJob, hjob]; rfl, fun _ => ?_⟩
  refine Act.Only.unchanged _ s ?_ (s.wf_regs hw)
  simp only [tokenBad, only_acts_cons, only_acts_nil, and_true]
  exact ⟨(only_count _ (by decide)).2 (by decide), only_event _ (by decide) (by decide) (by simp),
    (only_modJob p _).2 (by simp)⟩

end

/-! ### The commands of Table SCP-5 -/

section
variable (p : Path) (a : Nat → Nat)

@[simp] theorem answers_ctxCreate : Answers p (ctxCreate p a) := answers_ask fun s => by
  simp only [answers_ite, answers_refuse, implies_true, true_and]
  intro _
  split
  · exact answers_refuse _
  · exact (performs_after (quiet_putWord _ _ _) (performs_after (quiet_modCtx _ _) (performs_answer _ _))).answers

@[simp] theorem answers_ctxDestroy : Answers p (ctxDestroy p a) := answers_ask fun s => by
  split
  · exact answers_refuse _
  · simp only [answers_ite, answers_refuse, implies_true, true_and]
    exact fun _ _ => (performs_after (quiet_ctxDie _) (performs_answer _ _)).answers

@[simp] theorem answers_ctxReinit : Answers p (ctxReinit p a) := answers_ask fun s => by
  split
  · exact answers_refuse _
  · simp only [answers_ite, answers_refuse, implies_true, true_and]
    exact fun _ _ => (performs_after (quiet_modCtx _ _) (performs_after ((quiet_upd _).2 rfl) (performs_after (by simp)
      (performs_after (by simp) (performs_answer _ _))))).answers

@[simp] theorem answers_queueCreate : Answers p (queueCreate p a) := answers_ask fun s => by
  split
  · exact answers_refuse _
  · simp only [answers_ite, answers_refuse, implies_true, true_and]
    intro _ _
    split
    · exact (performs_after (quiet_modQueue _ _) (performs_answer _ _)).answers
    · exact answers_refuse _

@[simp] theorem answers_queueDestroy : Answers p (queueDestroy p a) := answers_ask fun s => by
  split
  · exact answers_refuse _
  · simp only [answers_ite, answers_refuse, implies_true, true_and]
    exact fun _ => (performs_after (quiet_modQueue _ _) (performs_after (quiet_killRing _) (performs_after (by simp)
      (performs_after (quiet_dropDue _) (performs_after quiet_queueSettle (performs_answer _ _)))))).answers

@[simp] theorem answers_chanCreate : Answers p (chanCreate p a) := answers_ask fun s => by
  split
  · exact answers_refuse _
  · simp only [answers_ite, answers_refuse, implies_true, true_and]
    intro _ _
    split
    · exact (performs_after (quiet_chanMake _ _ _ _ _ _) (performs_answer _ _)).answers
    · exact answers_refuse _

@[simp] theorem answers_chanDestroy : Answers p (chanDestroy p a) := answers_ask fun s => by
  split
  · exact answers_refuse _
  · simp only [answers_ite, answers_refuse, implies_true, true_and]
    exact fun _ => (performs_after (quiet_dyingChan _ _) (performs_answer _ _)).answers

@[simp] theorem answers_chanReinit : Answers p (chanReinit p a) := answers_ask fun s => by
  split
  · exact answers_refuse _
  · simp only [answers_ite, answers_refuse, implies_true, true_and]
    exact fun _ _ => (performs_after (quiet_modChan _ _) (performs_answer _ _)).answers

@[simp] theorem answers_memCreate : Answers p (memCreate p a) := answers_ask fun s => by
  dsimp only
  split
  · exact answers_refuse _
  · simp only [answers_ite, answers_refuse, implies_true, true_and]
    intro _ _ _ _ _ _
    split
    · exact answers_refuse _
    · exact (performs_after (by simp) (performs_after (quiet_modMobj _ _) (performs_answer _ _))).answers

@[simp] theorem answers_memDestroy : Answers p (memDestroy p a) := answers_ask fun s => by
  split
  · exact answers_refuse _
  · simp only [answers_ite, answers_refuse, implies_true, true_and]
    exact fun _ => (performs_after (quiet_memDestroyReq _) (performs_answer _ _)).answers

@[simp] theorem answers_refOp : Answers p (refOp p a) := answers_ask fun s => by
  split
  · exact answers_refuse _
  all_goals simp only [answers_ite, answers_refuse, implies_true, true_and]
  · exact fun _ _ => (performs_after (quiet_modMobj _ _) (performs_answer _ _)).answers
  · exact fun _ _ => (performs_after (quiet_modFence _ _) (performs_answer _ _)).answers

@[simp] theorem answers_unrefOp : Answers p (unrefOp p a) := answers_ask fun s => by
  split
  · exact answers_refuse _
  all_goals simp only [answers_ite, answers_refuse, implies_true, true_and]
  · exact fun _ => (performs_after (quiet_modMobj _ _) (performs_before (performs_answer _ _) (quiet_memTryFree _))).answers
  · exact fun _ => (performs_after (quiet_modFence _ _) (performs_before (performs_answer _ _) (quiet_fenceTryFree _))).answers

@[simp] theorem answers_fenceCreate : Answers p (fenceCreate p a) := answers_ask fun s => by
  split
  · exact answers_refuse _
  · simp only [answers_ite, answers_refuse, implies_true, true_and]
    intro _
    split
    · exact answers_refuse _
    · exact (performs_after (quiet_modFence _ _) (performs_answer _ _)).answers

@[simp] theorem answers_fenceDestroy : Answers p (fenceDestroy p a) := answers_ask fun s => by
  split
  · exact answers_refuse _
  · simp only [answers_ite, answers_refuse, implies_true, true_and]
    exact fun _ _ => (performs_after (quiet_fenceDestroyReq _) (performs_answer _ _)).answers

@[simp] theorem answers_fenceExport : Answers p (fenceExport p a) := answers_ask fun s => by
  split
  · exact answers_refuse _
  · simp only [answers_ite, answers_refuse, implies_true, true_and]
    exact fun _ => (performs_after ((quiet_when _ _).2 fun _ => quiet_drawFree fun _ => quiet_modFence _ _)
      (performs_ask fun _ => performs_answer _ _)).answers

@[simp] theorem answers_importAsk (n tok : Nat) : Answers p (importAsk p n tok) := answers_ask fun s => by
  dsimp only
  split
  · exact answers_refuse _
  · exact (performs_before (performs_answer _ _) (quiet_zForward _ _ _ _ _)).answers

@[simp] theorem answers_fenceImport : Answers p (fenceImport p a) := answers_ask fun s => by
  simp only [answers_ite, answers_refuse, answers_tokenBad, implies_true, true_and]
  intro _ _ _
  split
  · exact answers_refuse _
  · simp only [answers_ite, answers_refuse, answers_importAsk, implies_true, true_and]
    exact fun _ _ _ => (performs_after (quiet_importBits _ _) (performs_answer _ _)).answers

theorem answers_stageOp (argOk right : Bool) (v : Nat) : Answers p (stageOp p a argOk right v) := answers_ask fun s => by
  split
  · exact answers_refuse _
  · simp only [answers_ite, answers_refuse, implies_true, true_and]
    exact fun _ _ _ => (performs_answer _ _).answers

@[simp] theorem answers_stageMap : Answers p (stageMap p a) := answers_ask fun _ => answers_stageOp _ _ _ _ _

@[simp] theorem answers_stageUnmap : Answers p (stageUnmap p a) := answers_stageOp _ _ _ _ _

@[simp] theorem answers_chairtabOpen : Answers p (chairtabOpen p a) := answers_ask fun s => by
  split
  · exact answers_refuse _
  · simp only [answers_ite, answers_refuse, implies_true, true_and]
    exact fun _ _ _ => (performs_answer _ _).answers

@[simp] theorem answers_laneReinit : Answers p (laneReinit p a) := answers_ask fun s => by
  simp only [answers_ite, answers_refuse, implies_true, true_and]
  exact fun _ _ _ => (performs_after (quiet_laneDown _ _ _) (performs_answer _ _)).answers

@[simp] theorem answers_engineReinit : Answers p (engineReinit p a) := answers_ask fun s => by
  simp only [answers_ite, answers_refuse, implies_true, true_and]
  exact fun _ _ _ => (performs_after (quiet_flushEngine _) (performs_after (quiet_modEngine _ _) (performs_answer _ _))).answers

end

/-! ### A CMD_OP write -/

/-- The command of a CMD_OP write as it begins: its arguments latched, behind the other path's when that has not finished. -/
def State.newJob (s : State) (p : Path) (op seq : Nat) : Job :=
  ⟨op % 256, (List.range 6).map (s.arg p), seq % 256, mbOK, [], .none, false, (s.job (otherPath p)).isSome⟩

/-- The command begins. -/
def beginJob (p : Path) (j : Job) : Act := modJob p fun _ => some j

theorem beginJob_job (p : Path) (j : Job) (s : State) : ((beginJob p j).run s).job p = some j := job_modJob p _ s

theorem beginJob_unchanged (p : Path) (j : Job) {s : State} (hw : s.wf = true) : Unchanged [jobPart p] [] s ((beginJob p j).run s) :=
  Act.Only.unchanged _ s ((only_modJob p _).2 (by simp)) (s.wf_regs hw)

section
variable {s : State} {p : Path} (h : Reaches s p 0x0D8) (op seq : Nat) (body : (Nat → Nat) → Act)
include h

theorem mailOp_run_ended (hend : s.pwr.seq.isSome = true ∨ s.pwr.quiesced = true) : (mailOp p op seq body).run s = s := by
  have hend : (s.pwr.seq.isSome || s.pwr.quiesced) = true := by simpa using hend
  rw [mailOp, pathWrite_run_of_reaches h, run_ask]
  simp only [hend, if_true]
  rfl

theorem mailOp_run_busy (hseq : s.pwr.seq = none) (hquiesced : s.pwr.quiesced = false) (hbusy : s.busy p = true) :
    (mailOp p op seq body).run s = (putI (pathInst p) F.CMD_STAT_OVERRUN 1).run s := by
  have hlive : (s.pwr.seq.isSome || s.pwr.quiesced) = false := by simp [hseq, hquiesced]
  rw [mailOp, pathWrite_run_of_reaches h, run_ask]
  simp only [hlive, hbusy, if_true, if_false, Bool.false_eq_true]

theorem mailOp_run_begun (hseq : s.pwr.seq = none) (hquiesced : s.pwr.quiesced = false) (hbusy : s.busy p = false) :
    (mailOp p op seq body).run s = (when_ (!(s.job (otherPath p)).isSome)
      (if s.pfHeld then refuse p mbWRONG_STATE else body (s.arg p))).run ((beginJob p (s.newJob p op seq)).run s) := by
  have hlive : (s.pwr.seq.isSome || s.pwr.quiesced) = false := by simp [hseq, hquiesced]
  rw [mailOp, pathWrite_run_of_reaches h, run_ask]
  simp only [hlive, hbusy, if_false, Bool.false_eq_true]
  rfl

end

/-- A mailbox row is a CMD_OP write whose command answers; an opcode that Table SCP-5 does not hold is refused (R103). -/
theorem exec_of_mailRow {i : Instr} {r : Path × Nat} (hrow : mailRow i = some r) {s : State} (hrun : Running s) :
    ∃ op body, exec i s = .next ((mailOp r.1 op r.2 body).run s) ∧ (∀ a, Answers r.1 (body a)) ∧
      (isBadOp i = true → ∀ a, body a = refuse r.1 mbBAD_OP) := by
  cases i with
  | badOp p op seq =>
    obtain ⟨hop, hr⟩ := Option.ite_none_left_eq_some.1 hrow
    cases hr
    refine ⟨op, fun _ => badOp p, row_next hrun ?_, fun _ => answers_badOp, fun _ _ => rfl⟩
    rw [run_when, (Bool.not_eq_true _).mp hop]
    rfl
  | ctxCreate p q | ctxDestroy p q | ctxReinit p q | queueCreate p q | queueDestroy p q | chanCreate p q | chanDestroy p q
  | chanReinit p q | memCreate p q | memDestroy p q | ref p q | unref p q | fenceCreate p q | fenceDestroy p q | fenceExport p q
  | fenceImport p q | stageMap p q | stageUnmap p q | chairtabOpen p q | laneReinit p q | engineReinit p q =>
    cases hrow
    exact ⟨_, _, row_next hrun rfl, fun _ => by simp, nofun⟩
  | _ => cases hrow

/-! ### O16 -/

/-- What a command that begins brings about: it is performed, or refused with nothing else changed. -/
theorem mailOp_begins {s : State} {p : Path} (h : Reaches s p 0x0D8) (op seq : Nat) {body : (Nat → Nat) → Act}
    (hbody : ∀ a, Answers p (body a)) (hseq : s.pwr.seq = none) (hquiesced : s.pwr.quiesced = false) (hbusy : s.busy p = false) :
    ∃ result res w, ((mailOp p op seq body).run s).job p = some { s.newJob p op seq with result := result, res := res, wait := w } ∧
      (result ≠ mbOK → Unchanged [jobPart p, .host] [0x2F8, 0x2F4] s ((mailOp p op seq body).run s)) ∧
      ((s.job (otherPath p)).isSome = true → Unchanged [jobPart p] [] s ((mailOp p op seq body).run s)) := by
  have hw := h.1.1
  have hbegun := beginJob_unchanged p (s.newJob p op seq) hw
  rw [mailOp_run_begun h op seq body hseq hquiesced hbusy]
  cases hother : (s.job (otherPath p)).isSome with
  | true => exact ⟨mbOK, [], .none, beginJob_job _ _ _, fun hne => absurd rfl hne, fun _ => hbegun⟩
  | false =>
    have hact : Answers p (if s.pfHeld then refuse p mbWRONG_STATE else body (s.arg p)) := by simp [hbody]
    obtain ⟨result, res, w, hjob, hrefused⟩ := hact _ _ (Act.run_wf (beginJob p (s.newJob p op seq)) s hw) (beginJob_job _ _ _)
    exact ⟨result, res, w, hjob, fun hne => (hbegun.mono (by simp) (List.nil_subset _)).trans (hrefused hne), nofun⟩

/-- With no command of the other path in progress, a refused command is the begun one with that result. -/
theorem mailOp_refused {s : State} {p : Path} (h : Reaches s p 0x0D8) (op seq : Nat) {body : (Nat → Nat) → Act} {result : Nat}
    (hseq : s.pwr.seq = none) (hquiesced : s.pwr.quiesced = false) (hbusy : s.busy p = false) (hother : s.job (otherPath p) = none)
    (hact : (if s.pfHeld then refuse p mbWRONG_STATE else body (s.arg p)) = refuse p result) :
    ((mailOp p op seq body).run s).job p = some { s.newJob p op seq with result := result } ∧
      Unchanged [jobPart p] [] s ((mailOp p op seq body).run s) := by
  have hw := h.1.1
  have hbegun := beginJob_unchanged p (s.newJob p op seq) hw
  have hrun : (mailOp p op seq body).run s = (refuse p result).run ((beginJob p (s.newJob p op seq)).run s) := by
    rw [mailOp_run_begun h op seq body hseq hquiesced hbusy, hother, hact]
    rfl
  rw [hrun]
  refine ⟨by rw [refuse, answer, job_modJob, beginJob_job]; rfl, hbegun.trans ?_⟩
  exact Act.Only.unchanged _ _ ((only_modJob p _).2 (by simp)) (State.wf_regs _ (Act.run_wf _ s hw))

/-- A command written while the path's own is in progress sets OVERRUN alone (R104). -/
theorem overrun_alone {s : State} (hw : Regs.wf s.regs = true) (p : Path) (t : State)
    (ht : (putI (pathInst p) F.CMD_STAT_OVERRUN 1).run s = t) :
    t.fldI (pathInst p) F.CMD_STAT_OVERRUN = 1 ∧
      t.fldI (pathInst p) F.CMD_STAT_DONE_EVT = s.fldI (pathInst p) F.CMD_STAT_DONE_EVT ∧
      t.fldI (pathInst p) F.CMD_STAT_RESULT = s.fldI (pathInst p) F.CMD_STAT_RESULT ∧
      t.word (pathInst (otherPath p)) 0x0DC = s.word (pathInst (otherPath p)) 0x0DC ∧ Unchanged [] [0x0DC] s t := by
  subst ht
  have hok : ∀ f ∈ [F.CMD_STAT_OVERRUN, F.CMD_STAT_DONE_EVT, F.CMD_STAT_RESULT], f.ok := by simp only [Fld.ok_iff]; decide
  simp only [List.forall_mem_cons] at hok
  obtain ⟨hover, hdone, hresult, _⟩ := hok
  have hinst : 0x0DC + 0x1000 * pathInst (otherPath p) ≠ 0x0DC + 0x1000 * pathInst p := by cases p <;> simp [otherPath, pathInst]
  exact ⟨fldI_putI_same _ _ _ _ hw hover, fldI_putI_disjoint _ _ _ _ _ hw hover hdone rfl (by decide),
    fldI_putI_disjoint _ _ _ _ _ hw hover hresult rfl (by decide), word_setReg_ne _ _ _ _ _ hw hinst,
    Act.Only.unchanged _ s ((only_putI _ _ _ (by decide)).2 (by decide)) hw⟩

/-- Settles O16: every command of Table SCP-5 answers by performing itself or by a refusal that changes nothing. -/
theorem mailboxCommandsBeginWhole : Obligations.MailboxCommandsBeginWhole := by
  refine ⟨fun s p op seq hready hop => ?_, fun s i r hrow hreach =>
    ⟨fun hseq hquiesced hbusy => ?_, fun hseq hquiesced hbusy => ?_, fun hend => ?_⟩⟩
  · obtain ⟨hreach, hbusy, hother, hseq, hquiesced, hpf⟩ := hready
    obtain ⟨hjob, hunch⟩ := mailOp_refused (result := mbBAD_OP) (body := fun _ => badOp p) hreach op seq hseq hquiesced hbusy hother
      (by rw [hpf]; rfl)
    refine ⟨_, row_next (running_of_pathFree hreach.1) (by rw [hop]; rfl), ?_, hunch⟩
    rw [Begun, hjob]
    simp [State.newJob, hother]
  · obtain ⟨op, body, hexec, hbody, hbad⟩ := exec_of_mailRow hrow (running_of_pathFree hreach.1)
    obtain ⟨result, res, w, hjob, hrefused, hsecond⟩ := mailOp_begins hreach op r.2 hbody hseq hquiesced hbusy
    refine ⟨_, hexec, by rw [hjob]; rfl, fun j hj => ?_⟩
    obtain rfl : { s.newJob r.1 op r.2 with result := result, res := res, wait := w } = j := Option.some.inj (hjob.symm.trans hj)
    have hresult : ∀ x, (s.newJob r.1 op r.2).second = false →
        (if s.pfHeld then refuse r.1 mbWRONG_STATE else body (s.arg r.1)) = refuse r.1 x → result = x := fun x hfirst hact =>
      have hother := Option.not_isSome_iff_eq_none.1 (Bool.eq_false_iff.1 hfirst)
      congrArg Job.result (Option.some.inj
        (hjob.symm.trans (mailOp_refused hreach op r.2 hseq hquiesced hbusy hother hact).1))
    refine ⟨rfl, rfl, rfl, rfl, hsecond, fun hfirst hpf => hresult _ hfirst (if_pos hpf), fun hfirst hop hpf => ?_, hrefused⟩
    exact hresult _ hfirst ((if_neg (by simp [hpf])).trans (hbad hop _))
  · obtain ⟨op, body, hexec, _⟩ := exec_of_mailRow hrow (running_of_pathFree hreach.1)
    rw [mailOp_run_busy hreach op r.2 body hseq hquiesced hbusy] at hexec
    exact ⟨_, hexec, overrun_alone (s.wf_regs hreach.1.1) r.1 _ rfl⟩
  · obtain ⟨op, body, hexec, _⟩ := exec_of_mailRow hrow (running_of_pathFree hreach.1)
    rw [hexec, mailOp_run_ended hreach op r.2 body hend]

end Sys2Proof.Machine
end

section
/-!
SUPPORT. The meanings that a register write reaches and that keep away from the paths, as in the section on such meanings above.
-/

namespace Sys2Proof.Machine

-- As there: many short proofs, one after another.
set_option Elab.async false

/-! ### Changes of one piece of state, and passing time -/

@[simp] theorem quiet_modWick (i : Nat) (f : Wick → Wick) : (modWick i f).Quiet := quiet_ask fun _ => rfl
@[simp] theorem quiet_modWheel (f : Wheel → Wheel) : (modWheel f).Quiet := quiet_ask fun _ => rfl
@[simp] theorem quiet_modPtm (f : Ptm → Ptm) : (modPtm f).Quiet := quiet_ask fun _ => rfl
@[simp] theorem quiet_modBoot (f : Boot → Boot) : (modBoot f).Quiet := quiet_ask fun _ => rfl
@[simp] theorem quiet_modOtp (f : Otp → Otp) : (modOtp f).Quiet := quiet_ask fun _ => rfl
@[simp] theorem quiet_modPwr (f : Power → Power) : (modPwr f).Quiet := quiet_ask fun _ => rfl
@[simp] theorem quiet_modPeer (p : Nat) (f : Peer → Peer) : (modPeer p f).Quiet := quiet_modZhn _
@[simp] theorem quiet_fillGroup : fillGroup.Quiet := quiet_ask fun _ => by simp [Upd.quiet, Upd.part]
@[simp] theorem quiet_fillBy (n : Nat) : (fillBy n).Quiet := quiet_ask fun _ => quiet_rep _ quiet_fillGroup
@[simp] theorem quiet_wbqDrain (n : Nat) : (wbqDrain n).Quiet := quiet_ask fun _ => by simp [Upd.quiet, Upd.part]
@[simp] theorem quiet_eofBy (n : Nat) : (eofBy n).Quiet := quiet_ask fun _ => by simp
@[simp] theorem quiet_tickBy (n : Nat) : (tickBy n).Quiet := quiet_ask fun _ => by simp [Upd.quiet, Upd.part]
@[simp] theorem quiet_advanceTo (clk : Nat) : (advanceTo clk).Quiet := quiet_ask fun _ => quiet_tickBy _
@[simp] theorem quiet_zAnswer (typ dst opId : Nat) (body : List Byte) : (zAnswer typ dst opId body).Quiet := by simp [zAnswer]

/-! ### Memories, engines and the protection unit -/

@[simp] theorem quiet_protCapture (a : Access) (cause region shade : Nat) : (protCapture a cause region shade).Quiet :=
  quiet_ask fun _ => by simp
@[simp] theorem quiet_touchReadLine (q : FReq) (eng : Option Nat) (space line : Nat) : (touchReadLine q eng space line).Quiet :=
  (quiet_forEach _ _).2 fun _ _ => quiet_ask fun _ => by simp
@[simp] theorem quiet_touchRead (q : FReq) (eng : Option Nat) (space a n : Nat) : (touchRead q eng space a n).Quiet :=
  quiet_ask fun _ => by simp
@[simp] theorem quiet_wcbRoom (e : Nat) : (wcbRoom e).Quiet := quiet_ask fun _ => by simp
@[simp] theorem quiet_wcbPut (e space a : Nat) (bs : List Byte) : (wcbPut e space a bs).Quiet :=
  ⟨quiet_ask fun _ => by simp, quiet_ask fun _ => quiet_modEngine _ _, quiet_ask fun _ => by simp⟩
@[simp] theorem quiet_engineWrite (q : FReq) (e space a : Nat) (bs : List Byte) : (engineWrite q e space a bs).Quiet := by
  simp [engineWrite]
@[simp] theorem quiet_shadeRange (first n shade : Nat) : (shadeRange first n shade).Quiet := by
  simp [shadeRange, Upd.quiet, Upd.part]
@[simp] theorem quiet_govRefused (space a off cause region shade : Nat) (acc : Access) :
    (govRefused space a off cause region shade acc).Quiet := by simp [govRefused]
@[simp] theorem quiet_govWrite (space a : Nat) (bs : List Byte) : (govWrite space a bs).Quiet :=
  quiet_ask fun _ => by dsimp only; split <;> simp
theorem quiet_govRead (a n : Nat) {k : Option (List Byte) → Act} (h : ∀ o, (k o).Quiet) : (govRead a n k).Quiet :=
  quiet_ask fun _ => by
    dsimp only
    split
    · exact ⟨quiet_touchRead _ _ _ _ _, quiet_ask fun _ => h _⟩
    · exact ⟨quiet_govRefused _ _ _ _ _ _ _, h _⟩
    · exact h _
@[simp] theorem quiet_postWrite (q : FReq) (k : WKind) (addr : Nat) (bs : List Byte) (ro ns : Bool) (ctx : Nat) :
    (postWrite q k addr bs ro ns ctx).Quiet := quiet_ask fun _ => by simp
@[simp] theorem quiet_startWalk (who : Who) (ctx va : Nat) (write : Bool) (q : FReq) : (startWalk who ctx va write q).Quiet :=
  quiet_ask fun _ => by simp

/-! ### A channel's accesses -/

@[simp] theorem quiet_queueAt (c : Nat) (p : Park) : (queueAt c p).Quiet := quiet_ask fun _ => by simp
@[simp] theorem quiet_stallChan (c : Nat) (p : Park) : (stallChan c p).Quiet := by simp [stallChan]
@[simp] theorem quiet_dropCopies (c space a n : Nat) : (dropCopies c space a n).Quiet := by simp [dropCopies]
@[simp] theorem quiet_renew (c : Nat) : (renew c).Quiet := quiet_ask fun _ => by simp
@[simp] theorem quiet_movedBytes (c n : Nat) : (movedBytes c n).Quiet := quiet_ask fun _ => by simp
@[simp] theorem quiet_accessFault (c status off addr : Nat) : (accessFault c status off addr).Quiet := by simp [accessFault]
@[simp] theorem quiet_walkFor (c adr : Nat) (write : Bool) : (walkFor c adr write).Quiet := quiet_ask fun _ => by simp
@[simp] theorem quiet_viewWait (c entry : Nat) : (viewWait c entry).Quiet := quiet_ask fun _ => quiet_stallChan _ _
@[simp] theorem quiet_beatStall (c full : Nat) : (beatStall c full).Quiet := by simp [beatStall]
@[simp] theorem quiet_peerAccess (c : Nat) (d : Cur) (full n : Nat) (wr : Option (List Byte)) : (peerAccess c d full n wr).Quiet :=
  quiet_ask fun _ => by simp
@[simp] theorem quiet_wrote (c k : Nat) : (wrote c k).Quiet := by simp [wrote]
@[simp] theorem quiet_writePiece (c : Nat) (d : Cur) (full n : Nat) (bs : List Byte) : (writePiece c d full n bs).Quiet :=
  quiet_ask fun _ => by
    dsimp only
    split
    · simp
    · split
      · split <;> simp
      · split <;> simp
theorem quiet_putResult (c n : Nat) : (putResult c n).Quiet := by
  induction n with
  | zero => trivial
  | succ n ih =>
    refine quiet_ask fun _ => ?_
    split
    · trivial
    · split
      · trivial
      · split <;> simp [ih]
@[simp] theorem quiet_resultOn (c : Nat) : (resultOn c).Quiet := quiet_ask fun _ => by simp [quiet_putResult]

/-! ### Chairs, as far as nobody is told of one -/

@[simp] theorem quiet_chairTell (n : Nat) : (chairTell n).Quiet := quiet_ask fun _ => by simp
@[simp] theorem quiet_chairDeny : chairDeny.Quiet := by simp [chairDeny]
@[simp] theorem quiet_chairSit (n peer mid tag : Nat) : (chairSit n peer mid tag).Quiet := quiet_ask fun _ => by
  refine (quiet_when _ _).2 fun _ => ⟨quiet_modChair _ _, quiet_chairTell _, (quiet_forEach _ _).2 fun w _ => ?_⟩
  split <;> simp
@[simp] theorem quiet_chairWaitArrive (p : Path) (n : Nat) : (chairWaitArrive p n).Quiet := quiet_ask fun _ => by simp
@[simp] theorem quiet_kindleChairGone (n : Nat) : (kindleChairGone n).Quiet := quiet_ask fun _ => by simp
@[simp] theorem quiet_kindleChairCheck : kindleChairCheck.Quiet := quiet_ask fun _ => by simp
@[simp] theorem quiet_sitAct (p : Path) (n tag : Nat) : (sitAct p n tag).Quiet := quiet_ask fun _ => by simp

/-! ### Boot, INIT and the windows -/

@[simp] theorem quiet_flashLoad : flashLoad.Quiet := quiet_ask fun _ => by simp
@[simp] theorem quiet_initGo : initGo.Quiet := quiet_ask fun _ => by simp [Upd.quiet, Upd.part]
@[simp] theorem quiet_winFault (p : Path) (cause : Nat) : (winFault p cause).Quiet := quiet_ask fun _ => by simp
@[simp] theorem quiet_winAdvance (p : Path) : (winAdvance p).Quiet := quiet_ask fun _ => by simp
@[simp] theorem quiet_shdAdvance : shdAdvance.Quiet := quiet_ask fun _ => by simp
@[simp] theorem quiet_bootGo : bootGo.Quiet := quiet_ask fun _ => by simp
@[simp] theorem quiet_otpCtlWrite (p : Path) (v : Word) : (otpCtlWrite p v).Quiet := quiet_ask fun _ => by simp
@[simp] theorem quiet_otpDataWrite (v : Word) : (otpDataWrite v).Quiet := quiet_ask fun _ => by simp

/-! ### The Cupboard's operation -/

@[simp] theorem quiet_cupGrant (c : Nat) : (cupGrant c).Quiet := quiet_ask fun _ => by simp
@[simp] theorem quiet_allocFail (ctx cause : Nat) : (allocFail ctx cause).Quiet := by simp [allocFail]
@[simp] theorem quiet_allocKeyRefused (c ctx : Nat) (d : List Word) : (allocKeyRefused c ctx d).Quiet := quiet_protCapture _ _ _ _
theorem quiet_allocMake (ctx : Nat) (d : List Word) (o : AllocOut) {k : Nat → Nat → Nat → Act} (h : ∀ x y z, (k x y z).Quiet) :
    (allocMake ctx d o k).Quiet := by
  unfold allocMake
  dsimp only
  split <;> simp [h]
/-- What an ALLOC gets does not depend on the control port. -/
theorem allocOut_scp (s : State) (x : PathPort) (ctx : Nat) (d : List Word) :
    State.allocOut { s with scp := x } ctx d = s.allocOut ctx d := by
  have hfld : ∀ f, State.fld { s with scp := x } f = s.fld f := fun _ => rfl
  have hword : ∀ i off, State.word { s with scp := x } i off = s.word i off := fun _ _ => rfl
  have hctx : State.ctx { s with scp := x } ctx = s.ctx ctx := rfl
  have hmem : State.freeMemIndex { s with scp := x } = s.freeMemIndex := rfl
  have hcup : State.cupPages { s with scp := x } ctx = s.cupPages ctx := rfl
  have hpages : ∀ n, State.freePages { s with scp := x } n = s.freePages n := fun _ => rfl
  have hview : ∀ n al, State.freeViewRun { s with scp := x } ctx n al = s.freeViewRun ctx n al := fun _ _ => rfl
  have hgran : ∀ n al, State.freeGranules { s with scp := x } n al = s.freeGranules n al := fun _ _ => rfl
  simp only [State.allocOut, State.flag, hfld, hword, hctx, hmem, hcup, hpages, hview, hgran]
  rfl
@[simp] theorem quiet_allocEnd (o : CupOp) : (allocEnd o).Quiet := quiet_ask (fun _ => by
  dsimp only
  split
  · simp
  · simp
  · refine quiet_allocMake _ _ _ fun _ _ _ => ?_
    split
    · exact ⟨quiet_memFree _, quiet_event _, quiet_ask fun _ => by simp⟩
    · exact quiet_ask fun _ => by simp [quiet_putResult])
  fun s x => by simp only [allocOut_scp]; rfl
@[simp] theorem quiet_freeEnd (o : CupOp) : (freeEnd o).Quiet := quiet_ask fun _ => by simp
@[simp] theorem quiet_cupEndAct : cupEndAct.Quiet := quiet_ask fun _ => by
  refine (quiet_forSome _ _).2 fun _ _ => ⟨quiet_modCup _, by simp, quiet_ask fun _ => by simp [quiet_arbitrate]⟩

/-! ### Doorbells and stops -/

theorem quiet_devDb (off : Nat) (v : Word) (ok : Queue → Nat → Bool) {go : Nat → Nat → Act} (h : ∀ q x, (go q x).Quiet) :
    (devDb off v ok go).Quiet := quiet_ask fun _ => by simp [h]
@[simp] theorem quiet_setTail (q v : Nat) : (setTail q v).Quiet := quiet_modQueue _ _
@[simp] theorem quiet_setHead (q v : Nat) : (setHead q v).Quiet := by simp [setHead]
@[simp] theorem quiet_sqDbWrite (v : Word) : (sqDbWrite v).Quiet := quiet_devDb _ _ _ quiet_setTail
@[simp] theorem quiet_cqDbWrite (v : Word) : (cqDbWrite v).Quiet := quiet_devDb _ _ _ quiet_setHead
@[simp] theorem quiet_stopTry (c : Nat) : (stopTry c).Quiet := quiet_ask fun _ => by simp
@[simp] theorem quiet_stopReq (c mode : Nat) : (stopReq c mode).Quiet := quiet_ask fun _ => by simp

/-! ### Contexts that go, but for their chairs -/

@[simp] theorem quiet_lampReleaseCtx (n : Nat) : (lampReleaseCtx n).Quiet := quiet_lampDrop _
@[simp] theorem quiet_dropHolds (n : Nat) : (dropHolds n).Quiet := quiet_ask fun _ =>
  ⟨(quiet_forEach _ _).2 fun _ _ => quiet_ask fun _ => by simp, (quiet_forEach _ _).2 fun _ _ => quiet_ask fun _ => by simp⟩
@[simp] theorem quiet_unwindCup (n : Nat) : (unwindCup n).Quiet := quiet_ask fun _ => by simp
@[simp] theorem quiet_destroyOwned (n : Nat) : (destroyOwned n).Quiet := quiet_ask fun _ => by simp
@[simp] theorem quiet_ctxFree (n : Nat) : (ctxFree n).Quiet := ⟨quiet_putWord _ _ _, quiet_takeFreeSeq fun _ => quiet_modCtx _ _⟩
@[simp] theorem quiet_walksAgain : walksAgain.Quiet := quiet_ask fun _ => quiet_modHost _
@[simp] theorem quiet_tlbInvAct (v : Word) : (tlbInvAct v).Quiet := quiet_ask fun _ => by simp [Upd.quiet, Upd.part]
@[simp] theorem quiet_perstChan (c : Nat) : (perstChan c).Quiet := by simp [perstChan]
@[simp] theorem quiet_ptmFail : ptmFail.Quiet := quiet_ask fun _ => by simp

/-! ### Register writes by their fields, and the protection unit's -/

@[simp] theorem quiet_plainWrite (inst off : Nat) (v : Word) : (plainWrite inst off v).Quiet :=
  quiet_ask fun _ => quiet_withAlert _ _ (quiet_putWord _ _ _)
@[simp] theorem quiet_captureClear (off : Nat) (v : Word) : (captureClear off v).Quiet := by simp [captureClear]
@[simp] theorem quiet_fieldWrite (p : Path) (off : Nat) (v : Word) : (fieldWrite p off v).Quiet := quiet_ask fun _ => by simp
@[simp] theorem quiet_regionSelect (i : Nat) : (regionSelect i).Quiet := quiet_ask fun _ => by simp
@[simp] theorem quiet_regionCommit (i : Nat) : (regionCommit i).Quiet := quiet_ask fun _ => by simp
@[simp] theorem quiet_rgnIdxWrite (v : Word) : (rgnIdxWrite v).Quiet := by simp [rgnIdxWrite]
@[simp] theorem quiet_shadeOverrun : shadeOverrun.Quiet := quiet_event _
@[simp] theorem quiet_shdDataWrite (v : Word) : (shdDataWrite v).Quiet := quiet_ask fun _ => by simp [Upd.quiet, Upd.part]
@[simp] theorem quiet_shdAddrWrite (p : Path) (v : Word) : (shdAddrWrite p v).Quiet := quiet_ask fun _ => by simp
@[simp] theorem quiet_shdFillWrite (v : Word) : (shdFillWrite v).Quiet := quiet_ask fun _ => by simp [Upd.quiet, Upd.part]
@[simp] theorem quiet_stallCheck (c : Nat) : (stallCheck c).Quiet := quiet_ask fun _ => by
  refine (quiet_forSome _ _).2 fun _ _ => ?_
  dsimp only
  split <;> simp
@[simp] theorem quiet_stallWake : stallWake.Quiet := quiet_ask fun _ =>
  (quiet_when _ _).2 fun _ => ⟨quiet_tickBy _, (quiet_forEach _ _).2 fun _ _ => quiet_ask fun _ => by simp⟩
@[simp] theorem quiet_prtCtlWrite (p : Path) (v : Word) : (prtCtlWrite p v).Quiet :=
  ⟨quiet_fieldWrite _ _ _, quiet_ask fun _ => by simp⟩

/-! ### The wheel's, the lanes' and the governor's registers -/

@[simp] theorem quiet_notLocked : notLocked.Quiet := quiet_modGov _
@[simp] theorem quiet_loneCandidate : loneCandidate.Quiet := quiet_ask fun _ => by simp
@[simp] theorem quiet_sourceChange : sourceChange.Quiet := by simp [sourceChange]
@[simp] theorem quiet_nominalWrite (p : Path) (v : Word) : (nominalWrite p v).Quiet := quiet_ask fun _ => by simp
@[simp] theorem quiet_whlCtlWrite (p : Path) (v : Word) : (whlCtlWrite p v).Quiet := quiet_ask fun _ =>
  ⟨quiet_fieldWrite _ _ _, quiet_ask fun _ => by simp⟩
@[simp] theorem quiet_ptmStart : ptmStart.Quiet := quiet_ask fun _ => by simp
@[simp] theorem quiet_ptmCtlWrite (p : Path) (v : Word) : (ptmCtlWrite p v).Quiet := quiet_ask fun _ =>
  ⟨quiet_fieldWrite _ _ _, quiet_ask fun _ => by simp, by simp⟩
@[simp] theorem quiet_lanCtlWrite (p : Path) (l : Nat) (v : Word) : (lanCtlWrite p l v).Quiet := quiet_ask fun _ =>
  ⟨quiet_fieldWrite _ _ _, quiet_ask fun _ => by simp⟩
theorem quiet_kindleCopy (n i : Nat) : (kindleCopy n i).Quiet := by
  induction n generalizing i with
  | zero => trivial
  | succ n ih =>
    refine quiet_ask fun _ => ?_
    dsimp only
    split
    · simp
    · exact ⟨quiet_touchRead _ _ _ _ _, quiet_ask fun _ => quiet_storeBytes _ _ _, ih _⟩
@[simp] theorem quiet_kindleGo (p : Path) : (kindleGo p).Quiet := quiet_ask fun _ => by simp [quiet_kindleCopy]
theorem quiet_usedRails (l : List Nat) (acc : List (Nat × List Byte)) {k : List (Nat × List Byte) → Act} (h : ∀ l, (k l).Quiet) :
    (usedRails l acc k).Quiet := by
  induction l generalizing acc with
  | nil => exact h _
  | cons r l ih =>
    refine quiet_ask fun _ => (quiet_ite _ _ _).2 ⟨fun _ => quiet_govRead _ _ fun o => ?_, fun _ => ih _⟩
    split
    · exact ih _
    · exact ih _
@[simp] theorem quiet_govRecord (r : GovRec) : (govRecord r).Quiet := quiet_ask fun _ => by simp
@[simp] theorem quiet_winRecord (wt : WTime) (kind outcome rail knob old new iavg thresh : Nat) :
    (winRecord wt kind outcome rail knob old new iavg thresh).Quiet := quiet_ask fun _ => quiet_govRecord _
@[simp] theorem quiet_hystRestart : hystRestart.Quiet := quiet_modGov _
@[simp] theorem quiet_knobRevert (k : Knob) (new : Nat) : (knobRevert k new).Quiet := quiet_ask fun _ => by simp
@[simp] theorem quiet_revertAct : revertAct.Quiet := quiet_ask fun _ => by simp
@[simp] theorem quiet_govEnable : govEnable.Quiet := quiet_ask fun _ => by simp [quiet_usedRails]
@[simp] theorem quiet_govCtlWrite (p : Path) (v : Word) : (govCtlWrite p v).Quiet := quiet_ask fun _ =>
  ⟨quiet_fieldWrite _ _ _, quiet_ask fun _ => by simp, by simp⟩
@[simp] theorem quiet_limWrite (p : Path) (off : Nat) (v : Word) : (limWrite p off v).Quiet := by simp [limWrite]
@[simp] theorem quiet_railWrite (p : Path) (v : Word) : (railWrite p v).Quiet := quiet_ask fun _ => by simp
@[simp] theorem quiet_trkWrite (p : Path) (v : Word) : (trkWrite p v).Quiet := quiet_ask fun _ => by simp
@[simp] theorem quiet_arbCtlWrite (p : Path) (v : Word) : (arbCtlWrite p v).Quiet := quiet_ask fun _ => by
  simp [Upd.quiet, Upd.part]

/-! ### Wicks, peers and the remaining registers -/

@[simp] theorem quiet_padTo (w : Nat) (level : Bool) : (padTo w level).Quiet := quiet_ask fun _ => by simp
@[simp] theorem quiet_padDrive (w : Nat) : (padDrive w).Quiet := quiet_ask fun _ => by simp
@[simp] theorem quiet_wckCfgWrite (v : Word) : (wckCfgWrite v).Quiet := quiet_ask fun _ => by simp
@[simp] theorem quiet_wckOutWrite (p : Path) (off : Nat) (v : Word) : (wckOutWrite p off v).Quiet := by simp [wckOutWrite]
@[simp] theorem quiet_forgetSeen (port : Nat) : (forgetSeen port).Quiet := by simp [forgetSeen]
@[simp] theorem quiet_fenRetell : fenRetell.Quiet := quiet_ask fun _ => by simp
@[simp] theorem quiet_peerFault (c status : Nat) (wr : Bool) : (peerFault c status wr).Quiet := quiet_ask fun _ => by simp
@[simp] theorem quiet_outGone (o : ZOut) : (outGone o).Quiet := quiet_modZhn _
@[simp] theorem quiet_channelTold (c : Nat) (ph : Phase) (status : Nat) : (channelTold c ph status).Quiet :=
  quiet_ask fun _ => by simp
@[simp] theorem quiet_zRefuse (h : ZHdr) : (zRefuse h).Quiet := by simp [zRefuse]
@[simp] theorem quiet_zStall_perform (k : ZStall) (n : Nat) : (k.perform n).Quiet := by simp [ZStall.perform]
@[simp] theorem quiet_zStall_answer (k : ZStall) : k.answer.Quiet :=
  (quiet_ite _ _ _).2 ⟨fun _ => quiet_zAnswer _ _ _ _, fun _ => ⟨quiet_touchRead _ _ _ _ _, quiet_ask fun _ => quiet_zAnswer _ _ _ _⟩⟩
@[simp] theorem quiet_zStall_go (k : ZStall) : k.go.Quiet := quiet_ask fun _ => by split <;> simp
@[simp] theorem quiet_zStallWake (clk : Nat) : (zStallWake clk).Quiet := quiet_ask fun _ => by simp
@[simp] theorem quiet_protEnable (p : Path) (v : Word) : (protEnable p v).Quiet := quiet_ask fun _ => by simp
@[simp] theorem quiet_cupPoolWrite (p : Path) (v : Word) : (cupPoolWrite p v).Quiet := quiet_ask fun _ => by simp
@[simp] theorem quiet_errRdWrite (v : Word) : (errRdWrite v).Quiet := quiet_ask fun _ => by simp
@[simp] theorem quiet_traceFreeze : traceFreeze.Quiet := quiet_put _ _
@[simp] theorem quiet_traceThaw : traceThaw.Quiet := quiet_ask fun _ => by simp
@[simp] theorem quiet_trcCtlWrite (p : Path) (v : Word) : (trcCtlWrite p v).Quiet := by simp [trcCtlWrite]
@[simp] theorem quiet_bootCtlWrite (p : Path) (v : Word) : (bootCtlWrite p v).Quiet := by simp [bootCtlWrite]
@[simp] theorem quiet_keyBad : keyBad.Quiet := by simp [keyBad]
@[simp] theorem quiet_resetAccepted : resetAccepted.Quiet := ⟨quiet_modPwr _, quiet_ask fun _ =>
  (quiet_forEach _ _).2 fun _ _ => quiet_ask fun _ => by simp⟩
@[simp] theorem quiet_resetKeyWrite (p : Path) (v : Word) : (resetKeyWrite p v).Quiet := quiet_ask fun _ => by simp
@[simp] theorem quiet_cycKeyWrite (p : Path) (v : Word) : (cycKeyWrite p v).Quiet := quiet_ask fun _ => by simp
@[simp] theorem quiet_standbyEnd : standbyEnd.Quiet :=
  ⟨quiet_modPwr _, quiet_put _ _, (quiet_forEach _ _).2 fun _ _ => quiet_ask fun _ => by simp,
    quiet_ask fun _ => (quiet_forEach _ _).2 fun _ _ => quiet_ask fun _ => by simp, quiet_modPwr _⟩

end Sys2Proof.Machine
end

section
/-!
SUPPORT. Register writes of the control port do not depend on what its port shows: while no read is held on it, their meanings
neither look at the port nor change it, and leave no host access waiting.
-/

namespace Sys2Proof.Machine

-- As in the sections on quiet meanings: many short proofs, one after another.
set_option Elab.async false

/-! ### The predicate and the combinators of meanings -/

/-- No read is held on the control port, and no host access waits behind a held BAR0 read. -/
def PortsIdle (s : State) : Prop := s.scp.held = none ∧ s.bar.behind = []

/-- The update leaves the control port, and leaves no host access waiting. -/
def Upd.deaf (u : Upd) : Bool := u.part != some .scp && (match u with
  | .bar x => x.behind.isEmpty
  | _ => true)

/-- From an idle state on, no update of the meaning reaches the control port or leaves a host access waiting, and no choice of it
depends on what the control port shows. -/
def Act.Deaf : Act → Prop
  | .skip => True
  | .upd u => u.deaf = true
  | .seq a b => a.Deaf ∧ b.Deaf
  | .ask k => ∀ s, PortsIdle s → (∀ x : PathPort, x.held = none → k { s with scp := x } = k s) ∧ (k s).Deaf

theorem Upd.deaf_of_quiet {u : Upd} (h : u.quiet = true) : u.deaf = true := by
  cases u with
  | scp x => cases h
  | bar x => cases h
  | mem m _ _ => cases m <;> rfl
  | wipe w => cases w <;> rfl
  | _ => rfl

/-- A meaning that keeps away from the paths does not hear the control port. -/
@[simp] theorem Act.Quiet.deaf {a : Act} (h : a.Quiet) : a.Deaf := by
  induction a with
  | skip => trivial
  | upd u => exact Upd.deaf_of_quiet h
  | seq a b iha ihb => exact ⟨iha h.1, ihb h.2⟩
  | ask k ih => exact fun s _ => ⟨fun x _ => h.1 s x, ih s (h.2 s)⟩

theorem deaf_ask {k : State → Act} (h : ∀ s, PortsIdle s → (k s).Deaf)
    (hk : ∀ s (x : PathPort), PortsIdle s → x.held = none → k { s with scp := x } = k s := by intros; rfl) : (Act.ask k).Deaf :=
  fun s hs => ⟨fun x hx => hk s x hs hx, h s hs⟩

/-- An update of anything else commutes with a change of the control port. -/
theorem Upd.apply_scp {u : Upd} (h : u.part ≠ some .scp) (s : State) (x : PathPort) :
    u.apply { s with scp := x } = { u.apply s with scp := x } := by
  cases u with
  | scp x => exact absurd rfl h
  | mem m a b =>
    unfold Upd.apply
    dsimp only
    split
    · cases m <;> rfl
    · rfl
  | shade g v =>
    unfold Upd.apply
    dsimp only
    split <;> rfl
  | wipe w => cases w <;> rfl
  | _ => rfl

theorem Upd.eq_bar_of_part {u : Upd} (h : u.part = some .bar) : ∃ x, u = .bar x := by
  cases u with
  | bar x => exact ⟨x, rfl⟩
  | mem m _ _ => cases m <;> cases h
  | wipe w => cases w <;> cases h
  | _ => cases h

theorem Upd.apply_bar_behind {u : Upd} (h : u.deaf = true) {s : State} (hs : s.bar.behind = []) : (u.apply s).bar.behind = [] := by
  by_cases hbar : u.part = some .bar
  · obtain ⟨x, rfl⟩ := Upd.eq_bar_of_part hbar
    simpa [Upd.deaf, Upd.part] using h
  · exact (congrArg PathPort.behind (Upd.apply_same u s .bar hbar)).trans hs

/-- What a deaf meaning does is the same whatever the idle control port shows, and the port shows it afterwards. -/
theorem Act.Deaf.run_scp {a : Act} (h : a.Deaf) {s : State} (hs : PortsIdle s) :
    (∀ x : PathPort, x.held = none → a.run { s with scp := x } = { a.run s with scp := x }) ∧ (a.run s).bar.behind = [] := by
  induction a generalizing s with
  | skip => exact ⟨fun _ _ => rfl, hs.2⟩
  | upd u =>
    have hdeaf : u.deaf = true := h
    have hpart : u.part ≠ some .scp := by
      simp only [Upd.deaf, Bool.and_eq_true, bne_iff_ne] at hdeaf
      exact hdeaf.1
    exact ⟨fun x _ => Upd.apply_scp hpart s x, Upd.apply_bar_behind hdeaf hs.2⟩
  | seq a b iha ihb =>
    obtain ⟨hcommA, hbehindA⟩ := iha h.1 hs
    have hscp : (a.run s).scp = s.scp := by simpa using congrArg State.scp (hcommA s.scp hs.1)
    obtain ⟨hcommB, hbehindB⟩ := ihb h.2 ⟨hscp ▸ hs.1, hbehindA⟩
    refine ⟨fun x hx => ?_, hbehindB⟩
    rw [run_seq, hcommA x hx, hcommB x hx, run_seq]
  | ask k ih =>
    obtain ⟨hsame, hdeaf⟩ := h s hs
    obtain ⟨hcomm, hbehind⟩ := ih s hdeaf hs
    refine ⟨fun x hx => ?_, hbehind⟩
    rw [run_ask, hsame x hx, hcomm x hx, run_ask]

theorem Act.Deaf.scp_run {a : Act} (h : a.Deaf) {s : State} (hs : PortsIdle s) : (a.run s).scp = s.scp := by
  simpa using congrArg State.scp ((h.run_scp hs).1 s.scp hs.1)

theorem Act.Deaf.idle {a : Act} (h : a.Deaf) {s : State} (hs : PortsIdle s) : PortsIdle (a.run s) :=
  ⟨(congrArg PathPort.held (h.scp_run hs)).trans hs.1, (h.run_scp hs).2⟩

@[simp] theorem deaf_skip : Act.skip.Deaf := trivial
@[simp] theorem deaf_seq (a b : Act) : (Act.seq a b).Deaf ↔ a.Deaf ∧ b.Deaf := Iff.rfl
@[simp] theorem deaf_acts_nil : (acts []).Deaf := trivial
@[simp] theorem deaf_acts_cons (a : Act) (l : List Act) : (acts (a :: l)).Deaf ↔ a.Deaf ∧ (acts l).Deaf := by
  cases l <;> simp [acts]
@[simp] theorem deaf_when (b : Bool) (a : Act) : (when_ b a).Deaf ↔ (b = true → a.Deaf) := by cases b <;> simp [when_]
@[simp] theorem deaf_ite (c : Prop) [Decidable c] (a b : Act) : (if c then a else b).Deaf ↔ (c → a.Deaf) ∧ (¬c → b.Deaf) := by
  split <;> simp_all
@[simp] theorem deaf_forEach {α : Type} (l : List α) (f : α → Act) : (forEach l f).Deaf ↔ ∀ x ∈ l, (f x).Deaf := by
  induction l with
  | nil => simp [forEach]
  | cons x l ih => simp only [forEach, List.map_cons, deaf_acts_cons] at *; simp [ih]
@[simp] theorem deaf_forSome {α : Type} (o : Option α) (f : α → Act) : (forSome o f).Deaf ↔ ∀ x, o = some x → (f x).Deaf := by
  cases o <;> simp [forSome]

/-! ### Reads of BAR0 that a write releases -/

theorem deaf_modBar {f : PathPort → PathPort} (h : ∀ x, x.behind = [] → (f x).behind = []) : (modBar f).Deaf :=
  deaf_ask fun s hs => by
    show Upd.deaf _ = true
    simp [Upd.deaf, Upd.part, h _ hs.2]

theorem deaf_modPort {f : PathPort → PathPort} (h : ∀ x, x.behind = [] → (f x).behind = []) : (modPort .bar0 f).Deaf := deaf_modBar h

@[simp] theorem deaf_readDone : (readDone .bar0).Deaf := deaf_modPort fun x hx => by
  dsimp only
  split <;> exact hx
@[simp] theorem deaf_gotWord (w : Word) : (gotWord .bar0 w).Deaf := deaf_modPort fun _ hx => hx
@[simp] theorem deaf_holdRead (r : HeldReg) : (holdRead .bar0 r).Deaf := deaf_ask fun _ _ => deaf_modPort fun _ hx => hx
@[simp] theorem deaf_heldWaits (since : Nat) : (heldWaits .bar0 since).Deaf := deaf_ask fun _ _ => deaf_modPort fun _ hx => hx
theorem deaf_winRead (p : Path) {k : Word → Act} (h : ∀ w, (k w).Deaf) : (winRead p k).Deaf := deaf_ask fun s _ => by
  have hread : ∀ space a, (Act.ask fun s => k (BitVec.ofNat 32 (ofLe (s.cohBytes space a 4)))).Deaf :=
    fun _ _ => deaf_ask fun _ _ => h _
  dsimp only
  simp only [deaf_ite, deaf_acts_cons, deaf_acts_nil, Act.Quiet.deaf, quiet_winFault, quiet_winAdvance, h, implies_true, true_and, and_true]
  intro _ _ _
  split <;> simp [h, hread]
@[simp] theorem deaf_readOne (off : Nat) : (readOne .bar0 off).Deaf := deaf_ask fun s _ => by
  have hagain : (Act.ask fun s => gotWord .bar0 (s.readWord .bar0 off)).Deaf := deaf_ask fun _ _ => deaf_gotWord _
  have hwaits : ∀ n, (Act.ask fun s => if s.owns n s.self (pathMid .bar0) then gotWord .bar0 (s.readWord .bar0 off)
      else holdRead .bar0 (.chrWait n)).Deaf := fun _ => deaf_ask fun _ _ => by simp
  simp [hagain, hwaits, deaf_winRead]
theorem deaf_readGo (n : Nat) : (readGo .bar0 n).Deaf := by
  induction n with
  | zero => trivial
  | succ n ih =>
    refine deaf_ask fun s _ => ?_
    split
    · trivial
    · simp [ih]
/-- The control port holds no read to release; what a BAR0 read gets does not depend on the control port. -/
@[simp] theorem deaf_readRelease (p : Path) : (readRelease p).Deaf := by
  cases p with
  | scp => exact deaf_ask (fun s hs => by simp [State.port, hs.1]) fun s x hs hx => by simp [State.port, hs.1, hx]
  | bar0 =>
    refine deaf_ask fun s _ => ?_
    split
    · split <;> simp [deaf_winRead, deaf_readGo]
    · trivial

/-! ### Chairs -/

@[simp] theorem deaf_sitterTold (n : Nat) (w : Sitter) : (sitterTold n w).Deaf := by
  cases w with
  | path p => exact deaf_readRelease p
  | gov => trivial
  | peer id _ op => exact deaf_ask fun _ _ => by simp
  | chan c => exact (quiet_releaseWait _ _).deaf
@[simp] theorem deaf_chairPass (n : Nat) : (chairPass n).Deaf := deaf_ask fun _ _ => by simp
@[simp] theorem deaf_chairFree (n : Nat) : (chairFree n).Deaf := by simp [chairFree]
@[simp] theorem deaf_chairAbandon (peer mid : Nat) : (chairAbandon peer mid).Deaf := deaf_ask fun _ _ => by
  have hremote : ∀ n, (Act.ask fun s => when_ (s.tabRemote (n / 8) && s.owns n peer mid)
      (zForward (s.tab (n / 8) F.CHR_TAB_CFG_HOME) 0x30 (mid > 0x40) .chairOther (chrBody n 3 mid 1 s.now))).Deaf :=
    fun _ => deaf_ask fun _ _ => by simp
  simp [hremote]
@[simp] theorem deaf_giveAct (p : Path) (n : Nat) : (giveAct p n).Deaf := deaf_ask fun _ _ => by simp
@[simp] theorem deaf_sitWrite (p : Path) (n : Nat) (v : Word) : (sitWrite p n v).Deaf := by simp [sitWrite]

/-! ### Contexts that go, function resets and standby -/

@[simp] theorem deaf_teardown (n : Nat) : (teardown n).Deaf := deaf_ask fun _ _ => by
  have hlast : (Act.ask fun s => acts [forEach (s.chansOf n) chanFree, forEach (s.queuesOf n) queueFree,
      .upd (.tlb (s.tlb.filter (·.ctx != n)))]).Deaf := deaf_ask fun _ _ => by simp [Upd.quiet, Upd.part]
  simp [hlast]
@[simp] theorem deaf_bar0BankReset : bar0BankReset.Deaf := ⟨rfl, rfl, deaf_ask fun _ _ => rfl⟩
@[simp] theorem deaf_perstCtx (n : Nat) : (perstCtx n).Deaf := deaf_ask fun _ _ => by simp
@[simp] theorem deaf_frStart (cause : Nat) : (frStart cause).Deaf := deaf_ask fun _ _ => by simp [Upd.quiet, Upd.part]
@[simp] theorem deaf_standbyBegin : standbyBegin.Deaf := deaf_ask fun _ _ => by simp
@[simp] theorem deaf_pwrWrite (p : Path) (v : Word) : (pwrWrite p v).Deaf := deaf_ask fun _ _ => by simp

/-! ### Commands, windows, links and chair tables -/

@[simp] theorem deaf_modJob (p : Path) (f : Option Job → Option Job) : (modJob p f).Deaf := by
  cases p <;> exact deaf_ask fun _ _ => rfl
@[simp] theorem deaf_answer (p : Path) (result : Nat) (res : List Nat) (w : JobWait) : (answer p result res w).Deaf := deaf_modJob _ _
@[simp] theorem deaf_refuse (p : Path) (result : Nat) : (refuse p result).Deaf := deaf_answer _ _ _ _
@[simp] theorem deaf_outLost (o : ZOut) : (outLost o).Deaf := by
  refine ⟨(quiet_outGone o).deaf, ?_⟩
  split <;> simp
@[simp] theorem quiet_zQueue (port : Nat) (k : Pkt) : (zQueue port k).Quiet := quiet_ask fun _ => by simp
@[simp] theorem deaf_linkDown (port : Nat) : (linkDown port).Deaf := deaf_ask fun s0 _ => by
  have hresend : ∀ k : Pkt, (Act.ask fun s => when_ (k.typ ≥ 0x10) (forSome (s.peer k.dst).route fun r => zQueue r.1 k)).Deaf :=
    fun _ => deaf_ask fun _ _ => by simp
  have hlost : (Act.ask fun s => forEach s.zhn.outs fun o => match o.what with
      | .rd _ | .wr _ | .wrLate => when_ ((s.peer o.peer).route.isNone) (outLost o)
      | _ => .skip).Deaf := deaf_ask fun _ _ => (deaf_forEach _ _).2 fun _ _ => by split <;> simp
  refine (deaf_when _ _).2 fun _ => ⟨(quiet_modZport _ _).deaf, (quiet_forgetSeen _).deaf, by simp, ?_, hlost, quiet_fenRetell.deaf⟩
  exact (deaf_forEach _ _).2 fun _ _ => hresend _
@[simp] theorem deaf_pelCtlWrite (p : Path) (v : Word) : (pelCtlWrite p v).Deaf :=
  ⟨(quiet_fieldWrite _ _ _).deaf, deaf_ask fun _ _ => by simp⟩
@[simp] theorem deaf_tabCfgWrite (p : Path) (v : Word) : (tabCfgWrite p v).Deaf := deaf_ask fun _ _ =>
  ⟨(quiet_fieldWrite _ _ _).deaf, deaf_ask fun _ _ => by simp, quiet_kindleChairCheck.deaf⟩
@[simp] theorem deaf_initAct : initAct.Deaf := by
  have hrelease : ∀ p, (Act.ask fun s => when_ (s.heldOn p .win) (readRelease p)).Deaf := fun p =>
    deaf_ask (fun _ _ => by simp) fun s x hs hx => by
      cases p with
      | scp => simp [State.heldOn, State.port, hs.1, hx]
      | bar0 => rfl
  exact ⟨quiet_initGo.deaf, deaf_ask fun _ _ => by simp [hrelease]⟩
@[simp] theorem deaf_winWrite (p : Path) (v : Word) : (winWrite p v).Deaf := by
  refine ⟨deaf_ask fun _ _ => by simp, deaf_ask fun _ _ => ?_⟩
  simp only [deaf_ite, deaf_acts_cons, deaf_acts_nil, Act.Quiet.deaf, quiet_winFault, quiet_winAdvance, implies_true, true_and, and_true]
  intro _ _ _
  split <;> simp
/-- The control port is never behind a held read here, so its write acts or the path is dead. -/
theorem deaf_pathWrite (off : Nat) (v : Word) {act : Act} (h : act.Deaf) : (pathWrite .scp off v act).Deaf :=
  deaf_ask (fun s hs => by simp [State.port, hs.1, h]) fun s x hs hx => by
    have hdead : State.pathDead { s with scp := x } .scp = s.pathDead .scp := rfl
    have hmask : State.hostMasked { s with scp := x } .scp off = s.hostMasked .scp off := rfl
    simp only [State.port, hs.1, hx, hdead, hmask]
@[simp] theorem deaf_stopWrite (v : Word) : (stopWrite .scp v).Deaf := deaf_pathWrite _ _ <| deaf_ask fun s _ => by
  dsimp only
  split <;> simp

/-! ### The mailbox's commands -/

section
variable (p : Path) (a : Nat → Nat)

@[simp] theorem deaf_ctxCreate : (ctxCreate p a).Deaf := deaf_ask fun s _ => by
  simp only [deaf_ite, deaf_refuse, implies_true, true_and]
  intro _
  split <;> simp
@[simp] theorem deaf_ctxDestroy : (ctxDestroy p a).Deaf := deaf_ask fun s _ => by split <;> simp
@[simp] theorem deaf_ctxReinit : (ctxReinit p a).Deaf := deaf_ask fun s _ => by split <;> simp [Upd.quiet, Upd.part]
@[simp] theorem deaf_queueCreate : (queueCreate p a).Deaf := deaf_ask (fun s _ => by
  split
  · simp
  · simp only [deaf_ite, deaf_refuse, implies_true, true_and]
    intro _ _
    split <;> simp) fun s x _ _ => by
  have hctxOf : ∀ h, State.ctxOf { s with scp := x } h = s.ctxOf h := fun _ => rfl
  have hctx : ∀ n, State.ctx { s with scp := x } n = s.ctx n := fun _ => rfl
  have hqueue : ∀ n, State.queue { s with scp := x } n = s.queue n := fun _ => rfl
  have hslot : ∀ n, State.freeSlot { s with scp := x } n = s.freeSlot n := fun _ => rfl
  simp only [hctxOf, hctx, hqueue, hslot]
@[simp] theorem deaf_queueDestroy : (queueDestroy p a).Deaf := deaf_ask fun s _ => by split <;> simp
@[simp] theorem deaf_chanCreate : (chanCreate p a).Deaf := deaf_ask fun s _ => by
  split
  · simp
  · simp only [deaf_ite, deaf_refuse, implies_true, true_and]
    intro _ _
    split <;> simp
@[simp] theorem deaf_chanDestroy : (chanDestroy p a).Deaf := deaf_ask fun s _ => by split <;> simp
@[simp] theorem deaf_chanReinit : (chanReinit p a).Deaf := deaf_ask fun s _ => by split <;> simp
@[simp] theorem deaf_memCreate : (memCreate p a).Deaf := deaf_ask (fun s _ => by
  dsimp only
  split
  · simp
  · simp only [deaf_ite, deaf_refuse, implies_true, true_and]
    intro _ _ _ _ _ _
    split <;> simp) fun s x _ _ => by
  have hfree : State.freeMemIndex { s with scp := x } = s.freeMemIndex := rfl
  have hfenceOf : ∀ h, State.fenceOf { s with scp := x } h = s.fenceOf h := fun _ => rfl
  have hctxOf : ∀ h, State.ctxOf { s with scp := x } h = s.ctxOf h := fun _ => rfl
  have hctx : ∀ n, State.ctx { s with scp := x } n = s.ctx n := fun _ => rfl
  have hfence : ∀ n, State.fence { s with scp := x } n = s.fence n := fun _ => rfl
  have hmobj : ∀ n, State.mobj { s with scp := x } n = s.mobj n := fun _ => rfl
  simp only [hfree, hfenceOf, hctxOf, hctx, hfence, hmobj]
@[simp] theorem deaf_memDestroy : (memDestroy p a).Deaf := deaf_ask fun s _ => by split <;> simp
@[simp] theorem deaf_refOp : (refOp p a).Deaf := deaf_ask fun s _ => by split <;> simp
@[simp] theorem deaf_unrefOp : (unrefOp p a).Deaf := deaf_ask fun s _ => by split <;> simp
@[simp] theorem deaf_fenceCreate : (fenceCreate p a).Deaf := deaf_ask (fun s _ => by
  split
  · simp
  · simp only [deaf_ite, deaf_refuse, implies_true, true_and]
    intro _
    split <;> simp) fun s x _ _ => by
  have hfree : State.freeFence { s with scp := x } = s.freeFence := rfl
  have hctxOf : ∀ h, State.ctxOf { s with scp := x } h = s.ctxOf h := fun _ => rfl
  have hctx : ∀ n, State.ctx { s with scp := x } n = s.ctx n := fun _ => rfl
  have hfence : ∀ n, State.fence { s with scp := x } n = s.fence n := fun _ => rfl
  simp only [hfree, hctxOf, hctx, hfence]
@[simp] theorem deaf_fenceDestroy : (fenceDestroy p a).Deaf := deaf_ask fun s _ => by split <;> simp
@[simp] theorem deaf_fenceExport : (fenceExport p a).Deaf := deaf_ask fun s _ => by
  have hanswer : ∀ i, (Act.ask fun s => answer p mbOK [token s.self i (s.fence i).nonce] .none).Deaf :=
    fun _ => deaf_ask fun _ _ => deaf_answer _ _ _ _
  split
  · simp
  · simp [hanswer, quiet_drawFree]
@[simp] theorem deaf_tokenBad : (tokenBad p).Deaf := by simp [tokenBad]
@[simp] theorem deaf_importAsk (n tok : Nat) : (importAsk p n tok).Deaf := deaf_ask (fun s _ => by
  dsimp only
  split <;> simp) fun s x _ _ => by
  have hfree : State.freeFence { s with scp := x } = s.freeFence := rfl
  have hproxy : ∀ h i, State.proxyOf { s with scp := x } h i = s.proxyOf h i := fun _ _ => rfl
  simp only [hfree, hproxy]
@[simp] theorem deaf_fenceImport : (fenceImport p a).Deaf := deaf_ask fun s _ => by
  simp only [deaf_ite, deaf_refuse, deaf_tokenBad, implies_true, true_and]
  intro _ _ _
  split <;> simp
@[simp] theorem deaf_stageOp (argOk right : Bool) (v : Nat) : (stageOp p a argOk right v).Deaf :=
  deaf_ask fun s _ => by split <;> simp
@[simp] theorem deaf_stageMap : (stageMap p a).Deaf := deaf_ask fun _ _ => deaf_stageOp _ _ _ _ _
@[simp] theorem deaf_stageUnmap : (stageUnmap p a).Deaf := deaf_stageOp _ _ _ _ _
@[simp] theorem deaf_chairtabOpen : (chairtabOpen p a).Deaf := deaf_ask fun s _ => by split <;> simp
@[simp] theorem deaf_laneReinit : (laneReinit p a).Deaf := deaf_ask fun s _ => by simp
@[simp] theorem deaf_engineReinit : (engineReinit p a).Deaf := deaf_ask fun s _ => by simp
@[simp] theorem deaf_badOp : (badOp p).Deaf := deaf_refuse _ _
@[simp] theorem deaf_mailBody (op : Nat) : (mailBody p op a).Deaf := by
  unfold mailBody
  split <;> simp

end

/-! ### Register writes -/

@[simp] theorem deaf_cmdOpWrite (v : Word) : (cmdOpWrite .scp v).Deaf := deaf_pathWrite _ _ <| deaf_ask fun s _ => by simp
@[simp] theorem deaf_blockWrite (p : Path) (off : Nat) (v : Word) : (blockWrite p off v).Deaf := deaf_ask fun s _ => by
  split <;> simp
@[simp] theorem deaf_regWrite (off : Nat) (v : Word) : (regWrite .scp off v).Deaf := by
  unfold regWrite
  split <;> simp
/-- A register write of the control port is deaf to what the port shows. -/
theorem deaf_writeReg (off : Nat) (v : Word) : (writeReg .scp off v).Deaf := deaf_pathWrite _ _ (deaf_regWrite _ _)

end Sys2Proof.Machine
end

section
/-!
SUPPORT. Write frames of the control port: their words are register writes one after another (R84).
-/

namespace Sys2Proof.Machine

/-- The words of a legal frame are aligned. -/
theorem Frame.off_aligned {f : Frame} (hok : f.ok = true) (i : Nat) : f.off i % 4 = 0 := by
  simp only [Frame.ok, Bool.and_eq_true, decide_eq_true_eq, beq_iff_eq] at hok
  obtain ⟨⟨_, hal⟩, _⟩ := hok
  simp only [Frame.off]
  split <;> omega

/-- A register write of the control port is its write's effect alone, for a device that is off does nothing in either. -/
theorem exec_registerWrite_scp {s : State} (hbehind : s.bar.behind = []) {off : Nat} (hal : off % 4 = 0) (hoff : off < 0xC00) (v : Word) :
    exec (.registerWrite .scp off v ⟨15, []⟩) s = .next ((writeReg .scp off v).run s) := by
  have hbus : busWrite .scp off v 15 [] = writeReg .scp off v := by simp [busWrite, when_, hal, hoff]
  have hrow : (row (writeReg .scp off v)).run s = (writeReg .scp off v).run s := by
    cases hoff : s.pwr.off with
    | true => simp [row, powered, writeReg, pathWrite, State.pathDead, hoff]
    | false => simp [row, powered, hbehind, hoff]
  exact congrArg Host.Outcome.next ((congrArg (fun a => (row a).run s) hbus).trans hrow)

theorem deaf_writeRegs {ι : Type} (l : List ι) (off : ι → Nat) (w : ι → Word) :
    (forEach l fun i => writeReg .scp (off i) (w i)).Deaf := (deaf_forEach _ _).2 fun _ _ => deaf_writeReg _ _

/-- Register writes of the control port, one after another, are the words of one meaning applied in order. -/
theorem runAll_registerWrites {ι : Type} (l : List ι) (off : ι → Nat) (w : ι → Word) (h : ∀ i ∈ l, off i % 4 = 0 ∧ off i < 0xC00)
    {s : State} (hs : PortsIdle s) : runAll (l.map fun i => .registerWrite .scp (off i) (w i) ⟨15, []⟩) s =
      .next ((forEach l fun i => writeReg .scp (off i) (w i)).run s) := by
  induction l generalizing s with
  | nil => rfl
  | cons i l ih =>
    obtain ⟨hal, hoff⟩ := h i (by simp)
    rw [List.map_cons, runAll, exec_registerWrite_scp hs.2 hal hoff, run_forEach_cons]
    exact ih (fun j hj => h j (by simp [hj])) ((deaf_writeReg _ _).idle hs)

/-- A write frame that passes its checks applies its words and replies DONE. -/
theorem scpFrame_run_write {s : State} {bytes : List Byte} {f : Frame} (hon : s.pwr.off = false) (hheld : s.scp.held = none)
    (hf : frameOf bytes = some f) (hwhole : f.need ≤ f.rest.length) (hwrite : f.isWrite = true) (hcrc : f.crcOk bytes = true)
    (hok : f.ok = true) : (scpFrame bytes).run s = (scpReply 0x5A).run
      ((forEach (List.range f.n) fun i => writeReg .scp (f.off i) (f.word i)).run ((scpLead (f.need + 4)).run s)) := by
  rw [scpFrame_run_whole hon hheld hf hwhole]
  simp [hcrc, hok, hwrite]

/-- The lead and the reply around a deaf meaning are one change of the port that it leaves behind. -/
theorem Act.Deaf.run_answered {a : Act} (h : a.Deaf) {s : State} (hs : PortsIdle s) (b n : Nat) :
    (scpReply b).run (a.run ((scpLead n).run s)) = { a.run s with scp := (a.run s).scp.answered b n } :=
  calc (scpReply b).run (a.run { s with scp := { s.scp with lead := n, waits := 0 } })
    _ = (scpReply b).run { a.run s with scp := { s.scp with lead := n, waits := 0 } } :=
      congrArg (scpReply b).run ((h.run_scp hs).1 { s.scp with lead := n, waits := 0 } hs.1)
    _ = { a.run s with scp := s.scp.answered b n } := rfl
    _ = { a.run s with scp := (a.run s).scp.answered b n } := by rw [h.scp_run hs]

/-- Settles O9: the words of a frame are deaf to its lead, so they are applied as register writes on their own are. -/
theorem scpWriteAppliesItsWords : Obligations.ScpWriteAppliesItsWords := by
  intro s bytes hrun hheld f hf hwrite hwhole
  have ⟨hw, hon, hbehind⟩ := hrun
  refine ⟨fun hcrc hok => ?_, fun hbad => ?_⟩
  · have hs : PortsIdle s := ⟨hheld, hbehind⟩
    have hwords : ∀ i ∈ List.range f.n, f.off i % 4 = 0 ∧ f.off i < 0xC00 :=
      fun i hi => ⟨Frame.off_aligned hok i, Frame.off_lt hok (List.mem_range.1 hi)⟩
    have hact := (scpFrame_run_write hon hheld hf hwhole hwrite hcrc hok).trans
      ((deaf_writeRegs (List.range f.n) f.off f.word).run_answered hs 0x5A (f.need + 4))
    exact ⟨_, runAll_registerWrites _ _ _ hwords hs, row_next hrun hact, row_next hrun hact⟩
  · have hact := scpFrame_run_whole hon hheld hf hwhole
    rw [hbad] at hact
    obtain ⟨hcrc, _, _, hevtCrc, _⟩ := scp_fields_ok
    obtain ⟨hscp, _, _, _, hunch⟩ := frameError_noted hw 0x3C (f.need + 4) hcrc hevtCrc rfl rfl (by decide) hact.symm
    exact ⟨_, row_next hrun rfl, row_next hrun rfl, congrArg PathPort.reply hscp, hunch⟩

end Sys2Proof.Machine
end

section
/-!
SUPPORT. The state right after a reset.
-/

namespace Sys2Proof.Machine

theorem reset_word (inst : Nat) {off : Nat} (h : off < 0x1000) : State.reset.word inst off = regReset off :=
  calc State.reset.word inst off
    _ = keyReset (off + 0x1000 * inst) := rfl
    _ = regReset off := congrArg regReset (keyOff_inst off inst h)

theorem reset_byte (m : MemId) (a : Nat) : State.reset.byte m a = 0 := by
  cases m <;> rfl

theorem reset_ctx_st (n : Nat) : (State.reset.ctx n).st = if n = 0 ∨ n = 64 ∨ n = 65 then .live else .free := by
  obtain rfl | h0 := eq_or_ne n 0
  · rfl
  obtain rfl | h64 := eq_or_ne n 64
  · rfl
  obtain rfl | h65 := eq_or_ne n 65
  · rfl
  change (SMap.get Ctx.init ctxsReset n).st = _
  simp [ctxsReset, SMap.get, Ctx.init, h0, h64, h65, h0.symm, h64.symm, h65.symm]

/-- Settles O3: nothing is listed after a reset but the three device contexts, so every cell reads as its default. -/
theorem resetIsWellFormed : Obligations.ResetIsWellFormed :=
  ⟨by decide, rfl, rfl, fun inst _ h => reset_word inst h, reset_byte, reset_ctx_st,
    fun _ => ⟨rfl, rfl, rfl, rfl, rfl⟩, Bool.and_false _⟩

end Sys2Proof.Machine
end

section
/-!
SUPPORT. Mailbox commands that begin at once, the free index of R119, and CTX_CREATE and CTX_REINIT.
-/

namespace Sys2Proof.Machine

/-! ### A mailbox command that begins at once -/

/-- The state in which a command's meaning starts: its path is busy with it. -/
def State.cmdBegun (s : State) (p : Path) (op seq : Nat) : State := (beginJob p (s.newJob p op seq)).run s

/-- With the mailbox ready, a command's row is its meaning, in the state with the command begun. -/
theorem mail_next {s : State} {p : Path} (h : MbReady s p) (op seq : Nat) {body : (Nat → Nat) → Act} {t : State}
    (ht : (body (s.arg p)).run (s.cmdBegun p op seq) = t) :
    (.next ((row (mailOp p op seq body)).run s) : Host.Outcome State Fault Refusal) = .next t := by
  obtain ⟨hreach, hbusy, hother, hseq, hquiesced, hheld⟩ := h
  refine row_next (running_of_pathFree hreach.1) ?_
  rw [mailOp_run_begun hreach op seq body hseq hquiesced hbusy, hother, hheld]
  exact ht

section
variable (p : Path) (s : State)

@[simp] theorem ctx_cmdBegun (op seq n : Nat) : (s.cmdBegun p op seq).ctx n = s.ctx n := by cases p <;> rfl
@[simp] theorem chan_cmdBegun (op seq c : Nat) : (s.cmdBegun p op seq).chan c = s.chan c := by cases p <;> rfl
@[simp] theorem queue_cmdBegun (op seq q : Nat) : (s.cmdBegun p op seq).queue q = s.queue q := by cases p <;> rfl
@[simp] theorem chansOf_cmdBegun (op seq n : Nat) : (s.cmdBegun p op seq).chansOf n = s.chansOf n := by cases p <;> rfl
@[simp] theorem queuesOf_cmdBegun (op seq n : Nat) : (s.cmdBegun p op seq).queuesOf n = s.queuesOf n := by cases p <;> rfl
@[simp] theorem ctxOf_cmdBegun (op seq h : Nat) : (s.cmdBegun p op seq).ctxOf h = s.ctxOf h := by cases p <;> rfl
@[simp] theorem chanOf_cmdBegun (op seq h : Nat) : (s.cmdBegun p op seq).chanOf h = s.chanOf h := by cases p <;> rfl
@[simp] theorem word_cmdBegun (op seq inst off : Nat) : (s.cmdBegun p op seq).word inst off = s.word inst off := by
  cases p <;> rfl
@[simp] theorem tlb_cmdBegun (op seq : Nat) : (s.cmdBegun p op seq).tlb = s.tlb := by cases p <;> rfl

variable (result : Nat) (res : List Nat) (w : JobWait)

@[simp] theorem ctx_answer (n : Nat) : ((answer p result res w).run s).ctx n = s.ctx n := by cases p <;> rfl
@[simp] theorem chan_answer (c : Nat) : ((answer p result res w).run s).chan c = s.chan c := by cases p <;> rfl
@[simp] theorem queue_answer (q : Nat) : ((answer p result res w).run s).queue q = s.queue q := by cases p <;> rfl
@[simp] theorem word_answer (inst off : Nat) : ((answer p result res w).run s).word inst off = s.word inst off := by
  cases p <;> rfl
@[simp] theorem due_answer : ((answer p result res w).run s).due = s.due := by cases p <;> rfl
@[simp] theorem tlb_answer : ((answer p result res w).run s).tlb = s.tlb := by cases p <;> rfl

end

theorem wf_of_mbReady {s : State} {p : Path} (h : MbReady s p) : s.wf = true := by
  obtain ⟨⟨⟨hwf, _⟩, _⟩, _⟩ := h
  exact hwf

theorem cmdBegun_wf {s : State} (h : s.wf = true) (p : Path) (op seq : Nat) : (s.cmdBegun p op seq).wf = true := Act.run_wf _ s h

/-- A meaning that leaves the command in progress alone, and then its answer: the command has begun with that answer. -/
theorem Act.Quiet.begun {a : Act} (ha : a.Quiet) {s : State} {p : Path} (h : MbReady s p) (op seq result : Nat) (res : List Nat)
    (w : JobWait) : Begun ((answer p result res w).run (a.run (s.cmdBegun p op seq))) p seq result res w := by
  obtain ⟨_, _, hother, _⟩ := h
  have hjob : (a.run (s.cmdBegun p op seq)).job p = some (s.newJob p op seq) := (ha.job _ p).trans (beginJob_job p _ s)
  simp [Begun, answer, hjob, State.newJob, hother]

/-- What a command changes: its path's job, and what its meaning changes. -/
theorem unchanged_around {ps : List Part} {offs : List Nat} {s : State} (hw : s.wf = true) {p : Path} {op seq : Nat} {t : State}
    (ht : t.wf = true) (h : Unchanged ps offs (s.cmdBegun p op seq) t) (result : Nat) (res : List Nat) (w : JobWait) :
    Unchanged (jobPart p :: ps) offs s ((answer p result res w).run t) := by
  have hbegun := (beginJob_unchanged p (s.newJob p op seq) hw).mono (ps' := jobPart p :: ps) (by simp) (List.nil_subset offs)
  have hact := h.mono (List.subset_cons_self (jobPart p) ps) (List.Subset.refl offs)
  exact (hbegun.trans hact).trans (Act.Only.unchanged _ _ ((only_modJob p _).2 (by simp)) (State.wf_regs _ ht))

theorem answered_unchanged {ps : List Part} {offs : List Nat} {a : Act} (ha : a.Only ps offs) {s : State} (hw : s.wf = true)
    (p : Path) (op seq result : Nat) (res : List Nat) (w : JobWait) :
    Unchanged (jobPart p :: ps) offs s ((answer p result res w).run (a.run (s.cmdBegun p op seq))) :=
  have hwb := cmdBegun_wf hw p op seq
  unchanged_around hw (Act.run_wf a _ hwb) (ha.unchanged a _ (State.wf_regs _ hwb)) result res w

/-! ### The free index freed longest ago (R119) -/

/-- The earlier of a candidate and the best one so far. -/
def earlier (best : Option (Nat × Nat)) (c : Nat × Nat) : Option (Nat × Nat) :=
  match best with
  | none => some c
  | some b => if c.1 < b.1 || (c.1 == b.1 && c.2 < b.2) then some c else some b

theorem pickFree_eq (cands : List (Nat × Nat)) : pickFree cands = (cands.foldl earlier none).map Prod.snd := rfl

/-- A candidate stands no later than another: it was freed before it, or at the same count and its index is no higher. -/
def NoLater (c d : Nat × Nat) : Prop := c.1 < d.1 ∨ (c.1 = d.1 ∧ c.2 ≤ d.2)

theorem earlier_least {best : Option (Nat × Nat)} {c d : Nat × Nat} (hbest : ∀ b ∈ best, NoLater c b) (hd : NoLater c d) :
    (∀ b ∈ earlier best d, NoLater c b) ∧ (best = some c ∨ d = c → earlier best d = some c) := by
  obtain ⟨c1, c2⟩ := c
  obtain ⟨d1, d2⟩ := d
  cases best with
  | none => simp_all [earlier]
  | some b =>
    obtain ⟨b1, b2⟩ := b
    simp only [earlier, NoLater, Option.mem_def, Option.some.injEq, forall_eq', Prod.mk.injEq, Bool.or_eq_true, Bool.and_eq_true,
      decide_eq_true_eq, beq_iff_eq] at *
    split_ifs with hlt
    · simp only [Option.some.injEq, Prod.mk.injEq, forall_eq']
      omega
    · simp only [Option.some.injEq, Prod.mk.injEq, forall_eq']
      omega

theorem foldl_earlier_least {c : Nat × Nat} (cands : List (Nat × Nat)) (best : Option (Nat × Nat))
    (hbest : ∀ b ∈ best, NoLater c b) (hcands : ∀ d ∈ cands, NoLater c d) (hmem : best = some c ∨ c ∈ cands) :
    cands.foldl earlier best = some c := by
  induction cands generalizing best with
  | nil => simpa using hmem
  | cons d rest ih =>
    obtain ⟨hd, hrest⟩ := List.forall_mem_cons.1 hcands
    obtain ⟨hleast, hkept⟩ := earlier_least hbest hd
    refine ih _ hleast hrest ?_
    rcases hmem with hb | hm
    · exact .inl (hkept (.inl hb))
    · exact (List.mem_cons.1 hm).imp (fun he => hkept (.inr he.symm)) id

/-- The mailbox takes the free index freed longest ago (R119). -/
theorem freeIndex_of_oldest {lo hi n : Nat} {free : Nat → Bool} {freedAt : Nat → Nat} (h : OldestFree lo hi free freedAt n) :
    freeIndex lo hi free freedAt = some n := by
  obtain ⟨hlo, hhi, hfree, hleast⟩ := h
  rw [freeIndex, pickFree_eq, foldl_earlier_least (c := (freedAt n, n)) _ none (by simp)]
  · rfl
  · simp only [List.mem_filterMap, List.mem_map, List.mem_range]
    rintro d ⟨_, ⟨k, hk, rfl⟩, hd⟩
    split at hd
    · next hf =>
      obtain rfl := Option.some.inj hd
      exact hleast _ (by omega) (by omega) hf
    · cases hd
  · right
    simp only [List.mem_filterMap, List.mem_map, List.mem_range]
    exact ⟨n, ⟨n - lo, by omega, by omega⟩, by simp [hfree]⟩

/-! ### Listed channels and queues -/

/-- A key whose value is not the default has an entry. -/
theorem SMap_mem_of_get_ne {α : Type} {d : α} {m : SMap α} {q : Nat} (h : SMap.get d m q ≠ d) : (q, SMap.get d m q) ∈ m := by
  induction m with
  | nil => exact absurd rfl h
  | cons e rest ih =>
    obtain ⟨k, v⟩ := e
    simp only [SMap.get] at h ⊢
    split_ifs at h ⊢ with hk hlt
    · exact List.mem_cons.2 (.inl (hk ▸ rfl))
    · exact absurd rfl h
    · exact List.mem_cons_of_mem _ (ih h)

/-- A key whose value is not the default is listed. -/
theorem SMap_mem_keys_of_get_ne {α : Type} {d : α} {m : SMap α} {q : Nat} (h : SMap.get d m q ≠ d) : q ∈ m.keys :=
  List.mem_map.2 ⟨_, SMap_mem_of_get_ne h, rfl⟩

theorem mem_chansOf {s : State} {n c : Nat} : c ∈ s.chansOf n ↔ (s.chan c).st ≠ .free ∧ (s.chan c).ctx = n := by
  simp only [State.chansOf, List.mem_filter, Bool.and_eq_true, bne_iff_ne, beq_iff_eq, and_iff_right_iff_imp, and_imp]
  intro hst _
  exact SMap_mem_keys_of_get_ne (d := Chan.init) fun h => hst (congrArg Chan.st h)

theorem mem_queuesOf {s : State} {n q : Nat} : q ∈ s.queuesOf n ↔ (s.queue q).live = true ∧ (s.queue q).ctx = n := by
  simp only [State.queuesOf, List.mem_filter, Bool.and_eq_true, beq_iff_eq, and_iff_right_iff_imp, and_imp]
  intro hlive _
  exact SMap_mem_keys_of_get_ne (d := Queue.init) fun h => Bool.noConfusion (hlive.symm.trans (congrArg Queue.live h))

theorem State.wf_ctxs {s : State} (h : s.wf = true) : SMap.wf Ctx.init s.ctxs = true := ((s.wf_iff.1 h).2.2 .ctxs :)
theorem State.wf_queues {s : State} (h : s.wf = true) : SMap.wf Queue.init s.queues = true := ((s.wf_iff.1 h).2.2 .queues :)

theorem ctx_modCtx {s : State} (h : s.wf = true) (n m : Nat) (f : Ctx → Ctx) :
    ((modCtx n f).run s).ctx m = if m = n then f (s.ctx n) else s.ctx m := ctx_after n m _ s (State.wf_ctxs h)

theorem queue_modQueue {s : State} (h : s.wf = true) (q r : Nat) (f : Queue → Queue) :
    ((modQueue q f).run s).queue r = if r = q then f (s.queue q) else s.queue r := queue_after q r _ s (State.wf_queues h)

/-- One change made on each listed channel once, and doing it again changes nothing more. -/
theorem chan_forEach_modChan {f : Chan → Chan} (hf : ∀ x, f (f x) = f x) (l : List Nat) {s : State} (h : s.wf = true) (c : Nat) :
    ((forEach l fun d => modChan d f).run s).chan c = if c ∈ l then f (s.chan c) else s.chan c := by
  induction l generalizing s with
  | nil => rfl
  | cons d rest ih =>
    rw [run_forEach_cons, ih (Act.run_wf _ s h), chan_modChan h]
    by_cases hc : c = d
    · subst hc
      simp [hf]
    · simp [hc]

theorem queue_forEach_modQueue {f : Queue → Queue} (hf : ∀ x, f (f x) = f x) (l : List Nat) {s : State} (h : s.wf = true)
    (q : Nat) : ((forEach l fun r => modQueue r f).run s).queue q = if q ∈ l then f (s.queue q) else s.queue q := by
  induction l generalizing s with
  | nil => rfl
  | cons d rest ih =>
    rw [run_forEach_cons, ih (Act.run_wf _ s h), queue_modQueue h]
    by_cases hq : q = d
    · subst hq
      simp [hf]
    · simp [hq]

/-! ### CTX_CREATE and CTX_REINIT -/

/-- What CTX_CREATE makes of the free context it takes (R123). -/
def Ctx.created (x : Ctx) (mode root : Nat) : Ctx :=
  { Ctx.init with st := .live, gen := x.gen, freedAt := x.freedAt, mode := mode, root := root }

/-- CTX_CREATE's changes: the key set is key 0 alone, the context is new. -/
def ctxCreateChange (n mode root : Nat) : Act := .seq (putWord n 0x2B8 1) (modCtx n fun x => x.created mode root)

theorem ctxCreate_run {s : State} {a : Nat → Nat} {n : Nat} (p : Path) (hmode : a 0 ≤ 2)
    (halign : (a 1 + 2 ^ 32 * a 2) % 2 ^ 13 = 0) (hroot : a 1 + 2 ^ 32 * a 2 < 2 ^ 52)
    (hn : OldestFree 1 64 (fun i => (s.ctx i).st == .free) (fun i => (s.ctx i).freedAt) n) :
    (ctxCreate p a).run s = (answer p mbOK [handle 1 (s.ctx n).gen n] .none).run
      ((ctxCreateChange n (a 0) (a 1 + 2 ^ 32 * a 2)).run s) := by
  have hargs : (decide (a 0 > 2) || (a 1 + 2 ^ 32 * a 2) % 2 ^ 13 != 0 || decide (a 1 + 2 ^ 32 * a 2 ≥ 2 ^ 52)) = false := by
    simp only [Bool.or_eq_false_iff, decide_eq_false_iff_not, bne_eq_false_iff_eq]; omega
  simp only [ctxCreate, run_ask, hargs, freeIndex_of_oldest hn]
  rfl

theorem ctxCreateChange_only (n mode root : Nat) : (ctxCreateChange n mode root).Only [.ctxs] [0x2B8] := by
  simp [ctxCreateChange, only_putWord]

theorem ctxCreateChange_cells {s : State} (h : s.wf = true) (n mode root m : Nat) :
    ((ctxCreateChange n mode root).run s).ctx m = (if m = n then (s.ctx n).created mode root else s.ctx m) ∧
      ((ctxCreateChange n mode root).run s).word m 0x2B8 = if m = n then 1 else s.word m 0x2B8 := by
  refine ⟨ctx_modCtx (Act.run_wf (putWord n 0x2B8 1) s h) n m fun x => x.created mode root, ?_⟩
  change ((Upd.reg (0x2B8 + 0x1000 * n) 1).apply s).word m 0x2B8 = _
  by_cases hm : m = n
  · rw [if_pos hm, hm, word_setReg_same s n 0x2B8 1 (s.wf_regs h) (by decide) (by decide)]
    decide
  · rw [if_neg hm, word_setReg_ne s _ _ _ _ (s.wf_regs h) (by omega)]

section
variable {ps : List Part} {offs : List Nat} {a : Act} (h : a.Only ps offs) (s : State)
include h

theorem Act.Only.ctx (hp : .ctxs ∉ ps) (n : Nat) : (a.run s).ctx n = s.ctx n :=
  congrArg (SMap.get Ctx.init · n) (h.part a s .ctxs hp : _ = s.ctxs)

theorem Act.Only.chan (hp : .chans ∉ ps) (c : Nat) : (a.run s).chan c = s.chan c :=
  congrArg (SMap.get Chan.init · c) (h.part a s .chans hp : _ = s.chans)

theorem Act.Only.queue (hp : .queues ∉ ps) (q : Nat) : (a.run s).queue q = s.queue q :=
  congrArg (SMap.get Queue.init · q) (h.part a s .queues hp : _ = s.queues)

end

/-- The channels' pace counts cleared. -/
def clearPaces (cs : List Nat) : Act := forEach cs fun c => modChan c fun x => { x with pace := 0 }

/-- The queues whose ring faulted readable again. -/
def rereadRings (qs : List Nat) : Act := forEach qs fun q => modQueue q fun x => { x with faulted := false }

/-- A LOST context LIVE again. -/
def reviveCtx (n : Nat) : Act := modCtx n fun x => { x with st := .live, fault := none, dberr := 0, dbslot := 0 }

/-- CTX_REINIT's changes (R561). -/
def ctxReinitChange (n : Nat) (tlb : List Tlb) (cs qs : List Nat) : Act :=
  acts [reviveCtx n, .upd (.tlb tlb), clearPaces cs, rereadRings qs]

theorem clearPaces_only (cs : List Nat) : (clearPaces cs).Only [.chans] [] := by simp [clearPaces]
theorem rereadRings_only (qs : List Nat) : (rereadRings qs).Only [.queues] [] := by simp [rereadRings]

theorem clearPaces_chan {s : State} (h : s.wf = true) (cs : List Nat) (c : Nat) :
    ((clearPaces cs).run s).chan c = if c ∈ cs then { s.chan c with pace := 0 } else s.chan c :=
  chan_forEach_modChan (f := fun x => { x with pace := 0 }) (fun _ => rfl) cs h c

theorem rereadRings_queue {s : State} (h : s.wf = true) (qs : List Nat) (q : Nat) :
    ((rereadRings qs).run s).queue q = if q ∈ qs then { s.queue q with faulted := false } else s.queue q :=
  queue_forEach_modQueue (f := fun x => { x with faulted := false }) (fun _ => rfl) qs h q

theorem reviveCtx_only (n : Nat) : (reviveCtx n).Only [.ctxs] [] := by simp [reviveCtx]

theorem ctxReinit_run {s : State} {a : Nat → Nat} {n : Nat} (p : Path) (hn : s.ctxOf (a 0) = some n) (hdev : isDevCtx n = false)
    (hst : (s.ctx n).st = .lost) :
    (ctxReinit p a).run s = (answer p mbOK [] .none).run
      ((ctxReinitChange n (s.tlb.filter (·.ctx != n)) (s.chansOf n) (s.queuesOf n)).run s) := by
  rw [ctxReinit, run_ask, hn]
  simp only [hdev, hst]
  rfl

theorem ctxReinitChange_only (n : Nat) (tlb : List Tlb) (cs qs : List Nat) :
    (ctxReinitChange n tlb cs qs).Only [.ctxs, .tlb, .chans, .queues] [] := by
  simp [ctxReinitChange, reviveCtx, clearPaces, rereadRings, UpdIn, Upd.part]

/-- What CTX_REINIT leaves: the context LIVE, its channels' pace counts 0 and its queues readable. -/
theorem ctxReinitChange_cells {s : State} (h : s.wf = true) (n : Nat) (tlb : List Tlb) (cs qs : List Nat) :
    let t := (ctxReinitChange n tlb cs qs).run s
    t.ctx n = { s.ctx n with st := .live, fault := none, dberr := 0, dbslot := 0 } ∧ t.tlb = tlb ∧
      (∀ c ∈ cs, t.chan c = { s.chan c with pace := 0 }) ∧ (∀ q ∈ qs, t.queue q = { s.queue q with faulted := false }) := by
  simp only [ctxReinitChange, run_acts_cons, run_acts_nil, run_upd]
  generalize hu : (reviveCtx n).run s = u
  generalize hv : (Upd.tlb tlb).apply u = v
  have hwu : u.wf = true := hu ▸ Act.run_wf _ s h
  have hwv : v.wf = true := hv ▸ Upd.apply_wf _ u hwu
  have htlb : v.tlb = tlb := by rw [← hv]; rfl
  refine ⟨?_, ?_, fun c hc => ?_, fun q hq => ?_⟩
  · rw [(rereadRings_only qs).ctx _ (by simp), (clearPaces_only cs).ctx _ (by simp), ← hv]
    change u.ctx n = _
    rw [← hu, reviveCtx, ctx_modCtx h, if_pos rfl]
  · calc ((rereadRings qs).run ((clearPaces cs).run v)).tlb
      _ = ((clearPaces cs).run v).tlb := (rereadRings_only qs).part _ _ .tlb (by simp)
      _ = v.tlb := (clearPaces_only cs).part _ _ .tlb (by simp)
      _ = tlb := htlb
  · rw [(rereadRings_only qs).chan _ (by simp), clearPaces_chan hwv, if_pos hc, ← hv]
    change { u.chan c with pace := 0 } = _
    rw [← hu, (reviveCtx_only n).chan _ (by simp)]
  · rw [rereadRings_queue (Act.run_wf _ v hwv), if_pos hq, (clearPaces_only cs).queue _ (by simp), ← hv]
    change { u.queue q with faulted := false } = _
    rw [← hu, (reviveCtx_only n).queue _ (by simp)]

/-- Settles O18: the fold over the free indices finds the one freed longest ago; the rest is the two commands' changes. -/
theorem contextCreateAndReinit : Obligations.ContextCreateAndReinit := by
  intro s p seq n hready
  refine ⟨fun hmode halign hroot hn => ?_, fun m hm hdev hst => ?_⟩
  · have hcells := ctxCreateChange_cells (cmdBegun_wf (wf_of_mbReady hready) p 1 seq) n (s.arg p 0)
      (s.arg p 1 + 2 ^ 32 * s.arg p 2)
    have hrun := ctxCreate_run (s := s.cmdBegun p 1 seq) p hmode halign hroot (by simpa using hn)
    rw [ctx_cmdBegun] at hrun
    have hquiet : (ctxCreateChange n (s.arg p 0) (s.arg p 1 + 2 ^ 32 * s.arg p 2)).Quiet := by simp [ctxCreateChange]
    refine ⟨_, mail_next hready 1 seq hrun, hquiet.begun hready 1 seq _ _ _, ?_, ?_, fun m hm => ⟨?_, ?_⟩,
      answered_unchanged (ctxCreateChange_only _ _ _) (wf_of_mbReady hready) p 1 seq _ _ _⟩
    · rw [ctx_answer, (hcells n).1, if_pos rfl, ctx_cmdBegun]; rfl
    · rw [word_answer, (hcells n).2, if_pos rfl]; rfl
    · rw [ctx_answer, (hcells m).1, if_neg hm, ctx_cmdBegun]
    · rw [word_answer, (hcells m).2, if_neg hm, word_cmdBegun]
  · have hrun := ctxReinit_run (s := s.cmdBegun p 3 seq) p (by simpa using hm) hdev (by simpa using hst)
    rw [tlb_cmdBegun, chansOf_cmdBegun, queuesOf_cmdBegun] at hrun
    obtain ⟨hctx, htlb, hchans, hqueues⟩ := ctxReinitChange_cells (cmdBegun_wf (wf_of_mbReady hready) p 3 seq) m
      (s.tlb.filter (·.ctx != m)) (s.chansOf m) (s.queuesOf m)
    have hquiet : (ctxReinitChange m (s.tlb.filter (·.ctx != m)) (s.chansOf m) (s.queuesOf m)).Quiet := by
      simp [ctxReinitChange, reviveCtx, clearPaces, rereadRings, Upd.quiet, Upd.part]
    refine ⟨_, mail_next hready 3 seq hrun, hquiet.begun hready 3 seq _ _ _, ?_, ?_, fun c hst hc => ?_, fun q hlive hq => ?_,
      answered_unchanged (ctxReinitChange_only _ _ _ _) (wf_of_mbReady hready) p 3 seq _ _ _⟩
    · rw [ctx_answer, hctx, ctx_cmdBegun]
    · rw [tlb_answer, htlb]
    · rw [chan_answer, hchans c (mem_chansOf.2 ⟨hst, hc⟩), chan_cmdBegun]
    · rw [queue_answer, hqueues q (mem_queuesOf.2 ⟨hlive, hq⟩), queue_cmdBegun]

end Sys2Proof.Machine
end

section
/-!
SUPPORT. States that the statements on queues, views, doorbells, rings and BAR4 do not foresee.
-/

namespace Sys2Proof.Machine

/-! ### O20: a submission that waits for its start time -/

/-- Channel 0 of context 64 is parked on a fence response with its chain cut, and its only submission came from queue 0. -/
def fenceParked : State := { State.reset with
  regs := ((putWord 0 0x0C0 0x20000000).run State.reset).regs
  queues := [(0, { Queue.init with live := true, ctx := 64 })]
  chans := [(0, { Chan.init with
    st := .parked, dest := some .idle, ctx := 64, subs := [⟨0, 0, 1, 0, 0⟩],
    run := some { Run.start 0 none 0 with
      cur := some ⟨0, [], 0, 0, 0, 0, .fenceRsp, false, [], none, 0, false, 0, 0, 0, 0, none⟩ } })] }

/-- QUEUE_DESTROY keeps the first submission of a channel that runs; waking the rings lets the channel arrive, and that
submission stands with no chain started. -/
theorem fenceParked_destroy :
    (((row (mailOp .scp 0x09 0 (queueDestroy .scp))).run fenceParked).chan 0).run = none ∧
      (((row (mailOp .scp 0x09 0 (queueDestroy .scp))).run fenceParked).chan 0).subs = [⟨0, 0, 1, 0, 0⟩] := by decide +kernel

/-- Refutes O20: the channel that a destroyed queue's submission had started ends its chain in the same command and has the
submission wait for its start time. -/
theorem not_queueCreateAndDestroy : ¬ Obligations.QueueCreateAndDestroy := by
  intro h
  have hqueue : fenceParked.queueOf (fenceParked.arg .scp 0) = some 0 := by decide
  obtain ⟨t, hexec, _, _, _, _, hnone, _⟩ := (h fenceParked .scp 0 (by decide)).2 0 hqueue (by decide)
  obtain rfl : _ = t := Host.Outcome.next.inj hexec
  obtain ⟨hrun, hsubs⟩ := fenceParked_destroy
  exact hnone 0 hrun ⟨0, 0, 1, 0, 0⟩ (by rw [hsubs]; exact List.mem_singleton.2 rfl) rfl

/-! ### O24: a buffered byte of a channel record -/

/-- Engine 0 is out of dispatch and buffers a byte 5 that it wrote into channel 0's record. -/
def recordLine : State := { State.reset with
  regs := ((put F.ERR_ENG_OFF 1).run State.reset).regs
  engines := [(0, { Engine.init with wcb := [⟨1, 0x80000 / 64, 1, [5], 0, 0⟩] })] }

theorem recordLine_idle : MbReady recordLine .scp ∧ recordLine.arg .scp 0 ≤ 3 ∧
    bitAt (recordLine.fld F.ERR_ENG_OFF) (recordLine.arg .scp 0) = true ∧ recordLine.engineIdle (recordLine.arg .scp 0) = true ∧
    recordLine.oneHolder := by decide

theorem recordLine_reads : recordLine.cohByte 1 0x80000 = 5 := by decide

/-- The command drains the engine's buffer, and the record takes nothing of the line (R284). -/
theorem recordLine_reinit_drops :
    ((row (mailOp .scp 0x39 0 (engineReinit .scp))).run recordLine).cohByte 1 0x80000 = 0 := by decide +kernel

/-- Refutes O24: a byte that an engine buffers for a channel record is lost when ENGINE_REINIT empties the buffer. -/
theorem not_viewsTablesLanesAndEngines : ¬ Obligations.ViewsTablesLanesAndEngines := by
  intro h
  obtain ⟨hready, harg, hoff, hidle, hone⟩ := recordLine_idle
  obtain ⟨_, _, reinit⟩ := h.1 recordLine .scp 0 hready
  obtain ⟨t, hexec, _, _, _, _, hkept, _⟩ := reinit rfl harg hoff hidle hone
  cases hexec
  have hsame := hkept 1 0x80000 (by decide) (by decide)
  exact absurd ((recordLine_reinit_drops.symm.trans hsame).trans recordLine_reads) (by decide)

/-! ### O32: a queue under destruction that a doorbell settles -/

/-- Queue 0 is under destruction, channel 0 holds its last submission and is on its way to STOPPED, and one record stands in
the queue's completion ring. -/
def drainedQueue : State := { State.reset with
  host := { State.reset.host with link := true, fr := false }
  ctxs := [(0, { Ctx.init with st := .live })]
  queues := [(0, { Queue.init with live := true, destroying := true, ctx := 0, log2 := 4, cqTail := 1 })]
  chans := [(0, { Chan.init with st := .parked, dest := some .stopped, ctx := 0, subs := [⟨0, 0, 1, 0, 0⟩] })] }

theorem drainedQueue_serves :
    Running drainedQueue ∧ drainedQueue.pageLive 0 = true ∧ drainedQueue.slotQueue 0 0 = some 0 := by decide

/-- The doorbell wakes the channel, which arrives and drops its submissions, and the queue is free. -/
theorem drainedQueue_freed :
    (((row (barDword 15 (queueDb 0 0 1 15 Queue.headOk setHead))).run drainedQueue).queue 0).cqHead = 0 := by decide +kernel

/-- Refutes O32: a CQ_DB that is accepted can end the last submission of a queue under destruction, whose index is then free
and its CQ head 0. -/
theorem not_doorbellsOfQueues : ¬ Obligations.DoorbellsOfQueues := by
  intro h
  obtain ⟨hrun, hpage, hslot⟩ := drainedQueue_serves
  obtain ⟨_, _, accepts, _⟩ := (h drainedQueue 0 0 1).1 hrun hpage 0 hslot
  obtain ⟨t, hexec, hhead, _⟩ := accepts (by decide)
  cases hexec
  exact absurd (drainedQueue_freed.symm.trans hhead) (by decide)

/-! ### O34: the queue number that stands for the governor -/

/-- Queue 1024, the governor's own number (R397), listed as a live queue of context 64 with one entry in its ring. -/
def strayQueue : State := { State.reset with
  queues := [(1024, { Queue.init with live := true, ctx := 64, log2 := 4, sqRing := 2 ^ 56, cqRing := 2 ^ 56, sqTail := 1 })] }

/-- A record of queue 1024 goes to the governor and is due to no queue. -/
theorem strayQueue_drops : ((row (entryAct 1024 [])).run strayQueue).due = [] := by decide +kernel

/-- Refutes O34: the statement does not bound the queue, and a record of queue 1024 is never due. -/
theorem not_ringsReadAndWritten : ¬ Obligations.RingsReadAndWritten := by
  intro h
  obtain ⟨entries, _⟩ := h.2 strayQueue 1024 (by decide) (by decide) rfl (by decide) (by decide) (by decide) rfl rfl
  obtain ⟨_, nobody⟩ := entries (by decide) (by decide)
  obtain ⟨t, hexec, _, hdue, _⟩ := nobody (by decide)
  cases hexec
  rw [strayQueue_drops] at hdue
  exact absurd hdue (by decide)

/-! ### O36: a refused read that flushes a line -/

/-- The protection unit is on and refuses what no region allows; engine 0 buffers a byte 5 of staging line 0. -/
def bufferedStaging : State := { State.reset with
  regs := ((acts [put F.PRT_CTL_EN 1, put F.PRT_CTL_NOMATCH 1]).run State.reset).regs
  host := { State.reset.host with link := true, fr := false }
  engines := [(0, { Engine.init with wcb := [⟨0, 0, 1, [5], 0, 0⟩] })] }

theorem bufferedStaging_refuses : Running bufferedStaging ∧ bufferedStaging.linkUp = true ∧
    bufferedStaging.firstRefused (bufferedStaging.bar4Access 0 1 false) = some (0, .refuse 1 0x3F 0) := by decide +kernel

/-- The read of no beats still asks for the line of its address. -/
theorem bufferedStaging_flushes :
    ((row (bar4ReadAct 0 1)).run bufferedStaging).engines ≠ bufferedStaging.engines := by decide +kernel

/-- Refutes O36: a BAR4_READ whose first beat is refused takes the line of that beat from the engine that buffers it. -/
theorem not_tlbAndBar4 : ¬ Obligations.TlbAndBar4 := by
  intro h
  obtain ⟨hrun, hup, hrefused⟩ := bufferedStaging_refuses
  obtain ⟨_, _, _, hlinked⟩ := (h bufferedStaging).2 hrun
  obtain ⟨_, refuses, _⟩ := hlinked hup
  obtain ⟨t, hexec, _, _, _, _, hkept⟩ := refuses 0 1 (by decide) (by decide) _ _ _ hrefused
  cases hexec
  exact bufferedStaging_flushes hkept

end Sys2Proof.Machine
end

section
/-!
SUPPORT. What stops and teardowns keep: contexts, channel identities, live queues, buffered lines.
-/

namespace Sys2Proof.Machine

-- The many short proofs are checked one after another, for each would else hold a thread of its own.
set_option Elab.async false

/-! ### The relation -/

/-- What a channel keeps from its creation to its end: generation, context and descriptor block. -/
def Chan.ids (x : Chan) : Nat × Nat × Nat × Nat := (x.gen, x.ctx, x.base, x.count)

/-- A record may become due to a queue: it is live, and its context is not DYING (R144). -/
def State.mayRecord (s : State) (q : Nat) : Prop := (s.queue q).live = true ∧ (s.ctx (s.queue q).ctx).st ≠ .dying

/-- The line a buffered line is of. -/
def WLine.place (l : WLine) : Nat × Nat := (l.space, l.line)

/-- What no part of a stop or of a teardown changes: the contexts' states and generations, what channels keep, the queues'
contexts, where lines are buffered, and MSI-X Enable.  No queue comes to life, no record becomes due to one that may have none,
and where `D` holds no DYING channel leaves that state. -/
structure Kept (D : Prop) (s t : State) : Prop where
  ctxs : ∀ n, (t.ctx n).st = (s.ctx n).st ∧ (t.ctx n).gen = (s.ctx n).gen
  ids : ∀ c, (t.chan c).ids = (s.chan c).ids
  dying : D → ∀ c, (s.chan c).st = .dying → (t.chan c).st = .dying
  queues : ∀ q, (t.queue q).live = true → (s.queue q).live = true ∧ (t.queue q).ctx = (s.queue q).ctx
  due : ∀ d ∈ t.due, (∃ e ∈ s.due, e.queue = d.queue) ∨ s.mayRecord d.queue
  lines : ∀ e, (t.engine e).wcb.map WLine.place = (s.engine e).wcb.map WLine.place
  msixEn : t.host.msixEn = s.host.msixEn

section
theorem Kept.refl (D : Prop) (s : State) : Kept D s s :=
  ⟨fun _ => ⟨rfl, rfl⟩, fun _ => rfl, fun _ _ h => h, fun _ h => ⟨h, rfl⟩, fun d h => .inl ⟨d, h, rfl⟩, fun _ => rfl, rfl⟩

theorem Kept.mayRecord (h : Kept D s t) {q : Nat} (hq : t.mayRecord q) : s.mayRecord q := by
  obtain ⟨hlive, hst⟩ := hq
  obtain ⟨hlive', hctx⟩ := h.queues q hlive
  exact ⟨hlive', by rwa [hctx, (h.ctxs _).1] at hst⟩

theorem Kept.trans (h : Kept D s t) (h' : Kept D t u) : Kept D s u where
  ctxs n := ⟨(h'.ctxs n).1.trans (h.ctxs n).1, (h'.ctxs n).2.trans (h.ctxs n).2⟩
  ids c := (h'.ids c).trans (h.ids c)
  dying hD c hc := h'.dying hD c (h.dying hD c hc)
  queues q hq := by
    obtain ⟨hlive, hctx⟩ := h'.queues q hq
    exact ⟨(h.queues q hlive).1, hctx.trans (h.queues q hlive).2⟩
  due d hd := by
    rcases h'.due d hd with ⟨e, he, hed⟩ | hmay
    · exact hed ▸ h.due e he
    · exact .inr (h.mayRecord hmay)
  lines e := (h'.lines e).trans (h.lines e)
  msixEn := h'.msixEn.trans h.msixEn

theorem Kept.dirtyLines (h : Kept D s t) : t.dirtyLines = s.dirtyLines :=
  congrArg ((List.range 4).flatMap ·) (funext h.lines)

/-! ### The meanings that keep it -/

/-- The update puts in place only what keeps what `s` had. -/
def Upd.keeps (D : Prop) (s : State) : Upd → Prop
  | .ctx n x => x.st = (s.ctx n).st ∧ x.gen = (s.ctx n).gen
  | .chan c x => x.ids = (s.chan c).ids ∧ (D → (s.chan c).st = .dying → x.st = .dying)
  | .queue q x => x.live = true → (s.queue q).live = true ∧ x.ctx = (s.queue q).ctx
  | .due l => ∀ d ∈ l, (∃ e ∈ s.due, e.queue = d.queue) ∨ s.mayRecord d.queue
  | .engine e x => x.wcb.map WLine.place = (s.engine e).wcb.map WLine.place
  | .host h => h.msixEn = s.host.msixEn
  | .wipe _ => False
  | _ => True

/-- So does every update of the meaning, as long as the state keeps what `s` had. -/
def Act.Keeps (D : Prop) (s : State) : Act → Prop
  | .skip => True
  | .upd x => x.keeps D s
  | .seq a b => a.Keeps D s ∧ b.Keeps D s
  | .ask k => ∀ u, u.wf = true → Kept D s u → (k u).Keeps D s

/-- The pieces of state the relation speaks of. -/
def keptParts : List Part := [.ctxs, .chans, .queues, .due, .engines, .host]

theorem Kept.of_same (h : ∀ p ∈ keptParts, p.same s t) : Kept D s t := by
  have hctxs : t.ctxs = s.ctxs := h .ctxs (by decide)
  have hchans : t.chans = s.chans := h .chans (by decide)
  have hqueues : t.queues = s.queues := h .queues (by decide)
  have hdue : t.due = s.due := h .due (by decide)
  have hengines : t.engines = s.engines := h .engines (by decide)
  have hhost : t.host = s.host := h .host (by decide)
  have hchan : t.chan = s.chan := funext fun c => congrArg (SMap.get Chan.init · c) hchans
  have hctx : t.ctx = s.ctx := funext fun c => congrArg (SMap.get Ctx.init · c) hctxs
  have hqueue : t.queue = s.queue := funext fun c => congrArg (SMap.get Queue.init · c) hqueues
  have hengine : t.engine = s.engine := funext fun c => congrArg (SMap.get Engine.init · c) hengines
  refine ⟨fun n => ?_, fun c => ?_, fun _ c hc => ?_, fun q hq => ?_, fun d hd => ?_, fun e => ?_, ?_⟩
  · simp [hctx]
  · simp [hchan]
  · simpa [hchan] using hc
  · simpa [hqueue] using hq
  · exact .inl ⟨d, hdue ▸ hd, rfl⟩
  · rw [hengine]
  · rw [hhost]

theorem State.wf_engines {s : State} (h : s.wf = true) : SMap.wf Engine.init s.engines = true := ((s.wf_iff.1 h).2.2 .engines :)

theorem Upd.kept_apply {x : Upd} (hx : x.keeps D s) (hw : u.wf = true) (hu : Kept D s u) : Kept D s (x.apply u) := by
  cases x with
  | ctx n x =>
    refine { hu with ctxs := fun m => ?_, due := hu.due }
    rw [ctx_after n m x u (State.wf_ctxs hw)]
    split
    · next h => exact h ▸ hx
    · exact hu.ctxs m
  | chan c x =>
    refine { hu with ids := fun d => ?_, dying := fun hD d hd => ?_ } <;> rw [chan_after c d x u (State.wf_chans hw)] <;> split
    · next h => exact h ▸ hx.1
    · exact hu.ids d
    · next h => exact hx.2 hD (h ▸ hd)
    · exact hu.dying hD d hd
  | queue q x =>
    refine { hu with queues := fun r hr => ?_ }
    rw [queue_after q r x u (State.wf_queues hw)] at hr ⊢
    split at hr
    · next h => rw [if_pos h, h]; exact hx hr
    · next h => rw [if_neg h]; exact hu.queues r hr
  | due l => exact { hu with due := hx }
  | engine e x =>
    refine { hu with lines := fun f => ?_ }
    rw [engine_after e f x u (State.wf_engines hw)]
    split
    · next h => exact h ▸ hx
    · exact hu.lines f
  | host h => exact { hu with msixEn := hx }
  | wipe w => exact hx.elim
  | mem m a b =>
    refine hu.trans (Kept.of_same fun p hp => Upd.apply_same _ u p ?_)
    cases m <;> rintro ⟨⟩ <;> simp [keptParts] at hp
  | _ =>
    refine hu.trans (Kept.of_same fun p hp => Upd.apply_same _ u p ?_)
    rintro ⟨⟩ <;> simp [keptParts] at hp

theorem Act.Keeps.run {a : Act} (ha : a.Keeps D s) (hw : u.wf = true) (hu : Kept D s u) : Kept D s (a.run u) := by
  induction a generalizing u with
  | skip => exact hu
  | upd x => exact x.kept_apply ha hw hu
  | seq a b iha ihb => exact ihb ha.2 (Act.run_wf a u hw) (iha ha.1 hw hu)
  | ask k ih => exact ih u (ha u hw hu) hw hu

theorem Act.Keeps.kept {a : Act} (h : a.Keeps D s) (hw : s.wf = true) : Kept D s (a.run s) := h.run hw (Kept.refl D s)


/-! ### Combinators -/

section
variable {α : Type}

@[simp] theorem keeps_skip : Act.skip.Keeps D s := trivial
@[simp] theorem keeps_upd (x : Upd) : (Act.upd x).Keeps D s ↔ x.keeps D s := Iff.rfl
@[simp] theorem keeps_seq (a b : Act) : (Act.seq a b).Keeps D s ↔ a.Keeps D s ∧ b.Keeps D s := Iff.rfl
@[simp] theorem keeps_acts_nil : (acts []).Keeps D s := trivial
@[simp] theorem keeps_acts_cons (a : Act) (l : List Act) : (acts (a :: l)).Keeps D s ↔ a.Keeps D s ∧ (acts l).Keeps D s := by
  cases l <;> simp [acts]
@[simp] theorem keeps_when (b : Bool) (a : Act) : (when_ b a).Keeps D s ↔ (b = true → a.Keeps D s) := by cases b <;> simp [when_]
@[simp] theorem keeps_ite (c : Prop) [Decidable c] (a b : Act) :
    (if c then a else b).Keeps D s ↔ (c → a.Keeps D s) ∧ (¬c → b.Keeps D s) := by split <;> simp_all
@[simp] theorem keeps_forEach (l : List α) (f : α → Act) : (forEach l f).Keeps D s ↔ ∀ x ∈ l, (f x).Keeps D s := by
  induction l with
  | nil => simp [forEach]
  | cons x l ih => simp only [forEach, List.map_cons, keeps_acts_cons] at *; simp [ih]
@[simp] theorem keeps_forSome (o : Option α) (f : α → Act) : (forSome o f).Keeps D s ↔ ∀ x, o = some x → (f x).Keeps D s := by
  cases o <;> simp [forSome]
theorem keeps_rep (n : Nat) {a : Act} (h : a.Keeps D s) : (rep n a).Keeps D s := by
  induction n with
  | zero => trivial
  | succ n ih => exact ⟨h, ih⟩
/-- A meaning that asks for no more of the state than what it changes. -/
theorem keeps_ask {k : State → Act} (h : ∀ u, (k u).Keeps D s) : (Act.ask k).Keeps D s := fun u _ _ => h u

end

/-! ### The changes of one cell or field -/

@[simp] theorem keeps_modCtx (n : Nat) {f : Ctx → Ctx} (h : ∀ x, (f x).st = x.st ∧ (f x).gen = x.gen) : (modCtx n f).Keeps D s :=
  fun _ _ hu => ⟨(h _).1.trans (hu.ctxs n).1, (h _).2.trans (hu.ctxs n).2⟩

theorem keeps_modChan (c : Nat) {f : Chan → Chan} (hids : ∀ x, (f x).ids = x.ids)
    (hst : ∀ x, x.st = .dying → (f x).st = .dying) :
    (modChan c f).Keeps D s := fun _ _ hu => ⟨(hids _).trans (hu.ids c), fun hD h => hst _ (hu.dying hD c h)⟩

/-- A change of a channel that is not DYING. -/
theorem keeps_modChan_alive {c : Nat} {f : Chan → Chan} (hids : ∀ x, (f x).ids = x.ids) (hst : D → (s.chan c).st ≠ .dying) :
    (modChan c f).Keeps D s := fun _ _ hu => ⟨(hids _).trans (hu.ids c), fun hD h => absurd h (hst hD)⟩

theorem keeps_modQueue (q : Nat) {f : Queue → Queue} (h : ∀ x, (f x).live = true → x.live = true ∧ (f x).ctx = x.ctx) :
    (modQueue q f).Keeps D s := fun u _ hu hlive => by
  obtain ⟨hlive, hctx⟩ := h _ hlive
  exact ⟨(hu.queues q hlive).1, hctx.trans (hu.queues q hlive).2⟩

@[simp] theorem keeps_modEngine (e : Nat) {f : Engine → Engine} (h : ∀ x, (f x).wcb.map WLine.place = x.wcb.map WLine.place) :
    (modEngine e f).Keeps D s := fun _ _ hu => (h _).trans (hu.lines e)

@[simp] theorem keeps_modHost {f : HostLink → HostLink} (h : ∀ x, (f x).msixEn = x.msixEn) : (modHost f).Keeps D s :=
  fun _ _ hu => (h _).trans hu.msixEn

@[simp] theorem keeps_modMobj (i : Nat) (f : MemObj → MemObj) : (modMobj i f).Keeps D s := keeps_ask fun _ => trivial
@[simp] theorem keeps_modFence (i : Nat) (f : Fence → Fence) : (modFence i f).Keeps D s := keeps_ask fun _ => trivial
@[simp] theorem keeps_modChair (i : Nat) (f : Chair → Chair) : (modChair i f).Keeps D s := keeps_ask fun _ => trivial
@[simp] theorem keeps_modLane (i : Nat) (f : Lane → Lane) : (modLane i f).Keeps D s := keeps_ask fun _ => trivial
@[simp] theorem keeps_modPmbp (i : Nat) (f : PmbPort → PmbPort) : (modPmbp i f).Keeps D s := keeps_ask fun _ => trivial
@[simp] theorem keeps_modLamp (f : Lamp → Lamp) : (modLamp f).Keeps D s := keeps_ask fun _ => trivial
@[simp] theorem keeps_modKindle (f : Kindle → Kindle) : (modKindle f).Keeps D s := keeps_ask fun _ => trivial
@[simp] theorem keeps_modGov (f : Gov → Gov) : (modGov f).Keeps D s := keeps_ask fun _ => trivial
@[simp] theorem keeps_modZhn (f : Zhn → Zhn) : (modZhn f).Keeps D s := keeps_ask fun _ => trivial
@[simp] theorem keeps_modCup (f : Cup → Cup) : (modCup f).Keeps D s := keeps_ask fun _ => trivial
@[simp] theorem keeps_modZport (p : Nat) (f : ZPort → ZPort) : (modZport p f).Keeps D s := keeps_modZhn _
@[simp] theorem keeps_modPort (p : Path) (f : PathPort → PathPort) : (modPort p f).Keeps D s := by
  cases p <;> exact keeps_ask fun _ => trivial
theorem keeps_storeBytes (m : MemId) (a : Nat) (l : List Byte) : (storeBytes m a l).Keeps D s := by
  induction l generalizing a with
  | nil => trivial
  | cons b rest ih => exact ⟨trivial, ih (a + 1)⟩
theorem keeps_takeFreeSeq {k : Nat → Act} (h : ∀ n, (k n).Keeps D s) : (takeFreeSeq k).Keeps D s :=
  keeps_ask fun _ => ⟨trivial, h _⟩

/-! ### Registers, counters, events and packets -/

@[simp] theorem keeps_putWord (inst off : Nat) (w : Word) : (putWord inst off w).Keeps D s := trivial
@[simp] theorem keeps_putI (inst : Nat) (f : Fld) (v : Nat) : (putI inst f v).Keeps D s := keeps_ask fun _ => trivial
@[simp] theorem keeps_put (f : Fld) (v : Nat) : (put f v).Keeps D s := keeps_putI 0 f v
@[simp] theorem keeps_countBy (f : Fld) (n : Nat) : (countBy f n).Keeps D s := keeps_ask fun _ => keeps_put _ _
@[simp] theorem keeps_count (f : Fld) : (count f).Keeps D s := keeps_countBy f 1
@[simp] theorem keeps_raiseVec (v : Nat) : (raiseVec v).Keeps D s := keeps_modHost fun x => by split <;> rfl
@[simp] theorem keeps_eventI (inst : Nat) (f : Fld) : (eventI inst f).Keeps D s := keeps_ask fun _ => by
  simpa using keeps_ask fun _ => by simp
@[simp] theorem keeps_event (f : Fld) : (event f).Keeps D s := keeps_eventI 0 f
@[simp] theorem keeps_portBeat (q : FReq) (res : Nat) : (portBeat q res).Keeps D s := keeps_ask fun _ => trivial
@[simp] theorem keeps_traceRec (typ : Nat) (data : List Byte) : (traceRec typ data).Keeps D s := keeps_ask fun _ => by
  simp [keeps_storeBytes, Upd.keeps]
@[simp] theorem keeps_zPut (port : Nat) (urgent : Bool) (p : Pkt) : (zPut port urgent p).Keeps D s := keeps_ask fun _ => by simp
@[simp] theorem keeps_zSend (typ dst : Nat) (user : Bool) (opId : Nat) (body : List Byte) :
    (zSend typ dst user opId body).Keeps D s := keeps_ask fun _ => by simp [zQueue]
@[simp] theorem keeps_zAnswer (typ dst opId : Nat) (body : List Byte) : (zAnswer typ dst opId body).Keeps D s := by simp [zAnswer]
@[simp] theorem keeps_zForward (peer typ : Nat) (user : Bool) (what : ZFor) (body : List Byte) :
    (zForward peer typ user what body).Keeps D s := keeps_ask fun _ => by simp
@[simp] theorem keeps_unposted (f : Fld) : (whlEvent f false).Keeps D s := keeps_ask fun _ => by simp

/-! ### Buffers and the directory -/

@[simp] theorem keeps_lateGrant (l : WTime) (n : Nat) : (lateGrant l n).Keeps D s := keeps_ask fun _ => by simp
theorem keeps_arbitrate (key : Nat) (l : List (Nat × Rank)) {grant : Nat → Act} (h : ∀ n, (grant n).Keeps D s) :
    (arbitrate key l grant).Keeps D s := keeps_ask fun _ => by
  split
  · trivial
  · simp [Upd.keeps, h]
@[simp] theorem keeps_portGrant (q : FReq) (res beats : Nat) : (portGrant q res beats).Keeps D s :=
  keeps_ask fun _ => by simp [Upd.keeps]
@[simp] theorem keeps_memGrant (q : FReq) (space a n : Nat) : (memGrant q space a n).Keeps D s := by simp [memGrant]
@[simp] theorem keeps_wbqPut (res : Nat) (b : WBeat) : (wbqPut res b).Keeps D s := keeps_ask fun _ => trivial
@[simp] theorem keeps_storeByte (space a : Nat) (b : Byte) : (storeByte space a b).Keeps D s := by simp [storeByte, Upd.keeps]
@[simp] theorem keeps_drainLine (l : WLine) : (drainLine l).Keeps D s := by simp [drainLine]
@[simp] theorem keeps_flushKeep (e : Nat) (l : WLine) : (flushKeep e l).Keeps D s := by
  simp only [flushKeep, keeps_acts_cons, keeps_drainLine, keeps_acts_nil, true_and, and_true]
  refine keeps_modEngine e fun x => ?_
  simp only [List.map_map]
  exact List.map_congr_left fun y _ => by simp only [Function.comp]; split <;> rfl
@[simp] theorem keeps_flushEngine (e : Nat) : (flushEngine e).Keeps D s := keeps_ask fun _ => by simp
@[simp] theorem keeps_dirGrant (q : FReq) : (dirGrant q).Keeps D s := by simp [dirGrant]
@[simp] theorem keeps_touchRead (q : FReq) (eng : Option Nat) (space a n : Nat) : (touchRead q eng space a n).Keeps D s :=
  keeps_ask fun _ => by
    simp only [keeps_acts_cons, keeps_when, keeps_count, keeps_forEach, touchReadLine, keeps_memGrant, keeps_acts_nil, and_true,
      implies_true, true_and]
    exact fun _ _ _ _ => keeps_ask fun _ => by simp [recalled]


/-! ### Channels that go on, chairs, fences and memory objects -/

@[simp] theorem keeps_modRun (c : Nat) (f : Run → Run) : (modRun c f).Keeps D s := keeps_modChan c (fun _ => rfl) fun _ h => h
@[simp] theorem keeps_modCur (c : Nat) (f : Cur → Cur) : (modCur c f).Keeps D s := keeps_modRun c _
theorem keeps_makeQueued {c : Nat} (h : D → (s.chan c).st ≠ .dying) : (makeQueued c).Keeps D s :=
  keeps_ask fun _ => keeps_modChan_alive (fun _ => rfl) h
@[simp] theorem keeps_descDone (c status : Nat) : (descDone c status).Keeps D s := keeps_ask fun _ => keeps_modCur _ _
theorem keeps_releaseWait {c : Nat} (status : Nat) (h : D → (s.chan c).st ≠ .dying) : (releaseWait c status).Keeps D s := by
  simp [releaseWait, keeps_makeQueued h]

/-- A channel in another state than DYING was not DYING. -/
theorem Kept.alive (h : Kept D s u) {c : Nat} {st : ChanSt} (hst : (u.chan c).st = st) (hne : st ≠ .dying) :
    D → (s.chan c).st ≠ .dying := fun hD hdy => hne (hst.symm.trans (h.dying hD c hdy))

@[simp] theorem keeps_fenForward (i : Nat) (user : Bool) (what : ZFor) (op : FenOp) : (fenForward i user what op).Keeps D s :=
  keeps_ask fun _ => by simp
@[simp] theorem keeps_chairUnwait (w : Sitter) : (chairUnwait w).Keeps D s := keeps_ask fun _ => by simp
@[simp] theorem keeps_fenTell (i : Nat) (dead : Bool) : (fenTell i dead).Keeps D s := keeps_ask fun _ => by simp
@[simp] theorem keeps_wakeFence (i : Nat) : (wakeFence i).Keeps D s := fun u _ hu => by
  simp only [keeps_forEach]
  intro c _
  split
  · simp only [keeps_when, Bool.and_eq_true, beq_iff_eq]
    exact fun ⟨⟨hst, _⟩, _⟩ => keeps_releaseWait _ (hu.alive hst (by decide))
  · trivial
@[simp] theorem keeps_fenceTo (i : Nat) (v : DWord) : (fenceTo i v).Keeps D s := keeps_ask fun _ => by simp
@[simp] theorem keeps_fenceInc (i : Nat) : (fenceInc i).Keeps D s := keeps_ask fun _ => by simp
@[simp] theorem keeps_fenceTryFree (i : Nat) : (fenceTryFree i).Keeps D s := keeps_ask fun _ => by simp [keeps_takeFreeSeq]
@[simp] theorem keeps_abortFenceWaits (i : Nat) : (abortFenceWaits i).Keeps D s := fun u _ hu => by
  simp only [keeps_forEach]
  intro c _
  split
  · simp only [keeps_when, Bool.and_eq_true, beq_iff_eq]
    exact fun ⟨hst, _⟩ => keeps_releaseWait _ (hu.alive hst (by decide))
  · trivial
@[simp] theorem keeps_fenceDestroyReq (i : Nat) : (fenceDestroyReq i).Keeps D s := by simp [fenceDestroyReq]
@[simp] theorem keeps_unmapRun (ctx first n : Nat) : (unmapRun ctx first n).Keeps D s := keeps_modCtx ctx fun _ => ⟨rfl, rfl⟩
@[simp] theorem keeps_fenceDropUnattr (i : Nat) : (fenceDropUnattr i).Keeps D s := by simp [fenceDropUnattr]
@[simp] theorem keeps_memFree (i : Nat) : (memFree i).Keeps D s := keeps_ask fun _ => by simp [keeps_takeFreeSeq]
@[simp] theorem keeps_memTryFree (i : Nat) : (memTryFree i).Keeps D s := keeps_ask fun _ => by simp
@[simp] theorem keeps_memDestroyReq (i : Nat) : (memDestroyReq i).Keeps D s := by simp [memDestroyReq]
@[simp] theorem keeps_dropRef (r : Bool × Nat) : (dropRef r).Keeps D s := by simp [dropRef]
@[simp] theorem keeps_dropRefs (c : Nat) : (dropRefs c).Keeps D s := keeps_ask fun _ => by simp

/-! ### Reads, walks and Lamplighter entries -/

@[simp] theorem keeps_issueRead (r : HReq) : (issueRead r).Keeps D s := keeps_ask fun _ => by
  simpa using keeps_ask fun _ => by simp
theorem keeps_readGrants (n : Nat) : (readGrants n).Keeps D s := by
  induction n with
  | zero => trivial
  | succ n ih =>
    refine keeps_ask fun _ => ?_
    simp only [keeps_when, keeps_acts_cons, ih, keeps_acts_nil, and_true]
    exact fun _ => keeps_arbitrate _ _ fun _ => by simp
@[simp] theorem keeps_readPump : readPump.Keeps D s := keeps_ask fun _ => keeps_readGrants _
@[simp] theorem keeps_raiseRead (r : HReq) : (raiseRead r).Keeps D s := by
  simp [raiseRead]
@[simp] theorem keeps_walkBegin (k : WalkReq) : (walkBegin k).Keeps D s := keeps_ask fun _ => keeps_raiseRead _
theorem keeps_walkPump (n : Nat) : (walkPump n).Keeps D s := by
  induction n with
  | zero => trivial
  | succ n ih => exact keeps_ask fun _ => by simp [ih]
@[simp] theorem keeps_walkNext : walkNext.Keeps D s := keeps_ask fun _ => keeps_walkPump _
@[simp] theorem keeps_dropReads (gone : Purpose → Bool) : (dropReads gone).Keeps D s := by
  simp [dropReads]
@[simp] theorem keeps_killReads (c : Nat) : (killReads c).Keeps D s := keeps_dropReads _
@[simp] theorem keeps_killRing (q : Nat) : (killRing q).Keeps D s := keeps_dropReads _

@[simp] theorem keeps_lampPlace (c ctx i : Nat) (target : WTime) (forced : Bool) : (lampPlace c ctx i target forced).Keeps D s :=
  keeps_ask fun _ => by simpa using keeps_ask fun _ => by simp
@[simp] theorem keeps_lampArmAct : lampArmAct.Keeps D s := keeps_ask fun _ => by simp
@[simp] theorem keeps_lampRearm : lampRearm.Keeps D s := keeps_ask fun _ => keeps_rep _ keeps_lampArmAct
@[simp] theorem keeps_lampArm (c : Nat) (target : WTime) (forced : Bool) : (lampArm c target forced).Keeps D s := by
  simp only [lampArm, keeps_acts_cons, keeps_lampRearm, keeps_acts_nil, true_and, and_true]
  refine keeps_ask fun _ => ?_
  simp only [keeps_ite, keeps_skip, implies_true, true_and]
  intro _
  split <;> simp
@[simp] theorem keeps_lampDrop (gone : Nat → Nat → Bool) : (lampDrop gone).Keeps D s := by simp [lampDrop]
@[simp] theorem keeps_lateFire : lateFire.Keeps D s := by simp [lateFire]

/-! ### Records, submissions and what a channel leaves -/

theorem Kept.mayRecord_of_recordable (h : Kept D s u) {q : Nat} (hq : u.recordable q = true) : s.mayRecord q := by
  simp only [State.recordable, Bool.and_eq_true, bne_iff_ne] at hq
  obtain ⟨⟨⟨hlive, _⟩, _⟩, hst⟩ := hq
  exact h.mayRecord ⟨hlive, hst⟩

@[simp] theorem keeps_addDue (d : Due) : (addDue d).Keeps D s := fun u _ hu => by
  simp only [keeps_ite, keeps_modGov, implies_true, true_and, keeps_when, keeps_upd, Bool.and_eq_true]
  intro _ hrec e he
  rcases List.mem_append.1 he with hold | hnew
  · exact hu.due e hold
  · exact .inr (List.mem_singleton.1 hnew ▸ hu.mayRecord_of_recordable hrec.1)
@[simp] theorem keeps_endRecord (c : Nat) (sub : Sub) (status : Nat) (wt : WTime) (bytes : Nat) (intr : Bool) (acks : List Nat)
    (q : FReq) : (endRecord c sub status wt bytes intr acks q).Keeps D s := keeps_ask fun _ => keeps_addDue _
@[simp] theorem keeps_unstarted (c : Nat) (sub : Sub) (status : Nat) : (unstarted c sub status).Keeps D s :=
  keeps_ask fun _ => keeps_endRecord _ _ _ _ _ _ _ _
@[simp] theorem keeps_queueFree (q : Nat) : (queueFree q).Keeps D s :=
  keeps_takeFreeSeq fun _ => keeps_modQueue q fun _ h => Bool.noConfusion h
@[simp] theorem keeps_queueSettle : queueSettle.Keeps D s := keeps_ask fun _ => by simp
@[simp] theorem keeps_modSubs (c : Nat) (f : List Sub → List Sub) : (modSubs c f).Keeps D s := by
  simp only [modSubs, keeps_acts_cons, keeps_queueSettle, keeps_acts_nil, and_true]
  exact keeps_modChan c (fun _ => rfl) fun _ h => h
@[simp] theorem keeps_dropSubs (c status : Nat) : (dropSubs c status).Keeps D s := keeps_ask fun _ => by simp
@[simp] theorem keeps_leaveEngine (c : Nat) : (leaveEngine c).Keeps D s := by
  simp only [leaveEngine, keeps_forEach]
  exact fun _ _ => keeps_ask fun _ => by simp
@[simp] theorem keeps_flushOf (c : Nat) : (flushOf c).Keeps D s := keeps_ask fun _ => keeps_flushEngine _
@[simp] theorem keeps_addBytes (c n : Nat) : (addBytes c n).Keeps D s := by simp [addBytes]
@[simp] theorem keeps_killForwards (c : Nat) : (killForwards c).Keeps D s := keeps_ask fun _ => by simp
@[simp] theorem keeps_leaveBus (c : Nat) : (leaveBus c).Keeps D s := by
  simp only [leaveBus, keeps_forEach]
  exact fun _ _ => keeps_ask fun _ => by simp
@[simp] theorem keeps_cutFirst (l : Nat) (f : TxFrame) : (cutFirst l f).Keeps D s := by simp [cutFirst, creditBack]
@[simp] theorem keeps_cutEmit (c : Nat) : (cutEmit c).Keeps D s := by
  simp only [cutEmit, keeps_forEach]
  exact fun _ _ => keeps_ask fun _ => by simp
@[simp] theorem keeps_cutTime (c : Nat) : (cutTime c).Keeps D s := keeps_ask fun _ => keeps_modRun _ _
@[simp] theorem keeps_releaseWaits (c : Nat) : (releaseWaits c).Keeps D s := by simp [releaseWaits, lampRelease]
@[simp] theorem keeps_chainEnd (c status : Nat) : (chainEnd c status).Keeps D s := keeps_ask fun _ => by
  simp only [keeps_acts_cons, keeps_leaveEngine, keeps_modSubs, keeps_acts_nil, true_and, and_true]
  refine ⟨?_, keeps_modChan c (fun _ => rfl) fun x hx => by simp [hx]⟩
  split <;> simp
@[simp] theorem keeps_abortRun (c status : Nat) : (abortRun c status).Keeps D s := keeps_ask fun _ => by simp

/-! ### Channels that start and arrive, where DYING need not last -/

theorem keeps_beginSub {c : Nat} (h : D → (s.chan c).st ≠ .dying) : (beginSub c).Keeps D s := keeps_ask fun _ => by
  simp only [keeps_forSome]
  exact fun _ _ => keeps_modChan_alive (fun _ => rfl) h
theorem keeps_startFrom (c fuel : Nat) : (startFrom c fuel).Keeps D s := by
  induction fuel with
  | zero => trivial
  | succ fuel ih =>
    intro u _ hu
    simp only [keeps_ite, keeps_skip, implies_true, true_and, beq_iff_eq]
    intro hst
    have halive : D → (s.chan c).st ≠ .dying := fun hD h => hst (hu.dying hD c h)
    split
    · exact keeps_modChan_alive (fun _ => rfl) halive
    · exact keeps_modChan_alive (fun _ => rfl) halive
    · simp only [keeps_ite, keeps_acts_cons, keeps_lampArm, keeps_unstarted, keeps_modSubs, keeps_when, keeps_lateFire,
        keeps_beginSub halive, ih, keeps_acts_nil, implies_true, and_true]
      exact fun _ => keeps_modChan_alive (fun _ => rfl) halive
@[simp] theorem keeps_startNext (c : Nat) : (startNext c).Keeps D s := keeps_startFrom c 17
@[simp] theorem keeps_resumeNext (c : Nat) : (resumeNext c).Keeps D s := keeps_ask fun _ => by simp

theorem keeps_modChan_free (c : Nat) {f : Chan → Chan} (h : ∀ x, (f x).ids = x.ids) : (modChan c f).Keeps False s :=
  keeps_modChan_alive h False.elim
@[simp] theorem keeps_arrive (c : Nat) : (arrive c).Keeps False s := keeps_ask fun _ => by
  simp only [keeps_forSome, keeps_when, keeps_acts_cons, keeps_ite, keeps_resumeNext, keeps_dropSubs, keeps_startNext,
    keeps_acts_nil, implies_true, and_true]
  exact fun _ _ _ => keeps_modChan_free c fun _ => rfl
@[simp] theorem keeps_ringWake : ringWake.Keeps False s := keeps_ask fun _ => by
  simp only [keeps_forEach]
  refine fun c _ => keeps_ask fun _ => ?_
  simp only [keeps_ite, keeps_arrive, implies_true, true_and]
  intro _
  split <;> simp [keeps_makeQueued]
@[simp] theorem keeps_dropDue (q : Nat) : (dropDue q).Keeps False s := fun u _ hu => by
  simp only [keeps_acts_cons, keeps_upd, keeps_ringWake, keeps_acts_nil, and_true]
  exact fun d hd => hu.due d (List.mem_of_mem_filter hd)

/-! ### Chairs of a context that goes, and held reads -/

@[simp] theorem keeps_chairTell (n : Nat) : (chairTell n).Keeps D s := keeps_ask fun _ => by simp
@[simp] theorem keeps_kindleChairGone (n : Nat) : (kindleChairGone n).Keeps D s := keeps_ask fun _ => by simp
@[simp] theorem keeps_chairSit (n peer mid tag : Nat) : (chairSit n peer mid tag).Keeps False s := keeps_ask fun _ => by
  simp only [keeps_when, keeps_acts_cons, keeps_modChair, keeps_chairTell, keeps_forEach, keeps_acts_nil, and_true, true_and]
  intro _ w _
  split <;> simp [keeps_releaseWait]
@[simp] theorem keeps_chairWaitArrive (p : Path) (n : Nat) : (chairWaitArrive p n).Keeps False s := keeps_ask fun _ => by
  simp [chairDeny]
@[simp] theorem keeps_gotWord (p : Path) (w : Word) : (gotWord p w).Keeps D s := keeps_modPort _ _
@[simp] theorem keeps_holdRead (p : Path) (r : HeldReg) : (holdRead p r).Keeps D s := keeps_ask fun _ => keeps_modPort _ _
@[simp] theorem keeps_winFault (p : Path) (cause : Nat) : (winFault p cause).Keeps D s := keeps_ask fun _ => by simp
@[simp] theorem keeps_winAdvance (p : Path) : (winAdvance p).Keeps D s := keeps_ask fun _ => by simp
@[simp] theorem keeps_protCapture (a : Access) (cause region shade : Nat) : (protCapture a cause region shade).Keeps D s :=
  keeps_ask fun _ => by simp
theorem keeps_winRead (p : Path) {k : Word → Act} (h : ∀ w, (k w).Keeps D s) : (winRead p k).Keeps D s := keeps_ask fun u => by
  simp only [keeps_ite, keeps_acts_cons, keeps_winFault, keeps_winAdvance, h, keeps_acts_nil, implies_true, true_and, and_true]
  intro _ _ _
  split
  · simp [h]
  · simpa using keeps_ask fun _ => h _
@[simp] theorem keeps_shdAdvance : shdAdvance.Keeps D s := keeps_ask fun _ => by simp
@[simp] theorem keeps_readOne (p : Path) (off : Nat) : (readOne p off).Keeps False s := keeps_ask fun _ => by
  have hgot : (Act.ask fun s => gotWord p (s.readWord p off)).Keeps False s := keeps_ask fun _ => keeps_gotWord _ _
  have hheld : ∀ n, (Act.ask fun s =>
      if s.owns n s.self (pathMid p) then gotWord p (s.readWord p off) else holdRead p (.chrWait n)).Keeps False s :=
    fun _ => keeps_ask fun _ => by simp
  simp [keeps_winRead, hgot, hheld]
theorem keeps_readGo (p : Path) (fuel : Nat) : (readGo p fuel).Keeps False s := by
  induction fuel with
  | zero => trivial
  | succ fuel ih =>
    refine keeps_ask fun _ => ?_
    split
    · trivial
    · simp [readDone, ih]
@[simp] theorem keeps_heldWaits (p : Path) (since : Nat) : (heldWaits p since).Keeps D s := keeps_ask fun _ => keeps_modPort _ _
@[simp] theorem keeps_readRelease (p : Path) : (readRelease p).Keeps False s := keeps_ask fun _ => by
  split
  · split <;> simp [keeps_readGo, keeps_winRead]
  · trivial
@[simp] theorem keeps_sitterTold (n : Nat) (w : Sitter) : (sitterTold n w).Keeps False s := by
  cases w with
  | path p => exact keeps_readRelease p
  | gov => trivial
  | peer id mid op => exact keeps_ask fun _ => keeps_zAnswer _ _ _ _
  | chan c => exact keeps_releaseWait _ False.elim
@[simp] theorem keeps_chairPass (n : Nat) : (chairPass n).Keeps False s := keeps_ask fun _ => by simp
@[simp] theorem keeps_chairAbandon (peer mid : Nat) : (chairAbandon peer mid).Keeps False s := keeps_ask fun _ => by
  simpa using fun _ _ _ => keeps_ask fun _ => by simp

/-! ### The parts of a teardown -/

@[simp] theorem keeps_holdRefs (n c : Nat) : (holdRefs n c).Keeps D s := keeps_ask fun _ => by
  simp
@[simp] theorem keeps_dropHolds (n : Nat) : (dropHolds n).Keeps D s := keeps_ask fun _ => by
  simp only [keeps_acts_cons, keeps_forEach, keeps_acts_nil, and_true]
  exact ⟨fun _ _ => keeps_ask fun _ => by simp, fun _ _ => keeps_ask fun _ => by simp⟩
@[simp] theorem keeps_unwindCup (n : Nat) : (unwindCup n).Keeps D s := keeps_ask fun _ => by simp
@[simp] theorem keeps_destroyOwned (n : Nat) : (destroyOwned n).Keeps D s := keeps_ask fun _ => by simp

end

end Sys2Proof.Machine
end

section
/-!
SUPPORT. CTX_DESTROY, and meanings that change some pieces of state at one wheel time.
-/

namespace Sys2Proof.Machine

section
variable {s t u : State}

theorem Kept.chanCtx {D : Prop} (h : Kept D s t) (c : Nat) : (t.chan c).ctx = (s.chan c).ctx :=
  congrArg (fun x : Nat × Nat × Nat × Nat => x.2.1) (h.ids c)

/-! ### CTX_DESTROY: the context's channels become DYING and its queues' records go -/

/-- A DYING channel of a DYING context stops where it is: it is freed with its context. -/
theorem keeps_stopTo_dying {c : Nat} (hst : (s.chan c).st = .dying) (hctx : (s.ctx (s.chan c).ctx).st = .dying) (st : ChanSt) :
    (stopTo c st).Keeps True s := fun u _ hu => by
  have hst' : (u.chan c).st = .dying := hu.dying trivial c hst
  have hctx' : (u.ctx (u.chan c).ctx).st = .dying := by rw [hu.chanCtx, (hu.ctxs _).1, hctx]
  simp [hst', hctx']

theorem keeps_abortChan_dying {c : Nat} (hst : (s.chan c).st = .dying) (hctx : (s.ctx (s.chan c).ctx).st = .dying)
    (status subStatus : Nat) : (abortChan c status subStatus).Keeps True s := fun u _ hu => by
  have hst' : (u.chan c).st = .dying := hu.dying trivial c hst
  simp only [keeps_acts_cons, keeps_abortRun, keeps_dropSubs, keeps_acts_nil, true_and, and_true, hst']
  exact ⟨keeps_modChan c (fun _ => rfl) fun _ h => h, keeps_stopTo_dying hst hctx _⟩

/-- A channel marked DYING. -/
def markChan (c : Nat) : Act := modChan c fun x => { x with st := .dying, dest := none }

theorem keeps_markChan (D : Prop) (c : Nat) : (markChan c).Keeps D s := keeps_modChan c (fun _ => rfl) fun _ _ => rfl

theorem markChan_chan (hw : s.wf = true) (c : Nat) :
    ((markChan c).run s).chan c = { s.chan c with st := .dying, dest := none } := by
  rw [markChan, chan_modChan hw, if_pos rfl]

theorem markChan_busy (hw : s.wf = true) (c : Nat) : ((markChan c).run s).atomicBusy c = s.atomicBusy c := by
  have hcur : ((markChan c).run s).cur c = s.cur c := by rw [State.cur, markChan_chan hw]; rfl
  rw [State.atomicBusy, State.atomicBusy, hcur]
  rfl

theorem dyingChan_run (hw : s.wf = true) (c status : Nat) : (dyingChan c status).run s =
    (if s.atomicBusy c then modChan c fun x => { x with stopPend := 3 } else abortChan c status status).run
      ((markChan c).run s) := by
  rw [← markChan_busy hw c]
  rfl

/-- A channel of a DYING context becomes DYING, and nothing that is kept changes. -/
theorem dyingChan_kept (hw : s.wf = true) {c : Nat} (hctx : (s.ctx (s.chan c).ctx).st = .dying) (status : Nat) :
    Kept True s ((dyingChan c status).run s) ∧ (((dyingChan c status).run s).chan c).st = .dying := by
  have hwu : ((markChan c).run s).wf = true := Act.run_wf _ s hw
  have hkept : Kept True s ((markChan c).run s) := (keeps_markChan True c).kept hw
  have hst : (((markChan c).run s).chan c).st = .dying := congrArg Chan.st (markChan_chan hw c)
  rw [dyingChan_run hw]
  generalize (markChan c).run s = u at hwu hkept hst
  have hctx' : (u.ctx (u.chan c).ctx).st = .dying := by rw [hkept.chanCtx, (hkept.ctxs _).1, hctx]
  have hstops : (if s.atomicBusy c then modChan c fun x => { x with stopPend := 3 } else abortChan c status status).Keeps True u := by
    simp only [keeps_ite, keeps_abortChan_dying hst hctx', implies_true, and_true]
    exact fun _ => keeps_modChan c (fun _ => rfl) fun _ h => h
  have hrest := hstops.kept hwu
  exact ⟨hkept.trans hrest, hrest.dying trivial c hst⟩

theorem dyingChans_kept (status : Nat) (l : List Nat) (hw : s.wf = true) (hctx : ∀ c ∈ l, (s.ctx (s.chan c).ctx).st = .dying) :
    Kept True s ((forEach l fun c => dyingChan c status).run s) ∧
      ∀ c ∈ l, (((forEach l fun c => dyingChan c status).run s).chan c).st = .dying := by
  induction l generalizing s with
  | nil => exact ⟨Kept.refl _ _, fun _ h => nomatch h⟩
  | cons c rest ih =>
    obtain ⟨hhead, hrest⟩ := List.forall_mem_cons.1 hctx
    obtain ⟨hkept, hst⟩ := dyingChan_kept hw hhead status
    obtain ⟨hkept', hst'⟩ := ih (Act.run_wf _ s hw) fun d hd => by rw [hkept.chanCtx, (hkept.ctxs _).1, hrest d hd]
    rw [run_forEach_cons]
    exact ⟨hkept.trans hkept', List.forall_mem_cons.2 ⟨hkept'.dying trivial c hst, hst'⟩⟩

/-- No record is due to the queue, and none can become due. -/
def State.noRecords (s : State) (q : Nat) : Prop := (∀ d ∈ s.due, d.queue ≠ q) ∧ ¬ s.mayRecord q

theorem Kept.noRecords {D : Prop} (h : Kept D s t) {q : Nat} (hq : s.noRecords q) : t.noRecords q := by
  obtain ⟨hdue, hmay⟩ := hq
  refine ⟨fun d hd hdq => ?_, fun hm => hmay (h.mayRecord hm)⟩
  rcases h.due d hd with ⟨e, he, heq⟩ | hm
  · exact hdue e he (heq.trans hdq)
  · exact hmay (hdq ▸ hm)

theorem dropDue_noRecords (hw : s.wf = true) {q : Nat} (hq : ¬ s.mayRecord q) : ((dropDue q).run s).noRecords q := by
  have hfiltered : State.noRecords { s with due := s.due.filter (·.queue != q) } q :=
    ⟨fun d hd => by simpa using List.of_mem_filter hd, hq⟩
  exact (keeps_ringWake.kept (s := { s with due := s.due.filter (·.queue != q) })
    (Upd.apply_wf (.due _) s hw)).noRecords hfiltered

/-- The reads of a queue's rings and the records due to it are dropped (R144 step 1). -/
def silenceQueues (qs : List Nat) : Act := forEach qs fun q => acts [killRing q, dropDue q]

theorem keeps_silenceQueues (qs : List Nat) : (silenceQueues qs).Keeps False s := by simp [silenceQueues]

theorem silenceQueues_noRecords (qs : List Nat) (hw : s.wf = true) (hqs : ∀ q ∈ qs, ¬ s.mayRecord q) :
    ∀ q ∈ qs, ((silenceQueues qs).run s).noRecords q := by
  induction qs generalizing s with
  | nil => exact fun _ h => nomatch h
  | cons q rest ih =>
    obtain ⟨hhead, hrest⟩ := List.forall_mem_cons.1 hqs
    simp only [silenceQueues, run_forEach_cons, run_acts_cons, run_acts_nil]
    generalize hv : (killRing q).run s = v
    have hwv : v.wf = true := hv ▸ Act.run_wf _ s hw
    have hkept : Kept False s v := hv ▸ (keeps_killRing q).kept hw
    have hwu : ((dropDue q).run v).wf = true := Act.run_wf _ v hwv
    have hkept' : Kept False s ((dropDue q).run v) := hkept.trans ((keeps_dropDue q).kept hwv)
    refine List.forall_mem_cons.2 ⟨?_, ih hwu fun r hr h => hrest r hr (hkept'.mayRecord h)⟩
    exact ((keeps_silenceQueues rest).kept hwu).noRecords (dropDue_noRecords hwv fun h => hhead (hkept.mayRecord h))

/-- The context is DYING. -/
def markDying (n : Nat) : Act := modCtx n fun x => { x with st := .dying, losing := none }

theorem ctxDie_run (n : Nat) : (ctxDie n).run s = (acts [forEach (s.chansOf n) (holdRefs n), markDying n,
    silenceQueues (s.queuesOf n), forEach (s.chansOf n) fun c => dyingChan c stABORTED]).run s := rfl

/-- What CTX_DESTROY leaves of a context (R144 steps 1 and 2). -/
theorem ctxDie_cells (hw : s.wf = true) (n : Nat) :
    let t := (ctxDie n).run s
    (t.ctx n).st = .dying ∧ (t.ctx n).gen = (s.ctx n).gen ∧ (∀ c ∈ s.chansOf n, (t.chan c).st = .dying) ∧
      ∀ q ∈ s.queuesOf n, t.noRecords q := by
  simp only [ctxDie_run, run_acts_cons, run_acts_nil]
  generalize hheld : (forEach (s.chansOf n) (holdRefs n)).run s = a
  have hwa : a.wf = true := hheld ▸ Act.run_wf _ s hw
  have hka : Kept False s a := hheld ▸ ((keeps_forEach _ _).2 fun _ _ => keeps_holdRefs n _).kept hw
  generalize hmark : (markDying n).run a = b
  have hwb : b.wf = true := hmark ▸ Act.run_wf _ a hwa
  have hcells : b.chan = a.chan ∧ b.queue = a.queue := by subst hmark; exact ⟨rfl, rfl⟩
  obtain ⟨hchan, hqueue⟩ := hcells
  have hctx : b.ctx n = { a.ctx n with st := .dying, losing := none } := by rw [← hmark, markDying, ctx_modCtx hwa, if_pos rfl]
  generalize hsilent : (silenceQueues (s.queuesOf n)).run b = d
  have hwd : d.wf = true := hsilent ▸ Act.run_wf _ b hwb
  have hkd : Kept False b d := hsilent ▸ (keeps_silenceQueues _).kept hwb
  have hnone : ∀ q ∈ s.queuesOf n, ¬ b.mayRecord q := fun q hq ⟨hlive, hst⟩ => by
    rw [hqueue] at hlive hst
    have hn : (a.queue q).ctx = n := (hka.queues q hlive).2.trans (mem_queuesOf.1 hq).2
    rw [hn, hctx] at hst
    exact hst rfl
  have hsilence : ∀ q ∈ s.queuesOf n, d.noRecords q := hsilent ▸ silenceQueues_noRecords _ hwb hnone
  have hdying : ∀ c ∈ s.chansOf n, (d.ctx (d.chan c).ctx).st = .dying := fun c hc => by
    have hn : (d.chan c).ctx = n := by rw [hkd.chanCtx, hchan, hka.chanCtx, (mem_chansOf.1 hc).2]
    rw [hn, (hkd.ctxs n).1, hctx]
  obtain ⟨hkept, hst⟩ := dyingChans_kept stABORTED (s.chansOf n) hwd hdying
  refine ⟨?_, ?_, hst, fun q hq => hkept.noRecords (hsilence q hq)⟩
  · rw [(hkept.ctxs n).1, (hkd.ctxs n).1, hctx]
  · rw [(hkept.ctxs n).2, (hkd.ctxs n).2, hctx]
    exact (hka.ctxs n).2

theorem ctxDestroy_run {a : Nat → Nat} {n : Nat} (p : Path) (hn : s.ctxOf (a 0) = some n) (hdev : isDevCtx n = false)
    (hst : (s.ctx n).st ≠ .dying) : (ctxDestroy p a).run s = (answer p mbOK [] (.ctxQuiet n)).run ((ctxDie n).run s) := by
  rw [ctxDestroy, run_ask, hn]
  simp [hdev, hst]

end

/-! ### Meanings that change some pieces of state, at one wheel time -/

section
variable {α : Type} {now : WTime} {ps : List Part} {offs : List Nat}

/-- From every state at the wheel time, the meaning makes updates of these alone. -/
def Act.Within (now : WTime) (ps : List Part) (offs : List Nat) : Act → Prop
  | .skip => True
  | .upd u => UpdIn ps offs u
  | .seq a b => a.Within now ps offs ∧ b.Within now ps offs
  | .ask k => ∀ s : State, s.now = now → (k s).Within now ps offs

theorem Act.Only.within {a : Act} (h : a.Only ps offs) : a.Within now ps offs := by
  induction a with
  | skip => trivial
  | upd u => exact h
  | seq a b iha ihb => exact ⟨iha h.1, ihb h.2⟩
  | ask k ih => exact fun s _ => ih s (h s)

theorem now_of_unchanged {s t : State} (h : Unchanged ps offs s t) (hp : .wheel ∉ ps) : t.now = s.now :=
  congrArg Wheel.time (h.2.1 .wheel hp : t.wheel = s.wheel)

theorem Act.Within.unchanged {a : Act} {s : State} (h : a.Within now ps offs) (hnow : s.now = now) (hp : .wheel ∉ ps)
    (hw : s.wf = true) : Unchanged ps offs s (a.run s) := by
  induction a generalizing s with
  | skip => exact Act.Only.unchanged .skip s trivial (s.wf_regs hw)
  | upd u => exact Act.Only.unchanged (.upd u) s h (s.wf_regs hw)
  | seq a b iha ihb =>
    have hfirst := iha h.1 hnow hw
    exact hfirst.trans (ihb h.2 ((now_of_unchanged hfirst hp).trans hnow) (Act.run_wf a s hw))
  | ask k ih => exact ih s (h s hnow) hnow hw

@[simp] theorem within_skip : Act.skip.Within now ps offs := trivial
@[simp] theorem within_acts_nil : (acts []).Within now ps offs := trivial
@[simp] theorem within_acts_cons (a : Act) (l : List Act) :
    (acts (a :: l)).Within now ps offs ↔ a.Within now ps offs ∧ (acts l).Within now ps offs := by
  cases l <;> simp [acts, Act.Within]
@[simp] theorem within_forEach (l : List α) (f : α → Act) :
    (forEach l f).Within now ps offs ↔ ∀ x ∈ l, (f x).Within now ps offs := by
  induction l with
  | nil => simp [forEach]
  | cons x l ih => simp only [forEach, List.map_cons, within_acts_cons] at *; simp [ih]

/-! ### A write past the engines' buffers -/

/-- The pieces that a write past the engines' buffers changes, besides the count of recalls. -/
def writeParts : List Part := [.stag, .objs, .engines, .ports, .wbq]

/-- A time 4,096 angle units ahead is not late. -/
theorem not_wtBefore_ahead (now : WTime) : wtBefore (wtAdd now 4096) now = false := by
  have hd : (now - wtAdd now 4096).toNat = 2 ^ 48 - 4096 := by
    simp only [wtAdd]
    bv_omega
  simp [wtBefore, hd]

theorem only_storeByte (hp : [.stag, .objs] ⊆ ps) (space a : Nat) (b : Byte) : (storeByte space a b).Only ps offs := by
  simp only [List.cons_subset, List.nil_subset, and_true] at hp
  rw [storeByte]
  split
  · trivial
  · by_cases hs : (space == 0) = true <;> simp [spaceMem, hs, UpdIn, Upd.part, hp]

theorem only_drainLine (hp : [.stag, .objs, .wbq] ⊆ ps) (l : WLine) : (drainLine l).Only ps offs := by
  have hwbq : .wbq ∈ ps := hp (by simp)
  have hput : ∀ res b, (wbqPut res b).Only ps offs := fun _ _ _ => ⟨.wbq, rfl, hwbq⟩
  have hstore : [.stag, .objs] ⊆ ps := List.Subset.trans (by simp) hp
  simp [drainLine, hput, only_storeByte hstore]

section
variable (hp : writeParts ⊆ ps)
include hp

theorem only_giveUp (e space line : Nat) : (giveUp e space line).Only ps offs := by
  intro s
  have hengines : .engines ∈ ps := hp (by decide)
  have hdrain : [.stag, .objs, .wbq] ⊆ ps := List.Subset.trans (by decide) hp
  simp [flushLine, only_drainLine hdrain, hengines]

theorem within_portGrant {q : FReq} (hq : wtBefore q.l now = false) (res beats : Nat) :
    (portGrant q res beats).Within now ps offs := by
  intro s _
  have hlate : ∀ n, (lateGrant q.l n).Within now ps offs := fun n s hs => by simp [hs, hq, when_]
  simp only [within_acts_cons, hlate, within_acts_nil, and_true]
  exact ⟨⟨.wbq, rfl, hp (by decide)⟩, ⟨.ports, rfl, hp (by decide)⟩⟩

theorem within_memGrant {q : FReq} (hq : wtBefore q.l now = false) (space a n : Nat) :
    (memGrant q space a n).Within now ps offs := by
  rw [memGrant]
  split
  · simp [within_portGrant hp hq]
  · exact within_portGrant hp hq _ _

theorem within_dirGrant {q : FReq} (hq : wtBefore q.l now = false) : (dirGrant q).Within now ps offs := by
  have hlate : (lateGrant q.l 1).Within now ps offs := fun s hs => by simp [hs, hq, when_]
  simp only [dirGrant, within_acts_cons, hlate, within_acts_nil, and_true]
  exact fun s _ => ⟨.ports, rfl, hp (by decide)⟩

variable (ho : F.DEV_DIR_CNT_RECALL.off ∈ offs)
include ho

theorem within_touchWriteLine {q : FReq} (hq : wtBefore q.l now = false) (eng : Option Nat) (space line : Nat) :
    (touchWriteLine q eng space line).Within now ps offs := by
  simp only [touchWriteLine, within_forEach]
  intro f _ s _
  have hrecalled : recalled.Within now ps offs := ((only_count _ (by decide)).2 ho).within
  dsimp only
  split
  · trivial
  · exact (only_giveUp hp _ _ _).within
  · simp [within_dirGrant hp hq, (only_giveUp hp f space line).within, hrecalled]

theorem within_otherWrite {q : FReq} (hq : wtBefore q.l now = false) (space a : Nat) (bs : List Byte) :
    (otherWrite q space a bs).Within now ps offs := by
  have hstore : [.stag, .objs] ⊆ ps := List.Subset.trans (by decide) hp
  simp [otherWrite, otherWriteBe, within_touchWriteLine hp ho hq, within_memGrant hp hq, when_,
    (only_storeByte hstore space _ _).within]

end

theorem internalReq_timely {s : State} (h : s.now = now) : wtBefore s.internalReq.l now = false := by
  rw [← h]
  exact not_wtBefore_ahead s.now

end

end Sys2Proof.Machine
end

section
/-!
SUPPORT. What the freeing of a channel and of a queue changes.
-/

namespace Sys2Proof.Machine

/-! ### Freed channels and queues -/

section
variable {now : WTime} {ps : List Part} {offs : List Nat} {s : State}

/-- A channel's index when it is free: its next generation (R119). -/
def Chan.freed (x : Chan) (k : Nat) : Chan := { Chan.init with gen := (x.gen + 1) % 4096, freedAt := k }

/-- The pieces that the freeing of a channel changes. -/
def freeParts : List Part := [.due, .descUsed, .freeSeq, .chans, .queues] ++ writeParts

theorem only_queueFree (q : Nat) (hp : [.freeSeq, .queues] ⊆ ps) : (queueFree q).Only ps offs :=
  only_takeFreeSeq _ (hp (by simp)) fun _ => (only_modQueue _ _).2 (hp (by simp))

theorem queueSettle_only : queueSettle.Only [.freeSeq, .queues] [] := by
  intro s
  simp only [only_forEach]
  exact fun q _ => only_queueFree q (List.Subset.refl _)

theorem within_chanFree (c : Nat) : (chanFree c).Within now freeParts [F.DEV_DIR_CNT_RECALL.off] := by
  intro s hs
  have hwrite := within_otherWrite (offs := [F.DEV_DIR_CNT_RECALL.off])
    (List.subset_append_right _ writeParts : writeParts ⊆ freeParts) (by simp) (internalReq_timely hs) 1 (64 * (s.chan c).base) (List.replicate (64 * (s.chan c).count) 0)
  have hsettle : queueSettle.Within now freeParts [F.DEV_DIR_CNT_RECALL.off] :=
    (queueSettle_only.mono (by decide) (by simp)).within
  have hfree : (takeFreeSeq fun k => modChan c fun x => { Chan.init with gen := (x.gen + 1) % 4096, freedAt := k }).Within now
      freeParts [F.DEV_DIR_CNT_RECALL.off] :=
    (only_takeFreeSeq _ (by decide) fun _ => (only_modChan _ _).2 (by decide)).within
  simp only [within_acts_cons, within_acts_nil, and_true]
  exact ⟨hwrite, fun _ _ => ⟨.due, rfl, by decide⟩, fun _ _ => ⟨.descUsed, rfl, by decide⟩, hfree, hsettle⟩

theorem within_chanFrees (l : List Nat) : (forEach l chanFree).Within now freeParts [F.DEV_DIR_CNT_RECALL.off] := by
  simp [within_chanFree]

/-- The state in which a freed channel's index is given back: its block is zeroed, and its records are due to no channel. -/
def chanZero (s : State) (c : Nat) : Act := acts [
  otherWrite s.internalReq 1 (64 * (s.chan c).base) (List.replicate (64 * (s.chan c).count) 0),
  .ask fun s => .upd (.due (s.due.map (fun d => if d.chan == some c then { d with chan := none } else d))),
  .ask fun u => .upd (.descUsed (u.descUsed - (s.chan c).count))]

theorem chanZero_unchanged (hw : s.wf = true) (c : Nat) :
    Unchanged ([.due, .descUsed] ++ writeParts) [F.DEV_DIR_CNT_RECALL.off] s ((chanZero s c).run s) := by
  refine Act.Within.unchanged (now := s.now) ?_ rfl (by decide) hw
  simp only [chanZero, within_acts_cons, within_acts_nil, and_true]
  exact ⟨within_otherWrite (List.subset_append_right _ _) (by simp) (internalReq_timely rfl) _ _ _,
    fun _ _ => ⟨.due, rfl, by decide⟩, fun _ _ => ⟨.descUsed, rfl, by decide⟩⟩

theorem chan_of_unchanged {t : State} (h : Unchanged ps offs s t) (hp : .chans ∉ ps) (c : Nat) : t.chan c = s.chan c :=
  congrArg (SMap.get Chan.init · c) (h.2.1 .chans hp : t.chans = s.chans)

theorem queue_of_unchanged {t : State} (h : Unchanged ps offs s t) (hp : .queues ∉ ps) (q : Nat) : t.queue q = s.queue q :=
  congrArg (SMap.get Queue.init · q) (h.2.1 .queues hp : t.queues = s.queues)

theorem ctx_of_unchanged {t : State} (h : Unchanged ps offs s t) (hp : .ctxs ∉ ps) (n : Nat) : t.ctx n = s.ctx n :=
  congrArg (SMap.get Ctx.init · n) (h.2.1 .ctxs hp : t.ctxs = s.ctxs)

/-- A channel's index is given back. -/
def giveIndex (c : Nat) : Act := takeFreeSeq fun k => modChan c fun x => x.freed k

theorem giveIndex_only (c : Nat) : (giveIndex c).Only [.freeSeq, .chans] [] :=
  only_takeFreeSeq _ (by simp) fun _ => (only_modChan _ _).2 (by simp)

theorem giveIndex_chan (hw : s.wf = true) (c d : Nat) :
    ((giveIndex c).run s).chan d = if d = c then (s.chan c).freed (s.freeSeq + 1) else s.chan d := by
  rw [giveIndex, run_takeFreeSeq, chan_modChan (Upd.apply_wf (.freeSeq (s.freeSeq + 1)) s hw)]
  rfl

theorem chanFree_run (c : Nat) : (chanFree c).run s = queueSettle.run ((giveIndex c).run ((chanZero s c).run s)) := rfl

theorem chanFree_chan (hw : s.wf = true) (c : Nat) :
    ∃ k, ∀ d, ((chanFree c).run s).chan d = if d = c then (s.chan c).freed k else s.chan d := by
  have hzero := chan_of_unchanged (chanZero_unchanged hw c) (by decide)
  refine ⟨((chanZero s c).run s).freeSeq + 1, fun d => ?_⟩
  rw [chanFree_run, queueSettle_only.chan _ (by decide), giveIndex_chan (Act.run_wf _ s hw), hzero, hzero]

theorem chanFree_queue (hw : s.wf = true) (c q : Nat) (h : (((chanFree c).run s).queue q).live = true) :
    (s.queue q).live = true := by
  rw [chanFree_run] at h
  have hwg : ((giveIndex c).run ((chanZero s c).run s)).wf = true := Act.run_wf _ _ (Act.run_wf _ s hw)
  obtain ⟨hlive, _⟩ := ((keeps_queueSettle (D := False)).kept hwg).queues q h
  rwa [(giveIndex_only c).queue _ (by decide), queue_of_unchanged (chanZero_unchanged hw c) (by decide)] at hlive

theorem chanFrees_st (l : List Nat) (hw : s.wf = true) (c : Nat) (h : c ∈ l ∨ (s.chan c).st = .free) :
    (((forEach l chanFree).run s).chan c).st = .free := by
  induction l generalizing s with
  | nil => exact h.resolve_left nofun
  | cons d rest ih =>
    rw [run_forEach_cons]
    obtain ⟨k, hcells⟩ := chanFree_chan hw d
    refine ih (Act.run_wf _ s hw) ?_
    by_cases hc : c = d
    · exact .inr (by rw [hcells, if_pos hc]; rfl)
    · exact h.imp (fun hm => (List.mem_cons.1 hm).resolve_left hc) fun hf => by rw [hcells, if_neg hc, hf]

theorem chanFrees_queue (l : List Nat) (hw : s.wf = true) (q : Nat) (h : (((forEach l chanFree).run s).queue q).live = true) :
    (s.queue q).live = true := by
  induction l generalizing s with
  | nil => exact h
  | cons d rest ih =>
    rw [run_forEach_cons] at h
    exact chanFree_queue hw d q (ih (Act.run_wf _ s hw) h)

theorem queueFree_queue (hw : s.wf = true) (q r : Nat) (h : (((queueFree q).run s).queue r).live = true) :
    r ≠ q ∧ (s.queue r).live = true := by
  rw [queueFree, run_takeFreeSeq, queue_modQueue (Upd.apply_wf (.freeSeq (s.freeSeq + 1)) s hw)] at h
  split at h
  · cases h
  · next hr => exact ⟨hr, h⟩

theorem queueFrees_queue (l : List Nat) (hw : s.wf = true) (q : Nat) (h : (((forEach l queueFree).run s).queue q).live = true) :
    q ∉ l ∧ (s.queue q).live = true := by
  induction l generalizing s with
  | nil => exact ⟨nofun, h⟩
  | cons r rest ih =>
    rw [run_forEach_cons] at h
    obtain ⟨hrest, hlive⟩ := ih (Act.run_wf _ s hw) h
    obtain ⟨hne, hlive⟩ := queueFree_queue hw r q hlive
    exact ⟨by simp [hne, hrest], hlive⟩

end

end Sys2Proof.Machine
end

section
/-!
SUPPORT. CTX_TEARDOWN_COMPLETE.
-/

namespace Sys2Proof.Machine

section
variable {s : State}

/-! ### CTX_TEARDOWN_COMPLETE -/

/-- Steps 3 to 7 of R144. -/
def unwind (n self : Nat) (refs : List (Bool × Nat)) : Act := acts [
  lampReleaseCtx n, chairAbandon self (ctxMid n), forEach refs dropRef, modCtx n fun x => { x with heldRefs := [] },
  unwindCup n, destroyOwned n, dropHolds n]

theorem keeps_unwind (n self : Nat) (refs : List (Bool × Nat)) : (unwind n self refs).Keeps False s := by
  simp [unwind, lampReleaseCtx]

/-- Step 8: channels, queues and leaves go. -/
def release (cs qs : List Nat) (tlb : List Tlb) : Act := acts [forEach cs chanFree, forEach qs queueFree, .upd (.tlb tlb)]

theorem teardown_run (n : Nat) {m : State} (hm : (unwind n s.self (s.ctx n).heldRefs).run s = m) :
    (teardown n).run s = (release (m.chansOf n) (m.queuesOf n) (m.tlb.filter (·.ctx != n))).run m := by
  simp only [teardown, unwind, release, run_ask, run_acts_cons, run_acts_nil] at hm ⊢
  rw [hm]

theorem release_cells (hw : s.wf = true) (cs qs : List Nat) (tlb : List Tlb) {t : State} (ht : (release cs qs tlb).run s = t) :
    (∀ c, c ∈ cs ∨ (s.chan c).st = .free → (t.chan c).st = .free) ∧
      (∀ q, (t.queue q).live = true → q ∉ qs ∧ (s.queue q).live = true) ∧ t.tlb = tlb ∧ t.ctx = s.ctx ∧ t.host = s.host := by
  simp only [release, run_acts_cons, run_acts_nil] at ht
  have hfrees := Act.Within.unchanged (within_chanFrees cs) rfl (by decide) hw
  have hqueues : (forEach qs queueFree).Only [.freeSeq, .queues] [] := by simp [only_queueFree]
  have hwm : ((forEach cs chanFree).run s).wf = true := Act.run_wf _ s hw
  refine ⟨fun c hc => ?_, fun q hq => ?_, ?_, funext fun n => ?_, ?_⟩
  · rw [← ht]
    exact (congrArg Chan.st (hqueues.chan _ (by decide) c)).trans (chanFrees_st cs hw c hc)
  · rw [← ht] at hq
    obtain ⟨hnot, hlive⟩ := queueFrees_queue qs hwm q hq
    exact ⟨hnot, chanFrees_queue cs hw q hlive⟩
  · rw [← ht]
    rfl
  · rw [← ht]
    exact (hqueues.ctx _ (by decide) n).trans (ctx_of_unchanged hfrees (by decide) n)
  · rw [← ht]
    have hsame : ((forEach qs queueFree).run ((forEach cs chanFree).run s)).host = ((forEach cs chanFree).run s).host :=
      hqueues.part _ _ .host (by decide)
    exact hsame.trans (hfrees.2.1 .host (by decide))

theorem ctxFree_only (n : Nat) : (ctxFree n).Only [.freeSeq, .ctxs] [0x2B8] := by
  simp only [ctxFree, only_acts_cons, only_acts_nil, and_true]
  exact ⟨(only_putWord _ _ _ (by decide)).2 (by simp), only_takeFreeSeq _ (by simp) fun _ => (only_modCtx _ _).2 (by simp)⟩

theorem ctxFree_cells (hw : s.wf = true) (n : Nat) {t : State} (ht : (ctxFree n).run s = t) :
    t.ctx n = { Ctx.init with gen := ((s.ctx n).gen + 1) % 4096, freedAt := s.freeSeq + 1 } ∧ t.word n 0x2B8 = 1 := by
  have hwp : ((putWord n 0x2B8 1).run s).wf = true := Act.run_wf _ s hw
  simp only [ctxFree, run_acts_cons, run_acts_nil, run_takeFreeSeq] at ht
  constructor
  · rw [← ht, ctx_modCtx (Upd.apply_wf _ _ hwp), if_pos rfl]
    rfl
  · have hword : ((putWord n 0x2B8 1).run s).word n 0x2B8 = 1 :=
      (word_setReg_same s n 0x2B8 1 (s.wf_regs hw) (by decide) (by decide)).trans (by decide)
    rw [← ht]
    exact hword

theorem bitAt_setBit_same (v i : Nat) : bitAt (setBit v i) i = true := by
  rw [setBit]
  split
  · assumption
  · next h =>
    have hdiv : (v + 2 ^ i) / 2 ^ i = v / 2 ^ i + 1 := Nat.add_div_right v (Nat.two_pow_pos i)
    simp only [bitAt, beq_iff_eq] at h
    simp only [bitAt, hdiv, beq_iff_eq]
    omega

theorem raiseVec_pend (v : Nat) (h : s.host.msixEn = true) : bitAt ((raiseVec v).run s).host.pend v = true := by
  rw [raiseVec_host, if_pos h]
  exact bitAt_setBit_same _ v

theorem teardownAct_run {n : Nat} (hon : s.pwr.off = false) (hn : n < 64) (h0 : n ≠ 0) (hst : (s.ctx n).st = .dying)
    (hquiet : s.ctxQuiet n = true) (hcup : s.cupBusyFor n = false) (hjob : s.jobWaits (.ctxQuiet n) = false) :
    (teardownAct n).run s = (raiseVec (n + 1)).run ((ctxFree n).run ((teardown n).run s)) := by
  have hdev : isDevCtx n = false := by
    simp only [isDevCtx, Bool.or_eq_false_iff, beq_eq_false_iff_ne]
    omega
  simp [teardownAct, hon, hdev, hst, hquiet, hcup, hjob]

/-- Settles O19: no stop of a channel and no part of a teardown changes what `Kept` lists, so what a context's end sets stays
set, and the channels and queues freed at its end are those it had. -/
theorem contextTeardown : Obligations.ContextTeardown := by
  intro s p seq
  refine ⟨fun hready n hn hdev hst => ?_, fun hrun n hlt h0 hst hquiet hcup hjob => ?_⟩
  · have hw := cmdBegun_wf (wf_of_mbReady hready) p 2 seq
    have hrun := ctxDestroy_run (s := s.cmdBegun p 2 seq) p (by simpa using hn) hdev (by simpa using hst)
    obtain ⟨hdying, hgen, hchans, hsilent⟩ := ctxDie_cells hw n
    refine ⟨_, mail_next hready 2 seq hrun, (quiet_ctxDie n).begun hready 2 seq _ _ _, ?_, ?_, fun c hc hcn => ?_, ?_⟩
    · rw [ctx_answer, hdying]
    · rw [ctx_answer, hgen, ctx_cmdBegun]
    · rw [chan_answer, hchans c (by simpa [mem_chansOf] using ⟨hc, hcn⟩)]
    · rw [due_answer]
      intro d hd hlive hctx
      obtain ⟨hdue, _⟩ := hsilent d.queue (by simpa [mem_queuesOf] using ⟨hlive, hctx⟩)
      exact hdue d hd rfl
  · have ⟨hw, hon, _⟩ := hrun
    have hact := teardownAct_run hon hlt h0 hst hquiet hcup hjob
    generalize hm : (unwind n s.self (s.ctx n).heldRefs).run s = m
    have hkept : Kept False s m := hm ▸ (keeps_unwind _ _ _).kept hw
    have hwm : m.wf = true := hm ▸ Act.run_wf _ s hw
    rw [teardown_run n hm] at hact
    generalize hr : (release (m.chansOf n) (m.queuesOf n) (m.tlb.filter (·.ctx != n))).run m = r at hact
    have hwr : r.wf = true := hr ▸ Act.run_wf _ m hwm
    obtain ⟨hchans, hqueues, htlb, hctx, hhost⟩ := release_cells hwm _ _ _ hr
    generalize hf : (ctxFree n).run r = f at hact
    have honly := ctxFree_only n
    obtain ⟨hfree, hword⟩ := ctxFree_cells hwr n hf
    refine ⟨_, row_next hrun hact, ?_, ?_, ?_, ?_, fun c hc hcn => ?_, fun q hq hqn => ?_, fun e he => ?_, fun hmsix => ?_⟩
    · exact congrArg Ctx.st hfree
    · refine (congrArg Ctx.gen hfree).trans ?_
      rw [hctx, (hkept.ctxs n).2]
    · exact congrArg Ctx.view hfree
    · exact congrArg BitVec.toNat hword
    · have hfr : f.chan c = r.chan c := hf ▸ honly.chan r (by decide) c
      refine (congrArg Chan.st hfr).trans (hchans c ?_)
      by_cases hm : (m.chan c).st = .free
      · exact .inr hm
      · exact .inl (mem_chansOf.2 ⟨hm, (hkept.chanCtx c).trans hcn⟩)
    · have hfr : f.queue q = r.queue q := hf ▸ honly.queue r (by decide) q
      refine Bool.eq_false_iff.2 fun hlive => ?_
      obtain ⟨hnot, hlm⟩ := hqueues q ((congrArg Queue.live hfr).symm.trans hlive)
      exact hnot (mem_queuesOf.2 ⟨hlm, ((hkept.queues q hlm).2).trans hqn⟩)
    · have hfr : f.tlb = r.tlb := hf ▸ honly.part _ r .tlb (by decide)
      have hmem : e ∈ m.tlb.filter (·.ctx != n) := htlb ▸ hfr ▸ he
      simpa using List.of_mem_filter hmem
    · have hfr : f.host = r.host := hf ▸ honly.part _ r .host (by decide)
      refine raiseVec_pend _ ?_
      rw [hfr, hhost, hkept.msixEn, hmsix]

end

end Sys2Proof.Machine
end

section
/-!
SUPPORT. The lowest free run of descriptors.
-/

namespace Sys2Proof.Machine

/-! ### Blocks in the order of their bases -/

theorem mem_addBlock (b x : Nat × Nat) (l : List (Nat × Nat)) : x ∈ addBlock b l ↔ x = b ∨ x ∈ l := by
  induction l with
  | nil => simp [addBlock]
  | cons y rest ih =>
    rw [addBlock]
    split
    · simp
    · simp only [List.mem_cons, ih]
      tauto

theorem addBlock_sorted (b : Nat × Nat) {l : List (Nat × Nat)} (h : l.Pairwise fun x y => x.1 ≤ y.1) :
    (addBlock b l).Pairwise fun x y => x.1 ≤ y.1 := by
  induction l with
  | nil => simp [addBlock]
  | cons y rest ih =>
    obtain ⟨hy, hrest⟩ := List.pairwise_cons.1 h
    rw [addBlock]
    split
    · next hb => exact List.pairwise_cons.2 ⟨List.forall_mem_cons.2 ⟨hb, fun x hx => hb.trans (hy x hx)⟩, h⟩
    · next hb =>
      refine List.pairwise_cons.2 ⟨fun x hx => ?_, ih hrest⟩
      rcases (mem_addBlock b x rest).1 hx with rfl | hx
      · omega
      · exact hy x hx

theorem mem_foldr_addBlock (l : List (Nat × Nat)) (x : Nat × Nat) : x ∈ l.foldr addBlock [] ↔ x ∈ l := by
  induction l with
  | nil => rfl
  | cons b rest ih => simp [mem_addBlock, ih]

theorem foldr_addBlock_sorted (l : List (Nat × Nat)) : (l.foldr addBlock []).Pairwise fun x y => x.1 ≤ y.1 := by
  induction l with
  | nil => exact List.Pairwise.nil
  | cons b rest ih => exact addBlock_sorted b ih

/-! ### The lowest free run (R139) -/

/-- A run of descriptors overlaps none of the blocks. -/
def Clear (blocks : List (Nat × Nat)) (base n : Nat) : Prop := ∀ x ∈ blocks, base + n ≤ x.1 ∨ x.1 + x.2 ≤ base

/-- The first free run that is long enough begins at the lowest base whose run is clear. -/
theorem freeRuns_find {blocks : List (Nat × Nat)} (hsorted : blocks.Pairwise fun x y => x.1 ≤ y.1) {from_ base n : Nat}
    (hn : 1 ≤ n) (hfrom : from_ ≤ base) (hend : base + n ≤ 8192) (hclear : Clear blocks base n)
    (hleast : ∀ b, from_ ≤ b → b < base → ¬ Clear blocks b n) :
    ((freeRuns from_ blocks).find? (fun r => n ≤ r.2)).map Prod.fst = some base := by
  induction blocks generalizing from_ with
  | nil =>
    have hbase : from_ = base := by
      by_contra hne
      exact hleast from_ le_rfl (by omega) nofun
    subst hbase
    have hlong : n ≤ 8192 - from_ := by omega
    have hlt : from_ < 8192 := by omega
    simp [freeRuns, hlt, hlong]
  | cons x rest ih =>
    obtain ⟨b, k⟩ := x
    obtain ⟨hb, hrest⟩ := List.pairwise_cons.1 hsorted
    by_cases hgap : from_ + n ≤ b
    · have hbase : from_ = base := by
        by_contra hne
        refine hleast from_ le_rfl (by omega) (List.forall_mem_cons.2 ⟨.inl hgap, fun y hy => .inl ?_⟩)
        exact hgap.trans (hb y hy)
      subst hbase
      have hlong : n ≤ b - from_ := by omega
      have hlt : from_ < b := by omega
      simp [freeRuns, hlt, hlong]
    · have hskip : ((freeRuns from_ ((b, k) :: rest)).find? (fun r => n ≤ r.2)) =
          (freeRuns (max from_ (b + k)) rest).find? (fun r => n ≤ r.2) := by
        have hshort : ¬ n ≤ b - from_ := by omega
        rw [freeRuns]
        split <;> simp [hshort]
      obtain ⟨hfirst, hothers⟩ := List.forall_mem_cons.1 hclear
      have hover : b + k ≤ base := hfirst.resolve_left (by simp only; omega)
      rw [hskip]
      refine ih hrest (by omega) hothers fun c hc hlt hclr => hleast c (by omega) hlt ?_
      exact List.forall_mem_cons.2 ⟨.inr (by simp only; omega), hclr⟩

/-! ### The blocks of the channels -/

/-- In a canonical map every entry is what its key reads as. -/
theorem SMap_get_of_mem {α : Type} [DecidableEq α] {d : α} {m : SMap α} {lo : Nat} (h : SMap.wfFrom d lo m = true) {e : Nat × α}
    (he : e ∈ m) : lo ≤ e.1 ∧ SMap.get d m e.1 = e.2 := by
  induction m generalizing lo with
  | nil => cases he
  | cons f rest ih =>
    obtain ⟨k, v⟩ := f
    simp only [SMap.wfFrom, Bool.and_eq_true, decide_eq_true_eq] at h
    obtain ⟨⟨hlo, _⟩, hrest⟩ := h
    rcases List.mem_cons.1 he with rfl | he
    · exact ⟨hlo, by simp [SMap.get]⟩
    · obtain ⟨hk, hget⟩ := ih hrest he
      refine ⟨by omega, ?_⟩
      rw [SMap.get, if_neg (by omega), if_neg (by omega), hget]

theorem clear_descBlocks {s : State} (hw : s.wf = true) (base n : Nat) : Clear s.descBlocks base n ↔ BlockFree s base n := by
  have hmem : ∀ x, x ∈ s.descBlocks ↔ ∃ e ∈ s.chans, e.2.st ≠ .free ∧ (e.2.base, e.2.count) = x := fun x => by
    simp [State.descBlocks, mem_foldr_addBlock, and_assoc]
  constructor
  · intro h d hd
    exact h _ ((hmem _).2 ⟨_, SMap_mem_of_get_ne (d := Chan.init) fun he => hd (congrArg Chan.st he), hd, rfl⟩)
  · rintro h x hx
    obtain ⟨e, he, hst, rfl⟩ := (hmem x).1 hx
    have hget : s.chan e.1 = e.2 := (SMap_get_of_mem (State.wf_chans hw) he).2
    rw [← hget] at hst ⊢
    exact h e.1 hst

/-- CHAN_CREATE takes the lowest run of free descriptors that fits (R139). -/
theorem freeBlock_of_lowest {s : State} (hw : s.wf = true) {base n : Nat} (hn : 1 ≤ n) (hend : base + n ≤ 8192)
    (hfree : BlockFree s base n) (hleast : ∀ b, b < base → ¬ BlockFree s b n) : s.freeBlock n = some base :=
  freeRuns_find (foldr_addBlock_sorted _) hn (Nat.zero_le _) hend ((clear_descBlocks hw _ _).2 hfree) fun b _ hb h =>
    hleast b hb ((clear_descBlocks hw _ _).1 h)

end Sys2Proof.Machine
end

section
/-!
SUPPORT. A write past the buffers reads back.
-/

namespace Sys2Proof.Machine

section
variable {s t u : State}

/-! ### Lines that an engine gives up -/

theorem engine_modEngine (h : s.wf = true) (e f : Nat) (g : Engine → Engine) :
    ((modEngine e g).run s).engine f = if f = e then g (s.engine e) else s.engine f := engine_after e f _ s (State.wf_engines h)

theorem Act.Only.engine {ps : List Part} {offs : List Nat} {a : Act} (h : a.Only ps offs) (s : State)
    (hp : .engines ∉ ps) (e : Nat) : (a.run s).engine e = s.engine e := congrArg (SMap.get Engine.init · e) (h.part a s .engines hp : _ = s.engines)

/-- An engine gives a line up by dropping its buffered copy. -/
theorem giveUp_wcb (h : s.wf = true) (e space line f : Nat) : (((giveUp e space line).run s).engine f).wcb =
    if f = e then (s.engine e).wcb.filter (fun l => (s.engine e).line space line != some l) else (s.engine f).wcb := by
  rw [giveUp, run_ask]
  cases hl : (s.engine e).line space line with
  | none =>
    simp only [run_acts_cons, run_acts_nil, run_forSome_none, engine_modEngine h]
    split
    · exact (List.filter_eq_self.2 fun _ _ => rfl).symm
    · rfl
  | some l =>
    have hdrain : (when_ (l.mask != 0) (drainLine l)).Only [.stag, .objs, .wbq] [] :=
      (only_when _ _).2 fun _ => only_drainLine (List.Subset.refl _) l
    have hwd : ((when_ (l.mask != 0) (drainLine l)).run s).wf = true := Act.run_wf _ s h
    simp only [run_acts_cons, run_acts_nil, run_forSome_some, flushLine]
    rw [engine_modEngine (Act.run_wf _ _ hwd)]
    simp only [engine_modEngine hwd, hdrain.engine s (by decide)]
    split
    · simp only [if_true]
      exact List.filter_congr fun y _ => by simp [bne, eq_comm]
    · rfl

/-- Every engine's buffer holds no more than it did. -/
def Thinned (s t : State) : Prop := ∀ e, (t.engine e).wcb.Sublist (s.engine e).wcb

theorem Thinned.trans (h : Thinned s t) (h' : Thinned t u) : Thinned s u := fun e => (h' e).trans (h e)

theorem giveUp_thinned (h : s.wf = true) (e space line : Nat) : Thinned s ((giveUp e space line).run s) := fun f => by
  rw [giveUp_wcb h]
  split
  · next hf => exact hf ▸ List.filter_sublist
  · exact List.Sublist.refl _

/-- The engines' buffers each have a line once. -/
def State.linesOnce (s : State) : Prop := ∀ e < 4, ((s.engine e).wcb.map WLine.place).Nodup

theorem linesOnce_of_oneHolder (h : s.oneHolder) : s.linesOnce := fun e he =>
  (List.nodup_flatMap.1 h).1 e (List.mem_range.2 he)

theorem Thinned.linesOnce (h : Thinned s t) (hs : s.linesOnce) : t.linesOnce := fun e he => ((h e).map _).nodup (hs e he)

/-- No engine buffers the line. -/
def State.unbuffered (s : State) (space line : Nat) : Prop := ∀ e < 4, (s.engine e).line space line = none

theorem Thinned.line_none (h : Thinned s t) {e space line : Nat} (hs : (s.engine e).line space line = none) :
    (t.engine e).line space line = none := by
  rw [Engine.line, List.find?_eq_none] at hs ⊢
  exact fun l hl => hs l ((h e).subset hl)

theorem giveUp_line_none (h : s.wf = true) {e : Nat} (honce : ((s.engine e).wcb.map WLine.place).Nodup) (space line : Nat) :
    (((giveUp e space line).run s).engine e).line space line = none := by
  rw [Engine.line, giveUp_wcb h, if_pos rfl, List.find?_eq_none]
  intro y hy hplace
  obtain ⟨hmem, hne⟩ := List.mem_filter.1 hy
  cases hl : (s.engine e).line space line with
  | none => exact List.find?_eq_none.1 hl y hmem hplace
  | some l =>
    have hlp := List.find?_some hl
    simp only [Bool.and_eq_true, beq_iff_eq] at hlp hplace
    have hyl : y = l := List.inj_on_of_nodup_map honce hmem (List.mem_of_find?_eq_some hl)
      (by simp [WLine.place, hlp, hplace])
    simp [hl, hyl] at hne

/-! ### A write past the buffers -/

theorem Thinned.refl (s : State) : Thinned s s := fun _ => List.Sublist.refl _

theorem thinned_of_only {ps : List Part} {offs : List Nat} {a : Act} (h : a.Only ps offs) (hp : .engines ∉ ps) :
    Thinned s (a.run s) := fun e => by rw [h.engine s hp]

/-- A write reaches an engine's line: unless the engine has nothing of it, it gives the line up (R291). -/
def recallLine (q : FReq) (space line f : Nat) : Act := .ask fun s =>
  match (s.engine f).lineSt space line with
  | .i => .skip
  | .s => giveUp f space line
  | _ => acts [dirGrant q, giveUp f space line, recalled]

theorem touchWriteLine_eq (q : FReq) (space line : Nat) :
    touchWriteLine q none space line = forEach (othersOf none) (recallLine q space line) := rfl

theorem line_none_of_lineSt {x : Engine} {space line : Nat} (h : x.lineSt space line = .i) : x.line space line = none := by
  cases hl : x.line space line with
  | none => rfl
  | some l =>
    simp only [Engine.lineSt, hl] at h
    split at h <;> cases h

theorem only_lateGrant {ps : List Part} (l : WTime) (n : Nat) : (lateGrant l n).Only ps [F.ARB_CNT1_LATE_GRANT.off] := fun _ => by
  simp [only_countBy _ _ (show F.ARB_CNT1_LATE_GRANT.off < 0x1000 by decide)]

theorem dirGrant_only (q : FReq) : (dirGrant q).Only [.ports] [F.ARB_CNT1_LATE_GRANT.off] := by
  simp [dirGrant, only_lateGrant, only_portBeat]

theorem memGrant_only (q : FReq) (space a n : Nat) : (memGrant q space a n).Only [.ports, .wbq] [F.ARB_CNT1_LATE_GRANT.off] := by
  have hgrant : ∀ res beats, (portGrant q res beats).Only [.ports, .wbq] [F.ARB_CNT1_LATE_GRANT.off] := fun _ _ _ => by
    simp [only_lateGrant, UpdIn, Upd.part]
  simp [memGrant, hgrant, only_ite]

theorem recalled_only : recalled.Only [] [F.DEV_DIR_CNT_RECALL.off] := (only_count _ (by decide)).2 (by simp)

theorem recallLine_thinned (hw : s.wf = true) (q : FReq) (space line f : Nat) :
    Thinned s ((recallLine q space line f).run s) ∧ (((s.engine f).wcb.map WLine.place).Nodup →
      (((recallLine q space line f).run s).engine f).line space line = none) := by
  rw [recallLine, run_ask]
  split
  · next hi => exact ⟨Thinned.refl s, fun _ => line_none_of_lineSt hi⟩
  · exact ⟨giveUp_thinned hw f space line, fun h => giveUp_line_none hw h space line⟩
  · simp only [run_acts_cons, run_acts_nil]
    have hwd : ((dirGrant q).run s).wf = true := Act.run_wf _ s hw
    have hgive := giveUp_thinned hwd f space line
    refine ⟨((thinned_of_only (dirGrant_only q) (by decide)).trans hgive).trans (thinned_of_only recalled_only (by decide)),
      fun h => ?_⟩
    rw [recalled_only.engine _ (by decide)]
    exact giveUp_line_none hwd (by rwa [(dirGrant_only q).engine s (by decide)]) space line

theorem recallLines_thinned (q : FReq) (space line : Nat) (l : List Nat) (hw : s.wf = true) (hl : ∀ f ∈ l, f < 4)
    (honce : s.linesOnce) :
    Thinned s ((forEach l (recallLine q space line)).run s) ∧
      ∀ f ∈ l, (((forEach l (recallLine q space line)).run s).engine f).line space line = none := by
  induction l generalizing s with
  | nil => exact ⟨Thinned.refl s, nofun⟩
  | cons f rest ih =>
    obtain ⟨hf, hrest⟩ := List.forall_mem_cons.1 hl
    obtain ⟨hthin, hnone⟩ := recallLine_thinned hw q space line f
    obtain ⟨hthin', hnone'⟩ := ih (Act.run_wf _ s hw) hrest (hthin.linesOnce honce)
    rw [run_forEach_cons]
    exact ⟨hthin.trans hthin', List.forall_mem_cons.2 ⟨hthin'.line_none (hnone (honce f hf)), hnone'⟩⟩

theorem touchWriteLine_unbuffered (hw : s.wf = true) (honce : s.linesOnce) (q : FReq) (space line : Nat) :
    Thinned s ((touchWriteLine q none space line).run s) ∧ ((touchWriteLine q none space line).run s).unbuffered space line := by
  rw [touchWriteLine_eq]
  obtain ⟨hthin, hnone⟩ := recallLines_thinned q space line (othersOf none) hw (by decide) honce
  exact ⟨hthin, fun e he => hnone e (by simpa [othersOf] using he)⟩

theorem touchWriteLines_unbuffered (q : FReq) (space : Nat) (l : List Nat) (hw : s.wf = true) (honce : s.linesOnce) :
    Thinned s ((forEach l (touchWriteLine q none space)).run s) ∧
      ∀ line ∈ l, ((forEach l (touchWriteLine q none space)).run s).unbuffered space line := by
  induction l generalizing s with
  | nil => exact ⟨Thinned.refl s, nofun⟩
  | cons line rest ih =>
    obtain ⟨hthin, hnone⟩ := touchWriteLine_unbuffered hw honce q space line
    obtain ⟨hthin', hnone'⟩ := ih (Act.run_wf _ s hw) (hthin.linesOnce honce)
    rw [run_forEach_cons]
    exact ⟨hthin.trans hthin', List.forall_mem_cons.2 ⟨fun e he => hthin'.line_none (hnone e he), hnone'⟩⟩

theorem mem_linesOf {a n i : Nat} (h : i < n) : (a + i) / 64 ∈ linesOf a n := by
  have hle : (a + i) / 64 ≤ (a + max n 1 - 1) / 64 := Nat.div_le_div_right (by omega)
  have hge : a / 64 ≤ (a + i) / 64 := Nat.div_le_div_right (by omega)
  exact List.mem_map.2 ⟨(a + i) / 64 - a / 64, List.mem_range.2 (by omega), by omega⟩

/-! ### Bytes of the descriptor store -/

/-- A byte that no engine buffers is the memory's. -/
theorem cohByte_of_unbuffered {space a : Nat} (h : s.unbuffered space (a / 64)) : s.cohByte space a = s.spaceByte space a := by
  rw [State.cohByte]
  split
  · next b hb =>
    obtain ⟨e, he, hsome⟩ := List.exists_of_findSome?_eq_some hb
    have hline : s.wline e space a = none := h e (List.mem_range.1 he)
    simp [hline] at hsome
  · rfl

theorem spaceByte_desc {a : Nat} (h : a < 0x80000) : s.spaceByte 1 a = s.byte .objs a := by
  have hrec : inChanRecords a = false := by
    simp only [inChanRecords, Bool.and_eq_false_iff, decide_eq_false_iff_not]
    omega
  simp [State.spaceByte, hrec, spaceMem]

theorem run_storeDesc (l : List Byte) (k a : Nat) (h : a + k + l.length ≤ 0x80000) :
    (forEach (l.zipIdx k) fun p => when_ (([] : List Bool).getD p.2 true) (storeByte 1 (a + p.2) p.1)).run s =
      (storeBytes .objs (a + k) l).run s := by
  induction l generalizing k s with
  | nil => rfl
  | cons b rest ih =>
    simp only [List.length_cons] at h
    have hrec : inChanRecords (a + k) = false := by
      simp only [inChanRecords, Bool.and_eq_false_iff, decide_eq_false_iff_not]
      omega
    have hstore : storeByte 1 (a + k) b = .upd (.mem .objs (a + k) b) := by simp [storeByte, hrec, spaceMem]
    rw [List.zipIdx_cons, run_forEach_cons, ih (k + 1) (by omega), storeBytes, run_seq]
    simp only [List.getD_nil, run_when, if_true, hstore]
    rfl

/-- Zeros that the device writes over descriptors read as zero by every master. -/
theorem otherWrite_zeros (hw : s.wf = true) (h : s.oneHolder) (q : FReq) {a n i : Nat} (hend : a + n ≤ 0x80000) (hi : i < n) :
    ((otherWrite q 1 a (List.replicate n 0)).run s).cohByte 1 (a + i) = 0 := by
  obtain ⟨_, hlines⟩ := touchWriteLines_unbuffered q 1 (linesOf a n) hw (linesOnce_of_oneHolder h)
  have hwu : ((forEach (linesOf a n) (touchWriteLine q none 1)).run s).wf = true := Act.run_wf _ s hw
  simp only [otherWrite, otherWriteBe, run_acts_cons, run_acts_nil, List.length_replicate]
  generalize (forEach (linesOf a n) (touchWriteLine q none 1)).run s = u at hlines hwu
  have hwv : ((memGrant q 1 a n).run u).wf = true := Act.run_wf _ u hwu
  have hzeros : (storeBytes .objs (a + 0) (List.replicate n 0)).Only [.objs] [] :=
    only_storeBytes _ _ _ fun _ => by simp [Upd.part]
  rw [run_storeDesc _ 0 a (by simpa using hend)]
  have hfree : ((storeBytes .objs (a + 0) (List.replicate n 0)).run ((memGrant q 1 a n).run u)).unbuffered 1 ((a + i) / 64) :=
    fun e he => by
      rw [hzeros.engine _ (by decide), (memGrant_only q 1 a n).engine _ (by decide)]
      exact hlines _ (mem_linesOf hi) e he
  rw [cohByte_of_unbuffered hfree, spaceByte_desc (by omega),
    byte_storeBytes _ _ _ _ _ _ (State.wf_mems _ hwv) (by simp [memSize]; omega), if_pos (by simp [hi])]
  simp [List.getD_eq_getElem?_getD, hi]

end

end Sys2Proof.Machine
end

section
/-!
SUPPORT. CHAN_CREATE, CHAN_DESTROY and CHAN_REINIT.
-/

namespace Sys2Proof.Machine

section
variable {s t : State}

/-- A byte below the records reads alike in states with the same buffers and the same store. -/
theorem cohByte_desc_congr (hengines : t.engines = s.engines) (hobjs : t.objs = s.objs) {a : Nat} (h : a < 0x80000) :
    t.cohByte 1 a = s.cohByte 1 a := by
  simp only [State.cohByte, State.wline, State.engine, hengines, spaceByte_desc h, State.byte, State.bytes, hobjs]

theorem cohByte_of_only {ps : List Part} {offs : List Nat} {a : Act} (ha : a.Only ps offs) (he : .engines ∉ ps)
    (ho : .objs ∉ ps) {x : Nat} (h : x < 0x80000) : (a.run s).cohByte 1 x = s.cohByte 1 x :=
  cohByte_desc_congr (ha.part a s .engines he) (ha.part a s .objs ho) h

/-! ### CHAN_CREATE -/

theorem chanArgs_pos {a1 a2 a3 : Nat} (h : chanArgsOk a1 a2 a3 = true) : 1 ≤ a3 := by
  simp only [chanArgsOk, Bool.and_eq_true, decide_eq_true_eq] at h
  exact h.1.2

theorem chanCreate_run {a : Nat → Nat} {n c base : Nat} (p : Path) (hn : s.ctxOf (a 0) = some n) (hst : (s.ctx n).st = .live)
    (hargs : chanArgsOk (a 1) (a 2) (a 3) = true)
    (hc : OldestFree 0 256 (fun i => (s.chan i).st == .free) (fun i => (s.chan i).freedAt) c)
    (hbase : s.freeBlock (a 3) = some base) :
    (chanCreate p a).run s = (answer p mbOK [handle 3 (s.chan c).gen c, base] .none).run
      ((chanMake c n base (a 1) (a 2) (a 3)).run s) := by
  simp only [chanCreate, run_ask, hn, hargs, hst, freeIndex_of_oldest hc, hbase]
  rfl

/-- The pieces of state that CHAN_CREATE changes. -/
def makeParts : List Part := [.chans, .stag, .objs, .engines, .elder, .ports, .wbq, .descUsed]

theorem within_chanMake {now : WTime} (c n base a1 a2 a3 : Nat) :
    (chanMake c n base a1 a2 a3).Within now makeParts [F.DEV_DIR_CNT_RECALL.off] := by
  intro s hs
  have hwrite := within_otherWrite (ps := makeParts) (offs := [F.DEV_DIR_CNT_RECALL.off]) (by decide) (by simp)
    (internalReq_timely hs) 1 (64 * base) (List.replicate (64 * a3) 0)
  simp only [within_acts_cons, within_acts_nil, and_true]
  exact ⟨⟨.descUsed, rfl, by decide⟩, hwrite, Act.Only.within ((only_modChan _ _).2 (by decide))⟩

/-- A new channel. -/
def Chan.made (x : Chan) (n base a1 a2 a3 : Nat) : Chan :=
  { Chan.init with
    st := .idle, gen := x.gen, freedAt := x.freedAt, ctx := n, burst := bits a1 0 8,
    engines := if bits a1 8 4 == 0 then 15 else bits a1 8 4, pfMax := if bits a1 12 3 == 0 then 4 else bits a1 12 3,
    paceWick := bits a2 0 8, paceEn := bitAt a2 8, base := base, count := a3 }

/-- The block of a new channel is zeroed. -/
def blockZero (s : State) (base a3 : Nat) : Act := acts [
  .upd (.descUsed (s.descUsed + a3)), otherWrite s.internalReq 1 (64 * base) (List.replicate (64 * a3) 0)]

theorem chanMake_run (c n base a1 a2 a3 : Nat) : (chanMake c n base a1 a2 a3).run s =
    (modChan c fun x => x.made n base a1 a2 a3).run ((blockZero s base a3).run s) := rfl

theorem blockZero_chan (hw : s.wf = true) (base a3 c : Nat) : ((blockZero s base a3).run s).chan c = s.chan c := by
  refine chan_of_unchanged (Act.Within.unchanged (ps := .descUsed :: writeParts) (offs := [F.DEV_DIR_CNT_RECALL.off])
    (now := s.now) ?_ rfl (by decide) hw) (by decide) c
  simp only [blockZero, within_acts_cons, within_acts_nil, and_true]
  exact ⟨⟨.descUsed, rfl, by decide⟩, within_otherWrite (List.subset_cons_self _ _) (by simp) (internalReq_timely rfl) _ _ _⟩

theorem chanMake_chan (hw : s.wf = true) (c n base a1 a2 a3 d : Nat) :
    ((chanMake c n base a1 a2 a3).run s).chan d = if d = c then (s.chan c).made n base a1 a2 a3 else s.chan d := by
  rw [chanMake_run, chan_modChan (Act.run_wf _ s hw), blockZero_chan hw, blockZero_chan hw]

theorem chanMake_zeros (hw : s.wf = true) (hone : s.oneHolder) {base a3 : Nat} (hend : base + a3 ≤ 8192) (c n a1 a2 : Nat)
    {i : Nat} (hi : i < 64 * a3) : ((chanMake c n base a1 a2 a3).run s).cohByte 1 (64 * base + i) = 0 := by
  have hzero : ((blockZero s base a3).run s).cohByte 1 (64 * base + i) = 0 :=
    otherWrite_zeros (s := (Upd.descUsed (s.descUsed + a3)).apply s) (Upd.apply_wf _ s hw) hone _ (by omega) hi
  rw [chanMake_run]
  have honly : (modChan c fun x => x.made n base a1 a2 a3).Only [.chans] [] := (only_modChan _ _).2 (by simp)
  exact (cohByte_of_only honly (by decide) (by decide) (by omega)).trans hzero

/-! ### CHAN_DESTROY -/

theorem chanDestroy_run {a : Nat → Nat} {c : Nat} (p : Path) (hc : s.chanOf (a 0) = some c) (hst : (s.chan c).st ≠ .dying) :
    (chanDestroy p a).run s = (answer p mbOK [] .none).run ((dyingChan c stABORTED).run s) := by
  rw [chanDestroy, run_ask, hc]
  simp [hst]

/-- What an ABORT stop ends on a channel, before the channel goes to another state. -/
def cutChan (c status : Nat) : Act := .ask fun s => acts [
  abortRun c status, dropSubs c status, modChan c fun x => { x with stopWT := s.now, resValid := false, bitten := false }]

theorem keeps_cutChan {D : Prop} (c status : Nat) : (cutChan c status).Keeps D s := keeps_ask fun _ => by
  simp only [keeps_acts_cons, keeps_abortRun, keeps_dropSubs, keeps_acts_nil, true_and, and_true]
  exact keeps_modChan c (fun _ => rfl) fun _ h => h

/-- A DYING channel of a context that is not DYING is freed once it has been cut. -/
theorem abortChan_run_dying (hw : s.wf = true) {c : Nat} (hst : (s.chan c).st = .dying)
    (hctx : (s.ctx (s.chan c).ctx).st ≠ .dying) (status : Nat) :
    (abortChan c status status).run s = (chanFree c).run ((cutChan c status).run s) := by
  have hkept := (keeps_cutChan (D := True) (s := s) c status).kept hw
  have hst' := hkept.dying trivial c hst
  have hctx' : (((cutChan c status).run s).ctx (((cutChan c status).run s).chan c).ctx).st ≠ .dying := by
    rwa [hkept.chanCtx, (hkept.ctxs _).1]
  have hstop : ∀ st, (stopTo c st).run ((cutChan c status).run s) = (chanFree c).run ((cutChan c status).run s) := fun st => by
    simp [stopTo, hst', hctx']
  rw [← hstop (if (s.chan c).dest == some .stopped then .stopped else .idle), abortChan, run_ask]
  simp only [hst, cutChan, run_ask, run_acts_cons, run_acts_nil]

theorem chanFree_zeros (hw : s.wf = true) (hone : s.oneHolder) {c i : Nat} (hend : (s.chan c).base + (s.chan c).count ≤ 8192)
    (hi : i < 64 * (s.chan c).count) : ((chanFree c).run s).cohByte 1 (64 * (s.chan c).base + i) = 0 := by
  have hzero := otherWrite_zeros hw hone s.internalReq (a := 64 * (s.chan c).base) (n := 64 * (s.chan c).count) (by omega) hi
  have hmid : ((chanZero s c).run s).cohByte 1 (64 * (s.chan c).base + i) = 0 := by
    simp only [chanZero, run_acts_cons, run_acts_nil]
    generalize (otherWrite s.internalReq 1 (64 * (s.chan c).base) (List.replicate (64 * (s.chan c).count) 0)).run s = u at hzero
    exact (cohByte_desc_congr (s := u) (by rfl) (by rfl) (by omega)).trans hzero
  rw [chanFree_run]
  exact (cohByte_of_only queueSettle_only (by decide) (by decide) (by omega)).trans
    ((cohByte_of_only (giveIndex_only c) (by decide) (by decide) (by omega)).trans hmid)

/-- What CHAN_DESTROY leaves of a channel with no atomic operation in progress (R147). -/
theorem dyingChan_freed (hw : s.wf = true) {c : Nat} (hctx : (s.ctx (s.chan c).ctx).st ≠ .dying) (hbusy : s.atomicBusy c = false)
    (hone : s.oneHolder) (hend : (s.chan c).base + (s.chan c).count ≤ 8192) (status : Nat) :
    (∃ k, ((dyingChan c status).run s).chan c = (s.chan c).freed k) ∧
      ∀ i < 64 * (s.chan c).count, ((dyingChan c status).run s).cohByte 1 (64 * (s.chan c).base + i) = 0 := by
  have hwm : ((markChan c).run s).wf = true := Act.run_wf _ s hw
  have hmark := (keeps_markChan (s := s) False c).kept hw
  have hst : (((markChan c).run s).chan c).st = .dying := congrArg Chan.st (markChan_chan hw c)
  have hctxm : (((markChan c).run s).ctx (((markChan c).run s).chan c).ctx).st ≠ .dying := by
    rwa [hmark.chanCtx, (hmark.ctxs _).1]
  have hcut := hmark.trans ((keeps_cutChan (D := False) (s := (markChan c).run s) c status).kept hwm)
  have hwz : ((cutChan c status).run ((markChan c).run s)).wf = true := Act.run_wf _ _ hwm
  rw [dyingChan_run hw, hbusy, if_neg Bool.false_ne_true, abortChan_run_dying hwm hst hctxm]
  generalize (cutChan c status).run ((markChan c).run s) = z at hcut hwz
  have hids := hcut.ids c
  simp only [Chan.ids, Prod.mk.injEq] at hids
  obtain ⟨hgen, _, hbase, hcount⟩ := hids
  obtain ⟨k, hfreed⟩ := chanFree_chan hwz c
  refine ⟨⟨k, ?_⟩, fun i hi => ?_⟩
  · rw [hfreed, if_pos rfl, Chan.freed, hgen]
    rfl
  · rw [← hbase]
    refine chanFree_zeros hwz ?_ (by omega) (by omega)
    rw [State.oneHolder, hcut.dirtyLines]
    exact hone

/-! ### CHAN_REINIT -/

/-- The channel is IDLE with no resume record, no fault place and pace count 0 (R560). -/
def reviveChan (c : Nat) : Act :=
  modChan c fun x => { x with st := .idle, resValid := false, faultDesc := 0, faultOff := 0, pace := 0 }

theorem chanReinit_run {a : Nat → Nat} {c : Nat} {p : Path} (hc : s.chanOf (a 0) = some c)
    (hright : ¬ (p = .bar0 ∧ ((s.chan c).ctx = 64 ∨ (s.chan c).ctx = 65)))
    (hst : (s.chan c).st = .idle ∨ (s.chan c).st = .halted ∨ (s.chan c).st = .stopped) :
    (chanReinit p a).run s = (answer p mbOK [] .none).run ((reviveChan c).run s) := by
  have hpath : (p == .bar0 && ((s.chan c).ctx == 64 || (s.chan c).ctx == 65)) = false := by simpa using hright
  have hstate : (!((s.chan c).st == .idle || (s.chan c).st == .halted || (s.chan c).st == .stopped)) = false := by
    rcases hst with hst | hst | hst <;> simp [hst]
  rw [chanReinit, run_ask, hc]
  simp only [hpath, hstate]
  rfl

theorem reviveChan_only (c : Nat) : (reviveChan c).Only [.chans] [] := by simp [reviveChan]

theorem reviveChan_chan (hw : s.wf = true) (c d : Nat) : ((reviveChan c).run s).chan d =
    if d = c then { s.chan c with st := .idle, resValid := false, faultDesc := 0, faultOff := 0, pace := 0 } else s.chan d := by
  rw [reviveChan, chan_modChan hw]

/-! ### The statement -/

theorem oneHolder_cmdBegun (p : Path) (op seq : Nat) : (s.cmdBegun p op seq).oneHolder ↔ s.oneHolder := by cases p <;> rfl

theorem cohByte_answer (p : Path) (result : Nat) (res : List Nat) (w : JobWait) (space a : Nat) :
    ((answer p result res w).run s).cohByte space a = s.cohByte space a := by cases p <;> rfl

theorem atomicBusy_cmdBegun (p : Path) (op seq c : Nat) : (s.cmdBegun p op seq).atomicBusy c = s.atomicBusy c := by
  cases p <;> rfl

theorem freed_fields (x : Chan) (k : Nat) :
    (x.freed k).st = .free ∧ (x.freed k).gen = (x.gen + 1) % 4096 ∧ (x.freed k).subs = [] ∧ (x.freed k).run = none :=
  ⟨rfl, rfl, rfl, rfl⟩

/-- Settles O21: the block is found by induction over the sorted blocks, a write past the buffers reads back, and a stop keeps
the channel's block and generation until its index is given back. -/
theorem channelCreateDestroyReinit : Obligations.ChannelCreateDestroyReinit := by
  intro s p seq hready
  have hw := wf_of_mbReady hready
  refine ⟨fun hone n hn hst hargs _ base hend hfree hleast c hc => ?_, fun c hc =>
    ⟨fun hst hctx => ⟨fun hbusy => ?_, fun hbusy hone hend => ?_⟩, fun hright hst => ?_⟩⟩
  · have hwb := cmdBegun_wf hw p 0x10 seq
    have hblock : (s.cmdBegun p 0x10 seq).freeBlock (s.arg p 3) = some base :=
      freeBlock_of_lowest hwb (chanArgs_pos hargs) hend (by simpa [BlockFree] using hfree) (by simpa [BlockFree] using hleast)
    have hrun := chanCreate_run (s := s.cmdBegun p 0x10 seq) p (by simpa using hn) (by simpa using hst) hargs
      (by simpa using hc) hblock
    rw [chan_cmdBegun] at hrun
    have hcells := chanMake_chan hwb c n base (s.arg p 1) (s.arg p 2) (s.arg p 3)
    have hc := (chan_answer p _ mbOK [handle 3 (s.chan c).gen c, base] .none c).trans ((hcells c).trans (if_pos rfl))
    have hunchanged := (within_chanMake c n base (s.arg p 1) (s.arg p 2) (s.arg p 3)).unchanged rfl (by decide) hwb
    refine ⟨_, mail_next hready 0x10 seq hrun, (quiet_chanMake c n base _ _ _).begun hready 0x10 seq _ _ _, ?_, ?_, ?_,
      ?_, ?_, ?_, ?_, ?_, ?_, fun i hi => ?_, fun d hd => ?_, unchanged_around hw (Act.run_wf _ _ hwb) hunchanged _ _ _⟩
    · exact congrArg Chan.st hc
    · exact congrArg Chan.ctx hc
    · rw [congrArg Chan.gen hc, chan_cmdBegun]
      rfl
    · exact congrArg Chan.base hc
    · exact congrArg Chan.count hc
    · exact (congrArg Chan.burst hc).trans (by simp [Chan.made, bits])
    · exact congrArg Chan.subs hc
    · exact congrArg Chan.run hc
    · exact congrArg Chan.resValid hc
    · rw [cohByte_answer]
      exact chanMake_zeros hwb ((oneHolder_cmdBegun p 0x10 seq).2 hone) hend c n _ _ hi
    · rw [chan_answer, hcells d, if_neg hd, chan_cmdBegun]
  · have hwb := cmdBegun_wf hw p 0x11 seq
    have hrun := chanDestroy_run (s := s.cmdBegun p 0x11 seq) p (by simpa using hc) (by simpa using hst)
    have hdying := dyingChan_run hwb c stABORTED
    rw [atomicBusy_cmdBegun, hbusy, if_pos rfl] at hdying
    have hcell : ((dyingChan c stABORTED).run (s.cmdBegun p 0x11 seq)).chan c =
        { s.chan c with st := .dying, dest := none, stopPend := 3 } := by
      rw [hdying, chan_modChan (Act.run_wf _ _ hwb), if_pos rfl, markChan_chan hwb, chan_cmdBegun]
    refine ⟨_, mail_next hready 0x11 seq hrun, (quiet_dyingChan c stABORTED).begun hready 0x11 seq _ _ _, ?_, ?_⟩
    · rw [chan_answer, hcell]
    · rw [chan_answer, hcell]
  · have hwb := cmdBegun_wf hw p 0x11 seq
    have hrun := chanDestroy_run (s := s.cmdBegun p 0x11 seq) p (by simpa using hc) (by simpa using hst)
    obtain ⟨⟨k, hcell⟩, hzeros⟩ := dyingChan_freed hwb (c := c) (by simpa using hctx)
      ((atomicBusy_cmdBegun p 0x11 seq c).trans hbusy) ((oneHolder_cmdBegun p 0x11 seq).2 hone) (by simpa using hend) stABORTED
    rw [chan_cmdBegun] at hcell hzeros
    obtain ⟨hst', hgen, hsubs, hrun'⟩ := freed_fields (s.chan c) k
    refine ⟨_, mail_next hready 0x11 seq hrun, (quiet_dyingChan c stABORTED).begun hready 0x11 seq _ _ _, ?_, ?_, ?_, ?_,
      fun i hi => ?_⟩
    · rw [chan_answer, hcell, hst']
    · rw [chan_answer, hcell, hgen]
    · rw [chan_answer, hcell, hsubs]
    · rw [chan_answer, hcell, hrun']
    · rw [cohByte_answer, hzeros i hi]
  · have hwb := cmdBegun_wf hw p 0x12 seq
    have hrun := chanReinit_run (s := s.cmdBegun p 0x12 seq) (by simpa using hc) (by simpa using hright) (by simpa using hst)
    have hquiet : (reviveChan c).Quiet := quiet_modChan _ _
    refine ⟨_, mail_next hready 0x12 seq hrun, hquiet.begun hready 0x12 seq _ _ _, ?_, fun d hd => ?_,
      answered_unchanged (reviveChan_only c) hw p 0x12 seq _ _ _⟩
    · rw [chan_answer, reviveChan_chan hwb, if_pos rfl, chan_cmdBegun]
    · rw [chan_answer, reviveChan_chan hwb, if_neg hd, chan_cmdBegun]

end

end Sys2Proof.Machine
end

section
/-!
SUPPORT. States that the statements on fetches, moves and the lane and bus descriptors do not foresee: a bite that waits
while its channel runs (R216), and a buffered line that holds no bytes.
-/

namespace Sys2Proof.Machine

/-- A descriptor that waits for nothing and has moved nothing, in a phase. -/
def plainCur (words : List Word) (phase : Phase) : Cur :=
  ⟨0, words, 0, 0, 0, 0, phase, false, [], none, 0, false, 0, 0, 0, 0, none⟩

/-- Channel 0 of context 64 runs on engine 0 with a current descriptor. -/
def runningWith (d : Cur) : Chan :=
  { Chan.init with st := .running, ctx := 64, engine := 0, run := some { Run.start 0 none 0 with cur := some d } }

/-! ### O40: a bite that waits for a descriptor that has completed -/

/-- A NOP with a successor that has completed with DONE. -/
def doneNop : Cur := plainCur [0x3F] (.done 0)

/-- Its channel is bitten, and the bite acts once the descriptor has completed. -/
def bittenDone : State := { State.reset with chans := [(0, { runningWith doneNop with bitten := true })] }

theorem bittenDone_completes : Running bittenDone ∧ bittenDone.cur 0 = some doneNop ∧ (bittenDone.chan 0).st = .running ∧
    (bittenDone.chan 0).stopPend = 0 ∧ wtBefore doneNop.l doneNop.doneWT = false ∧ bittenDone.ringBlocked 0 = none ∧
    dNext doneNop.words ≠ 0xFFFFFFFF := by decide

/-- DESCRIPTOR_COMPLETE lets the bite act: the channel stops and its chain is over (R216). -/
theorem bittenDone_stops : (((row (completeAct 0)).run bittenDone).chan 0).st = .stopped := by decide +kernel

/-- Refutes O40: a bite waits for the end of the descriptor in progress, and a channel that is RUNNING with such a bite does
not pass on to its successor when its descriptor completes. -/
theorem not_fetchTakeAndComplete : ¬ Obligations.FetchTakeAndComplete := by
  intro h
  obtain ⟨hrun, hcur, hst, hstop, htime, hring, hnext⟩ := bittenDone_completes
  obtain ⟨_, _, completes⟩ := h bittenDone 0 hrun
  obtain ⟨successor, _⟩ := completes doneNop hcur rfl hst hstop rfl (by decide) (by decide) (by decide) rfl htime hring
  obtain ⟨t, hexec, _, hrunning, _⟩ := successor hnext
  obtain rfl : _ = t := Host.Outcome.next.inj hexec
  exact absurd (bittenDone_stops.symm.trans hrunning) (by decide)

/-! ### O42: a buffered line without its bytes -/

/-- A FILL of one byte 5 at staging address 0. -/
def fillOne : Cur := plainCur [0x02, 1, 0, 0, 0, 0x01000000, 0, 0, 0, 0, 0, 0, 5] .ready

/-- Engine 0 executes the FILL; its buffer lists staging line 0, and the list of the line's bytes is empty. -/
def emptyLine : State := { State.reset with
  engines := [(0, { Engine.init with chan := some 0, wcb := [⟨0, 0, 0, [], 0, 0⟩] })]
  chans := [(0, runningWith fillOne)] }

theorem emptyLine_executes : Executes emptyLine 0 0x02 fillOne ∧ emptyLine.oneHolder ∧ (emptyLine.chan 0).engine < 4 ∧
    (emptyLine.chan 0).stopPend ≠ 2 ∧ fillOne.off < dLen fillOne.words ∧
    dLen fillOne.words - fillOne.off ≤
      emptyLine.burstBytes 0 fillOne.words - fillOne.off % emptyLine.burstBytes 0 fillOne.words := by decide

theorem emptyLine_lands : opSel (dstAt fillOne.words fillOne.off) = 1 ∧
    lands emptyLine 0 fillOne true (dstAt fillOne.words fillOne.off) (dLen fillOne.words - fillOne.off) = some 0 := by decide

/-- The written byte has no place in the line. -/
theorem emptyLine_drops : ((row (moveRow 0 0x02 1)).run emptyLine).cohByte 0 0 = 0 := by decide +kernel

/-- Refutes O42: the statement does not ask that a buffered line holds its 64 bytes, and a FILL to a line that holds none
leaves its destination as it was. -/
theorem not_movesOneBurst : ¬ Obligations.MovesOneBurst := by
  intro h
  obtain ⟨hexe, hone, heng, hstop, hoff, hburst⟩ := emptyLine_executes
  have ⟨_, _, _, hcur, _⟩ := hexe
  obtain ⟨hsel, hlands⟩ := emptyLine_lands
  obtain ⟨_, fills, _⟩ := h emptyLine 0 1 hone (by decide) heng hstop fillOne hcur rfl hoff hburst
  obtain ⟨t, hexec, _, hfilled, _⟩ := fills hexe (.inl hsel) 0 hlands
  cases hexec
  have hbyte := hfilled 0 (by decide)
  rw [hsel] at hbyte
  exact absurd (emptyLine_drops.symm.trans hbyte) (by decide)

/-! ### O44: a bite that waits for a descriptor that fails -/

/-- A PMB_XFER that writes no bytes, to bus 0. -/
def xfer : Cur := plainCur [0x12] .ready

/-- Its channel is bitten, and bus 0 is not enabled. -/
def bittenXfer : State := { State.reset with
  regs := ((put F.PMB0_CTL_EN 0).run State.reset).regs
  chans := [(0, { runningWith xfer with bitten := true })] }

theorem bittenXfer_executes : Executes bittenXfer 0 0x12 xfer ∧ bittenXfer.oneHolder ∧ (bittenXfer.chan 0).stopPend = 0 ∧
    (bittenXfer.chan 0).engine < 4 ∧ busBytes bittenXfer 0 xfer = some [] ∧
    bittenXfer.busEn (busOf xfer.words) = false := by decide

/-- The failed descriptor lets the bite act, and no descriptor is current any more (R216). -/
theorem bittenXfer_ends : doneStatus ((row (descRow 0 0x12 (pmbBody 0))).run bittenXfer) 0 = none := by decide +kernel

/-- Refutes O44: a PMB_XFER that fails lets a bite that waits for it act, and does not stand completed with PMB_NAK. -/
theorem not_laneAndBusDescriptors : ¬ Obligations.LaneAndBusDescriptors := by
  intro h
  obtain ⟨hexe, hone, hstop, heng, hbytes, hbus⟩ := bittenXfer_executes
  have ⟨_, _, _, hcur, _⟩ := hexe
  obtain ⟨_, _, xfers, _⟩ := h bittenXfer 0 hstop hone heng xfer hcur
  obtain ⟨disabled, _⟩ := xfers hexe rfl [] hbytes
  obtain ⟨t, hexec, hdone, _⟩ := disabled hbus
  obtain rfl : _ = t := Host.Outcome.next.inj hexec
  exact absurd (bittenXfer_ends.symm.trans hdone) (by decide)

end Sys2Proof.Machine
end

section
/-!
SUPPORT. States that the statements on dispatch and on bites do not foresee: a channel whose last engine is none of the four,
and a context that is none of the 66.
-/

namespace Sys2Proof.Machine

/-! ### O39: a channel that last ran on an engine that is not there -/

/-- Channel 0 of context 64 asks engine 0; its record names engine 4 as the one that ran it last. -/
def lastOnFour : Chan :=
  { Chan.init with st := .queued, ctx := 64, engines := 1, engine := 4, run := some (Run.start 0 none 0) }

/-- Engine 4, which no coherent read looks at, buffers a 7 for byte 0 of staging. -/
def strayLine : State := { State.reset with
  engines := [(4, { Engine.init with wcb := [⟨0, 0, 1, [7], 0, 0⟩], wcbUsed := 1 })]
  chans := [(0, lastOnFour)] }

/-- Channel 0 alone asks engine 0, which is idle and may dispatch; no line has two holders. -/
theorem strayLine_asks : Running strayLine ∧ strayLine.pfHeld = false ∧ strayLine.pwr.standby = false ∧
    strayLine.pwr.quiesced = false ∧ (strayLine.engine 0).chan = none ∧ bitAt (strayLine.fld F.ERR_ENG_OFF) 0 = false ∧
    strayLine.asking 0 = [(0, strayLine.chanRank 0)] ∧ strayLine.oneHolder := by decide

/-- The dispatch flushes the engine that the channel left (R175), and the coherent byte changes. -/
theorem strayLine_flushed : strayLine.cohByte 0 0 = 0 ∧ ((row (dispatchAct 0)).run strayLine).cohByte 0 0 = 7 := by
  decide +kernel

/-- Refutes O39: the statement does not ask that the engine a channel left is one of the four, and the flush of another
engine's buffer changes the coherent image of staging. -/
theorem not_enginesDispatch : ¬ Obligations.EnginesDispatch := by
  intro h
  obtain ⟨hrun, hheld, hstandby, hquiesced, hidle, hon, hasking, hone⟩ := strayLine_asks
  obtain ⟨hbefore, hafter⟩ := strayLine_flushed
  obtain ⟨dispatches, _⟩ := h strayLine 0 hrun
  obtain ⟨_, grants⟩ := dispatches hheld hstandby hquiesced (by decide) hidle hon
  obtain ⟨ranked, _⟩ := grants (0, strayLine.chanRank 0) (by simp [hasking])
  obtain ⟨t, hexec, _, _, _, _, _, hcoherent, _⟩ := ranked (.inr (by simp [hasking])) (by simp [hasking])
  obtain rfl : _ = t := Host.Outcome.next.inj hexec
  have hsame := hcoherent hone 0 (by decide)
  exact absurd (hafter.symm.trans (hsame.trans hbefore)) (by decide)

/-! ### O41: a channel of a context that is not there -/

/-- Channel 0 runs a NOP on engine 0 for context 66, which is LIVE. -/
def strayCtx : State := { State.reset with
  ctxs := State.reset.ctxs ++ [(66, { Ctx.init with st := .live })]
  engines := [(0, { Engine.init with chan := some 0 })]
  chans := [(0, { runningWith (plainCur [0x3F] .ready) with ctx := 66 })] }

theorem strayCtx_runs : Running strayCtx ∧ (strayCtx.chan 0).st = .running ∧ (strayCtx.chan 0).engine = 0 ∧
    (strayCtx.engine 0).chan = some 0 ∧ strayCtx.atomicBusy 0 = false ∧ strayCtx.host.reads = [] ∧
    (strayCtx.chan 0).ctx = 66 ∧ (strayCtx.ctx 66).st = .live ∧ (strayCtx.ctx 66).losing = none ∧
    (strayCtx.ctx 66).fault = none := by decide

/-- Contexts 0 to 63 alone have a capture of their first fault (R154). -/
theorem strayCtx_uncaptured : (((row (biteAct 0 (.chan 0))).run strayCtx).ctx 66).fault = none := by decide +kernel

/-- Refutes O41: the statement does not ask that the bitten channel's context is one of those that capture a fault, and a
bite of a channel of context 66 leaves no status SNUFFED. -/
theorem not_snufferBites : ¬ Obligations.SnufferBites := by
  intro h
  obtain ⟨hrun, hst, heng, hgrant, hbusy, hreads, hctx, hlive, hlosing, hfault⟩ := strayCtx_runs
  obtain ⟨channel, _⟩ := h strayCtx 0 hrun (by decide)
  obtain ⟨t, hexec, _, _, _, _, _, _, _, _, _, user, _⟩ := channel 0 hst (by simp [heng]) heng.symm hgrant hbusy
    (by simp [hreads]) (by rw [hctx, hlive]) (by rw [hctx, hlosing])
  rw [hctx] at user
  obtain ⟨_, captured⟩ := user (by decide)
  obtain rfl : _ = t := Host.Outcome.next.inj hexec
  have hstatus := captured hfault
  rw [strayCtx_uncaptured] at hstatus
  cases hstatus

end Sys2Proof.Machine
end

section
/-!
SUPPORT. A state that the statement on Kindle requests does not foresee: the entry's start cuts a frame of an EMIT, and the
credit that comes back lets a QUEUED channel raise its request (R201, R236).
-/

namespace Sys2Proof.Machine

/-! ### O50: a cut frame gives its credit back -/

/-- Frame n of the EMIT of channel 0, to phase controller 0, with n as its SEQ. -/
def emitFrame (n : Nat) : TxFrame := ⟨.emit 0 n, 0, 1, [5], n, 0, 0, 0, 0, 0, none, 0⟩

/-- An EMIT of three frames of one byte to phase controller 0 of lane 0; two of them are loaded. -/
def emitOfThree : Cur := { plainCur [0x10, 3, 0, 0, 0, 0, 0, 0, 0, 0, 0, 0, 0x10000] .ready with sent := 2 }

/-- Lane 0 is TRAINED with phase controller 0: frame 0 of the EMIT is unacknowledged, and frame 1 is on the wire. -/
def emittingLane : Lane := { Lane.init with
  st := .trained, pcs := 1, tx := some (emitFrame 1, false), unacked := [emitFrame 0], credits := [(0, 2)], txSeq := [(0, 2)]
  busyTo := 50 }

/-- Kindle is armed on lane 0, whose slot of magnitude 0 in direction 0 holds one frame to phase controller 0.  Channel 0 is
QUEUED: two frames of its EMIT are outstanding, and the third one may not start (R234). -/
def armedOverEmit : State := { State.reset with
  regs := ((acts [put F.BOOT_STAT_PHASE 4, put F.KND_CTL_ARM 1, put F.KND_LANE_ARM_ARM 1, put F.KND_STAT_ACTIVE_VALID 1]).run
    State.reset).regs
  lanemem := [(0, 0x11), (1, 4), (17, 1)]
  wheel := { Wheel.init false with time := 4096 }
  lanes := [(0, emittingLane)]
  chans := [(0, { runningWith emitOfThree with st := .queued })] }

theorem armedOverEmit_starts : Running armedOverEmit ∧ armedOverEmit.kindle.req = false ∧ armedOverEmit.kindleRefuses = false ∧
    (List.range 8).any (fun l => bitAt armedOverEmit.armedMask l &&
      slotValid (armedOverEmit.slot l armedOverEmit.bankNow (8 * b2n false + 0))) = true := by decide

/-- Before the request the channel raises none, and its issue time is 0. -/
theorem armedOverEmit_waits : armedOverEmit.canGo 0 = false ∧ (armedOverEmit.chan 0).run.map (·.i) = some 0 := by decide

/-- Frame 1 is cut and its credit refunded (R236): the channel raises its request, whose issue time is the present (R201). -/
theorem armedOverEmit_raised :
    (((row (kindleRequest 0 false)).run armedOverEmit).chan 0).run.map (·.i) = some 4096 := by decide +kernel

/-- Refutes O50: an entry that cuts a frame of an EMIT gives a credit back, and a channel that waits for it is not left as it
was, since its request is raised then. -/
theorem not_kindleRequestsAndLoads : ¬ Obligations.KindleRequestsAndLoads := by
  intro h
  obtain ⟨hrun, hreq, haccepted, harmed⟩ := armedOverEmit_starts
  obtain ⟨_, hissue⟩ := armedOverEmit_waits
  obtain ⟨requests, _⟩ := h armedOverEmit hrun
  obtain ⟨_, accepts⟩ := requests 0 false (by decide) hreq
  obtain ⟨_, starts⟩ := accepts haccepted
  obtain ⟨t, hexec, _, _, _, _, _, _, hchans⟩ := starts harmed
  obtain rfl : _ = t := Host.Outcome.next.inj hexec
  have hsame : (((row (kindleRequest 0 false)).run armedOverEmit).chan 0).run.map (·.i) = some 0 :=
    (congrArg (fun m => (SMap.get Chan.init m 0).run.map (·.i)) hchans).trans hissue
  exact absurd (armedOverEmit_raised.symm.trans hsame) (by decide)

end Sys2Proof.Machine
end

section
/-!
SUPPORT. DEV_STOP writes that are refused or come to nothing (R256, R257).
-/

namespace Sys2Proof.Machine

/-- A DEV_STOP write is refused: REFUSED counts and its event is set (R256). -/
def stopRefused : Act := acts [count F.DEV_STOP_CNT_REFUSED, event F.DEV_STOP_EVT_REFUSED]

/-- A DEV_STOP write of a path does not name a channel rightly: it is FREE, of another generation, or of a device context and
BAR0 writes. -/
abbrev Misnamed (s : State) (p : Path) (c gen : Nat) : Prop :=
  (s.chan c).st = .free ∨ (s.chan c).gen ≠ gen ∨ (p = .bar0 ∧ ((s.chan c).ctx = 64 ∨ (s.chan c).ctx = 65))

section
variable {s : State} {p : Path} {c gen mode : Nat}

theorem devStop_run (h : Reaches s p 0x050) (v : Word) :
    (row (devStop p v c gen (some mode))).run s = (if Misnamed s p c gen then stopRefused else stopReq c mode).run s := by
  rw [row_run_of_running (running_of_pathFree h.1), devStop, pathWrite_run_of_reaches h, run_ask]
  simp only [Bool.or_eq_true, Bool.and_eq_true, beq_iff_eq, bne_iff_ne, or_assoc]
  rfl

/-- A stop of a channel at rest, or one no stronger than the pending one, changes nothing (R257). -/
theorem stopReq_run_of_idle (h : ¬ (((s.chan c).st = .queued ∨ (s.chan c).st = .running ∨ (s.chan c).st = .parked) ∧
    (s.chan c).stopPend < mode)) : (stopReq c mode).run s = s := by
  rw [stopReq, run_ask, run_when, if_neg]
  simpa [or_assoc] using h

end

theorem only_stopRefused : stopRefused.Only [.host] [0x058, 0x054] :=
  ⟨(only_count _ (by decide)).2 (by decide), only_event _ (by decide) (by decide) (by decide)⟩

theorem stopRefused_fields {s : State} (h : s.wf = true) :
    (stopRefused.run s).fld F.DEV_STOP_CNT_REFUSED = min (s.fld F.DEV_STOP_CNT_REFUSED + 1) 65535 ∧
      (stopRefused.run s).fld F.DEV_STOP_EVT_REFUSED = 1 ∧
      (stopRefused.run s).fld F.DEV_STOP_EVT_PWRFAIL = s.fld F.DEV_STOP_EVT_PWRFAIL ∧
      (stopRefused.run s).fld F.DEV_STOP_EVT_PF_LOST = s.fld F.DEV_STOP_EVT_PF_LOST := by
  have hregs := s.wf_regs h
  have hregs' := Act.run_regs_wf (count F.DEV_STOP_CNT_REFUSED) s hregs
  have hcount : (count F.DEV_STOP_CNT_REFUSED).Only [] [0x058] := (only_count _ (by decide)).2 (by decide)
  have hok : F.DEV_STOP_EVT_REFUSED.ok := (Fld.ok_iff _).2 (by decide)
  have other : ∀ g : Fld, g.ok → g.off = 0x054 → 1 ≤ g.lo → (stopRefused.run s).fld g = s.fld g := fun g hg hoff hlo =>
    (fld_event_disjoint _ _ g hregs' hok hg hoff (.inr hlo)).trans
      (hcount.fld hregs g (by omega) (by simp [hoff]))
  refine ⟨?_, fld_event_same _ _ hregs' hok rfl, other _ ((Fld.ok_iff _).2 (by decide)) rfl (by decide),
    other _ ((Fld.ok_iff _).2 (by decide)) rfl (by decide)⟩
  exact (fld_event_off _ _ _ hregs' (by decide)).trans (fld_count s _ hregs ((Fld.ok_iff _).2 (by decide)))

/-- Settles O25: a DEV_STOP write that misnames its channel counts and sets REFUSED, and a stop asks that its channel runs and
that no stop as strong is pending. -/
theorem stopsRefusedOrWithoutEffect : Obligations.StopsRefusedOrWithoutEffect := by
  intro s p c gen hreach
  have hrun := fun mode v => devStop_run (c := c) (gen := gen) (mode := mode) hreach v
  have hwf := hreach.1.1
  constructor
  · intro (hmis : Misnamed s p c gen)
    simp only [if_pos hmis] at hrun
    obtain ⟨hcnt, hevt, hpwr, hlost⟩ := stopRefused_fields hwf
    exact ⟨_, congrArg Host.Outcome.next (hrun 1 _), congrArg Host.Outcome.next (hrun 2 _), congrArg Host.Outcome.next (hrun 3 _), hcnt, hevt, hpwr, hlost,
      only_stopRefused.unchanged _ s (s.wf_regs hwf)⟩
  · intro hgen hpath
    have hstill : ∀ mode v, (s.chan c).st ≠ .free → (stopReq c mode).run s = s →
        (Host.Outcome.next ((row (devStop p v c gen (some mode))).run s) : Host.Outcome State Fault Refusal) = .next s := by
      intro mode v hfree hreq
      rw [hrun, if_neg, hreq]
      rintro (h | h | h)
      exacts [hfree h, h hgen, hpath h]
    refine ⟨fun hst => ?_, fun hfree hpend => hstill 1 _ hfree (stopReq_run_of_idle (by omega)),
      fun hfree hpend => hstill 2 _ hfree (stopReq_run_of_idle (by omega)),
      fun hfree hpend => hstill 3 _ hfree (stopReq_run_of_idle (by omega))⟩
    have hfree : (s.chan c).st ≠ .free := by rcases hst with h | h | h | h <;> simp [h]
    have hreq : ∀ mode, (stopReq c mode).run s = s := fun mode => stopReq_run_of_idle fun ⟨hbusy, _⟩ => by
      rcases hst with h | h | h | h <;> simp [h] at hbusy
    exact ⟨hstill 1 _ hfree (hreq 1), hstill 2 _ hfree (hreq 2), hstill 3 _ hfree (hreq 3)⟩

end Sys2Proof.Machine
end

section
/-!
SUPPORT. A state that the statement on stops which take effect does not foresee: a bite that waits for a descriptor that has
completed (R216).
-/

namespace Sys2Proof.Machine

/-! ### O26: a bite that waits for a descriptor that has completed -/

/-- A SIGNAL with a successor that has completed with DONE. -/
def doneSignal : Cur := plainCur [0x22] (.done 0)

/-- Channel 0 of context 64 was bitten during the SIGNAL, left its engine, and is QUEUED until the bite acts. -/
def bittenQueued : State := { State.reset with
  chans := [(0, { runningWith doneSignal with st := .queued, bitten := true })] }

theorem bittenQueued_stops : StopNames bittenQueued .scp 0 0 ∧ (bittenQueued.chan 0).st = .queued ∧
    (bittenQueued.chan 0).stopPend = 0 ∧ bittenQueued.haltWaits 0 = false ∧ (bittenQueued.chan 0).ringIdle = false ∧
    bittenQueued.cur 0 = some doneSignal := by decide

/-- DEV_STOP_HALT lets the bite act: the channel has faulted with SNUFFED and has no resume record (R216). -/
theorem bittenQueued_faults :
    (((row (devStop .scp (stopWord 0 0 1) 0 0 (some 2))).run bittenQueued).chan 0).resValid = false := by decide +kernel

/-- Refutes O26: the statement does not ask that no bite of the channel waits, and a HALT of a bitten channel whose descriptor
has completed ends in the fault of the bite, with no resume record. -/
theorem not_stopsTakeEffect : ¬ Obligations.StopsTakeEffect := by
  intro h
  obtain ⟨hnames, hst, hpend, hwaits, hring, hcur⟩ := bittenQueued_stops
  obtain ⟨stops, _⟩ := h bittenQueued .scp 0 0
  obtain ⟨_, _, halts, _⟩ := stops hnames (.inl hst)
  obtain ⟨_, completed⟩ := halts (by rw [hpend]; decide) (by rw [hst]; decide) hwaits hring
  obtain ⟨t, hexec, _, hresume, _⟩ := completed doneSignal hcur rfl rfl (by decide) rfl
  obtain rfl : _ = t := Host.Outcome.next.inj hexec
  exact absurd (bittenQueued_faults.symm.trans hresume) (by decide)

end Sys2Proof.Machine
end

section
/-!
SUPPORT. The drain of host writes after PWRFAIL# (R275): pending bits, the last writes of the record, and what the rows leave.
-/

namespace Sys2Proof.Machine

/-! ### Pending bits -/

theorem bitAt_eq_testBit (v i : Nat) : bitAt v i = v.testBit i := by
  rw [bitAt, Nat.testBit_eq_decide_div_mod_eq]
  rfl

theorem bitAt_clrBit (v i j : Nat) : bitAt (clrBit v i) j = (bitAt v j && j != i) := by
  rw [clrBit]
  split
  · next h =>
    have hbit : bits v i 1 = 1 := by simpa [bitAt, bits] using h
    have hrep := testBit_replace v 0 i 1 j
    simp only [hbit, Nat.zero_mod, Nat.zero_mul, Nat.add_zero, Nat.one_mul, Nat.zero_testBit] at hrep
    rw [bitAt_eq_testBit, hrep, bitAt_eq_testBit]
    by_cases hj : j = i
    · simp [hj]
    · have hout : ¬ (i ≤ j ∧ j < i + 1) := by omega
      simp only [if_neg hout, bne, beq_eq_false_iff_ne.2 hj, Bool.not_false, Bool.and_true]
  · next h =>
    by_cases hj : j = i
    · simp [hj, h]
    · simp [hj]

theorem bitAt_setBit_ne (v : Nat) {i j : Nat} (hj : j ≠ i) : bitAt (setBit v i) j = bitAt v j := by
  rw [setBit]
  split
  · rfl
  · next h =>
    have hbit : bits v i 1 = 0 := by
      simp only [bitAt, beq_iff_eq] at h
      simp only [bits]
      omega
    have hrep := testBit_replace v 1 i 1 j
    have hout : ¬ (i ≤ j ∧ j < i + 1) := by omega
    simp only [hbit, Nat.zero_mul, Nat.sub_zero, Nat.reducePow, Nat.one_mod, Nat.one_mul, if_neg hout] at hrep
    rw [bitAt_eq_testBit, bitAt_eq_testBit, hrep]

theorem bitAt_foldl_clrBit (l : List Nat) (v j : Nat) : bitAt (l.foldl clrBit v) j = (bitAt v j && !l.contains j) := by
  induction l generalizing v with
  | nil => simp
  | cons i rest ih =>
    rw [List.foldl_cons, ih, bitAt_clrBit, List.contains_cons, Bool.not_or, Bool.and_assoc]
    rfl

/-- The host link once what is unsent has been discarded: no posted write, and no pending bit that a message follows from. -/
def HostLink.discard (h : HostLink) : HostLink := { h with outq := [], pend := h.unsent.foldl clrBit h.pend }

theorem HostLink.unsent_discard (h : HostLink) : h.discard.unsent = [] := by
  rw [HostLink.unsent, List.filter_eq_nil_iff]
  intro v hv hon
  simp only [HostLink.discard, bitAt_foldl_clrBit, Bool.and_eq_true] at hon
  obtain ⟨⟨⟨⟨hpend, hcut⟩, hen⟩, hmask⟩, hvec⟩ := hon
  have hmem : v ∈ h.unsent := List.mem_filter.2 ⟨hv, by simp [hpend, hen, hmask, hvec]⟩
  simp [hmem] at hcut

/-- A vector raised is the only one that joins those unsent. -/
theorem unsent_raiseVec (v : Nat) (s : State) : ∀ w ∈ ((raiseVec v).run s).host.unsent, w = v ∨ w ∈ s.host.unsent := by
  intro w hw
  by_cases hwv : w = v
  · exact .inl hwv
  · refine .inr ?_
    rw [raiseVec_host] at hw
    split at hw
    · simpa [HostLink.unsent, bitAt_setBit_ne _ hwv] using hw
    · exact hw

/-- An event changes the host's part by raising vector 0 at most. -/
theorem event_host (f : Fld) (s : State) :
    ((event f).run s).host = s.host ∨ ((event f).run s).host = ((raiseVec 0).run s).host := by
  simp only [event, eventI, withAlert, run_ask, run_acts_cons, run_acts_nil, run_when]
  split
  · exact .inr rfl
  · exact .inl rfl

theorem event_unsent (f : Fld) {s : State} (h : s.host.unsent = []) :
    ((event f).run s).host.outq = s.host.outq ∧ ∀ v ∈ ((event f).run s).host.unsent, v = 0 := by
  rcases event_host f s with heq | heq <;> rw [heq]
  · exact ⟨rfl, by simp [h]⟩
  · refine ⟨by rw [raiseVec_host]; split <;> rfl, fun v hv => ?_⟩
    simpa [h] using unsent_raiseVec 0 s v hv

/-! ### The end of the drain -/

/-- The pieces that the end of the drain changes: the entry that it completes and the power control. -/
def drainParts : List Part := [.errq, .pwr]

theorem only_pfFinal (drained : Bool) : (pfFinal drained).Only drainParts [] := by
  intro s
  simp only [only_acts_cons, only_acts_nil, only_forSome, only_when, only_modPwr, and_true]
  exact ⟨fun _ _ _ => only_storeBytes .errq _ _ (by simp [Upd.part, drainParts]), by decide⟩

theorem pfFinal_kept (drained : Bool) {t : State} (h : t.wf = true) : ((pfFinal drained).run t).host = t.host ∧
    ((pfFinal drained).run t).clk = t.clk ∧ ∀ f : Fld, f.off < 0x1000 → ((pfFinal drained).run t).fld f = t.fld f :=
  ⟨(only_pfFinal drained).part _ t .host (by decide), (only_pfFinal drained).part _ t .clk (by decide),
    fun f hf => (only_pfFinal drained).fld (t.wf_regs h) f hf List.not_mem_nil⟩

theorem pfFinal_pf (drained : Bool) (s : State) : ((pfFinal drained).run s).pwr.pf = none := by
  simp only [pfFinal, run_ask, run_acts_cons, run_acts_nil]
  rfl

theorem only_pfDrained : pfDrained.Only drainParts [F.DEV_PF_STAT_DRAINED.off, F.DEV_PF_STAT_DRAIN.off] := by
  intro s
  simp only [only_acts_cons, only_acts_nil, and_true]
  exact ⟨(only_put _ _ (by decide)).2 (by decide), (only_put _ _ (by decide)).2 (by decide),
    (only_pfFinal true).mono (List.Subset.refl _) (List.nil_subset _)⟩

theorem pfDrained_fields {s : State} (h : s.wf = true) : (pfDrained.run s).pwr.pf = none ∧
    (pfDrained.run s).fld F.DEV_PF_STAT_DRAINED = 1 ∧ (pfDrained.run s).fld F.DEV_PF_STAT_DRAIN =
      (s.host.sentAt - s.pwr.pf.getD 0) / 8 % 2 ^ F.DEV_PF_STAT_DRAIN.width := by
  have hok : F.DEV_PF_STAT_DRAINED.ok ∧ F.DEV_PF_STAT_DRAIN.ok := by
    constructor <;> exact (Fld.ok_iff _).2 (by decide)
  have hregs := s.wf_regs h
  have hregs' := Act.run_regs_wf (put F.DEV_PF_STAT_DRAINED 1) s hregs
  obtain ⟨_, _, hfinal⟩ := pfFinal_kept true (Act.run_wf (put F.DEV_PF_STAT_DRAIN
    ((s.host.sentAt - s.pwr.pf.getD 0) / 8)) _ (Act.run_wf (put F.DEV_PF_STAT_DRAINED 1) s h))
  simp only [pfDrained, run_ask, run_acts_cons, run_acts_nil]
  refine ⟨pfFinal_pf true _, ?_, ?_⟩ <;> rw [hfinal _ (by decide)]
  · rw [fld_put_disjoint _ _ _ _ hregs' hok.2 hok.1 rfl (by decide), fld_put_same _ _ _ hregs hok.1]
    rfl
  · rw [fld_put_same _ _ _ hregs' hok.2]

/-- The losses of a drain are counted, and reported when there are any (R275). -/
def pfLosses (lost : List HWrite) : Act := acts [
  countBy F.DEV_PF_CNT_REQS lost.length, countBy F.DEV_PF_CNT_BEATS ((lost.map HWrite.beats).sum),
  when_ (!lost.isEmpty) (event F.DEV_STOP_EVT_PF_LOST)]

theorem pfLosses_host (lost : List HWrite) {s : State} (h : s.host.unsent = []) :
    ((pfLosses lost).run s).host.outq = s.host.outq ∧ ∀ v ∈ ((pfLosses lost).run s).host.unsent, v = 0 := by
  simp only [pfLosses, run_acts_cons, run_acts_nil, run_when]
  have hcount : ∀ (f : Fld) (n : Nat) (t : State), ((countBy f n).run t).host = t.host := fun _ _ _ => rfl
  split
  · obtain ⟨houtq, hunsent⟩ := event_unsent F.DEV_STOP_EVT_PF_LOST (s := (countBy F.DEV_PF_CNT_BEATS
      (lost.map HWrite.beats).sum).run ((countBy F.DEV_PF_CNT_REQS lost.length).run s)) h
    exact ⟨houtq, hunsent⟩
  · exact ⟨rfl, by simp [hcount, h]⟩

theorem only_pfLosses (lost : List HWrite) :
    (pfLosses lost).Only [.host] [F.DEV_PF_CNT_REQS.off, F.DEV_STOP_EVT_PF_LOST.off] := by
  simp only [pfLosses, only_acts_cons, only_acts_nil, only_when, and_true]
  exact ⟨(only_countBy _ _ (by decide)).2 (by decide), (only_countBy _ _ (by decide)).2 (by decide),
    fun _ => only_event _ (by decide) (by decide) (by decide)⟩

theorem pfLosses_fields (lost : List HWrite) {s : State} (h : s.wf = true) :
    ((pfLosses lost).run s).fld F.DEV_PF_CNT_REQS =
        min (s.fld F.DEV_PF_CNT_REQS + lost.length) (2 ^ F.DEV_PF_CNT_REQS.width - 1) ∧
      (lost.isEmpty = false → ((pfLosses lost).run s).fld F.DEV_STOP_EVT_PF_LOST = 1) := by
  have hok : F.DEV_PF_CNT_REQS.ok ∧ F.DEV_PF_CNT_BEATS.ok ∧ F.DEV_STOP_EVT_PF_LOST.ok := by
    refine ⟨?_, ?_, ?_⟩ <;> exact (Fld.ok_iff _).2 (by decide)
  obtain ⟨hreqs, hbeats, hlost⟩ := hok
  have hw := s.wf_regs h
  have hw' := Act.run_regs_wf (countBy F.DEV_PF_CNT_REQS lost.length) s hw
  have hw'' := Act.run_regs_wf (countBy F.DEV_PF_CNT_BEATS (lost.map HWrite.beats).sum) _ hw'
  have hcounted : ∀ n : Nat, ∀ t : State, Regs.wf t.regs = true →
      ((countBy F.DEV_PF_CNT_BEATS n).run t).fld F.DEV_PF_CNT_REQS = t.fld F.DEV_PF_CNT_REQS := fun n t ht =>
    fld_put_disjoint t _ _ _ ht hbeats hreqs rfl (by decide)
  simp only [pfLosses, run_acts_cons, run_acts_nil, run_when]
  constructor
  · rw [← fld_countBy s _ _ hw hreqs, ← hcounted _ _ hw']
    split
    · exact fld_event_off _ _ _ hw'' (by decide)
    · rfl
  · intro hne
    rw [if_pos (by simp [hne])]
    exact fld_event_same _ _ hw'' hlost rfl

/-! ### The mark -/

/-- The clock is brought to the mark, and nothing else of the drain changes (R275). -/
theorem advanceTo_clk (k : Nat) (s : State) : ((advanceTo k).run s).clk = max s.clk k := by
  rw [advanceTo, run_ask, tickBy_clk]
  omega

section
variable {s : State} {k : Nat}

theorem drainMark_run (h : Running s) (hk : s.pwr.pf = some k) : (row drainMarkAct).run s =
    (if s.allSent then pfDrained else acts [modHost HostLink.discard, pfLosses (s.host.outq.filter (·.kind != .msix)),
      pfFinal false]).run ((advanceTo (k + 4000)).run s) := by
  have hhost : ((advanceTo (k + 4000)).run s).host = s.host := tickBy_same _ s .host (by decide)
  have hsent : ((advanceTo (k + 4000)).run s).allSent = s.allSent := by rw [State.allSent, hhost]; rfl
  rw [row_run_of_running h, drainMarkAct, run_ask, run_when, h.2.1, hk, ← hsent]
  simp only [Bool.not_false, if_true, run_forSome_some, run_acts_cons, run_acts_nil, run_ask, usClocks, hhost]
  split
  · rfl
  · simp only [pfLosses, run_acts_cons, run_acts_nil]
    rfl

/-- The state at the mark: its fields outside the clock are those of the state before. -/
theorem advanceTo_fld (h : s.wf = true) (f : Fld) (hf : f.off < 0x1000) (hn : f.off ∉ timeOffs) :
    ((advanceTo k).run s).fld f = s.fld f := tickBy_fld _ h f hf hn

theorem allSent_iff : s.allSent = true ↔ s.host.outq = [] ∧ s.host.unsent = [] := by
  simp [State.allSent]

/-- All that was to be sent has left in time: the last departure is recorded (R275). -/
theorem pwrfailDrained_sent (h : Running s) (hk : s.pwr.pf = some k) (hsent : s.allSent = true) (hclk : s.clk ≤ k + 4000) :
    ∃ t, exec .pwrfailDrained s = .next t ∧ t.fld F.DEV_PF_STAT_DRAINED = 1 ∧ t.clk = s.clk ∧
      t.fld F.DEV_PF_STAT_DRAIN = (s.host.sentAt - k) / 8 % 2 ^ F.DEV_PF_STAT_DRAIN.width ∧ t.pwr.pf = none ∧
      Unchanged [.errq, .pwr] [F.DEV_PF_STAT_DRAINED.off, F.DEV_PF_STAT_DRAIN.off] s t := by
  have hrun : pwrfailDrainedAct.run s = pfDrained.run s := by
    simp [pwrfailDrainedAct, h.2.1, hk, hsent, usClocks, hclk]
  obtain ⟨hpf, hdrained, hdrain⟩ := pfDrained_fields h.1
  rw [hk] at hdrain
  exact ⟨_, row_next h hrun, hdrained, only_pfDrained.part _ s .clk (by decide), hdrain, hpf,
    only_pfDrained.unchanged _ s (s.wf_regs h.1)⟩

/-- At the mark nothing was unsent: the drain is done (R275). -/
theorem drainMark_sent (h : Running s) (hk : s.pwr.pf = some k) (hsent : s.allSent = true) :
    ∃ t, exec .pwrfailDrainMark s = .next t ∧ t.fld F.DEV_PF_STAT_DRAINED = 1 ∧ t.clk = max s.clk (k + 4000) ∧
      t.pwr.pf = none ∧ t.fld F.DEV_PF_CNT_REQS = s.fld F.DEV_PF_CNT_REQS := by
  have hwf : ((advanceTo (k + 4000)).run s).wf = true := Act.run_wf _ s h.1
  obtain ⟨hpf, hdrained, _⟩ := pfDrained_fields hwf
  refine ⟨_, congrArg Host.Outcome.next (drainMark_run h hk), ?_⟩
  rw [if_pos hsent]
  refine ⟨hdrained, ?_, hpf, ?_⟩
  · rw [← advanceTo_clk]
    exact only_pfDrained.part _ _ .clk (by decide)
  · rw [only_pfDrained.fld (State.wf_regs _ hwf) _ (by decide) (by decide), advanceTo_fld h.1 _ (by decide) (by decide)]

/-- At the mark something was unsent: it is discarded, and the data and record writes among it are counted (R275). -/
theorem drainMark_unsent (h : Running s) (hk : s.pwr.pf = some k) (hsent : s.allSent = false) :
    ∃ t, exec .pwrfailDrainMark s = .next t ∧ t.host.outq = [] ∧ (∀ v ∈ t.host.unsent, v = 0) ∧ t.pwr.pf = none ∧
      t.clk = max s.clk (k + 4000) ∧ t.fld F.DEV_PF_STAT_DRAINED = s.fld F.DEV_PF_STAT_DRAINED ∧
      t.fld F.DEV_PF_CNT_REQS = min (s.fld F.DEV_PF_CNT_REQS + (s.host.outq.filter (fun w => w.kind != .msix)).length)
        (2 ^ F.DEV_PF_CNT_REQS.width - 1) ∧
      (s.host.outq.any (fun w => w.kind != .msix) = true → t.fld F.DEV_STOP_EVT_PF_LOST = 1) := by
  have hwf : ((advanceTo (k + 4000)).run s).wf = true := Act.run_wf _ s h.1
  have hclk := advanceTo_clk (k + 4000) s
  have hfld := fun f hf hn => advanceTo_fld (k := k + 4000) h.1 f hf hn
  refine ⟨_, congrArg Host.Outcome.next (drainMark_run h hk), ?_⟩
  rw [if_neg (by simp [hsent])]
  generalize (advanceTo (k + 4000)).run s = u at hwf hclk hfld
  generalize hlost : s.host.outq.filter (·.kind != .msix) = lost
  simp only [run_acts_cons, run_acts_nil]
  have hdiscard : (modHost HostLink.discard).Only [.host] [] := (only_modHost _).2 (by decide)
  have hfld' := fun f hf => hdiscard.fld (s := u) (State.wf_regs _ hwf) f hf List.not_mem_nil
  have hclk' : ((modHost HostLink.discard).run u).clk = u.clk := rfl
  have hwf' : ((modHost HostLink.discard).run u).wf = true := Act.run_wf _ u hwf
  obtain ⟨houtq, hunsent⟩ := pfLosses_host lost (s := (modHost HostLink.discard).run u) u.host.unsent_discard
  have houtq' : ((modHost HostLink.discard).run u).host.outq = [] := rfl
  generalize (modHost HostLink.discard).run u = v at hfld' hclk' hwf' houtq hunsent houtq'
  obtain ⟨hreqs, hevt⟩ := pfLosses_fields lost hwf'
  have hlosses := only_pfLosses lost
  obtain ⟨hhost, hend, hkept⟩ := pfFinal_kept false (Act.run_wf (pfLosses lost) v hwf')
  refine ⟨by rw [hhost, houtq, houtq'], by rw [hhost]; exact hunsent, pfFinal_pf _ _, ?_, ?_, ?_, fun hany => ?_⟩
  · rw [hend, hlosses.part _ v .clk (by decide), hclk', hclk]
  · rw [hkept _ (by decide), hlosses.fld (v.wf_regs hwf') _ (by decide) (by decide), hfld' _ (by decide),
      hfld _ (by decide) (by decide)]
  · rw [hkept _ (by decide), hreqs, hfld' _ (by decide), hfld _ (by decide) (by decide)]
  · rw [hkept _ (by decide)]
    refine hevt ?_
    rw [← hlost, List.isEmpty_eq_false_iff]
    simpa [List.filter_eq_nil_iff] using hany

end

end Sys2Proof.Machine
end

section
/-!
SUPPORT. What the stops of PWRFAIL# leave alone (R273): the clock, the record of the failure, and the other running channels.
One lemma per function of the model, in the model's order.
-/

namespace Sys2Proof.Machine

-- The many short proofs are checked one after another, for each would else hold a thread of its own.
set_option Elab.async false

/-! ### The relation -/

/-- The registers that hold the record of PWRFAIL# and the freeze of the trace. -/
def pfOffs : List Nat := [F.DEV_STOP_EVT_PWRFAIL.off, F.DEV_PF_STAT_HELD.off, F.DEV_PF_WT_LO_WT_LO.off, F.DEV_PF_WT_HI_WT_HI.off,
  F.TRC_STAT_FROZEN.off]

/-- What the stop of channel `c` leaves alone: the clock, the power control, the record of PWRFAIL#, the governor's measuring
and the Cupboard's operation.  No channel comes to run, and one other than `c` that runs on has its chain as it was. -/
structure Calm (c : Nat) (s t : State) : Prop where
  clk : t.clk = s.clk
  pwr : t.pwr = s.pwr
  measuring : t.gov.measuring = s.gov.measuring
  op : t.cup.op = s.cup.op
  words : ∀ off ∈ pfOffs, t.word 0 off = s.word 0 off
  running : ∀ d, (t.chan d).st = .running → (s.chan d).st = .running ∧ (d ≠ c → (t.chan d).run = (s.chan d).run)

section
variable {α : Type} {c : Nat} {s t u : State} {a b : Act} {offs : List Nat}

theorem Calm.refl (c : Nat) (s : State) : Calm c s s := ⟨rfl, rfl, rfl, rfl, fun _ _ => rfl, fun _ h => ⟨h, fun _ => rfl⟩⟩

theorem Calm.trans (h : Calm c s t) (h' : Calm c t u) : Calm c s u where
  clk := h'.clk.trans h.clk
  pwr := h'.pwr.trans h.pwr
  measuring := h'.measuring.trans h.measuring
  op := h'.op.trans h.op
  words off ho := (h'.words off ho).trans (h.words off ho)
  running d hd := by
    obtain ⟨hmid, hrun'⟩ := h'.running d hd
    obtain ⟨hst, hrun⟩ := h.running d hmid
    exact ⟨hst, fun hne => (hrun' hne).trans (hrun hne)⟩

/-- The record of PWRFAIL# reads as it did. -/
theorem Calm.fld (h : Calm c s t) (f : Fld) (hf : f.off ∈ pfOffs) : t.fld f = s.fld f := by
  rw [State.fld, State.fldI, h.words f.off hf]
  rfl

theorem Calm.frozen (h : Calm c s t) : t.flag F.TRC_STAT_FROZEN = s.flag F.TRC_STAT_FROZEN := by
  rw [State.flag, h.fld _ (by decide)]
  rfl

/-- Every update that the meaning makes from the state on, with the trace frozen, leaves alone what the stop of channel `c`
does. -/
def Act.CalmFrom (c : Nat) : Act → State → Prop
  | .skip, _ => True
  | .upd u, s => Calm c s (u.apply s)
  | .seq a b, s => a.CalmFrom c s ∧ ∀ t, t.wf = true → t.flag F.TRC_STAT_FROZEN = true → Calm c s t → b.CalmFrom c t
  | .ask k, s => (k s).CalmFrom c s

/-- So it is from every state. -/
def Act.Calms (c : Nat) (a : Act) : Prop := ∀ s, s.wf = true → s.flag F.TRC_STAT_FROZEN = true → a.CalmFrom c s

theorem Act.CalmFrom.calm (h : a.CalmFrom c s) (hw : s.wf = true) (hf : s.flag F.TRC_STAT_FROZEN = true) :
    Calm c s (a.run s) := by
  induction a generalizing s with
  | skip => exact Calm.refl c s
  | upd u => exact h
  | seq a b iha ihb =>
    have hcalm := iha h.1 hw hf
    have hwf := Act.run_wf a s hw
    have hfrozen := hcalm.frozen.trans hf
    exact hcalm.trans (ihb (h.2 _ hwf hfrozen hcalm) hwf hfrozen)
  | ask k ih => exact ih s h hw hf

/-- Pieces of state that the relation does not speak of. -/
def calmParts : List Part := [.freeSeq, .stag, .objs, .errq, .trace, .lamp, .ctxs, .queues, .due, .mems, .fences, .engines,
  .elder, .ports, .wbq, .descUsed, .host, .chairs, .lanes, .pmb, .zhn, .boot]

theorem Upd.calm {u : Upd} (h : UpdIn calmParts offs u) (ho : ∀ off ∈ pfOffs, off ∉ offs) (hw : s.wf = true) :
    Calm c s (u.apply s) := by
  have hpart := fun p => Act.Only.part (.upd u) s (show (Act.upd u).Only calmParts offs from h) p
  have hchans : (u.apply s).chans = s.chans := hpart .chans (by decide)
  have hchan : (u.apply s).chan = s.chan := funext fun d => congrArg (SMap.get Chan.init · d) hchans
  have hgov : (u.apply s).gov = s.gov := hpart .gov (by decide)
  have hcup : (u.apply s).cup = s.cup := hpart .cup (by decide)
  have hoffs : ∀ off ∈ pfOffs, off < 0x1000 := by decide
  exact ⟨hpart .clk (by decide), hpart .pwr (by decide), by rw [hgov], by rw [hcup],
    fun off hoff => (show (Act.upd u).Only calmParts offs from h).word _ s (s.wf_regs hw) 0 off (hoffs off hoff) (ho off hoff),
    fun d hd => by simpa [hchan] using hd⟩

theorem Act.Only.calms (h : a.Only calmParts offs) (ho : ∀ off ∈ pfOffs, off ∉ offs) : a.Calms c := fun s hw hf => by
  induction a generalizing s with
  | skip => trivial
  | upd u => exact Upd.calm h ho hw
  | seq a b iha ihb => exact ⟨iha h.1 s hw hf, fun t hwt hft _ => ihb h.2 t hwt hft⟩
  | ask k ih => exact ih s (h s) s hw hf

theorem Act.Only.calm (h : a.Only calmParts []) : a.Calms c := h.calms fun _ _ => List.not_mem_nil

/-! ### Combinators -/

@[simp] theorem calms_skip : Act.skip.Calms c := fun _ _ _ => trivial
theorem calms_ask {k : State → Act} (h : ∀ u, (k u).Calms c) : (Act.ask k).Calms c := fun s => h s s
@[simp] theorem calms_seq (a b : Act) : (Act.seq a b).Calms c ↔ a.Calms c ∧ b.Calms c :=
  ⟨fun h => ⟨fun s hw hf => (h s hw hf).1, fun s hw hf => (h s hw hf).2 s hw hf (Calm.refl c s)⟩,
    fun ⟨ha, hb⟩ s hw hf => ⟨ha s hw hf, fun t hwt hft _ => hb t hwt hft⟩⟩
@[simp] theorem calms_acts_nil : (acts []).Calms c := calms_skip
@[simp] theorem calms_acts_cons (a : Act) (l : List Act) : (acts (a :: l)).Calms c ↔ a.Calms c ∧ (acts l).Calms c := by
  cases l <;> simp [acts]
@[simp] theorem calms_when (b : Bool) (a : Act) : (when_ b a).Calms c ↔ (b = true → a.Calms c) := by cases b <;> simp [when_]
@[simp] theorem calms_ite (p : Prop) [Decidable p] (a b : Act) :
    (if p then a else b).Calms c ↔ (p → a.Calms c) ∧ (¬p → b.Calms c) := by split <;> simp_all
@[simp] theorem calms_forEach (l : List α) (f : α → Act) : (forEach l f).Calms c ↔ ∀ x ∈ l, (f x).Calms c := by
  induction l with
  | nil => simp [forEach]
  | cons x l ih => simp only [forEach, List.map_cons, calms_acts_cons] at *; simp [ih]
@[simp] theorem calms_forSome (o : Option α) (f : α → Act) : (forSome o f).Calms c ↔ ∀ x, o = some x → (f x).Calms c := by
  cases o <;> simp [forSome]
theorem calms_rep (n : Nat) (h : a.Calms c) : (rep n a).Calms c := by
  induction n with
  | zero => exact calms_skip
  | succ n ih => exact (calms_seq _ _).2 ⟨h, ih⟩

/-! ### Changes of one piece of state -/

@[simp] theorem calms_modCtx (i : Nat) (f : Ctx → Ctx) : (modCtx i f).Calms c := ((only_modCtx i f).2 (by decide)).calm
@[simp] theorem calms_modQueue (i : Nat) (f : Queue → Queue) : (modQueue i f).Calms c := ((only_modQueue i f).2 (by decide)).calm
@[simp] theorem calms_modMobj (i : Nat) (f : MemObj → MemObj) : (modMobj i f).Calms c := ((only_modMobj i f).2 (by decide)).calm
@[simp] theorem calms_modFence (i : Nat) (f : Fence → Fence) : (modFence i f).Calms c := ((only_modFence i f).2 (by decide)).calm
@[simp] theorem calms_modEngine (i : Nat) (f : Engine → Engine) : (modEngine i f).Calms c :=
  ((only_modEngine i f).2 (by decide)).calm
@[simp] theorem calms_modChair (i : Nat) (f : Chair → Chair) : (modChair i f).Calms c := ((only_modChair i f).2 (by decide)).calm
@[simp] theorem calms_modLane (i : Nat) (f : Lane → Lane) : (modLane i f).Calms c := ((only_modLane i f).2 (by decide)).calm
@[simp] theorem calms_modPmbp (i : Nat) (f : PmbPort → PmbPort) : (modPmbp i f).Calms c := ((only_modPmbp i f).2 (by decide)).calm
@[simp] theorem calms_modLamp (f : Lamp → Lamp) : (modLamp f).Calms c := ((only_modLamp f).2 (by decide)).calm
@[simp] theorem calms_modHost (f : HostLink → HostLink) : (modHost f).Calms c := ((only_modHost f).2 (by decide)).calm
@[simp] theorem calms_modZhn (f : Zhn → Zhn) : (modZhn f).Calms c := ((only_modZhn f).2 (by decide)).calm
@[simp] theorem calms_modBoot (f : Boot → Boot) : (modBoot f).Calms c := ((only_modBoot f).2 (by decide)).calm
theorem calms_modGov {f : Gov → Gov} (h : ∀ g, (f g).measuring = g.measuring) : (modGov f).Calms c :=
  fun s _ _ => ⟨rfl, rfl, h s.gov, rfl, fun _ _ => rfl, fun _ hd => ⟨hd, fun _ => rfl⟩⟩
theorem calms_modCup {f : Cup → Cup} (h : ∀ x, (f x).op = x.op) : (modCup f).Calms c :=
  fun s _ _ => ⟨rfl, rfl, rfl, h s.cup, fun _ _ => rfl, fun _ hd => ⟨hd, fun _ => rfl⟩⟩
theorem calms_takeFreeSeq {k : Nat → Act} (h : ∀ n, (k n).Calms c) : (takeFreeSeq k).Calms c :=
  calms_ask fun _ => (calms_seq _ _).2 ⟨Act.Only.calm ⟨.freeSeq, rfl, by decide⟩, h _⟩
@[simp] theorem calms_due (l : List Due) : (Act.upd (.due l)).Calms c := Act.Only.calm ⟨.due, rfl, by decide⟩

/-- A channel's change leaves it alone, or makes it run no more, or is of the channel that stops. -/
theorem calm_modChan (hw : s.wf = true) {d : Nat} {f : Chan → Chan} (h : (f (s.chan d)).st = .running →
    (s.chan d).st = .running ∧ (d ≠ c → (f (s.chan d)).run = (s.chan d).run)) : Calm c s ((modChan d f).run s) := by
  refine ⟨rfl, rfl, rfl, rfl, fun _ _ => rfl, fun e he => ?_⟩
  rw [chan_modChan hw] at he ⊢
  split
  · next hed => subst hed; rw [if_pos rfl] at he; exact h he
  · next hed => rw [if_neg hed] at he; exact ⟨he, fun _ => rfl⟩

theorem calms_modChan {f : Chan → Chan} (h : ∀ x, (f x).st = .running → x.st = .running) : (modChan c f).Calms c :=
  fun _ hw _ => calm_modChan hw fun hst => ⟨h _ hst, fun hne => absurd rfl hne⟩
@[simp] theorem calms_modRun (f : Run → Run) : (modRun c f).Calms c := calms_modChan fun _ h => h
@[simp] theorem calms_modCur (f : Cur → Cur) : (modCur c f).Calms c := calms_modRun _

/-! ### Registers, events, trace records and posted errors -/

theorem calms_put {f : Fld} (hf : f.off < 0x1000) (v : Nat) (ho : f.off ∉ pfOffs) : (put f v).Calms c :=
  ((only_put f v hf).2 (List.mem_singleton_self _)).calms fun _ hoff hmem => ho (List.mem_singleton.1 hmem ▸ hoff)
theorem calms_count {f : Fld} (hf : f.off < 0x1000) (n : Nat) (ho : f.off ∉ pfOffs) : (countBy f n).Calms c :=
  calms_ask fun _ => calms_put hf _ ho
@[simp] theorem calms_raiseVec (v : Nat) : (raiseVec v).Calms c := calms_modHost _
theorem calms_event {f : Fld} (hf : f.off < 0x1000) (ho : f.off ∉ pfOffs) : (event f).Calms c :=
  (only_event f hf (List.mem_singleton_self _) (by decide)).calms fun _ hoff hmem => ho (List.mem_singleton.1 hmem ▸ hoff)
@[simp] theorem calms_portBeat (q : FReq) (res : Nat) : (portBeat q res).Calms c := (only_portBeat q res (by decide)).calm
/-- A frozen trace takes no record (R569). -/
@[simp] theorem calms_traceRec (typ : Nat) (data : List Byte) : (traceRec typ data).Calms c := fun s _ hf => by
  simp [traceRec, Act.CalmFrom, hf, when_]
@[simp] theorem calms_zSend (typ dst : Nat) (user : Bool) (opId : Nat) (body : List Byte) : (zSend typ dst user opId body).Calms c :=
  (only_zSend _ _ _ _ _ (by decide)).calm
@[simp] theorem calms_zForward (peer typ : Nat) (user : Bool) (what : ZFor) (body : List Byte) :
    (zForward peer typ user what body).Calms c := (only_zForward _ _ _ _ _ (by decide)).calm
@[simp] theorem calms_postPlain (code block info0 info1 : Nat) : (postPlain code block info0 info1).Calms c := by
  have hbytes : ∀ (a : Nat) (l : List Byte), (storeBytes .errq a l).Calms c := fun a l =>
    (only_storeBytes .errq a l (by simp [Upd.part, calmParts])).calm
  have hput : ∀ v, (put F.ERR_WR_WR v).Calms c := fun v => calms_put (by decide) v (by decide)
  have hcount : (count F.ERR_CNT_LOST).Calms c := calms_count (by decide) 1 (by decide)
  have hfull : (event F.ERR_EVT_OVF).Calms c := calms_event (by decide) (by decide)
  have hevent : (event F.ERR_EVT_POST).Calms c := calms_event (by decide) (by decide)
  have hpost : ∀ body, (postBytes body).Calms c := fun body => calms_ask fun _ => by simp [hbytes, hput, hcount, hfull, hevent]
  exact calms_ask fun s => by simp [hpost]
theorem calms_whlEvent {f : Fld} (hf : f.off < 0x1000) (ho : f.off ∉ pfOffs) : (whlEvent f false).Calms c :=
  calms_ask fun _ => by simp [calms_event hf ho]

/-! ### Buffers -/

@[simp] theorem calms_lateGrant (l : WTime) (n : Nat) : (lateGrant l n).Calms c :=
  calms_ask fun _ => (calms_when _ _).2 fun _ => calms_count (by decide) _ (by decide)
theorem calms_arbitrate (key : Nat) (l : List (Nat × Rank)) {grant : Nat → Act} (h : ∀ n, (grant n).Calms c) :
    (arbitrate key l grant).Calms c := calms_ask fun _ => by
  have hcount : (count F.ARB_CNT0_ELDER).Calms c := calms_count (by decide) 1 (by decide)
  have helder : ∀ i n, (Act.upd (.elder i n)).Calms c := fun _ _ => Act.Only.calm ⟨.elder, rfl, by decide⟩
  dsimp only
  split
  · exact calms_skip
  · simp [helder, h, hcount]
@[simp] theorem calms_flushEngine (e : Nat) : (flushEngine e).Calms c := calms_ask fun _ => by
  have hdrain : ∀ l, (drainLine l).Calms c := fun l => (only_drainLine (by decide) l).calm
  simp [flushKeep, hdrain]
@[simp] theorem calms_giveUp (e space line : Nat) : (giveUp e space line).Calms c := (only_giveUp (by decide) _ _ _).calm
@[simp] theorem calms_portGrant (q : FReq) (res beats : Nat) : (portGrant q res beats).Calms c := by
  have hwbq : (Act.upd (.wbq res [])).Calms c := Act.Only.calm ⟨.wbq, rfl, by decide⟩
  have hport : ∀ x, (Act.upd (.port res x)).Calms c := fun _ => Act.Only.calm ⟨.ports, rfl, by decide⟩
  exact calms_ask fun _ => by simp [hwbq, hport]
@[simp] theorem calms_otherWrite (q : FReq) (space a : Nat) (bs : List Byte) : (otherWrite q space a bs).Calms c := by
  have hstore : ∀ a b, (storeByte space a b).Calms c := fun _ _ => (only_storeByte (by decide) _ _ _).calm
  have hrecalled : recalled.Calms c := calms_count (by decide) 1 (by decide)
  have htouch : ∀ line, (touchWriteLine q none space line).Calms c := fun line => (calms_forEach _ _).2 fun f _ =>
    calms_ask fun u => by
      split <;> simp [dirGrant, hrecalled]
  simp [otherWrite, otherWriteBe, hstore, memGrant, htouch]

/-! ### Channels that go on, chairs, fences and memory objects -/

/-- A channel that does not run is released from its wait. -/
theorem calmFrom_releaseWait (hw : s.wf = true) {d : Nat} (hst : (s.chan d).st ≠ .running) (status : Nat) :
    (releaseWait d status).CalmFrom c s := by
  have hdone : Calm c s ((modCur d fun k => { k with phase := .done status, doneWT := s.now }).run s) := by
    rw [modCur, modRun]
    exact calm_modChan hw fun h => absurd h hst
  have hqueued : ∀ t, t.wf = true → Calm c t ((makeQueued d).run t) := fun t hwt => by
    rw [makeQueued, run_ask]
    exact calm_modChan hwt fun h => nomatch h
  exact ⟨hdone, fun t hwt _ _ => hqueued t hwt⟩

/-- A meaning for each element of a list, when each looks at what the state was at first. -/
theorem calmFrom_forEach {l : List α} {f : α → Act} (h : ∀ x ∈ l, ∀ u, u.wf = true → Calm c s u → (f x).CalmFrom c u)
    (hw : u.wf = true) (hu : Calm c s u) : (forEach l f).CalmFrom c u := by
  induction l generalizing u with
  | nil => trivial
  | cons x rest ih =>
    obtain ⟨hx, hrest⟩ := List.forall_mem_cons.1 h
    have htail := fun t (hwt : t.wf = true) (ht : Calm c u t) => ih hrest hwt (hu.trans ht)
    cases rest with
    | nil => exact hx u hw hu
    | cons y rest => exact ⟨hx u hw hu, fun t hwt _ ht => htail t hwt ht⟩

@[simp] theorem calms_wakeFence (i : Nat) : (wakeFence i).Calms c := fun s hw _ => by
  refine calmFrom_forEach (fun d _ u hwu hu => ?_) hw (Calm.refl c s)
  split
  · by_cases hst : (s.chan d).st = .parked
    · have hstill : (u.chan d).st ≠ .running := fun h => by
        have := (hu.running d h).1
        rw [hst] at this
        cases this
      rw [when_]
      split
      · exact calmFrom_releaseWait hwu hstill _
      · trivial
    · simp [hst, when_, Act.CalmFrom]
  · trivial

@[simp] theorem calms_chairUnwait (w : Sitter) : (chairUnwait w).Calms c := calms_ask fun _ => by simp
@[simp] theorem calms_fenForward (i : Nat) (user : Bool) (what : ZFor) (op : FenOp) : (fenForward i user what op).Calms c :=
  calms_ask fun _ => by simp
@[simp] theorem calms_fenTell (i : Nat) (dead : Bool) : (fenTell i dead).Calms c := calms_ask fun _ => by simp
@[simp] theorem calms_fenceInc (i : Nat) : (fenceInc i).Calms c := by
  have hto : ∀ v, (fenceTo i v).Calms c := fun _ => calms_ask fun _ => by simp
  exact calms_ask fun _ => by simp [hto]
@[simp] theorem calms_fenceTryFree (i : Nat) : (fenceTryFree i).Calms c := calms_ask fun _ => by simp [calms_takeFreeSeq]
@[simp] theorem calms_memFree (i : Nat) : (memFree i).Calms c := calms_ask fun _ => by
  have hscrub : ∀ (l : Cup → List (Nat × Nat)) (n : Cup → Nat),
      (modCup fun k => { k with scrub := l k, scrubAt := n k }).Calms c := fun _ _ => calms_modCup fun _ => rfl
  simp [hscrub, unmapRun, fenceDropUnattr, calms_takeFreeSeq]
@[simp] theorem calms_dropRefs : (dropRefs c).Calms c := by
  have htry : ∀ i, (memTryFree i).Calms c := fun _ => calms_ask fun _ => by simp
  exact calms_ask fun _ => by simp [dropRef, htry]

/-! ### Reads, walks and Lamplighter entries -/

@[simp] theorem calms_readPump : readPump.Calms c := by
  have hissue : ∀ r, (issueRead r).Calms c := fun r => calms_ask fun _ => by
    have htags : (Act.ask fun s => put F.DEV_TAGS_LOW (min (s.fld F.DEV_TAGS_LOW) s.tagsFree)).Calms c :=
      calms_ask fun _ => calms_put (by decide) _ (by decide)
    simp [htags]
  have hgrants : ∀ n, (readGrants n).Calms c := fun n => by
    induction n with
    | zero => exact calms_skip
    | succ n ih => exact calms_ask fun _ => by simp [ih, calms_arbitrate, hissue]
  exact calms_ask fun _ => hgrants _
@[simp] theorem calms_walkNext : walkNext.Calms c := by
  have hbegin : ∀ k, (walkBegin k).Calms c := fun _ => calms_ask fun _ => by simp [raiseRead]
  have hpump : ∀ n, (walkPump n).Calms c := fun n => by
    induction n with
    | zero => exact calms_skip
    | succ n ih => exact calms_ask fun _ => by simp [ih, hbegin]
  exact calms_ask fun _ => hpump _
@[simp] theorem calms_killReads (d : Nat) : (killReads d).Calms c := by simp [killReads, dropReads]

@[simp] theorem calms_lampPlace (d ctx i : Nat) (target : WTime) (forced : Bool) : (lampPlace d ctx i target forced).Calms c :=
  calms_ask fun _ => by
    have hfull : (whlEvent F.WHL_EVT_LL_FULL false).Calms c := calms_whlEvent (by decide) (by decide)
    have hmark : ∀ v, (put F.WHL_LL_HWM v).Calms c := fun v => calms_put (by decide) v (by decide)
    simpa using calms_ask fun _ => by simp [hfull, hmark]
@[simp] theorem calms_lampRearm : lampRearm.Calms c :=
  calms_ask fun _ => calms_rep _ (calms_ask fun _ => by simp)
@[simp] theorem calms_lampArm (d : Nat) (target : WTime) (forced : Bool) : (lampArm d target forced).Calms c := by
  have hfull : (whlEvent F.WHL_EVT_LL_FULL false).Calms c := calms_whlEvent (by decide) (by decide)
  have hcount : (count F.WHL_CNT1_ARMWAIT).Calms c := calms_count (by decide) 1 (by decide)
  simp only [lampArm, calms_acts_cons, calms_lampRearm, calms_acts_nil, true_and, and_true]
  refine calms_ask fun _ => ?_
  split
  · exact calms_skip
  · split <;> simp [hfull, hcount]
@[simp] theorem calms_lateFire : lateFire.Calms c := by
  simp [lateFire, count, calms_count (show F.WHL_CNT0_LATE.off < 0x1000 by decide) 1 (by decide),
    calms_whlEvent (f := F.WHL_EVT_LATE) (c := c) (by decide) (by decide)]

/-! ### Records, submissions and what a channel leaves -/

@[simp] theorem calms_addDue (d : Due) : (addDue d).Calms c := calms_ask fun _ => by
  have hended : ∀ r : Nat × Nat, (modGov fun g => { g with ended := g.ended ++ [r] }).Calms c := fun _ => calms_modGov fun _ => rfl
  simp [hended]
@[simp] theorem calms_endRecord (d : Nat) (sub : Sub) (status : Nat) (wt : WTime) (bytes : Nat) (intr : Bool) (acks : List Nat)
    (q : FReq) : (endRecord d sub status wt bytes intr acks q).Calms c := calms_ask fun _ => calms_addDue _
@[simp] theorem calms_unstarted (d : Nat) (sub : Sub) (status : Nat) : (unstarted d sub status).Calms c :=
  calms_ask fun _ => calms_endRecord _ _ _ _ _ _ _ _
@[simp] theorem calms_queueSettle : queueSettle.Calms c := calms_ask fun _ => by
  have hfree : ∀ q, (queueFree q).Calms c := fun q => calms_takeFreeSeq fun _ => calms_modQueue _ _
  simp [hfree]
@[simp] theorem calms_modSubs (f : List Sub → List Sub) : (modSubs c f).Calms c := by
  simp only [modSubs, calms_acts_cons, calms_queueSettle, calms_acts_nil, and_true]
  exact calms_modChan fun _ h => h
@[simp] theorem calms_dropSubs (status : Nat) : (dropSubs c status).Calms c := calms_ask fun _ => by simp
@[simp] theorem calms_leaveEngine (d : Nat) : (leaveEngine d).Calms c :=
  (calms_forEach _ _).2 fun _ _ => calms_ask fun _ => by simp
@[simp] theorem calms_flushOf (d : Nat) : (flushOf d).Calms c := calms_ask fun _ => calms_flushEngine _
@[simp] theorem calms_killForwards : (killForwards c).Calms c := calms_ask fun _ => by simp [addBytes]
@[simp] theorem calms_leaveBus (d : Nat) : (leaveBus d).Calms c :=
  (calms_forEach _ _).2 fun _ _ => calms_ask fun _ => by simp
@[simp] theorem calms_cutEmit (d : Nat) : (cutEmit d).Calms c :=
  (calms_forEach _ _).2 fun _ _ => calms_ask fun _ => by simp [cutFirst, creditBack]
@[simp] theorem calms_orphanEmit (d : Nat) : (orphanEmit d).Calms c := by simp [orphanEmit]
@[simp] theorem calms_cutTime : (cutTime c).Calms c := calms_ask fun _ => calms_modRun _
@[simp] theorem calms_releaseWaits (d : Nat) : (releaseWaits d).Calms c := by simp [releaseWaits, lampRelease, lampDrop]
@[simp] theorem calms_chainEnd (status : Nat) : (chainEnd c status).Calms c := calms_ask fun _ => by
  simp only [calms_acts_cons, calms_leaveEngine, calms_modSubs, calms_acts_nil, true_and, and_true]
  refine ⟨?_, calms_modChan fun x => ?_⟩
  · split <;> simp
  · dsimp only
    split <;> exact fun h => nomatch h
@[simp] theorem calms_abortRun (status : Nat) : (abortRun c status).Calms c := calms_ask fun _ => by simp

/-! ### Channels that start and arrive -/

theorem calms_startFrom (fuel : Nat) : (startFrom c fuel).Calms c := by
  induction fuel with
  | zero => exact calms_skip
  | succ fuel ih =>
    refine calms_ask fun _ => (calms_ite _ _ _).2 ⟨fun _ => calms_skip, fun _ => ?_⟩
    have hbegin : (beginSub c).Calms c := calms_ask fun _ =>
      (calms_forSome _ _).2 fun _ _ => calms_modChan fun _ h => nomatch h
    split
    · exact calms_modChan fun _ h => nomatch h
    · exact calms_modChan fun _ h => nomatch h
    · simp only [calms_ite, calms_acts_cons, calms_lampArm, calms_unstarted, calms_modSubs, calms_when, calms_lateFire, hbegin,
        ih, calms_acts_nil, implies_true, and_true]
      exact fun _ => calms_modChan fun _ h => nomatch h
@[simp] theorem calms_startNext : (startNext c).Calms c := calms_startFrom 17
@[simp] theorem calms_resumeNext : (resumeNext c).Calms c := calms_ask fun _ => by simp
@[simp] theorem calms_chanFree : (chanFree c).Calms c := calms_ask fun x => by
  have hdue : (Act.ask fun s => .upd (.due (s.due.map (fun d => if d.chan == some c then { d with chan := none } else d)))).Calms c :=
    calms_ask fun _ => calms_due _
  have hused : (Act.ask fun s => .upd (.descUsed (s.descUsed - (x.chan c).count))).Calms c :=
    calms_ask fun _ => Act.Only.calm ⟨.descUsed, rfl, by decide⟩
  have hfree : (takeFreeSeq fun k => modChan c fun x => { Chan.init with gen := (x.gen + 1) % 4096, freedAt := k }).Calms c :=
    calms_takeFreeSeq fun _ => calms_modChan fun _ h => nomatch h
  simp only [calms_acts_cons, calms_otherWrite, hdue, hused, hfree, calms_queueSettle, calms_acts_nil, and_self]

/-! ### The stop of a channel -/

theorem Calm.still (h : Calm c s t) {d : Nat} (hd : (s.chan d).st ≠ .running) : (t.chan d).st ≠ .running :=
  fun hrun => hd (h.running d hrun).1

theorem Act.Calms.calm (h : a.Calms c) (hw : s.wf = true) (hf : s.flag F.TRC_STAT_FROZEN = true) : Calm c s (a.run s) :=
  (h s hw hf).calm hw hf

/-- A stopped channel parks on its way to a state. -/
def parkFor (c : Nat) (st : ChanSt) : Act := modChan c fun x => { x with st := .parked, park := .none, dest := some st }

/-- A channel on its way to a state other than RUNNING does not run. -/
theorem stopTo_calm (hw : s.wf = true) (hf : s.flag F.TRC_STAT_FROZEN = true) {st : ChanSt} (hst : st ≠ .running) :
    Calm c s ((stopTo c st).run s) ∧ (((stopTo c st).run s).chan c).st ≠ .running := by
  rw [stopTo, run_ask]
  split
  · next hdying =>
    have hcalm := Act.Calms.calm (c := c) (a := when_ ((s.ctx (s.chan c).ctx).st != .dying) (chanFree c)) (by simp) hw hf
    exact ⟨hcalm, hcalm.still (by simp [beq_iff_eq.1 hdying])⟩
  · have hpark : Calm c s ((parkFor c st).run s) := calm_modChan hw fun h => nomatch h
    have hcell : ((parkFor c st).run s).chan c = { s.chan c with st := .parked, park := .none, dest := some st } := by
      rw [parkFor, chan_modChan hw, if_pos rfl]
    have hwu : ((parkFor c st).run s).wf = true := Act.run_wf _ s hw
    rw [run_acts_cons, run_acts_cons, run_acts_nil, ← parkFor]
    generalize (parkFor c st).run s = u at hpark hcell hwu
    have hgoes : (modChan c fun x => { x with st := st, dest := none, park := .none, stopPend := 0 }).Calms c :=
      calms_modChan fun _ h => absurd h hst
    have harrive : Calm c u ((arrive c).run u) := by
      rw [arrive, run_ask, hcell]
      exact Act.Calms.calm (by simp [hgoes]) hwu (hpark.frozen.trans hf)
    exact ⟨hpark.trans harrive, harrive.still (by simp [hcell])⟩

theorem calms_cutChan (status : Nat) : (cutChan c status).Calms c := calms_ask fun _ => by
  simp only [calms_acts_cons, calms_abortRun, calms_dropSubs, calms_acts_nil, true_and, and_true]
  exact calms_modChan fun _ h => h

/-- An ABORT of a running channel leaves it not running. -/
theorem abortChan_calm (hw : s.wf = true) (hf : s.flag F.TRC_STAT_FROZEN = true) (hst : (s.chan c).st = .running)
    (status : Nat) :
    Calm c s ((abortChan c status status).run s) ∧ (((abortChan c status status).run s).chan c).st ≠ .running := by
  have hcut := (calms_cutChan (c := c) status).calm hw hf
  have hrun : (abortChan c status status).run s =
      (stopTo c (if (s.chan c).dest == some .stopped then .stopped else .idle)).run ((cutChan c status).run s) := by
    simp only [abortChan, cutChan, run_ask, run_acts_cons, run_acts_nil, hst]
  obtain ⟨hstop, hend⟩ := stopTo_calm (c := c) (st := if (s.chan c).dest == some .stopped then .stopped else .idle)
    (Act.run_wf (cutChan c status) s hw) (hcut.frozen.trans hf) (by split <;> decide)
  rw [hrun]
  exact ⟨hcut.trans hstop, hend⟩

/-! ### The stop of every running channel -/

/-- What the stop of every channel leaves alone. -/
def CalmAll (s t : State) : Prop := ∀ c, Calm c s t

theorem CalmAll.trans (h : CalmAll s t) (h' : CalmAll t u) : CalmAll s u := fun c => (h c).trans (h' c)

/-- A stop that leaves its channel not running leaves every running chain alone. -/
theorem Calm.all (h : Calm c s t) (hst : (t.chan c).st ≠ .running) : CalmAll s t := fun _ =>
  { h with running := fun d hd => ⟨(h.running d hd).1, fun _ => (h.running d hd).2 fun hdc => hst (hdc ▸ hd)⟩ }

/-- An atomic operation of a channel that runs on was in progress before (R268). -/
theorem CalmAll.atomicBusy (h : CalmAll s t) {d : Nat} (hd : (t.chan d).st = .running) : t.atomicBusy d = s.atomicBusy d := by
  have hrun := ((h (d + 1)).running d hd).2 (by omega)
  have hcur : t.cur d = s.cur d := by rw [State.cur, hrun]; rfl
  rw [State.atomicBusy, State.atomicBusy, hcur, (h 0).op]

/-- One channel's part of the stop after PWRFAIL# (R273). -/
def pfStopOne (c : Nat) : Act := .ask fun s => when_ ((s.chan c).st == .running) <|
  if s.atomicBusy c then modChan c fun x => { x with stopPend := 3 } else acts [orphanEmit c, abortChan c stABORTED stABORTED]

theorem pfStopOne_calm (hw : s.wf = true) (hf : s.flag F.TRC_STAT_FROZEN = true) :
    CalmAll s ((pfStopOne c).run s) ∧ ((((pfStopOne c).run s).chan c).st = .running → s.atomicBusy c = true) := by
  rw [pfStopOne, run_ask, run_when]
  by_cases hst : (s.chan c).st = .running
  · rw [if_pos (beq_iff_eq.2 hst)]
    by_cases hbusy : s.atomicBusy c = true
    · rw [if_pos hbusy]
      exact ⟨fun _ => calm_modChan hw fun h => ⟨h, fun _ => rfl⟩, fun _ => hbusy⟩
    · have horphan := (calms_orphanEmit (c := c) c).calm hw hf
      have hsame : ((orphanEmit c).run s).chans = s.chans :=
        Act.Only.part (ps := [.lanes]) (offs := []) _ s (by simp [orphanEmit]) .chans (by decide)
      have hst' : (((orphanEmit c).run s).chan c).st = .running := by rwa [State.chan, hsame]
      obtain ⟨habort, hend⟩ := abortChan_calm (Act.run_wf (orphanEmit c) s hw) (horphan.frozen.trans hf) hst' stABORTED
      rw [if_neg hbusy, run_acts_cons, run_acts_cons, run_acts_nil]
      exact ⟨(horphan.trans habort).all hend, fun h => absurd h hend⟩
  · rw [if_neg (by simpa using hst)]
    exact ⟨fun c => Calm.refl c s, fun h => absurd h hst⟩

theorem pfStopAll_calm (l : List Nat) (hw : s.wf = true) (hf : s.flag F.TRC_STAT_FROZEN = true) :
    CalmAll s ((forEach l pfStopOne).run s) ∧
      ∀ d ∈ l, (((forEach l pfStopOne).run s).chan d).st = .running → s.atomicBusy d = true := by
  induction l generalizing s with
  | nil => exact ⟨fun c => Calm.refl c s, fun _ h => nomatch h⟩
  | cons c rest ih =>
    obtain ⟨hone, hbusy⟩ := pfStopOne_calm (c := c) hw hf
    obtain ⟨hrest, hbusy'⟩ := ih (Act.run_wf (pfStopOne c) s hw) ((hone 0).frozen.trans hf)
    rw [run_forEach_cons]
    refine ⟨hone.trans hrest, List.forall_mem_cons.2 ⟨fun h => hbusy ((hrest 0).running c h).1, fun d hd h => ?_⟩⟩
    rw [← hone.atomicBusy ((hrest 0).running d h).1]
    exact hbusy' d hd h

/-- After PWRFAIL# no channel runs on but one whose atomic operation is in progress (R268, R273). -/
theorem pfStop_calm (hw : s.wf = true) (hf : s.flag F.TRC_STAT_FROZEN = true) :
    CalmAll s (pfStop.run s) ∧ ∀ d, ((pfStop.run s).chan d).st = .running → s.atomicBusy d = true := by
  obtain ⟨hcalm, hbusy⟩ := pfStopAll_calm s.chanList hw hf
  refine ⟨hcalm, fun d hd => hbusy d ?_ hd⟩
  refine SMap_mem_keys_of_get_ne (d := Chan.init) fun h => ?_
  have hst := ((hcalm 0).running d hd).1
  rw [State.chan, h] at hst
  cases hst

end

end Sys2Proof.Machine
end

section
/-!
SUPPORT. PWRFAIL# (R273): its record, and what stands after the stops.
-/

namespace Sys2Proof.Machine

section
variable {s t : State}

/-! ### The record -/

/-- The last record of the trace is written, and the trace is frozen. -/
def pfFreeze : Act := acts [.ask fun s => traceRec 8 (leBytes 4 (s.word 0 0x05C).toNat), put F.TRC_STAT_FROZEN 1]

/-- Recognition at a wheel time is stamped. -/
def pfStamp (now : WTime) : Act := acts [
  modPwr fun x => { x with pfAfter := x.seq == some true },
  put F.DEV_PF_STAT_HELD 1, put F.DEV_PF_WT_LO_WT_LO (now.toNat % 2 ^ 32), put F.DEV_PF_WT_HI_WT_HI (now.toNat / 2 ^ 32)]

/-- The entry of PWRFAIL# is posted, and the drain begins. -/
def pfPost : Act := .ask fun s => acts [
  postPlain 0x05 0 (s.word 0 0x060).toNat 0,
  .ask fun t => modPwr fun x => { x with
    pf := some t.clk, pfEntry := if t.fld F.ERR_WR_WR == s.fld F.ERR_WR_WR then none else some (s.fld F.ERR_WR_WR) }]

theorem pfRecognise_run (s : State) : pfRecognise.run s =
    (modGov fun g => { g with measuring := false, job := none, jobs := [], ended := [] }).run
      (pfLoad.run ((event F.DEV_STOP_EVT_PWRFAIL).run (pfPost.run (pfFreeze.run ((pfStamp s.now).run s))))) := by
  simp only [pfRecognise, pfStamp, pfFreeze, pfPost, run_ask, run_acts_cons, run_acts_nil]

theorem only_pfFreeze : pfFreeze.Only [.trace, .ports] [F.TRC_STAT_FROZEN.off, F.TRC_CNT_DROP.off] :=
  ⟨fun _ => only_traceRec _ _ (List.Subset.refl _) (List.Subset.refl _), (only_put _ _ (by decide)).2 (by decide)⟩

/-- The pieces of state that the record changes. -/
def pfParts : List Part := [.pwr, .trace, .ports, .errq, .host, .zhn, .boot, .gov]

/-- The registers that the record changes. -/
def pfRecordOffs : List Nat := pfOffs ++ errOffs ++ [F.BOOT_STAT_PHASE.off, F.BOOT_EVT_FAIL.off]

theorem only_pfRecognise : pfRecognise.Only pfParts pfRecordOffs := by
  have hput : ∀ (f : Fld) (v : Nat), f.off < 0x1000 → f.off ∈ pfRecordOffs → (put f v).Only pfParts pfRecordOffs :=
    fun f v hf ho => (only_put f v hf).2 ho
  have hpost : ∀ code block i j, (postPlain code block i j).Only pfParts pfRecordOffs := fun _ _ _ _ =>
    only_postPlain _ _ _ _ (by decide) (by decide)
  have htrace : ∀ typ data, (traceRec typ data).Only pfParts pfRecordOffs := fun _ _ =>
    only_traceRec _ _ (by decide) (by decide)
  have hevent : ∀ f : Fld, f.off < 0x1000 → f.off ∈ pfRecordOffs → (event f).Only pfParts pfRecordOffs :=
    fun f hf ho => only_event f hf ho (by decide)
  have hparts : Part.pwr ∈ pfParts ∧ Part.boot ∈ pfParts ∧ Part.gov ∈ pfParts := by decide
  intro s
  simp only [pfLoad, only_acts_cons, only_acts_nil, only_ask, only_when, only_modPwr, only_modBoot, only_modGov, hpost, htrace,
    hparts, implies_true, and_true, true_and]
  exact ⟨hput _ _ (by decide) (by decide), hput _ _ (by decide) (by decide), hput _ _ (by decide) (by decide),
    hput _ _ (by decide) (by decide), hevent _ (by decide) (by decide), fun _ _ => ⟨hput _ _ (by decide) (by decide),
      hput _ _ (by decide) (by decide), hput _ _ (by decide) (by decide), fun _ => hevent _ (by decide) (by decide)⟩⟩

theorem pfStamp_fields (hw : s.wf = true) (now : WTime) : ((pfStamp now).run s).fld F.DEV_PF_STAT_HELD = 1 ∧
    ((pfStamp now).run s).fld F.DEV_PF_WT_LO_WT_LO = now.toNat % 2 ^ 32 ∧
    ((pfStamp now).run s).fld F.DEV_PF_WT_HI_WT_HI = now.toNat / 2 ^ 32 := by
  have hok : F.DEV_PF_STAT_HELD.ok ∧ F.DEV_PF_WT_LO_WT_LO.ok ∧ F.DEV_PF_WT_HI_WT_HI.ok := by
    refine ⟨?_, ?_, ?_⟩ <;> exact (Fld.ok_iff _).2 (by decide)
  obtain ⟨hheld, hlo, hhi⟩ := hok
  have hnow := now.isLt
  have hw₀ := Act.run_regs_wf (modPwr fun x => { x with pfAfter := x.seq == some true }) s (s.wf_regs hw)
  have hw₁ := Act.run_regs_wf (put F.DEV_PF_STAT_HELD 1) _ hw₀
  have hw₂ := Act.run_regs_wf (put F.DEV_PF_WT_LO_WT_LO (now.toNat % 2 ^ 32)) _ hw₁
  simp only [pfStamp, run_acts_cons, run_acts_nil]
  refine ⟨?_, ?_, ?_⟩
  · rw [fld_put_off _ _ _ _ hw₂ (by decide), fld_put_off _ _ _ _ hw₁ (by decide), fld_put_same _ _ _ hw₀ hheld]
    rfl
  · rw [fld_put_off _ _ _ _ hw₂ (by decide), fld_put_same _ _ _ hw₁ hlo]
    exact Nat.mod_mod _ _
  · rw [fld_put_same _ _ _ hw₂ hhi]
    exact Nat.mod_eq_of_lt (show now.toNat / 2 ^ 32 < 2 ^ 16 by omega)

theorem calms_pfLoad (c : Nat) : pfLoad.Calms c := calms_ask fun _ => by
  have hput : ∀ (f : Fld) (v : Nat), f.off < 0x1000 → f.off ∉ pfOffs → (put f v).Calms c := fun _ v hf ho => calms_put hf v ho
  have hfail : (event F.BOOT_EVT_FAIL).Calms c := calms_event (by decide) (by decide)
  simp only [calms_when, calms_acts_cons, calms_acts_nil, calms_modBoot, calms_postPlain, hfail, implies_true, and_true, true_and]
  exact fun _ => ⟨hput _ _ (by decide) (by decide), hput _ _ (by decide) (by decide), hput _ _ (by decide) (by decide)⟩

/-- Posting the entry leaves the record as it is, and the drain counts from the present clock. -/
theorem pfPost_record (hw : s.wf = true) (hf : s.flag F.TRC_STAT_FROZEN = true) :
    (∀ f : Fld, f.off ∈ pfOffs → (pfPost.run s).fld f = s.fld f) ∧ (pfPost.run s).pwr.pf = some s.clk := by
  have hcalm := (calms_postPlain (c := 0) 0x05 0 (s.word 0 0x060).toNat 0).calm hw hf
  simp only [pfPost, run_ask, run_acts_cons, run_acts_nil]
  exact ⟨fun f hoff => hcalm.fld f hoff, congrArg some hcalm.clk⟩

/-- The record of PWRFAIL# recognised at a wheel time and a clock: the device is held, the trace frozen, the governor measures
no more, and host writes drain (R273, R275). -/
structure PfRecord (now : WTime) (clk : Nat) (t : State) : Prop where
  held : t.fld F.DEV_PF_STAT_HELD = 1
  lo : t.fld F.DEV_PF_WT_LO_WT_LO = now.toNat % 2 ^ 32
  hi : t.fld F.DEV_PF_WT_HI_WT_HI = now.toNat / 2 ^ 32
  event : t.fld F.DEV_STOP_EVT_PWRFAIL = 1
  frozen : t.fld F.TRC_STAT_FROZEN = 1
  measuring : t.gov.measuring = false
  pf : t.pwr.pf = some clk

/-- The record stays where its registers, the governor's measuring and the power control do. -/
theorem PfRecord.of_same {now : WTime} {clk : Nat} (h : PfRecord now clk s) (hfld : ∀ f : Fld, f.off ∈ pfOffs → t.fld f = s.fld f)
    (hgov : t.gov.measuring = s.gov.measuring) (hpwr : t.pwr = s.pwr) : PfRecord now clk t :=
  ⟨(hfld _ (by decide)).trans h.held, (hfld _ (by decide)).trans h.lo, (hfld _ (by decide)).trans h.hi,
    (hfld _ (by decide)).trans h.event, (hfld _ (by decide)).trans h.frozen, hgov.trans h.measuring,
    (congrArg Power.pf hpwr).trans h.pf⟩

theorem pfRecognise_record (hw : s.wf = true) : PfRecord s.now s.clk (pfRecognise.run s) := by
  have hwₐ : ((pfStamp s.now).run s).wf = true := Act.run_wf _ s hw
  have hwᵦ : (pfFreeze.run ((pfStamp s.now).run s)).wf = true := Act.run_wf _ _ hwₐ
  obtain ⟨hheld, hlo, hhi⟩ := pfStamp_fields hw s.now
  have hfreeze := fun f hf hn => only_pfFreeze.fld (State.wf_regs _ hwₐ) f hf hn
  have hfrozen : (pfFreeze.run ((pfStamp s.now).run s)).fld F.TRC_STAT_FROZEN = 1 := fld_put_same _ _ _
    (Act.run_regs_wf _ _ (State.wf_regs _ hwₐ)) ((Fld.ok_iff _).2 (by decide))
  have hclk : (pfFreeze.run ((pfStamp s.now).run s)).clk = s.clk := only_pfFreeze.part _ _ .clk (by decide)
  rw [← hfreeze _ (by decide) (by decide)] at hheld hlo hhi
  rw [pfRecognise_run]
  generalize pfFreeze.run ((pfStamp s.now).run s) = b at hwᵦ hheld hlo hhi hfrozen hclk
  have hwₚ : (pfPost.run b).wf = true := Act.run_wf _ b hwᵦ
  obtain ⟨hpost, hpf⟩ := pfPost_record hwᵦ (beq_iff_eq.2 hfrozen)
  generalize pfPost.run b = p at hwₚ hpost hpf
  have hwₑ : ((event F.DEV_STOP_EVT_PWRFAIL).run p).wf = true := Act.run_wf _ p hwₚ
  have honly : (event F.DEV_STOP_EVT_PWRFAIL).Only [.host] [F.DEV_STOP_EVT_PWRFAIL.off] :=
    only_event _ (by decide) (by decide) (by decide)
  have hevent : ((event F.DEV_STOP_EVT_PWRFAIL).run p).fld F.DEV_STOP_EVT_PWRFAIL = 1 :=
    fld_event_same _ _ (State.wf_regs _ hwₚ) ((Fld.ok_iff _).2 (by decide)) rfl
  have hkeep := fun f hf hn => honly.fld (State.wf_regs _ hwₚ) f hf hn
  have hpwr : ((event F.DEV_STOP_EVT_PWRFAIL).run p).pwr = p.pwr := honly.part _ p .pwr (by decide)
  generalize (event F.DEV_STOP_EVT_PWRFAIL).run p = e at hwₑ hevent hkeep hpwr
  have hfrozenₑ : e.fld F.TRC_STAT_FROZEN = 1 := by rw [hkeep _ (by decide) (by decide), hpost _ (by decide), hfrozen]
  have hload := (calms_pfLoad 0).calm hwₑ (beq_iff_eq.2 hfrozenₑ)
  have hrest : ∀ f : Fld, f.off ∈ pfOffs → f.off < 0x1000 → f.off ∉ [F.DEV_STOP_EVT_PWRFAIL.off] →
      (pfLoad.run e).fld f = b.fld f := fun f ho hf hn => by rw [hload.fld f ho, hkeep f hf hn, hpost f ho]
  exact ⟨(hrest _ (by decide) (by decide) (by decide)).trans hheld, (hrest _ (by decide) (by decide) (by decide)).trans hlo,
    (hrest _ (by decide) (by decide) (by decide)).trans hhi, (hload.fld _ (by decide)).trans hevent,
    (hload.fld _ (by decide)).trans hfrozenₑ, rfl, by
      rw [← hclk, ← hpf, ← hpwr]
      exact congrArg Power.pf hload.pwr⟩

/-! ### What stands after the stops -/

theorem tickBy_measuring (n : Nat) (s : State) : ((tickBy n).run s).gov.measuring = s.gov.measuring := by
  simp only [tickBy, run_ask, run_acts_cons, run_acts_nil, run_upd, apply_gov]
  split <;> rfl

/-- The clock cycle after recognition leaves the record, and what atomic operations are in progress. -/
theorem pfTick_record (hw : s.wf = true) : PfRecord s.now s.clk ((tickBy 1).run (pfRecognise.run s)) ∧
    ((tickBy 1).run (pfRecognise.run s)).clk = s.clk + 1 ∧
    ∀ c, ((tickBy 1).run (pfRecognise.run s)).atomicBusy c = s.atomicBusy c := by
  have hrecord := pfRecognise_record hw
  have hclk : (pfRecognise.run s).clk = s.clk := only_pfRecognise.part _ s .clk (by decide)
  have hchans : (pfRecognise.run s).chans = s.chans := only_pfRecognise.part _ s .chans (by decide)
  have hcup : (pfRecognise.run s).cup = s.cup := only_pfRecognise.part _ s .cup (by decide)
  have hwᵣ : (pfRecognise.run s).wf = true := Act.run_wf _ s hw
  generalize pfRecognise.run s = r at hrecord hclk hchans hcup hwᵣ
  have htime : ∀ off ∈ pfOffs, off < 0x1000 ∧ off ∉ timeOffs := by decide
  have hfld : ∀ f : Fld, f.off ∈ pfOffs → ((tickBy 1).run r).fld f = r.fld f := fun f ho =>
    tickBy_fld 1 hwᵣ f (htime _ ho).1 (htime _ ho).2
  have hchansₜ : ((tickBy 1).run r).chans = r.chans := tickBy_same 1 r .chans (by decide)
  have hcupₜ : ((tickBy 1).run r).cup = r.cup := tickBy_same 1 r .cup (by decide)
  refine ⟨hrecord.of_same hfld (tickBy_measuring 1 r) (tickBy_same 1 r .pwr (by decide)), by rw [tickBy_clk, hclk], fun c => ?_⟩
  have hcur : ((tickBy 1).run r).cur c = s.cur c := by rw [State.cur, State.chan, hchansₜ, hchans]; rfl
  rw [State.atomicBusy, State.atomicBusy, hcur, hcupₜ, hcup]

/-- PWRFAIL# holds the device and stops what runs (R268, R273). -/
theorem pwrfailAct_leaves (hw : s.wf = true) (hon : s.pwr.off = false) (hheld : s.pfHeld = false) :
    PfRecord s.now s.clk (pwrfailAct.run s) ∧ (pwrfailAct.run s).clk = s.clk + 1 ∧
      ∀ c, ((pwrfailAct.run s).chan c).st = .running → s.atomicBusy c = true := by
  have hrun : pwrfailAct.run s = pfStop.run ((tickBy 1).run (pfRecognise.run s)) := by simp [pwrfailAct, hon, hheld]
  obtain ⟨hrecord, hclk, hatomic⟩ := pfTick_record hw
  have hwₜ : ((tickBy 1).run (pfRecognise.run s)).wf = true := Act.run_wf _ _ (Act.run_wf _ s hw)
  obtain ⟨hcalm, hbusy⟩ := pfStop_calm hwₜ (beq_iff_eq.2 hrecord.frozen)
  rw [hrun]
  exact ⟨hrecord.of_same (hcalm 0).fld (hcalm 0).measuring (hcalm 0).pwr, (hcalm 0).clk.trans hclk,
    fun c hc => hatomic c ▸ hbusy c hc⟩

end

end Sys2Proof.Machine
end

section
/-!
SUPPORT. The statement on PWRFAIL#, from its record, its stops and its drain.
-/

namespace Sys2Proof.Machine

/-- Settles O31: recognition and the stops of PWRFAIL# leave the record (`pwrfailAct_leaves`), and the drain ends in time, at
the mark with nothing unsent, or at the mark with losses. -/
theorem powerFail : Obligations.PowerFail := by
  intro s hrun
  refine ⟨fun hheld => ?_, fun k hk => ⟨fun houtq hunsent => ?_, fun hleft => ?_⟩⟩
  · obtain ⟨hrecord, hclk, hbusy⟩ := pwrfailAct_leaves hrun.1 hrun.2.1 hheld
    exact ⟨_, row_next hrun rfl, beq_iff_eq.2 hrecord.held, hrecord.lo, hrecord.hi, hrecord.event, hrecord.frozen,
      hrecord.measuring, hrecord.pf, hclk, hbusy⟩
  · have hsent : s.allSent = true := allSent_iff.2 ⟨houtq, hunsent⟩
    exact ⟨pwrfailDrained_sent hrun hk hsent, drainMark_sent hrun hk hsent⟩
  · refine drainMark_unsent hrun hk (Bool.eq_false_iff.2 fun hsent => ?_)
    obtain ⟨houtq, hunsent⟩ := allSent_iff.1 hsent
    exact hleft.elim (· houtq) (· hunsent)

end Sys2Proof.Machine
end

section
/-!
SUPPORT. Meanings that put no line into an engine's write-combining buffer: what their updates can do to the buffers, and the
combinators.
-/

namespace Sys2Proof.Machine

/-! ### The relation -/

/-- The lines that an engine's buffer holds, by space and line number. -/
def Engine.places (x : Engine) : List (Nat × Nat) := x.wcb.map WLine.place

/-- Every engine's buffer holds lines of those it held, in the same order. -/
def Shed (s t : State) : Prop := ∀ e, (t.engine e).places.Sublist (s.engine e).places

section
variable {s t u : State}

theorem Shed.refl (s : State) : Shed s s := fun _ => List.Sublist.refl _

theorem Shed.trans (h : Shed s t) (h' : Shed t u) : Shed s u := fun e => (h' e).trans (h e)

theorem Shed.of_engines (h : t.engines = s.engines) : Shed s t := fun e => by
  rw [State.engine, h]
  exact List.Sublist.refl _

theorem dirtyLines_eq (s : State) : s.dirtyLines = (List.range 4).flatMap fun e => (s.engine e).places := rfl

theorem Shed.oneHolder (h : Shed s t) (hs : s.oneHolder) : t.oneHolder := by
  rw [State.oneHolder, dirtyLines_eq] at hs ⊢
  exact (List.Sublist.flatMap_right _ fun e _ => h e).nodup hs

/-! ### The meanings that only shed lines -/

/-- The update leaves in an engine's buffer lines of those that `s` had there. -/
@[simp] def Upd.sheds (s : State) : Upd → Prop
  | .engine e x => x.places.Sublist (s.engine e).places
  | _ => True

/-- So does every update of the meaning, as long as the buffers hold lines of those that `s` had there. -/
def Act.Sheds (s : State) : Act → Prop
  | .skip => True
  | .upd x => x.sheds s
  | .seq a b => a.Sheds s ∧ b.Sheds s
  | .ask k => ∀ u, Shed s u → (k u).Sheds s

theorem Upd.engines_apply {x : Upd} (hx : x.part ≠ some .engines) (u : State) : (x.apply u).engines = u.engines :=
  x.apply_same u .engines hx

theorem Upd.shed_apply {x : Upd} (hx : x.sheds s) (hw : u.wf = true) (hu : Shed s u) : Shed s (x.apply u) := by
  by_cases hpart : x.part = some .engines
  · cases x with
    | engine e x =>
      intro f
      rw [engine_after e f x u (State.wf_engines hw)]
      split
      · next hf => exact hf ▸ hx
      · exact hu f
    | wipe w => cases w <;> cases hpart; exact fun _ => List.nil_sublist _
    | mem m => cases m <;> cases hpart
    | _ => cases hpart
  · exact hu.trans (Shed.of_engines (Upd.engines_apply hpart u))

theorem Act.Sheds.run {a : Act} (ha : a.Sheds s) (hw : u.wf = true) (hu : Shed s u) : Shed s (a.run u) := by
  induction a generalizing u with
  | skip => exact hu
  | upd x => exact x.shed_apply ha hw hu
  | seq a b iha ihb => exact ihb ha.2 (Act.run_wf a u hw) (iha ha.1 hw hu)
  | ask k ih => exact ih u (ha u hu) hw hu

theorem Act.Sheds.shed {a : Act} (h : a.Sheds s) (hw : s.wf = true) : Shed s (a.run s) := h.run hw (Shed.refl s)

/-! ### Combinators -/

section
variable {α : Type}

@[simp] theorem sheds_skip : Act.skip.Sheds s := trivial
@[simp] theorem sheds_upd (x : Upd) : (Act.upd x).Sheds s ↔ x.sheds s := Iff.rfl
@[simp] theorem sheds_seq (a b : Act) : (Act.seq a b).Sheds s ↔ a.Sheds s ∧ b.Sheds s := Iff.rfl
@[simp] theorem sheds_acts_nil : (acts []).Sheds s := trivial
@[simp] theorem sheds_acts_cons (a : Act) (l : List Act) : (acts (a :: l)).Sheds s ↔ a.Sheds s ∧ (acts l).Sheds s := by
  cases l <;> simp [acts]
@[simp] theorem sheds_when (b : Bool) (a : Act) : (when_ b a).Sheds s ↔ (b = true → a.Sheds s) := by cases b <;> simp [when_]
@[simp] theorem sheds_ite (c : Prop) [Decidable c] (a b : Act) :
    (if c then a else b).Sheds s ↔ (c → a.Sheds s) ∧ (¬c → b.Sheds s) := by split <;> simp_all
@[simp] theorem sheds_forEach (l : List α) (f : α → Act) : (forEach l f).Sheds s ↔ ∀ x ∈ l, (f x).Sheds s := by
  induction l with
  | nil => simp [forEach]
  | cons x l ih => simp only [forEach, List.map_cons, sheds_acts_cons] at *; simp [ih]
@[simp] theorem sheds_forSome (o : Option α) (f : α → Act) : (forSome o f).Sheds s ↔ ∀ x, o = some x → (f x).Sheds s := by
  cases o <;> simp [forSome]
@[simp] theorem sheds_rep (n : Nat) {a : Act} (h : a.Sheds s) : (rep n a).Sheds s := by
  induction n with
  | zero => trivial
  | succ n ih => exact ⟨h, ih⟩
@[simp] theorem sheds_ask_iff (k : State → Act) : (Act.ask k).Sheds s ↔ ∀ u, Shed s u → (k u).Sheds s := Iff.rfl
/-- A meaning that sheds lines whatever state it sees. -/
theorem sheds_ask {k : State → Act} (h : ∀ u, (k u).Sheds s) : (Act.ask k).Sheds s := fun u _ => h u

end

/-! ### Changes of one piece of state -/

theorem sheds_modEngine (e : Nat) {f : Engine → Engine} (h : ∀ x, (f x).places.Sublist x.places) :
    (modEngine e f).Sheds s := fun _ hu => (h _).trans (hu e)
/-- A change of an engine that leaves its buffer as it is. -/
@[simp] theorem sheds_modEngine_same (e : Nat) {f : Engine → Engine} (h : ∀ x, (f x).wcb = x.wcb) : (modEngine e f).Sheds s :=
  sheds_modEngine e fun x => by rw [Engine.places, h]; exact List.Sublist.refl _
/-- A change of an engine that keeps some of its buffer's lines. -/
@[simp] theorem sheds_modEngine_filter (e : Nat) {f : Engine → Engine} {p : WLine → Bool} (h : ∀ x, (f x).wcb = x.wcb.filter p) :
    (modEngine e f).Sheds s := sheds_modEngine e fun x => by rw [Engine.places, h]; exact List.filter_sublist.map _

@[simp] theorem sheds_modCtx (i : Nat) (f : Ctx → Ctx) : (modCtx i f).Sheds s := sheds_ask fun _ => trivial
@[simp] theorem sheds_modQueue (i : Nat) (f : Queue → Queue) : (modQueue i f).Sheds s := sheds_ask fun _ => trivial
@[simp] theorem sheds_modChan (i : Nat) (f : Chan → Chan) : (modChan i f).Sheds s := sheds_ask fun _ => trivial
@[simp] theorem sheds_modMobj (i : Nat) (f : MemObj → MemObj) : (modMobj i f).Sheds s := sheds_ask fun _ => trivial
@[simp] theorem sheds_modFence (i : Nat) (f : Fence → Fence) : (modFence i f).Sheds s := sheds_ask fun _ => trivial
@[simp] theorem sheds_modChair (i : Nat) (f : Chair → Chair) : (modChair i f).Sheds s := sheds_ask fun _ => trivial
@[simp] theorem sheds_modLane (i : Nat) (f : Lane → Lane) : (modLane i f).Sheds s := sheds_ask fun _ => trivial
@[simp] theorem sheds_modPmbp (i : Nat) (f : PmbPort → PmbPort) : (modPmbp i f).Sheds s := sheds_ask fun _ => trivial
@[simp] theorem sheds_modWick (i : Nat) (f : Wick → Wick) : (modWick i f).Sheds s := sheds_ask fun _ => trivial
@[simp] theorem sheds_modWheel (f : Wheel → Wheel) : (modWheel f).Sheds s := sheds_ask fun _ => trivial
@[simp] theorem sheds_modLamp (f : Lamp → Lamp) : (modLamp f).Sheds s := sheds_ask fun _ => trivial
@[simp] theorem sheds_modPtm (f : Ptm → Ptm) : (modPtm f).Sheds s := sheds_ask fun _ => trivial
@[simp] theorem sheds_modHost (f : HostLink → HostLink) : (modHost f).Sheds s := sheds_ask fun _ => trivial
@[simp] theorem sheds_modKindle (f : Kindle → Kindle) : (modKindle f).Sheds s := sheds_ask fun _ => trivial
@[simp] theorem sheds_modGov (f : Gov → Gov) : (modGov f).Sheds s := sheds_ask fun _ => trivial
@[simp] theorem sheds_modZhn (f : Zhn → Zhn) : (modZhn f).Sheds s := sheds_ask fun _ => trivial
@[simp] theorem sheds_modCup (f : Cup → Cup) : (modCup f).Sheds s := sheds_ask fun _ => trivial
@[simp] theorem sheds_modBoot (f : Boot → Boot) : (modBoot f).Sheds s := sheds_ask fun _ => trivial
@[simp] theorem sheds_modOtp (f : Otp → Otp) : (modOtp f).Sheds s := sheds_ask fun _ => trivial
@[simp] theorem sheds_modPwr (f : Power → Power) : (modPwr f).Sheds s := sheds_ask fun _ => trivial
@[simp] theorem sheds_modScp (f : PathPort → PathPort) : (modScp f).Sheds s := sheds_ask fun _ => trivial
@[simp] theorem sheds_modBar (f : PathPort → PathPort) : (modBar f).Sheds s := sheds_ask fun _ => trivial
@[simp] theorem sheds_modZport (p : Nat) (f : ZPort → ZPort) : (modZport p f).Sheds s := sheds_modZhn _

@[simp] theorem sheds_storeBytes (m : MemId) (a : Nat) (l : List Byte) : (storeBytes m a l).Sheds s := by
  induction l generalizing a with
  | nil => trivial
  | cons b rest ih => exact ⟨trivial, ih (a + 1)⟩
@[simp] theorem sheds_drawFree {k : Nat → Act} (h : ∀ n, (k n).Sheds s) : (drawFree k).Sheds s :=
  sheds_ask fun _ => ⟨trivial, h _⟩
@[simp] theorem sheds_takeFreeSeq {k : Nat → Act} (h : ∀ n, (k n).Sheds s) : (takeFreeSeq k).Sheds s :=
  sheds_ask fun _ => ⟨trivial, h _⟩

end

end Sys2Proof.Machine
end

section
/-!
SUPPORT. Meanings that only shed lines: registers, memories, objects, channels and their accesses.  One lemma per function of
the model, in the model's order.
-/

namespace Sys2Proof.Machine

-- The many short proofs are checked one after another, for each would else hold a thread of its own.
set_option Elab.async false

section
variable {s : State}

/-! ### Registers, counters and events -/

@[simp] theorem sheds_putWord (inst off : Nat) (w : Word) : (putWord inst off w).Sheds s := by simp [putWord]
@[simp] theorem sheds_putI (inst : Nat) (f : Fld) (v : Nat) : (putI inst f v).Sheds s := sheds_ask fun _ => by simp
@[simp] theorem sheds_put (f : Fld) (v : Nat) : (put f v).Sheds s := by simp [put]
@[simp] theorem sheds_countBy (f : Fld) (n : Nat) : (countBy f n).Sheds s := sheds_ask fun _ => by simp
@[simp] theorem sheds_count (f : Fld) : (count f).Sheds s := by simp [count]
@[simp] theorem sheds_raiseVec (v : Nat) : (raiseVec v).Sheds s := by simp [raiseVec]
@[simp] theorem sheds_withAlert (inst off : Nat) {a : Act} (ha : a.Sheds s) : (withAlert inst off a).Sheds s :=
  sheds_ask fun _ => by simp [ha]
@[simp] theorem sheds_eventI (inst : Nat) (f : Fld) : (eventI inst f).Sheds s := by simp [eventI]
@[simp] theorem sheds_event (f : Fld) : (event f).Sheds s := by simp [event]

/-! ### Passing time, trace records, posted errors and packets -/

@[simp] theorem sheds_fillGroup : fillGroup.Sheds s := sheds_ask fun _ => by simp
@[simp] theorem sheds_fillBy (n : Nat) : (fillBy n).Sheds s := sheds_ask fun _ => by simp
@[simp] theorem sheds_wbqDrain (n : Nat) : (wbqDrain n).Sheds s := sheds_ask fun _ => by simp
@[simp] theorem sheds_eofBy (n : Nat) : (eofBy n).Sheds s := sheds_ask fun _ => by simp
@[simp] theorem sheds_tickBy (n : Nat) : (tickBy n).Sheds s := sheds_ask fun _ => by simp
@[simp] theorem sheds_advanceTo (clk : Nat) : (advanceTo clk).Sheds s := sheds_ask fun _ => by simp
@[simp] theorem sheds_advanceToWheel (t : WTime) : (advanceToWheel t).Sheds s := sheds_ask fun _ => by simp
@[simp] theorem sheds_portBeat (q : FReq) (res : Nat) : (portBeat q res).Sheds s := sheds_ask fun _ => by simp
@[simp] theorem sheds_traceRec (typ : Nat) (data : List Byte) : (traceRec typ data).Sheds s := sheds_ask fun _ => by simp
@[simp] theorem sheds_zPut (port : Nat) (urgent : Bool) (p : Pkt) : (zPut port urgent p).Sheds s := sheds_ask fun _ => by simp
@[simp] theorem sheds_zQueue (port : Nat) (p : Pkt) : (zQueue port p).Sheds s := by simp [zQueue]
@[simp] theorem sheds_zSend (typ dst : Nat) (user : Bool) (opId : Nat) (body : List Byte) :
    (zSend typ dst user opId body).Sheds s := sheds_ask fun _ => by simp
@[simp] theorem sheds_zAnswer (typ dst opId : Nat) (body : List Byte) : (zAnswer typ dst opId body).Sheds s := by simp [zAnswer]
@[simp] theorem sheds_postBytes (body : Nat → List Byte) : (postBytes body).Sheds s := sheds_ask fun _ => by simp
@[simp] theorem sheds_postErr (e : ErrInfo) : (postErr e).Sheds s := sheds_ask fun _ => by simp
@[simp] theorem sheds_postPlain (code block info0 info1 : Nat) : (postPlain code block info0 info1).Sheds s := by
  simp [postPlain]
@[simp] theorem sheds_whlEvent (f : Fld) (posted : Bool) : (whlEvent f posted).Sheds s := sheds_ask fun _ => by simp

/-! ### Fabric ports -/

@[simp] theorem sheds_lateGrant (l : WTime) (n : Nat) : (lateGrant l n).Sheds s := sheds_ask fun _ => by simp
@[simp] theorem sheds_arbitrate (key : Nat) (l : List (Nat × Rank)) {grant : Nat → Act} (h : ∀ n, (grant n).Sheds s) :
    (arbitrate key l grant).Sheds s := sheds_ask fun _ => by
  dsimp only
  split <;> simp [h]
@[simp] theorem sheds_portGrant (q : FReq) (res beats : Nat) : (portGrant q res beats).Sheds s := sheds_ask fun _ => by simp
@[simp] theorem sheds_portDrop (res : Nat) : (portDrop res).Sheds s := by simp [portDrop]
@[simp] theorem sheds_memGrant (q : FReq) (space a n : Nat) : (memGrant q space a n).Sheds s := by simp [memGrant]
@[simp] theorem sheds_wbqPut (res : Nat) (b : WBeat) : (wbqPut res b).Sheds s := sheds_ask fun _ => by simp

/-! ### Buffers, the directory and writes to memory -/

@[simp] theorem sheds_protCapture (a : Access) (cause region shade : Nat) : (protCapture a cause region shade).Sheds s :=
  sheds_ask fun _ => by simp
@[simp] theorem sheds_storeByte (space a : Nat) (b : Byte) : (storeByte space a b).Sheds s := by simp [storeByte]
@[simp] theorem sheds_drainLine (l : WLine) : (drainLine l).Sheds s := by simp [drainLine]
@[simp] theorem sheds_flushKeep (e : Nat) (l : WLine) : (flushKeep e l).Sheds s := by
  have hplace : ∀ y : WLine, WLine.place (if y == l then { y with mask := 0 } else y) = y.place := fun y => by split <;> rfl
  have hkeep : ∀ x : Engine, (x.wcb.map fun y => if y == l then { y with mask := 0 } else y).map WLine.place = x.places :=
    fun x => by simp only [List.map_map, Function.comp_def, hplace, Engine.places]
  exact ⟨sheds_drainLine l, sheds_modEngine e fun x => (hkeep x).symm ▸ List.Sublist.refl _⟩
@[simp] theorem sheds_flushLine (e : Nat) (l : WLine) : (flushLine e l).Sheds s :=
  ⟨by simp, sheds_modEngine_filter e fun _ => rfl⟩
@[simp] theorem sheds_flushEngine (e : Nat) : (flushEngine e).Sheds s := sheds_ask fun _ => by simp
@[simp] theorem sheds_giveUp (e space line : Nat) : (giveUp e space line).Sheds s := sheds_ask fun _ => by simp
@[simp] theorem sheds_shareLine (e space line : Nat) : (shareLine e space line).Sheds s := sheds_ask fun _ =>
  ⟨(sheds_forSome _ _).2 fun _ _ => ⟨by simp, sheds_modEngine_filter e fun _ => rfl⟩, by simp⟩
@[simp] theorem sheds_recalled : recalled.Sheds s := by simp [recalled]
@[simp] theorem sheds_dirGrant (q : FReq) : (dirGrant q).Sheds s := by simp [dirGrant]
@[simp] theorem sheds_touchReadLine (q : FReq) (eng : Option Nat) (space line : Nat) :
    (touchReadLine q eng space line).Sheds s := by simp [touchReadLine]
@[simp] theorem sheds_touchRead (q : FReq) (eng : Option Nat) (space a n : Nat) : (touchRead q eng space a n).Sheds s :=
  sheds_ask fun _ => by simp
@[simp] theorem sheds_touchWriteLine (q : FReq) (eng : Option Nat) (space line : Nat) :
    (touchWriteLine q eng space line).Sheds s := (sheds_forEach _ _).2 fun _ _ => sheds_ask fun _ => by split <;> simp
@[simp] theorem sheds_cacheRead (q : FReq) (e space a n : Nat) : (cacheRead q e space a n).Sheds s := sheds_ask fun _ =>
  ⟨by simp, (sheds_when _ _).2 fun _ => ⟨by simp, (sheds_forEach _ _).2 fun _ _ => sheds_ask fun _ => by split <;> simp,
    by simp, by simp⟩, by simp⟩
@[simp] theorem sheds_wcbRoom (e : Nat) : (wcbRoom e).Sheds s := sheds_ask fun _ =>
  (sheds_when _ _).2 fun _ => (sheds_forSome _ _).2 fun _ _ =>
    (sheds_ite _ _ _).2 ⟨fun _ => sheds_modEngine_filter e fun _ => rfl, fun _ => sheds_flushLine _ _⟩
@[simp] theorem sheds_otherWriteBe (q : FReq) (space a : Nat) (bs : List Byte) (be : List Bool) :
    (otherWriteBe q space a bs be).Sheds s := by simp [otherWriteBe]
@[simp] theorem sheds_otherWrite (q : FReq) (space a : Nat) (bs : List Byte) : (otherWrite q space a bs).Sheds s := by
  simp [otherWrite]
@[simp] theorem sheds_shadeRange (first n shade : Nat) : (shadeRange first n shade).Sheds s := by simp [shadeRange]
@[simp] theorem sheds_internalWrite (space a : Nat) (bs : List Byte) : (internalWrite space a bs).Sheds s :=
  sheds_ask fun _ => by dsimp only; split <;> simp
@[simp] theorem sheds_govRefused (space a off cause region shade : Nat) (acc : Access) :
    (govRefused space a off cause region shade acc).Sheds s := by simp [govRefused]
@[simp] theorem sheds_govWrite (space a : Nat) (bs : List Byte) : (govWrite space a bs).Sheds s :=
  sheds_ask fun _ => by dsimp only; split <;> simp
@[simp] theorem sheds_govRead (a n : Nat) {k : Option (List Byte) → Act} (h : ∀ x, (k x).Sheds s) :
    (govRead a n k).Sheds s := sheds_ask fun _ => by
  dsimp only
  split <;> simp [h]

/-! ### Waits, fences and memory objects -/

@[simp] theorem sheds_modRun (c : Nat) (f : Run → Run) : (modRun c f).Sheds s := by simp [modRun]
@[simp] theorem sheds_modCur (c : Nat) (f : Cur → Cur) : (modCur c f).Sheds s := by simp [modCur]
@[simp] theorem sheds_makeQueued (c : Nat) : (makeQueued c).Sheds s := sheds_ask fun _ => by simp
@[simp] theorem sheds_descDone (c status : Nat) : (descDone c status).Sheds s := sheds_ask fun _ => by simp
@[simp] theorem sheds_releaseWait (c status : Nat) : (releaseWait c status).Sheds s := by simp [releaseWait]
@[simp] theorem sheds_zForward (peer typ : Nat) (user : Bool) (what : ZFor) (body : List Byte) :
    (zForward peer typ user what body).Sheds s := sheds_ask fun _ => by simp
@[simp] theorem sheds_fenForward (i : Nat) (user : Bool) (what : ZFor) (op : FenOp) : (fenForward i user what op).Sheds s :=
  sheds_ask fun _ => by simp
@[simp] theorem sheds_chairUnwait (w : Sitter) : (chairUnwait w).Sheds s := sheds_ask fun _ => by simp
@[simp] theorem sheds_fenTell (i : Nat) (dead : Bool) : (fenTell i dead).Sheds s := sheds_ask fun _ => by simp
@[simp] theorem sheds_wakeFence (i : Nat) : (wakeFence i).Sheds s :=
  sheds_ask fun _ => (sheds_forEach _ _).2 fun _ _ => by split <;> simp
@[simp] theorem sheds_fenceTo (i : Nat) (v : DWord) : (fenceTo i v).Sheds s := sheds_ask fun _ => by simp
@[simp] theorem sheds_fenceSet (i : Nat) (v : DWord) : (fenceSet i v).Sheds s := sheds_ask fun _ => by simp
@[simp] theorem sheds_fenceInc (i : Nat) : (fenceInc i).Sheds s := sheds_ask fun _ => by simp
@[simp] theorem sheds_fenceTryFree (i : Nat) : (fenceTryFree i).Sheds s := sheds_ask fun _ => by simp
@[simp] theorem sheds_abortFenceWaits (i : Nat) : (abortFenceWaits i).Sheds s :=
  sheds_ask fun _ => (sheds_forEach _ _).2 fun _ _ => by split <;> simp
@[simp] theorem sheds_fenceDestroyReq (i : Nat) : (fenceDestroyReq i).Sheds s := by simp [fenceDestroyReq]
@[simp] theorem sheds_proxyBreak (i : Nat) : (proxyBreak i).Sheds s := sheds_ask fun _ => by simp
@[simp] theorem sheds_unmapRun (ctx first n : Nat) : (unmapRun ctx first n).Sheds s := by simp [unmapRun]
@[simp] theorem sheds_fenceDropUnattr (i : Nat) : (fenceDropUnattr i).Sheds s := by simp [fenceDropUnattr]
@[simp] theorem sheds_memFree (i : Nat) : (memFree i).Sheds s := sheds_ask fun _ => by simp
@[simp] theorem sheds_memTryFree (i : Nat) : (memTryFree i).Sheds s := sheds_ask fun _ => by simp
@[simp] theorem sheds_memDestroyReq (i : Nat) : (memDestroyReq i).Sheds s := by simp [memDestroyReq]
@[simp] theorem sheds_dropRef (r : Bool × Nat) : (dropRef r).Sheds s := by simp [dropRef]
@[simp] theorem sheds_dropRefs (c : Nat) : (dropRefs c).Sheds s := sheds_ask fun _ => by simp

/-! ### Reads of host memory and walks -/

@[simp] theorem sheds_issueRead (r : HReq) : (issueRead r).Sheds s := sheds_ask fun _ => by simp
@[simp] theorem sheds_readGrants (n : Nat) : (readGrants n).Sheds s := by
  induction n with
  | zero => trivial
  | succ n ih => exact sheds_ask fun _ => by simp [ih]
@[simp] theorem sheds_readPump : readPump.Sheds s := sheds_ask fun _ => sheds_readGrants _
@[simp] theorem sheds_raiseRead (r : HReq) : (raiseRead r).Sheds s := by simp [raiseRead]
@[simp] theorem sheds_postWrite (q : FReq) (k : WKind) (addr : Nat) (bs : List Byte) (ro ns : Bool) (ctx : Nat) :
    (postWrite q k addr bs ro ns ctx).Sheds s := sheds_ask fun _ => by simp
@[simp] theorem sheds_dropRead (r : HRead) : (dropRead r).Sheds s := by simp [dropRead]
@[simp] theorem sheds_aerLog (e : AerErr) : (aerLog e).Sheds s := by simp [aerLog]
@[simp] theorem sheds_poisoned : poisoned.Sheds s := by simp [poisoned]
@[simp] theorem sheds_poisonedWrite : poisonedWrite.Sheds s := by simp [poisonedWrite]
@[simp] theorem sheds_bar4Refused : bar4Refused.Sheds s := by simp [bar4Refused]
@[simp] theorem sheds_barDword (be : Nat) {act : Act} (hact : act.Sheds s) : (barDword be act).Sheds s :=
  sheds_ask fun _ => by simp [hact]
@[simp] theorem sheds_sendMsix (v : Nat) : (sendMsix v).Sheds s := sheds_ask fun _ => by simp
@[simp] theorem sheds_walkBegin (k : WalkReq) : (walkBegin k).Sheds s := sheds_ask fun _ => by simp
@[simp] theorem sheds_walkPump (n : Nat) : (walkPump n).Sheds s := by
  induction n with
  | zero => trivial
  | succ n ih => exact sheds_ask fun _ => by simp [ih]
@[simp] theorem sheds_walkNext : walkNext.Sheds s := sheds_ask fun _ => sheds_walkPump _
@[simp] theorem sheds_startWalk (who : Who) (ctx va : Nat) (write : Bool) (q : FReq) : (startWalk who ctx va write q).Sheds s :=
  sheds_ask fun _ => by simp
@[simp] theorem sheds_tlbPut (t : Tlb) : (tlbPut t).Sheds s := sheds_ask fun _ => by simp

/-! ### Submissions, chains and stops -/

@[simp] theorem sheds_lampPlace (c ctx idx : Nat) (target : WTime) (forced : Bool) :
    (lampPlace c ctx idx target forced).Sheds s := sheds_ask fun _ => by simp
@[simp] theorem sheds_lampArmAct : lampArmAct.Sheds s := sheds_ask fun _ => by simp
@[simp] theorem sheds_lampRearm : lampRearm.Sheds s := sheds_ask fun _ => by simp
@[simp] theorem sheds_lampArm (c : Nat) (target : WTime) (forced : Bool) : (lampArm c target forced).Sheds s :=
  ⟨sheds_lampRearm, sheds_ask fun _ => (sheds_ite _ _ _).2 ⟨fun _ => trivial, fun _ => by split <;> simp⟩⟩
@[simp] theorem sheds_lampDrop (gone : Nat → Nat → Bool) : (lampDrop gone).Sheds s := by simp [lampDrop]
@[simp] theorem sheds_lampRelease (c : Nat) : (lampRelease c).Sheds s := by simp [lampRelease]
@[simp] theorem sheds_lateFire : lateFire.Sheds s := by simp [lateFire]
@[simp] theorem sheds_addDue (d : Due) : (addDue d).Sheds s := sheds_ask fun _ => by simp
@[simp] theorem sheds_endRecord (c : Nat) (sub : Sub) (status : Nat) (wt : WTime) (bytes : Nat) (intr : Bool)
    (acks : List Nat) (q : FReq) :
    (endRecord c sub status wt bytes intr acks q).Sheds s := by simp [endRecord]
@[simp] theorem sheds_unstarted (c : Nat) (sub : Sub) (status : Nat) : (unstarted c sub status).Sheds s :=
  sheds_ask fun _ => by simp
@[simp] theorem sheds_queueFree (q : Nat) : (queueFree q).Sheds s := by simp [queueFree]
@[simp] theorem sheds_queueSettle : queueSettle.Sheds s := sheds_ask fun _ => by simp
@[simp] theorem sheds_modSubs (c : Nat) (f : List Sub → List Sub) : (modSubs c f).Sheds s := by simp [modSubs]
@[simp] theorem sheds_dropSubs (c status : Nat) : (dropSubs c status).Sheds s := sheds_ask fun _ => by simp
@[simp] theorem sheds_leaveEngine (c : Nat) : (leaveEngine c).Sheds s := by simp [leaveEngine]
@[simp] theorem sheds_flushOf (c : Nat) : (flushOf c).Sheds s := sheds_ask fun _ => by simp
@[simp] theorem sheds_dropReads (gone : Purpose → Bool) : (dropReads gone).Sheds s := by simp [dropReads]
@[simp] theorem sheds_killReads (c : Nat) : (killReads c).Sheds s := by simp [killReads]
@[simp] theorem sheds_addBytes (c n : Nat) : (addBytes c n).Sheds s := by simp [addBytes]
@[simp] theorem sheds_killForwards (c : Nat) : (killForwards c).Sheds s := sheds_ask fun _ => by simp
@[simp] theorem sheds_leaveBus (c : Nat) : (leaveBus c).Sheds s := by simp [leaveBus]
@[simp] theorem sheds_creditBack (l pc : Nat) : (creditBack l pc).Sheds s := by simp [creditBack]
@[simp] theorem sheds_cutFirst (l : Nat) (f : TxFrame) : (cutFirst l f).Sheds s := by simp [cutFirst]
@[simp] theorem sheds_cutEmit (c : Nat) : (cutEmit c).Sheds s := by simp [cutEmit]
@[simp] theorem sheds_orphanEmit (c : Nat) : (orphanEmit c).Sheds s := by simp [orphanEmit]
@[simp] theorem sheds_beginSub (c : Nat) : (beginSub c).Sheds s := sheds_ask fun _ => by simp
@[simp] theorem sheds_startFrom (c fuel : Nat) : (startFrom c fuel).Sheds s := by
  induction fuel with
  | zero => trivial
  | succ fuel ih => exact sheds_ask fun _ => (sheds_ite _ _ _).2 ⟨fun _ => trivial, fun _ => by split <;> simp [ih]⟩
@[simp] theorem sheds_startNext (c : Nat) : (startNext c).Sheds s := sheds_startFrom c 17
@[simp] theorem sheds_resumeNext (c : Nat) : (resumeNext c).Sheds s := sheds_ask fun _ => by simp
@[simp] theorem sheds_chanFree (c : Nat) : (chanFree c).Sheds s := sheds_ask fun _ => by simp
@[simp] theorem sheds_arrive (c : Nat) : (arrive c).Sheds s := sheds_ask fun _ => by simp
@[simp] theorem sheds_stopTo (c : Nat) (st : ChanSt) : (stopTo c st).Sheds s := sheds_ask fun _ => by simp
@[simp] theorem sheds_releaseWaits (c : Nat) : (releaseWaits c).Sheds s := by simp [releaseWaits]
@[simp] theorem sheds_chainEnd (c status : Nat) : (chainEnd c status).Sheds s :=
  sheds_ask fun _ => by dsimp only; split <;> simp
@[simp] theorem sheds_chainEndNormal (c : Nat) (drained : Bool) : (chainEndNormal c drained).Sheds s :=
  sheds_ask fun _ => by simp
@[simp] theorem sheds_dropWaiting (c : Nat) : (dropWaiting c).Sheds s := by simp [dropWaiting]
@[simp] theorem sheds_cutTime (c : Nat) : (cutTime c).Sheds s := sheds_ask fun _ => by simp
@[simp] theorem sheds_haltChain (c desc off : Nat) : (haltChain c desc off).Sheds s := sheds_ask fun _ => by simp
@[simp] theorem sheds_haltAt (c desc off : Nat) : (haltAt c desc off).Sheds s := by simp [haltAt]
@[simp] theorem sheds_haltAfter (c nxt : Nat) : (haltAfter c nxt).Sheds s := sheds_ask fun _ => by simp
@[simp] theorem sheds_abortRun (c status : Nat) : (abortRun c status).Sheds s := sheds_ask fun _ => by simp
@[simp] theorem sheds_abortChan (c status subStatus : Nat) : (abortChan c status subStatus).Sheds s :=
  sheds_ask fun _ => by dsimp only; split <;> simp
@[simp] theorem sheds_stopParked (c : Nat) : (stopParked c).Sheds s := sheds_ask fun _ => by simp
@[simp] theorem sheds_parkChan (c : Nat) (p : Park) : (parkChan c p).Sheds s := sheds_ask fun _ => by simp
@[simp] theorem sheds_queueAt (c : Nat) (p : Park) : (queueAt c p).Sheds s := sheds_ask fun _ => by simp
@[simp] theorem sheds_stallChan (c : Nat) (p : Park) : (stallChan c p).Sheds s := by simp [stallChan]
@[simp] theorem sheds_captureFault (n status desc chan addr : Nat) : (captureFault n status desc chan addr).Sheds s :=
  sheds_ask fun _ => by simp
@[simp] theorem sheds_holdRefs (n c : Nat) : (holdRefs n c).Sheds s := sheds_ask fun _ => by simp
@[simp] theorem sheds_loseCtx (n c : Nat) : (loseCtx n c).Sheds s := sheds_ask fun _ => by simp
@[simp] theorem sheds_faultAfter (c status desc off addr : Nat) : (faultAfter c status desc off addr).Sheds s :=
  sheds_ask fun _ => by simp
@[simp] theorem sheds_faultChan (c status off : Nat) : (faultChan c status off).Sheds s := sheds_ask fun _ => by simp
@[simp] theorem sheds_progressRecord (c : Nat) (d : Cur) (status bytes : Nat) : (progressRecord c d status bytes).Sheds s :=
  sheds_ask fun _ => by split <;> simp
@[simp] theorem sheds_chainGo (c nxt : Nat) (d : Cur) (ok : Bool) : (chainGo c nxt d ok).Sheds s := sheds_ask fun _ => by simp
@[simp] theorem sheds_finishDesc (c status nxt : Nat) : (finishDesc c status nxt).Sheds s := sheds_ask fun _ => by simp

/-! ### Fetches, takes and what a descriptor leaves -/

@[simp] theorem sheds_fetchCopies (c : Nat) : (fetchCopies c).Sheds s := sheds_ask fun _ => by simp
@[simp] theorem sheds_dropCopies (c space a n : Nat) : (dropCopies c space a n).Sheds s := by simp [dropCopies]
@[simp] theorem sheds_takeRef (r : Bool × Nat) : (takeRef r).Sheds s := by simp [takeRef]
@[simp] theorem sheds_take (c idx : Nat) (d : List Word) : (take c idx d).Sheds s := sheds_ask fun u => by
  dsimp only
  split
  · simp
  · refine (sheds_ite _ _ _).2 ⟨by simp, fun _ => ?_⟩
    cases u.handleOf (u.chan c).ctx d <;> simp
@[simp] theorem sheds_flushRead (c : Nat) : (flushRead c).Sheds s := sheds_ask fun _ => by split <;> simp
@[simp] theorem sheds_settle (c : Nat) : (settle c).Sheds s := sheds_ask fun _ => by
  refine (sheds_forSome _ _).2 fun _ _ => ?_
  dsimp only
  split
  · refine (sheds_ite _ _ _).2 ⟨by simp, fun _ => (sheds_ite _ _ _).2 ⟨fun _ => ?_, by simp⟩⟩
    split <;> simp
  · trivial
@[simp] theorem sheds_haltIdle (c : Nat) : (haltIdle c).Sheds s := by simp [haltIdle]
@[simp] theorem sheds_settleStop (c : Nat) : (settleStop c).Sheds s := by simp [settleStop]
@[simp] theorem sheds_renew (c : Nat) : (renew c).Sheds s := sheds_ask fun _ => by simp
@[simp] theorem sheds_takeFailed (c : Nat) : (takeFailed c).Sheds s := sheds_ask fun _ => by
  split
  · split <;> simp
  · trivial

/-! ### Grants -/

@[simp] theorem sheds_raised {a : Act} (ha : a.Sheds s) : (raised a).Sheds s := sheds_ask fun _ => by simp [ha]
@[simp] theorem sheds_movedBytes (c n : Nat) : (movedBytes c n).Sheds s := sheds_ask fun _ => by simp
@[simp] theorem sheds_spendGrant (c : Nat) : (spendGrant c).Sheds s := by simp [spendGrant]
@[simp] theorem sheds_grantBegin (e c : Nat) : (grantBegin e c).Sheds s := sheds_ask fun _ => by simp
@[simp] theorem sheds_regrant (c : Nat) : (regrant c).Sheds s := sheds_ask fun _ => by simp
@[simp] theorem sheds_underGrant (c : Nat) {k : Act} (hk : k.Sheds s) : (underGrant c k).Sheds s :=
  sheds_ask fun _ => by simp [hk]
@[simp] theorem sheds_opRow (c op : Nat) {body : Act} (h : body.Sheds s) : (opRow c op body).Sheds s :=
  ⟨sheds_settle c, sheds_ask fun _ => (sheds_when _ _).2 fun _ => sheds_underGrant c
    ⟨sheds_ask fun _ => by dsimp only; split <;> simp, sheds_renew c, sheds_ask fun _ => by split <;> simp [h]⟩⟩

/-! ### Accesses of channels -/

@[simp] theorem sheds_accessFault (c status off addr : Nat) : (accessFault c status off addr).Sheds s := by simp [accessFault]
@[simp] theorem sheds_walkFor (c : Nat) (adr : Nat) (write : Bool) : (walkFor c adr write).Sheds s := sheds_ask fun _ => by simp
@[simp] theorem sheds_viewWait (c entry : Nat) : (viewWait c entry).Sheds s := sheds_ask fun _ => by simp
@[simp] theorem sheds_beatStall (c full : Nat) : (beatStall c full).Sheds s := by simp [beatStall]
@[simp] theorem sheds_peerAccess (c : Nat) (d : Cur) (full n : Nat) (wr : Option (List Byte)) :
    (peerAccess c d full n wr).Sheds s := sheds_ask fun _ => by simp
@[simp] theorem sheds_readPiece (c : Nat) (d : Cur) (full n : Nat) : (readPiece c d full n).Sheds s := sheds_ask fun _ => by
  refine (sheds_ite _ _ _).2 ⟨by simp, fun _ => (sheds_ite _ _ _).2 ⟨fun _ => ?_, fun _ => ?_⟩⟩ <;> split <;> simp
@[simp] theorem sheds_wrote (c k : Nat) : (wrote c k).Sheds s := by simp [wrote]

end

end Sys2Proof.Machine
end

section
/-!
SUPPORT. Meanings that only shed lines: register reads, chairs, queues, engines, teardowns, the host link and the mailbox, as in
the section above.
-/

namespace Sys2Proof.Machine

-- The many short proofs are checked one after another, for each would else hold a thread of its own.
set_option Elab.async false

section
variable {s : State}

/-! ### Chairs, windows and reads of registers -/

@[simp] theorem sheds_chairTell (n : Nat) : (chairTell n).Sheds s := sheds_ask fun _ => by simp
@[simp] theorem sheds_chairDeny : chairDeny.Sheds s := by simp [chairDeny]
@[simp] theorem sheds_chairSit (n peer mid tag : Nat) : (chairSit n peer mid tag).Sheds s := sheds_ask fun _ =>
  (sheds_when _ _).2 fun _ => ⟨by simp, by simp, (sheds_forEach _ _).2 fun _ _ => by split <;> simp⟩
@[simp] theorem sheds_chairWaitArrive (p : Path) (n : Nat) : (chairWaitArrive p n).Sheds s := sheds_ask fun _ => by simp
@[simp] theorem sheds_flashLoad : flashLoad.Sheds s := sheds_ask fun _ => by simp
@[simp] theorem sheds_initGo : initGo.Sheds s := sheds_ask fun _ => by simp
@[simp] theorem sheds_winFault (p : Path) (cause : Nat) : (winFault p cause).Sheds s := sheds_ask fun _ => by simp
@[simp] theorem sheds_winAdvance (p : Path) : (winAdvance p).Sheds s := sheds_ask fun _ => by simp
@[simp] theorem sheds_winRead (p : Path) {k : Word → Act} (h : ∀ x, (k x).Sheds s) : (winRead p k).Sheds s :=
  sheds_ask fun _ => by
    simp only [sheds_ite, sheds_acts_cons, sheds_winFault, sheds_winAdvance, h, sheds_acts_nil, implies_true, true_and, and_true]
    intro _ _ _
    split <;> simp [h]
@[simp] theorem sheds_shdAdvance : shdAdvance.Sheds s := sheds_ask fun _ => by simp
@[simp] theorem sheds_modPort (p : Path) (f : PathPort → PathPort) : (modPort p f).Sheds s := by
  unfold modPort
  split <;> simp
@[simp] theorem sheds_readDone (p : Path) : (readDone p).Sheds s := by simp [readDone]
@[simp] theorem sheds_gotWord (p : Path) (w : Word) : (gotWord p w).Sheds s := by simp [gotWord]
@[simp] theorem sheds_holdRead (p : Path) (r : HeldReg) : (holdRead p r).Sheds s := sheds_ask fun _ => by simp
@[simp] theorem sheds_readOne (p : Path) (off : Nat) : (readOne p off).Sheds s := sheds_ask fun _ => by simp
@[simp] theorem sheds_readGo (p : Path) (fuel : Nat) : (readGo p fuel).Sheds s := by
  induction fuel with
  | zero => trivial
  | succ fuel ih => exact sheds_ask fun _ => by split <;> simp [ih]
@[simp] theorem sheds_readStart (p : Path) (off total : Nat) (fixed : Bool) (fbe lbe : Nat) :
    (readStart p off total fixed fbe lbe).Sheds s := sheds_ask fun _ => by simp
@[simp] theorem sheds_heldWaits (p : Path) (since : Nat) : (heldWaits p since).Sheds s := sheds_ask fun _ => by simp
@[simp] theorem sheds_readRelease (p : Path) : (readRelease p).Sheds s := sheds_ask fun _ => by
  split
  · split <;> simp
  · trivial
@[simp] theorem sheds_initAct : initAct.Sheds s := by simp [initAct]
@[simp] theorem sheds_winWrite (p : Path) (v : Word) : (winWrite p v).Sheds s :=
  ⟨sheds_ask fun _ => by simp, sheds_ask fun _ => by
    simp only [sheds_ite, sheds_acts_cons, sheds_winFault, sheds_winAdvance, sheds_acts_nil, implies_true, true_and, and_true]
    intro _ _ _
    split <;> simp⟩
@[simp] theorem sheds_barQueue (r : BarReq) : (barQueue r).Sheds s := by simp [barQueue]
@[simp] theorem sheds_pathWrite (p : Path) (off : Nat) (v : Word) {act : Act} (hact : act.Sheds s) :
    (pathWrite p off v act).Sheds s := sheds_ask fun _ => by simp [hact]
@[simp] theorem sheds_pathRead (p : Path) (off : Nat) : (pathRead p off).Sheds s := sheds_ask fun _ => by simp

/-! ### Chairs -/

@[simp] theorem sheds_sitterTold (n : Nat) (w : Sitter) : (sitterTold n w).Sheds s := by
  cases w with
  | path p => exact sheds_readRelease p
  | gov => trivial
  | peer id mid op => exact sheds_ask fun _ => sheds_zAnswer _ _ _ _
  | chan c => exact sheds_releaseWait _ _
@[simp] theorem sheds_chairPass (n : Nat) : (chairPass n).Sheds s := sheds_ask fun _ => by simp
@[simp] theorem sheds_kindleChairGone (n : Nat) : (kindleChairGone n).Sheds s := sheds_ask fun _ => by simp
@[simp] theorem sheds_kindleChairCheck : kindleChairCheck.Sheds s := sheds_ask fun _ => by simp
@[simp] theorem sheds_chairFree (n : Nat) : (chairFree n).Sheds s := by simp [chairFree]
@[simp] theorem sheds_chairAbandon (peer mid : Nat) : (chairAbandon peer mid).Sheds s := sheds_ask fun _ => by simp
@[simp] theorem sheds_sitAct (p : Path) (n tag : Nat) : (sitAct p n tag).Sheds s := sheds_ask fun _ => by simp
@[simp] theorem sheds_giveAct (p : Path) (n : Nat) : (giveAct p n).Sheds s := sheds_ask fun _ => by simp
@[simp] theorem sheds_chrSitAct (p : Path) (n tag : Nat) : (chrSitAct p n tag).Sheds s := by simp [chrSitAct]
@[simp] theorem sheds_chrGiveAct (p : Path) (n : Nat) : (chrGiveAct p n).Sheds s := by simp [chrGiveAct]
@[simp] theorem sheds_chrWaitAct (p : Path) (n : Nat) : (chrWaitAct p n).Sheds s := by simp [chrWaitAct]
@[simp] theorem sheds_chrWaitTimeoutAct (p : Path) : (chrWaitTimeoutAct p).Sheds s := sheds_ask fun _ => by
  split
  · split <;> simp
  · trivial
@[simp] theorem sheds_chairTakeBody (c : Nat) : (chairTakeBody c).Sheds s := sheds_ask fun _ => by simp
@[simp] theorem sheds_chairGiveBody (c : Nat) : (chairGiveBody c).Sheds s := sheds_ask fun _ => by simp
@[simp] theorem sheds_chairTakeLimit (c : Nat) : (chairTakeLimit c).Sheds s := sheds_ask fun _ => by split <;> simp
@[simp] theorem sheds_descRow (c op : Nat) {body : Act} (hbody : body.Sheds s) : (descRow c op body).Sheds s :=
  sheds_ask fun _ => by simp [hbody]

/-! ### Waits, signals and the Cupboard -/

@[simp] theorem sheds_waitWheelBody (c : Nat) : (waitWheelBody c).Sheds s := sheds_ask fun _ => by simp
@[simp] theorem sheds_waitFenceBody (c : Nat) : (waitFenceBody c).Sheds s := sheds_ask fun _ => by simp
@[simp] theorem sheds_waitWickBody (c : Nat) : (waitWickBody c).Sheds s := sheds_ask fun _ => by simp
@[simp] theorem sheds_wickEdge (w : Nat) (level : Bool) : (wickEdge w level).Sheds s := sheds_ask fun _ =>
  (sheds_forEach _ _).2 fun _ _ => sheds_ask fun _ => ⟨by simp, by split <;> simp⟩
@[simp] theorem sheds_signalGo (c : Nat) : (signalGo c).Sheds s := sheds_ask fun _ => by simp
@[simp] theorem sheds_signalBody (c : Nat) : (signalBody c).Sheds s := sheds_ask fun _ => by split <;> simp
@[simp] theorem sheds_passTo (c nxt : Nat) : (passTo c nxt).Sheds s := by simp [passTo]
@[simp] theorem sheds_nopBody (c : Nat) : (nopBody c).Sheds s := by simp [nopBody]
@[simp] theorem sheds_jumpBody (c : Nat) : (jumpBody c).Sheds s := sheds_ask fun _ => by simp
@[simp] theorem sheds_cupGrant (c : Nat) : (cupGrant c).Sheds s := sheds_ask fun _ => by simp
@[simp] theorem sheds_cupRequest (c : Nat) : (cupRequest c).Sheds s := sheds_ask fun _ => by simp
@[simp] theorem sheds_allocFail (ctx cause : Nat) : (allocFail ctx cause).Sheds s := by simp [allocFail]
@[simp] theorem sheds_allocKeyRefused (c ctx : Nat) (d : List Word) : (allocKeyRefused c ctx d).Sheds s := by
  simp [allocKeyRefused]
@[simp] theorem sheds_freeEnd (o : CupOp) : (freeEnd o).Sheds s := sheds_ask fun _ => by simp
@[simp] theorem sheds_scrubAct : scrubAct.Sheds s := sheds_ask fun _ => by simp
@[simp] theorem sheds_lampFireEnt (e : LampEnt) : (lampFireEnt e).Sheds s := sheds_ask fun _ =>
  ⟨by simp, by simp, by simp, by split <;> simp⟩
@[simp] theorem sheds_lampFireSlot (e : LampEnt) : (lampFireSlot e).Sheds s := sheds_ask fun _ => by simp
@[simp] theorem sheds_lampFireAct : lampFireAct.Sheds s := sheds_ask fun _ => by simp

/-! ### Doorbells, rings and records -/

@[simp] theorem sheds_dbRefuse (n : Nat) (slot : Option Nat) : (dbRefuse n slot).Sheds s := by simp [dbRefuse]
@[simp] theorem sheds_ringWake : ringWake.Sheds s := sheds_ask fun _ =>
  (sheds_forEach _ _).2 fun _ _ => sheds_ask fun _ => (sheds_ite _ _ _).2 ⟨by simp, fun _ => by split <;> simp⟩
@[simp] theorem sheds_setTail (q v : Nat) : (setTail q v).Sheds s := by simp [setTail]
@[simp] theorem sheds_setHead (q v : Nat) : (setHead q v).Sheds s := by simp [setHead]
@[simp] theorem sheds_queueDb (n slot : Nat) (v : Word) (be : Nat) (ok : Queue → Nat → Bool) {go : Nat → Nat → Act}
    (h : ∀ x y, (go x y).Sheds s) :
    (queueDb n slot v be ok go).Sheds s := sheds_ask fun _ => by simp [h]
@[simp] theorem sheds_kickAct (n : Nat) (v : Word) (be : Nat) : (kickAct n v be).Sheds s := sheds_ask fun _ => by
  split
  · simp
  · split <;> simp
@[simp] theorem sheds_refAct (n : Nat) (v : Word) (be : Nat) : (refAct n v be).Sheds s := sheds_ask fun _ => by
  split
  · simp
  · split <;> simp
@[simp] theorem sheds_unrefAct (n : Nat) (v : Word) (be : Nat) : (unrefAct n v be).Sheds s := sheds_ask fun _ => by
  split
  · simp
  · split <;> simp
@[simp] theorem sheds_devDb (off : Nat) (v : Word) (ok : Queue → Nat → Bool) {go : Nat → Nat → Act} (h : ∀ x y,
    (go x y).Sheds s) :
    (devDb off v ok go).Sheds s := sheds_ask fun _ => by simp [h]
@[simp] theorem sheds_sqDbWrite (v : Word) : (sqDbWrite v).Sheds s := by simp [sqDbWrite]
@[simp] theorem sheds_cqDbWrite (v : Word) : (cqDbWrite v).Sheds s := by simp [cqDbWrite]
@[simp] theorem sheds_ringFault (q status addr : Nat) : (ringFault q status addr).Sheds s := sheds_ask fun _ => by simp
@[simp] theorem sheds_headOn (q : Nat) : (headOn q).Sheds s := by simp [headOn]
@[simp] theorem sheds_entryEnd (q tag chanW status : Nat) : (entryEnd q tag chanW status).Sheds s := sheds_ask fun _ => by simp
@[simp] theorem sheds_judgeEntry (q : Nat) (bs : List Byte) : (judgeEntry q bs).Sheds s := sheds_ask fun _ => by
  dsimp only
  split
  · simp
  · split <;> simp
@[simp] theorem sheds_entryAct (q : Nat) (entry : List Byte) : (entryAct q entry).Sheds s := sheds_ask fun _ =>
  (sheds_when _ _).2 fun _ => (sheds_ite _ _ _).2 ⟨by simp, fun _ => (sheds_ite _ _ _).2 ⟨by simp, fun _ => by split <;> simp⟩⟩
@[simp] theorem sheds_recorded (d : Due) (bs : List Byte) : (recorded d bs).Sheds s := sheds_ask fun _ => by simp
@[simp] theorem sheds_lampReleaseCtx (n : Nat) : (lampReleaseCtx n).Sheds s := by simp [lampReleaseCtx]
@[simp] theorem sheds_ctxLostEntry (n c : Nat) : (ctxLostEntry n c).Sheds s := sheds_ask fun _ => by split <;> simp
@[simp] theorem sheds_unwindAct (n : Nat) : (unwindAct n).Sheds s := sheds_ask fun _ => by split <;> simp

/-! ### Dispatch and stops -/

@[simp] theorem sheds_runOn (e c : Nat) : (runOn e c).Sheds s := sheds_ask fun _ => by simp
@[simp] theorem sheds_dispatchAct (e : Nat) : (dispatchAct e).Sheds s := sheds_ask fun _ => by simp
@[simp] theorem sheds_expiryAct (e : Nat) : (expiryAct e).Sheds s := sheds_ask fun _ => by simp
@[simp] theorem sheds_fetchAct (c : Nat) : (fetchAct c).Sheds s := sheds_ask fun _ => by simp
@[simp] theorem sheds_completeAct (c : Nat) : (completeAct c).Sheds s := sheds_ask fun _ => by simp
@[simp] theorem sheds_stopTry (c : Nat) : (stopTry c).Sheds s := sheds_ask fun _ => by simp
@[simp] theorem sheds_stopReq (c mode : Nat) : (stopReq c mode).Sheds s := sheds_ask fun _ => by simp
@[simp] theorem sheds_devStop (p : Path) (v : Word) (c gen : Nat) (mode : Option Nat) : (devStop p v c gen mode).Sheds s := by
  unfold devStop
  split <;> simp
@[simp] theorem sheds_haltBoundary (c : Nat) : (haltBoundary c).Sheds s := sheds_ask fun _ =>
  (sheds_when _ _).2 fun _ => ⟨sheds_settle c, sheds_ask fun _ => (sheds_when _ _).2 fun _ =>
    (sheds_forSome _ _).2 fun _ _ => by split <;> simp⟩
@[simp] theorem sheds_biteCapture (chan : Option Nat) (mid res : Nat) (priv : Bool) : (biteCapture chan mid res priv).Sheds s :=
  sheds_ask fun _ => by simp
@[simp] theorem sheds_windowBitten (p : Path) : (windowBitten p).Sheds s := sheds_ask fun _ =>
  ⟨by simp, by simp, by split <;> simp⟩
@[simp] theorem sheds_biteChan (c res : Nat) : (biteChan c res).Sheds s := sheds_ask fun _ => by simp
@[simp] theorem sheds_biteAct (res : Nat) (owner : BiteOwner) : (biteAct res owner).Sheds s :=
  sheds_ask fun _ => by split <;> simp

/-! ### Teardowns -/

@[simp] theorem sheds_killRing (q : Nat) : (killRing q).Sheds s := by simp [killRing]
@[simp] theorem sheds_dropDue (q : Nat) : (dropDue q).Sheds s := sheds_ask fun _ => by simp
@[simp] theorem sheds_dyingChan (c status : Nat) : (dyingChan c status).Sheds s := by simp [dyingChan]
@[simp] theorem sheds_ctxDie (n : Nat) : (ctxDie n).Sheds s := sheds_ask fun _ => by simp
@[simp] theorem sheds_dropHolds (n : Nat) : (dropHolds n).Sheds s := sheds_ask fun _ => by simp
@[simp] theorem sheds_unwindCup (n : Nat) : (unwindCup n).Sheds s := sheds_ask fun _ => by simp
@[simp] theorem sheds_destroyOwned (n : Nat) : (destroyOwned n).Sheds s := sheds_ask fun _ => by simp
@[simp] theorem sheds_teardown (n : Nat) : (teardown n).Sheds s := sheds_ask fun _ => by simp
@[simp] theorem sheds_ctxFree (n : Nat) : (ctxFree n).Sheds s := by simp [ctxFree]
@[simp] theorem sheds_teardownAct (n : Nat) : (teardownAct n).Sheds s := sheds_ask fun _ => by simp

/-! ### Completions, BAR4 and function resets -/

@[simp] theorem sheds_flushDone (c : Nat) : (flushDone c).Sheds s :=
  sheds_ask fun _ => (sheds_forSome _ _).2 fun _ _ => by split <;> simp
@[simp] theorem sheds_flushFail (c : Nat) : (flushFail c).Sheds s := by simp [flushFail]
@[simp] theorem sheds_walkFault (w : Who) (va status : Nat) : (walkFault w va status).Sheds s :=
  sheds_ask fun _ => by split <;> simp
@[simp] theorem sheds_readFail (r : HRead) : (readFail r).Sheds s := sheds_ask fun _ => by split <;> simp
@[simp] theorem sheds_excuse (r : HRead) : (excuse r).Sheds s := by simp [excuse]
@[simp] theorem sheds_timeoutAct (tag : Nat) : (timeoutAct tag).Sheds s := sheds_ask fun _ => by simp
@[simp] theorem sheds_bar4ReadAct (addr len : Nat) : (bar4ReadAct addr len).Sheds s := sheds_ask fun _ => by
  dsimp only
  split
  · simp
  · split <;> simp
@[simp] theorem sheds_bar4WriteAct (addr : Nat) (data : List Byte) (be : List Bool) (poison : Bool) :
    (bar4WriteAct addr data be poison).Sheds s :=
  sheds_ask fun _ => by
  dsimp only
  split
  · simp
  · split <;> simp
@[simp] theorem sheds_barUrAct (write : Bool) : (barUrAct write).Sheds s := sheds_ask fun _ => by simp
@[simp] theorem sheds_walksAgain : walksAgain.Sheds s := sheds_ask fun _ => by simp
@[simp] theorem sheds_tlbInvAct (v : Word) : (tlbInvAct v).Sheds s := sheds_ask fun _ => by simp
@[simp] theorem sheds_tlbInvDone : tlbInvDone.Sheds s := sheds_ask fun _ => by simp
@[simp] theorem sheds_bar0BankReset : bar0BankReset.Sheds s := by simp [bar0BankReset]
@[simp] theorem sheds_perstChan (c : Nat) : (perstChan c).Sheds s := by simp [perstChan]
@[simp] theorem sheds_perstCtx (n : Nat) : (perstCtx n).Sheds s := sheds_ask fun _ => by simp
@[simp] theorem sheds_ptmFail : ptmFail.Sheds s := sheds_ask fun _ => by simp
@[simp] theorem sheds_linkTrain (gen width : Nat) : (linkTrain gen width).Sheds s := sheds_ask fun _ => by simp
@[simp] theorem sheds_frEnd (c : HostCfg) : (frEnd c).Sheds s := sheds_ask fun _ => by simp

/-! ### The mailbox -/

@[simp] theorem sheds_modJob (p : Path) (f : Option Job → Option Job) : (modJob p f).Sheds s :=
  sheds_ask fun _ => by split <;> simp
@[simp] theorem sheds_answer (p : Path) (result : Nat) (res : List Nat) (w : JobWait) : (answer p result res w).Sheds s := by
  simp [answer]
@[simp] theorem sheds_refuse (p : Path) (result : Nat) : (refuse p result).Sheds s := by simp [refuse]
@[simp] theorem sheds_mailOp (p : Path) (op seq : Nat) {body : (Nat → Nat) → Act} (h : ∀ a, (body a).Sheds s) :
    (mailOp p op seq body).Sheds s := sheds_pathWrite _ _ _ (sheds_ask fun _ => by simp [h])
@[simp] theorem sheds_putResults (inst : Nat) (res : List Word) : (putResults inst res).Sheds s := by simp [putResults]
@[simp] theorem sheds_waitTimeoutAct (p : Path) : (waitTimeoutAct p).Sheds s := sheds_ask fun _ => by simp
@[simp] theorem sheds_ctxCreate (p : Path) (a : Nat → Nat) : (ctxCreate p a).Sheds s := sheds_ask fun _ => by split <;> simp
@[simp] theorem sheds_ctxDestroy (p : Path) (a : Nat → Nat) : (ctxDestroy p a).Sheds s := sheds_ask fun _ => by split <;> simp
@[simp] theorem sheds_ctxReinit (p : Path) (a : Nat → Nat) : (ctxReinit p a).Sheds s := sheds_ask fun _ => by split <;> simp
@[simp] theorem sheds_queueCreate (p : Path) (a : Nat → Nat) : (queueCreate p a).Sheds s := sheds_ask fun _ => by
  split
  · simp
  · simp only [sheds_ite, sheds_refuse, implies_true, true_and]
    intro _ _
    split <;> simp
@[simp] theorem sheds_queueLeave (q c : Nat) : (queueLeave q c).Sheds s := sheds_ask fun _ => by simp
@[simp] theorem sheds_queueDestroy (p : Path) (a : Nat → Nat) : (queueDestroy p a).Sheds s :=
  sheds_ask fun _ => by split <;> simp
@[simp] theorem sheds_chanMake (c n base a1 a2 a3 : Nat) : (chanMake c n base a1 a2 a3).Sheds s := sheds_ask fun _ => by simp
@[simp] theorem sheds_chanCreate (p : Path) (a : Nat → Nat) : (chanCreate p a).Sheds s := sheds_ask fun _ => by
  split
  · simp
  · simp only [sheds_ite, sheds_refuse, implies_true, true_and]
    intro _ _
    split <;> simp
@[simp] theorem sheds_chanDestroy (p : Path) (a : Nat → Nat) : (chanDestroy p a).Sheds s := sheds_ask fun _ => by split <;> simp
@[simp] theorem sheds_chanReinit (p : Path) (a : Nat → Nat) : (chanReinit p a).Sheds s := sheds_ask fun _ => by split <;> simp
@[simp] theorem sheds_memCreate (p : Path) (a : Nat → Nat) : (memCreate p a).Sheds s := sheds_ask fun _ => by
  dsimp only
  split
  · simp
  · simp only [sheds_ite, sheds_refuse, implies_true, true_and]
    intro _ _ _ _ _ _
    split <;> simp
@[simp] theorem sheds_memDestroy (p : Path) (a : Nat → Nat) : (memDestroy p a).Sheds s := sheds_ask fun _ => by split <;> simp
@[simp] theorem sheds_refOp (p : Path) (a : Nat → Nat) : (refOp p a).Sheds s := sheds_ask fun _ => by split <;> simp
@[simp] theorem sheds_unrefOp (p : Path) (a : Nat → Nat) : (unrefOp p a).Sheds s := sheds_ask fun _ => by split <;> simp
@[simp] theorem sheds_fenceCreate (p : Path) (a : Nat → Nat) : (fenceCreate p a).Sheds s := sheds_ask fun _ => by
  split
  · simp
  · refine (sheds_ite _ _ _).2 ⟨by simp, fun _ => ?_⟩
    split <;> simp
@[simp] theorem sheds_fenceDestroy (p : Path) (a : Nat → Nat) : (fenceDestroy p a).Sheds s :=
  sheds_ask fun _ => by split <;> simp
@[simp] theorem sheds_fenceExport (p : Path) (a : Nat → Nat) : (fenceExport p a).Sheds s := sheds_ask fun _ => by split <;> simp
@[simp] theorem sheds_tokenBad (p : Path) : (tokenBad p).Sheds s := by simp [tokenBad]
@[simp] theorem sheds_importBits (i n : Nat) : (importBits i n).Sheds s := by simp [importBits]
@[simp] theorem sheds_importAsk (p : Path) (n tok : Nat) : (importAsk p n tok).Sheds s :=
  sheds_ask fun _ => by dsimp only; split <;> simp
@[simp] theorem sheds_fenceImport (p : Path) (a : Nat → Nat) : (fenceImport p a).Sheds s := sheds_ask fun _ => by split <;> simp
@[simp] theorem sheds_stageOp (p : Path) (a : Nat → Nat) (argOk right : Bool) (v : Nat) : (stageOp p a argOk right v).Sheds s :=
  sheds_ask fun _ => by split <;> simp
@[simp] theorem sheds_stageMap (p : Path) (a : Nat → Nat) : (stageMap p a).Sheds s := sheds_ask fun _ => by simp
@[simp] theorem sheds_stageUnmap (p : Path) (a : Nat → Nat) : (stageUnmap p a).Sheds s := by simp [stageUnmap]
@[simp] theorem sheds_chairtabOpen (p : Path) (a : Nat → Nat) : (chairtabOpen p a).Sheds s :=
  sheds_ask fun _ => by split <;> simp
@[simp] theorem sheds_engineReinit (p : Path) (a : Nat → Nat) : (engineReinit p a).Sheds s := sheds_ask fun _ => by simp
@[simp] theorem sheds_badOp (p : Path) : (badOp p).Sheds s := by simp [badOp]

end

end Sys2Proof.Machine
end

section
/-!
SUPPORT. Meanings that only shed lines: register writes, protection, the wheel, the lanes, Kindle, the governor and the buses, as
in the sections above.
-/

namespace Sys2Proof.Machine

-- The many short proofs are checked one after another, for each would else hold a thread of its own.
set_option Elab.async false

section
variable {s : State}

/-! ### Register writes by their fields -/

@[simp] theorem sheds_plainWrite (inst off : Nat) (v : Word) : (plainWrite inst off v).Sheds s := sheds_ask fun _ => by simp
@[simp] theorem sheds_captureClear (off : Nat) (v : Word) : (captureClear off v).Sheds s := by simp [captureClear]
@[simp] theorem sheds_fieldWrite (p : Path) (off : Nat) (v : Word) : (fieldWrite p off v).Sheds s := sheds_ask fun _ => by simp

/-! ### The protection unit -/

@[simp] theorem sheds_regionSelect (idx : Nat) : (regionSelect idx).Sheds s := sheds_ask fun _ => by simp
@[simp] theorem sheds_regionCommit (idx : Nat) : (regionCommit idx).Sheds s := sheds_ask fun _ => by simp
@[simp] theorem sheds_rgnIdxWrite (v : Word) : (rgnIdxWrite v).Sheds s := by simp [rgnIdxWrite]
@[simp] theorem sheds_shadeOverrun : shadeOverrun.Sheds s := by simp [shadeOverrun]
@[simp] theorem sheds_shdDataWrite (v : Word) : (shdDataWrite v).Sheds s := sheds_ask fun _ => by simp
@[simp] theorem sheds_shdAddrWrite (p : Path) (v : Word) : (shdAddrWrite p v).Sheds s := sheds_ask fun _ => by simp
@[simp] theorem sheds_shdFillWrite (v : Word) : (shdFillWrite v).Sheds s := sheds_ask fun _ => by simp
@[simp] theorem sheds_fillDone : fillDone.Sheds s := sheds_ask fun _ => by simp
@[simp] theorem sheds_stallRefuse (c : Nat) : (stallRefuse c).Sheds s := sheds_ask fun _ => by
  refine (sheds_forSome _ _).2 fun _ _ => ?_
  dsimp only
  split <;> simp
@[simp] theorem sheds_stallTimeout (c : Nat) : (stallTimeout c).Sheds s := sheds_ask fun _ => by simp

/-! ### The wheel -/

@[simp] theorem sheds_fireNow (l : List LampEnt) : (fireNow l).Sheds s := by simp [fireNow]
@[simp] theorem sheds_jumpEntries (hit : LampEnt → Bool) (new : WTime) : (jumpEntries hit new).Sheds s :=
  sheds_ask fun _ => by simp
@[simp] theorem sheds_absorb (e : Int) : (absorb e).Sheds s := sheds_ask fun _ => by simp
@[simp] theorem sheds_loopCorrect (e : Int) (fine : Bool) : (loopCorrect e fine).Sheds s := sheds_ask fun _ => by simp
@[simp] theorem sheds_align (e : Int) (cyc : Nat) : (align e cyc).Sheds s := sheds_ask fun _ => by simp
@[simp] theorem sheds_adopt (wt : WTime) (back8 : Nat) : (adopt wt back8).Sheds s := sheds_ask fun _ => by simp
@[simp] theorem sheds_notLocked : notLocked.Sheds s := by simp [notLocked]
@[simp] theorem sheds_loneCandidate : loneCandidate.Sheds s := sheds_ask fun _ => by simp
@[simp] theorem sheds_sourceChange : sourceChange.Sheds s := by simp [sourceChange]
@[simp] theorem sheds_acqEdge (te8 back8 : Nat) (wt : Option WTime) : (acqEdge te8 back8 wt).Sheds s := sheds_ask fun _ => by
  dsimp only
  split
  · simp
  · refine (sheds_ite _ _ _).2 ⟨by simp, fun _ => (sheds_ite _ _ _).2 ⟨fun _ => ⟨by simp, ?_⟩, by simp⟩⟩
    split <;> simp
@[simp] theorem sheds_coastEdge (te8 back8 : Nat) : (coastEdge te8 back8).Sheds s :=
  sheds_ask fun _ => by dsimp only; split <;> simp
@[simp] theorem sheds_measureSync (e : Nat) (fine : Bool) : (measureSync e fine).Sheds s := sheds_ask fun _ => by simp
@[simp] theorem sheds_goodSync (e : Int) (cyc : Nat) : (goodSync e cyc).Sheds s := sheds_ask fun _ => by simp
@[simp] theorem sheds_missOne : missOne.Sheds s := sheds_ask fun _ => by simp
@[simp] theorem sheds_missClosed (t : Nat) : (missClosed t).Sheds s := sheds_ask fun _ => by simp
@[simp] theorem sheds_edgeAt (te8 back8 : Nat) (wt : Option WTime) : (edgeAt te8 back8 wt).Sheds s := sheds_ask fun _ => by simp
@[simp] theorem sheds_syncEdgeAct (dt8 : Nat) (rising : Bool) : (syncEdgeAct dt8 rising).Sheds s := sheds_ask fun _ => by simp
@[simp] theorem sheds_syncMissingAct : syncMissingAct.Sheds s := sheds_ask fun _ => by simp
@[simp] theorem sheds_holdReleaseAct : holdReleaseAct.Sheds s := sheds_ask fun _ => by simp
@[simp] theorem sheds_nominalApplyAct : nominalApplyAct.Sheds s := sheds_ask fun _ => by simp
@[simp] theorem sheds_nominalWrite (p : Path) (v : Word) : (nominalWrite p v).Sheds s := sheds_ask fun _ => by simp
@[simp] theorem sheds_whlCtlWrite (p : Path) (v : Word) : (whlCtlWrite p v).Sheds s := sheds_ask fun _ => by simp
@[simp] theorem sheds_ptmStart : ptmStart.Sheds s := sheds_ask fun _ => by simp
@[simp] theorem sheds_ptmCtlWrite (p : Path) (v : Word) : (ptmCtlWrite p v).Sheds s := sheds_ask fun _ => by simp
@[simp] theorem sheds_ptmIntervalAct : ptmIntervalAct.Sheds s := sheds_ask fun _ => by simp
@[simp] theorem sheds_ptmResponse (host : DWord) : (ptmResponse host).Sheds s := sheds_ask fun _ => by simp
@[simp] theorem sheds_ptmTimeoutAct : ptmTimeoutAct.Sheds s := sheds_ask fun _ => by simp

/-! ### The lanes -/

@[simp] theorem sheds_settleTx (l : Nat) : (settleTx l).Sheds s := sheds_ask fun _ => by simp
@[simp] theorem sheds_txFree (l : Nat) : (txFree l).Sheds s := sheds_ask fun _ => by simp
@[simp] theorem sheds_startBcast (l cmd : Nat) (payload : List Byte) : (startBcast l cmd payload).Sheds s :=
  sheds_ask fun _ => by simp
@[simp] theorem sheds_txChars (l n : Nat) : (txChars l n).Sheds s := sheds_ask fun _ => by simp
@[simp] theorem sheds_setLaneSt (l : Nat) (st : LaneSt) : (setLaneSt l st).Sheds s := sheds_ask fun _ => by simp
@[simp] theorem sheds_laneEvent (l : Nat) (f : Fld) : (laneEvent l f).Sheds s := by simp [laneEvent]
@[simp] theorem sheds_laneCount (l : Nat) (f : Fld) : (laneCount l f).Sheds s := by simp [laneCount]
@[simp] theorem sheds_kindleTrace : kindleTrace.Sheds s := sheds_ask fun _ => by simp
@[simp] theorem sheds_kindleCheck : kindleCheck.Sheds s := sheds_ask fun _ => by simp
@[simp] theorem sheds_emitStarted (f : TxFrame) : (emitStarted f).Sheds s := by
  unfold emitStarted
  split <;> simp
@[simp] theorem sheds_startFrame (l : Nat) (f : TxFrame) (again : Bool) : (startFrame l f again).Sheds s :=
  sheds_ask fun _ => by simp
@[simp] theorem sheds_kindleLat : kindleLat.Sheds s := sheds_ask fun _ => by simp
@[simp] theorem sheds_startKindle (l : Nat) : (startKindle l).Sheds s := sheds_ask fun _ => by split <;> simp
@[simp] theorem sheds_startWaiting (l c : Nat) : (startWaiting l c).Sheds s := sheds_ask fun _ => by simp
@[simp] theorem sheds_startAborted (l : Nat) (f : TxFrame) : (startAborted l f).Sheds s := by simp [startAborted]
@[simp] theorem sheds_startNormal (l : Nat) : (startNormal l).Sheds s := sheds_ask fun _ => by dsimp only; split <;> simp
@[simp] theorem sheds_frameStart (l : Nat) : (frameStart l).Sheds s := sheds_ask fun _ =>
  (sheds_when _ _).2 fun _ => ⟨by simp, sheds_ask fun _ =>
    (sheds_ite _ _ _).2 ⟨by simp, fun _ => by split <;> simp⟩⟩
@[simp] theorem sheds_placedFrame (l : Nat) : (placedFrame l).Sheds s := sheds_ask fun _ =>
  (sheds_when _ _).2 fun _ => ⟨by simp, sheds_ask fun _ => by dsimp only; split <;> simp⟩
@[simp] theorem sheds_setLaneWick (b : Nat) (level : Bool) : (setLaneWick b level).Sheds s := sheds_ask fun _ => by simp
@[simp] theorem sheds_emitFail (c : Nat) : (emitFail c).Sheds s := sheds_ask fun _ => by split <;> simp
@[simp] theorem sheds_laneLock (l : Nat) : (laneLock l).Sheds s := by simp [laneLock]
@[simp] theorem sheds_laneDown (l : Nat) (post : Option Nat) (reinit : Bool) : (laneDown l post reinit).Sheds s :=
  sheds_ask fun _ => by simp
@[simp] theorem sheds_openWindow (l : Nat) {k : TxFrame → Act} (h : ∀ x, (k x).Sheds s) : (openWindow l k).Sheds s := by
  simp [openWindow, h]
@[simp] theorem sheds_emitAcked (c : Nat) : (emitAcked c).Sheds s := sheds_ask fun _ => by split <;> simp
@[simp] theorem sheds_framesRaised (l : Nat) {a : Act} (ha : a.Sheds s) : (framesRaised l a).Sheds s :=
  sheds_ask fun _ => by simp [ha]
@[simp] theorem sheds_ackReceived (l : Nat) : (ackReceived l).Sheds s :=
  sheds_raised (sheds_framesRaised _ (sheds_openWindow _ fun _ => ⟨by simp, by simp, by split <;> simp⟩))
@[simp] theorem sheds_windowMissed (l : Nat) : (windowMissed l).Sheds s := by simp [windowMissed]
@[simp] theorem sheds_rxSweep (l : Nat) : (rxSweep l).Sheds s := sheds_ask fun _ => by simp
@[simp] theorem sheds_turnGrant (l : Nat) : (turnGrant l).Sheds s := by simp [turnGrant]
@[simp] theorem sheds_turnLapse (l : Nat) : (turnLapse l).Sheds s := sheds_ask fun _ => by simp
@[simp] theorem sheds_rxFrame (l : Nat) (chars : List Byte) (crc : Nat) {taken : RxKind → Nat → Act}
    (h : ∀ x y, (taken x y).Sheds s) : (rxFrame l chars crc taken).Sheds s :=
  ⟨by simp, by simp, sheds_ask fun _ => (sheds_when _ _).2 fun _ => (sheds_forSome _ _).2 fun _ _ => ⟨by simp, by
    simp only [sheds_ite, sheds_acts_cons, sheds_laneCount, sheds_laneEvent, sheds_acts_nil, implies_true, true_and, and_true]
    intro _ _
    split <;> simp [h]⟩⟩
@[simp] theorem sheds_telemTaken (l pc : Nat) (t : Telem) : (telemTaken l pc t).Sheds s := sheds_ask fun _ => by simp
@[simp] theorem sheds_requestTaken (l pc : Nat) (b : Byte) : (requestTaken l pc b).Sheds s := by simp [requestTaken]
@[simp] theorem sheds_rxTaken (l : Nat) (chars : List Byte) (wt : WTime) (k : RxKind) (pc : Nat) :
    (rxTaken l chars wt k pc).Sheds s :=
  by
  unfold rxTaken
  split <;> simp
@[simp] theorem sheds_rxArrives (l : Nat) (chars : List Byte) (crc : Nat) : (rxArrives l chars crc).Sheds s :=
  sheds_ask fun _ => by simp
@[simp] theorem sheds_rxIntact (l pc cmd seq : Nat) (payload : List Byte) : (rxIntact l pc cmd seq payload).Sheds s := by
  simp [rxIntact]
@[simp] theorem sheds_rxSpoiled (l : Nat) {a : Act} (ha : a.Sheds s) : (rxSpoiled l a).Sheds s :=
  sheds_ask fun _ => by simp [ha]
@[simp] theorem sheds_badFrameAct (l : Nat) (b : BadFrame) : (badFrameAct l b).Sheds s := by
  unfold badFrameAct
  split <;> simp
@[simp] theorem sheds_rxAnswer (l : Nat) : (rxAnswer l).Sheds s := sheds_ask fun _ => by simp
@[simp] theorem sheds_laneTraining (l : Nat) : (laneTraining l).Sheds s := by simp [laneTraining]
@[simp] theorem sheds_discoverEnd (l : Nat) : (discoverEnd l).Sheds s := by simp [discoverEnd]
@[simp] theorem sheds_retrainTimer (l : Nat) : (retrainTimer l).Sheds s := sheds_ask fun _ => by simp
@[simp] theorem sheds_lanCtlWrite (p : Path) (l : Nat) (v : Word) : (lanCtlWrite p l v).Sheds s := sheds_ask fun _ => by simp
@[simp] theorem sheds_holdStart (l : Nat) : (holdStart l).Sheds s := by simp [holdStart]
@[simp] theorem sheds_holdEnter (l : Nat) : (holdEnter l).Sheds s := by simp [holdEnter]
@[simp] theorem sheds_holdFrames (ls : List Nat) : (holdFrames ls).Sheds s := sheds_ask fun _ => by simp
@[simp] theorem sheds_holdFrame (l : Nat) : (holdFrame l).Sheds s := by simp [holdFrame]
@[simp] theorem sheds_laneReinit (p : Path) (a : Nat → Nat) : (laneReinit p a).Sheds s := sheds_ask fun _ => by simp
@[simp] theorem sheds_readBuf (c : Nat) (d : Cur) (full off n : Nat) (acc : List Byte) {k : List Byte → Act} (fuel : Nat)
    (h : ∀ x, (k x).Sheds s) : (readBuf c d full off n acc k fuel).Sheds s := by
  induction fuel generalizing full off n acc with
  | zero => trivial
  | succ fuel ih => exact sheds_ask fun _ => (sheds_ite _ _ _).2 ⟨fun _ => h _, fun _ => by split <;> simp [ih]⟩
@[simp] theorem sheds_emitBody (c : Nat) : (emitBody c).Sheds s := sheds_ask fun _ => by simp
@[simp] theorem sheds_sampleNext (c : Nat) : (sampleNext c).Sheds s := sheds_ask fun _ =>
  (sheds_forSome _ _).2 fun _ _ => (sheds_ite _ _ _).2 ⟨fun _ => by split <;> simp, fun _ => by split <;> simp⟩

/-! ### Kindle -/

@[simp] theorem sheds_kindleNak : kindleNak.Sheds s := by simp [kindleNak]
@[simp] theorem sheds_kindleCut (l : Nat) : (kindleCut l).Sheds s := by simp [kindleCut]
@[simp] theorem sheds_kindleSupersede : kindleSupersede.Sheds s := sheds_ask fun _ => by simp
@[simp] theorem sheds_kindleStart (mag : Nat) (dir : Bool) : (kindleStart mag dir).Sheds s := sheds_ask fun _ => by simp
@[simp] theorem sheds_kindleRequest (mag : Nat) (dir : Bool) : (kindleRequest mag dir).Sheds s := sheds_ask fun _ => by simp
@[simp] theorem sheds_kindleFall : kindleFall.Sheds s := sheds_ask fun _ => by simp
@[simp] theorem sheds_kindleMark : kindleMark.Sheds s := sheds_ask fun _ => by simp
@[simp] theorem sheds_kindleCopy (n i : Nat) : (kindleCopy n i).Sheds s := by
  induction n generalizing i with
  | zero => trivial
  | succ n ih => exact sheds_ask fun _ => by dsimp only; split <;> simp [ih]
@[simp] theorem sheds_kindleGo (p : Path) : (kindleGo p).Sheds s := sheds_ask fun _ => by simp
@[simp] theorem sheds_kindleLoadFail (code i : Nat) : (kindleLoadFail code i).Sheds s := sheds_ask fun _ => by simp
@[simp] theorem sheds_kindleChecked : kindleChecked.Sheds s := sheds_ask fun _ =>
  (sheds_when _ _).2 fun _ => ⟨by simp, (sheds_ite _ _ _).2 ⟨by simp, fun _ => by split <;> simp⟩⟩
@[simp] theorem sheds_kindleFlip : kindleFlip.Sheds s := sheds_ask fun _ => by simp

/-! ### The governor -/

@[simp] theorem sheds_usedRails (l : List Nat) (acc : List (Nat × List Byte)) {k : List (Nat × List Byte) → Act}
    (h : ∀ x, (k x).Sheds s) : (usedRails l acc k).Sheds s := by
  induction l generalizing acc with
  | nil => exact h _
  | cons r l ih =>
    exact sheds_ask fun _ => (sheds_ite _ _ _).2 ⟨fun _ => sheds_govRead _ _ fun o => by split <;> exact ih _, fun _ => ih _⟩
@[simp] theorem sheds_govRecord (r : GovRec) : (govRecord r).Sheds s := sheds_ask fun _ => by simp
@[simp] theorem sheds_winRecord (wt : WTime) (kind outcome rail knob old new iavg thresh : Nat) :
    (winRecord wt kind outcome rail knob old new iavg thresh).Sheds s := sheds_ask fun _ => by simp
@[simp] theorem sheds_knobDecide (k : Knob) (new : Nat) : (knobDecide k new).Sheds s := sheds_ask fun _ => by simp
@[simp] theorem sheds_knobLimit (k : Knob) (lim : Nat × Nat) : (knobLimit k lim).Sheds s := sheds_ask fun _ => by simp
@[simp] theorem sheds_windowRestart : windowRestart.Sheds s := sheds_ask fun _ => by simp
@[simp] theorem sheds_pmbCollect : pmbCollect.Sheds s := sheds_ask fun _ =>
  (sheds_forSome _ _).2 fun _ _ => (sheds_forSome _ _).2 fun _ _ =>
    ⟨by simp, (sheds_when _ _).2 fun _ => sheds_govRead _ _ fun _ => by split <;> simp⟩
@[simp] theorem sheds_govSubmit (c tag first : Nat) : (govSubmit c tag first).Sheds s := sheds_ask fun _ => by simp
@[simp] theorem sheds_pmbusRead (r : Nat) : (pmbusRead r).Sheds s :=
  ⟨sheds_pmbCollect, sheds_ask fun _ => (sheds_when _ _).2 fun _ => sheds_usedRails _ _ fun _ => by
    dsimp only
    split <;> simp⟩
@[simp] theorem sheds_jobRecord (j : PhaseJob) (outcome cause old new : Nat) : (jobRecord j outcome cause old new).Sheds s := by
  simp [jobRecord]
@[simp] theorem sheds_govGive (j : PhaseJob) : (govGive j).Sheds s := by simp [govGive]
@[simp] theorem sheds_phaseFail (j : PhaseJob) (cause : Nat) (counts : Bool) : (phaseFail j cause counts).Sheds s :=
  sheds_ask fun _ => by simp
@[simp] theorem sheds_phaseSubmit (j : PhaseJob) : (phaseSubmit j).Sheds s := sheds_ask fun _ => by
  split
  · simp
  · exact sheds_govRead _ _ fun _ => by split <;> simp
@[simp] theorem sheds_phaseTake (j : PhaseJob) : (phaseTake j).Sheds s := sheds_ask fun _ => by simp
@[simp] theorem sheds_phaseChange : phaseChange.Sheds s := sheds_ask fun _ => by
  refine (sheds_when _ _).2 fun _ => ?_
  split
  · simp
  · trivial
  · split
    · simp
    · exact (sheds_when _ _).2 fun _ => sheds_usedRails _ _ fun _ => sheds_ask fun _ => by split <;> simp
@[simp] theorem sheds_phaseChangeEnd : phaseChangeEnd.Sheds s := sheds_ask fun _ => by split <;> simp
@[simp] theorem sheds_standbyFail (j : PhaseJob) : (standbyFail j).Sheds s := sheds_ask fun _ => by split <;> simp
@[simp] theorem sheds_govStandby : govStandby.Sheds s :=
  ⟨sheds_phaseChangeEnd, sheds_ask fun _ => by split <;> simp, sheds_ask fun _ => by simp⟩
@[simp] theorem sheds_govTakeLimit : govTakeLimit.Sheds s := sheds_ask fun _ => by split <;> simp
@[simp] theorem sheds_knobRules (k : Knob) (lim : Nat × Nat) (moved tighten : Bool) (up : Nat) (relax : Bool) (down : Nat)
    (cnt : Nat) {setCnt : Nat → Act} (h : ∀ x, (setCnt x).Sheds s) :
    (knobRules k lim moved tighten up relax down cnt setCnt).Sheds s := sheds_ask fun _ => by simp [h]
@[simp] theorem sheds_knobsDecide (mBurst mPf mBw : Bool) : (knobsDecide mBurst mPf mBw).Sheds s := by simp [knobsDecide]
@[simp] theorem sheds_queueJob (j : PhaseJob) : (queueJob j).Sheds s := by simp [queueJob]
@[simp] theorem sheds_phaseDecide (r iavg thresh : Nat) (up : Bool) : (phaseDecide r iavg thresh up).Sheds s :=
  sheds_ask fun _ => by simp
@[simp] theorem sheds_phaseRules (r : Nat) : (phaseRules r).Sheds s := sheds_ask fun _ => by simp
@[simp] theorem sheds_phaseLimit (r : Nat) : (phaseLimit r).Sheds s := sheds_ask fun _ => by simp
@[simp] theorem sheds_limitMoves (rs : List (Nat × List Byte)) : (limitMoves rs).Sheds s := sheds_ask fun _ => by simp
@[simp] theorem sheds_phasesDecide (rs : List (Nat × List Byte)) : (phasesDecide rs).Sheds s := sheds_ask fun _ => by simp
@[simp] theorem sheds_showWindow (rs : List (Nat × List Byte)) : (showWindow rs).Sheds s := sheds_ask fun _ =>
  ⟨by simp, by simp, by simp, (sheds_forEach _ _).2 fun _ _ => by split <;> simp⟩
@[simp] theorem sheds_windowEndAct : windowEndAct.Sheds s := sheds_ask fun _ => by simp
@[simp] theorem sheds_hystRestart : hystRestart.Sheds s := by simp [hystRestart]
@[simp] theorem sheds_knobRevert (k : Knob) (new : Nat) : (knobRevert k new).Sheds s := sheds_ask fun _ => by simp
@[simp] theorem sheds_revertAct : revertAct.Sheds s := sheds_ask fun _ => by simp
@[simp] theorem sheds_govEnable : govEnable.Sheds s := sheds_ask fun _ => by simp
@[simp] theorem sheds_govCtlWrite (p : Path) (v : Word) : (govCtlWrite p v).Sheds s := sheds_ask fun _ => by simp

/-! ### Buses and wicks -/

@[simp] theorem sheds_nakCapture (d : List Word) (cause byte : Nat) : (nakCapture d cause byte).Sheds s :=
  sheds_ask fun _ => by simp
@[simp] theorem sheds_nakDesc (c cause byte : Nat) : (nakDesc c cause byte).Sheds s := sheds_ask fun _ => by simp
@[simp] theorem sheds_busTry (k fuel : Nat) : (busTry k fuel).Sheds s := by
  induction fuel with
  | zero => trivial
  | succ fuel ih => exact sheds_ask fun _ => by simp [ih]
@[simp] theorem sheds_busRaise (k : Nat) : (busRaise k).Sheds s := sheds_ask fun _ => by simp
@[simp] theorem sheds_araEnd (k cause : Nat) (data : List Byte) : (araEnd k cause data).Sheds s := sheds_ask fun _ => by simp
@[simp] theorem sheds_alertFall (k : Nat) : (alertFall k).Sheds s := sheds_ask fun _ => by simp
@[simp] theorem sheds_alertRise (k : Nat) : (alertRise k).Sheds s := sheds_ask fun _ => by simp
@[simp] theorem sheds_padTo (w : Nat) (level : Bool) : (padTo w level).Sheds s := sheds_ask fun _ => by simp
@[simp] theorem sheds_padDrive (w : Nat) : (padDrive w).Sheds s := sheds_ask fun _ => by simp
@[simp] theorem sheds_wckCfgWrite (v : Word) : (wckCfgWrite v).Sheds s := sheds_ask fun _ => by simp
@[simp] theorem sheds_wickJudge (w : Nat) : (wickJudge w).Sheds s := sheds_ask fun _ =>
  (sheds_forEach _ _).2 fun _ _ => sheds_ask fun _ => by split <;> simp
@[simp] theorem sheds_parkEndAct (w : Nat) : (parkEndAct w).Sheds s := sheds_ask fun _ => by simp

end

end Sys2Proof.Machine
end

section
/-!
SUPPORT. Meanings that only shed lines: peers, resets, boot, power and the paths, as in the sections above.
-/

namespace Sys2Proof.Machine

-- The many short proofs are checked one after another, for each would else hold a thread of its own.
set_option Elab.async false

section
variable {s : State}

/-! ### Peers -/

@[simp] theorem sheds_modPeer (p : Nat) (f : Peer → Peer) : (modPeer p f).Sheds s := by simp [modPeer]
@[simp] theorem sheds_forgetSeen (port : Nat) : (forgetSeen port).Sheds s := by simp [forgetSeen]
@[simp] theorem sheds_headCheck : headCheck.Sheds s := sheds_ask fun _ => by simp
@[simp] theorem sheds_conflictCheck : conflictCheck.Sheds s := sheds_ask fun _ => by simp
@[simp] theorem sheds_fenRetell : fenRetell.Sheds s := sheds_ask fun _ => by simp
@[simp] theorem sheds_mirrorClear (p : Nat) : (mirrorClear p).Sheds s := sheds_ask fun _ => by simp
@[simp] theorem sheds_peerFault (c status : Nat) (wr : Bool) : (peerFault c status wr).Sheds s := sheds_ask fun _ => by simp
@[simp] theorem sheds_outGone (o : ZOut) : (outGone o).Sheds s := by simp [outGone]
@[simp] theorem sheds_channelTold (c : Nat) (ph : Phase) (status : Nat) : (channelTold c ph status).Sheds s :=
  sheds_ask fun _ => by simp
@[simp] theorem sheds_outLost (o : ZOut) : (outLost o).Sheds s := ⟨by simp, by split <;> simp⟩
@[simp] theorem sheds_losePeer (p : Nat) : (losePeer p).Sheds s := by simp [losePeer]
@[simp] theorem sheds_linkDown (port : Nat) : (linkDown port).Sheds s := sheds_ask fun _ =>
  (sheds_when _ _).2 fun _ => ⟨by simp, by simp, by simp, by simp,
    sheds_ask fun _ => (sheds_forEach _ _).2 fun _ _ => by split <;> simp, by simp⟩
@[simp] theorem sheds_zBad : zBad.Sheds s := by simp [zBad]
@[simp] theorem sheds_zTaken (port : Nat) : (zTaken port).Sheds s := by simp [zTaken]
@[simp] theorem sheds_idClash (port : Nat) : (idClash port).Sheds s := by simp [idClash]
@[simp] theorem sheds_zPass (h : ZHdr) (urgent : Bool) (typ : Nat) (body : List Byte) : (zPass h urgent typ body).Sheds s := by
  simp [zPass]
@[simp] theorem sheds_zRecv (h : ZHdr) {act : Act} (hact : act.Sheds s) : (zRecv h act).Sheds s :=
  sheds_ask fun _ => by simp [hact]
@[simp] theorem sheds_zDeliver (h : ZHdr) (typ : Nat) (body : List Byte) {act : Act} (hact : act.Sheds s) :
    (zDeliver h typ body act).Sheds s := by simp [zDeliver, hact]
@[simp] theorem sheds_zOnce (h : ZHdr) {act : Act} (hact : act.Sheds s) : (zOnce h act).Sheds s := sheds_ask fun _ => by
  split <;> simp [hact]
@[simp] theorem sheds_sendHello (port : Nat) : (sendHello port).Sheds s := sheds_ask fun _ => by simp
@[simp] theorem sheds_peerSeen (h : ZHdr) (master cand : Bool) : (peerSeen h master cand).Sheds s := sheds_ask fun _ => by simp
@[simp] theorem sheds_helloRecv (h : ZHdr) (master cand : Bool) (mask : Nat) : (helloRecv h master cand mask).Sheds s :=
  sheds_ask fun _ => by simp
@[simp] theorem sheds_portTrainAct (port : Nat) : (portTrainAct port).Sheds s := sheds_ask fun _ => by simp
@[simp] theorem sheds_lockLossAct (port : Nat) : (lockLossAct port).Sheds s := sheds_ask fun _ => by simp
@[simp] theorem sheds_zAckAct (port lseq : Nat) : (zAckAct port lseq).Sheds s := sheds_ask fun _ => by simp
@[simp] theorem sheds_resendAct (port : Nat) : (resendAct port).Sheds s := sheds_ask fun _ => by simp
@[simp] theorem sheds_helloTimerAct : helloTimerAct.Sheds s := sheds_ask fun _ => by simp
@[simp] theorem sheds_peerLostAct (p : Nat) : (peerLostAct p).Sheds s := sheds_ask fun _ => by simp
@[simp] theorem sheds_pingAct (port : Nat) (received : Bool) (turn8 : Nat) : (pingAct port received turn8).Sheds s :=
  sheds_ask fun _ => by simp
@[simp] theorem sheds_pongAct (port trip8 turn8 : Nat) : (pongAct port trip8 turn8).Sheds s := sheds_ask fun _ => by simp
@[simp] theorem sheds_markSendAct : markSendAct.Sheds s := sheds_ask fun _ => by simp
@[simp] theorem sheds_markRecv (h : ZHdr) (wt : WTime) (corr8 : Nat) : (markRecv h wt corr8).Sheds s :=
  sheds_ask fun _ => by simp
@[simp] theorem sheds_zRefuse (h : ZHdr) : (zRefuse h).Sheds s := by simp [zRefuse]
@[simp] theorem sheds_zStall_perform (k : ZStall) (n : Nat) : (ZStall.perform k n).Sheds s := by simp [ZStall.perform]
@[simp] theorem sheds_zStall_answer (k : ZStall) : (ZStall.answer k).Sheds s := by simp [ZStall.answer]
@[simp] theorem sheds_zStall_go (k : ZStall) : (ZStall.go k).Sheds s := sheds_ask fun _ => by split <;> simp
@[simp] theorem sheds_zServe (h : ZHdr) (m : ZMem) (wr : Bool) (data : List Byte) : (zServe h m wr data).Sheds s := by
  simp [zServe]
@[simp] theorem sheds_zStallWake (clk : Nat) : (zStallWake clk).Sheds s := sheds_ask fun _ => by simp
@[simp] theorem sheds_zStallTimeout : zStallTimeout.Sheds s := sheds_ask fun _ => by simp
@[simp] theorem sheds_memRdRecv (h : ZHdr) (m : ZMem) : (memRdRecv h m).Sheds s := by simp [memRdRecv]
@[simp] theorem sheds_memWrRecv (h : ZHdr) (m : ZMem) (data : List Byte) : (memWrRecv h m data).Sheds s := by simp [memWrRecv]
@[simp] theorem sheds_rspTimeoutAct (opId : Nat) : (rspTimeoutAct opId).Sheds s := sheds_ask fun _ =>
  (sheds_when _ _).2 fun _ => (sheds_forSome _ _).2 fun _ _ => by dsimp only; split <;> simp
@[simp] theorem sheds_fenAnswer (h : ZHdr) (idx status : Nat) : (fenAnswer h idx status).Sheds s := sheds_ask fun _ => by simp
@[simp] theorem sheds_fenOpAt (h : ZHdr) (idx : Nat) (op : FenOp) : (fenOpAt h idx op).Sheds s := sheds_ask fun _ => by
  cases op with
  | imp nonce => dsimp only; split <;> simp
  | _ => simp
@[simp] theorem sheds_fenOpRecv (h : ZHdr) (idx : Nat) (op : FenOp) : (fenOpRecv h idx op).Sheds s := by simp [fenOpRecv]
@[simp] theorem sheds_fenUpdRecv (h : ZHdr) (idx : Nat) (v : DWord) (dead : Bool) : (fenUpdRecv h idx v dead).Sheds s := by
  simp [fenUpdRecv]
@[simp] theorem sheds_importDone (p : Path) (n tok : Nat) (v : DWord) : (importDone p n tok v).Sheds s := sheds_ask fun _ => by
  dsimp only
  split
  · simp
  · refine (sheds_ite _ _ _).2 ⟨by simp, fun _ => ?_⟩
    split <;> simp
@[simp] theorem sheds_fenRspRecv (h : ZHdr) (status : Nat) (v : DWord) : (fenRspRecv h status v).Sheds s :=
  sheds_zDeliver _ _ _ (sheds_ask fun _ => (sheds_forSome _ _).2 fun _ _ => by
    split
    · simp
    · exact ⟨by simp, by split <;> simp⟩
    · simp
    · simp
    · trivial)
@[simp] theorem sheds_chrAnswer (h : ZHdr) (n : Nat) : (chrAnswer h n).Sheds s := sheds_ask fun _ => by simp
@[simp] theorem sheds_chrOpAt (h : ZHdr) (n mid tag : Nat) (i : WTime) (op : ChrOp) : (chrOpAt h n mid tag i op).Sheds s :=
  sheds_ask fun _ => by split <;> simp
@[simp] theorem sheds_chrOpRecv (h : ZHdr) (n mid tag : Nat) (i : WTime) (op : ChrOp) : (chrOpRecv h n mid tag i op).Sheds s := by
  simp [chrOpRecv]
@[simp] theorem sheds_mirrorSet (src n : Nat) (w : Word) : (mirrorSet src n w).Sheds s := sheds_ask fun _ =>
  (sheds_when _ _).2 fun _ => ⟨by simp, sheds_ask fun _ =>
    ⟨by simp, (sheds_forEach _ _).2 fun _ _ => by split <;> simp⟩, by simp⟩
@[simp] theorem sheds_chrRspRecv (h : ZHdr) (n : Nat) (w : Word) : (chrRspRecv h n w).Sheds s :=
  sheds_zDeliver _ _ _ (sheds_ask fun _ => ⟨by simp, (sheds_forSome _ _).2 fun _ _ => by split <;> simp⟩)
@[simp] theorem sheds_chrUpdRecv (h : ZHdr) (n : Nat) (w : Word) : (chrUpdRecv h n w).Sheds s := by simp [chrUpdRecv]
@[simp] theorem sheds_errRecv (h : ZHdr) (entry : List Byte) : (errRecv h entry).Sheds s := by simp [errRecv]
@[simp] theorem sheds_badPacketAct (port : Nat) (b : BadPacket) : (badPacketAct port b).Sheds s :=
  sheds_ask fun _ => by split <;> simp

/-! ### The remaining registers, and flushes of idle buffers -/

@[simp] theorem sheds_cupPoolWrite (p : Path) (v : Word) : (cupPoolWrite p v).Sheds s := sheds_ask fun _ => by simp
@[simp] theorem sheds_errRdWrite (v : Word) : (errRdWrite v).Sheds s := sheds_ask fun _ => by simp
@[simp] theorem sheds_traceFreeze : traceFreeze.Sheds s := by simp [traceFreeze]
@[simp] theorem sheds_traceThaw : traceThaw.Sheds s := sheds_ask fun _ => by simp
@[simp] theorem sheds_trcCtlWrite (p : Path) (v : Word) : (trcCtlWrite p v).Sheds s := by simp [trcCtlWrite]
@[simp] theorem sheds_pelCtlWrite (p : Path) (v : Word) : (pelCtlWrite p v).Sheds s := by simp [pelCtlWrite]
@[simp] theorem sheds_tabCfgWrite (p : Path) (v : Word) : (tabCfgWrite p v).Sheds s := sheds_ask fun _ => by simp
@[simp] theorem sheds_trkWrite (p : Path) (v : Word) : (trkWrite p v).Sheds s := sheds_ask fun _ => by simp
@[simp] theorem sheds_arbCtlWrite (p : Path) (v : Word) : (arbCtlWrite p v).Sheds s := sheds_ask fun _ => by simp
@[simp] theorem sheds_limWrite (p : Path) (off : Nat) (v : Word) : (limWrite p off v).Sheds s := by simp [limWrite]
@[simp] theorem sheds_railWrite (p : Path) (v : Word) : (railWrite p v).Sheds s := sheds_ask fun _ => by simp
@[simp] theorem sheds_wckOutWrite (p : Path) (off : Nat) (v : Word) : (wckOutWrite p off v).Sheds s := by simp [wckOutWrite]
@[simp] theorem sheds_wcbIdleAct (e : Nat) : (wcbIdleAct e).Sheds s := sheds_ask fun _ => by split <;> simp

/-! ### Resets -/

@[simp] theorem sheds_resetRegs (kind : Nat) : (resetRegs kind).Sheds s := sheds_ask fun _ => by simp
@[simp] theorem sheds_resetTables (kind : Nat) : (resetTables kind).Sheds s := by simp [resetTables]
@[simp] theorem sheds_resetBlocks (kind : Nat) : (resetBlocks kind).Sheds s := sheds_ask fun _ => by simp
@[simp] theorem sheds_resetPaths (kind : Nat) : (resetPaths kind).Sheds s := by simp [resetPaths]
@[simp] theorem sheds_resetGo (kind : Nat) (straps : Option Straps) : (resetGo kind straps).Sheds s := by simp [resetGo]
@[simp] theorem sheds_coldAct (x : Straps) : (coldAct x).Sheds s := by simp [coldAct]
@[simp] theorem sheds_supplyTripAct : supplyTripAct.Sheds s := sheds_ask fun _ => by simp
@[simp] theorem sheds_warmAct (lowNs : Nat) (x : Straps) : (warmAct lowNs x).Sheds s := sheds_ask fun _ => by simp

/-! ### Boot -/

@[simp] theorem sheds_bootFail (e : BootErr) : (bootFail e).Sheds s := sheds_ask fun _ => by simp
@[simp] theorem sheds_spiDone (bs : List Byte) {k : Act} (hk : k.Sheds s) : (spiDone bs k).Sheds s :=
  sheds_ask fun _ => by simp [hk]
@[simp] theorem sheds_headerAct (bs : List Byte) : (headerAct bs).Sheds s := sheds_ask fun _ => by simp
@[simp] theorem sheds_bodyAct (bs : List Byte) : (bodyAct bs).Sheds s := sheds_ask fun _ => by simp
@[simp] theorem sheds_bootGo : bootGo.Sheds s := sheds_ask fun _ => by simp
@[simp] theorem sheds_bootStage (a : Nat) (bs : List Byte) (shade : Nat) : (bootStage a bs shade).Sheds s := by simp [bootStage]
@[simp] theorem sheds_bootChans (i base : Nat) (l : List (Nat × Nat × Nat × Nat)) : (bootChans i base l).Sheds s := by
  induction l generalizing i base with
  | nil => trivial
  | cons x l ih => exact ⟨sheds_ask fun _ => by simp, ih _ _⟩
@[simp] theorem sheds_bootRegion (i lim att : Nat) : (bootRegion i lim att).Sheds s := sheds_ask fun _ => by simp
@[simp] theorem sheds_applyDoneAct : applyDoneAct.Sheds s := sheds_ask fun _ =>
  (sheds_when _ _).2 fun _ => ⟨sheds_internalWrite _ _ _, by simp⟩
@[simp] theorem sheds_bootRetryAct : bootRetryAct.Sheds s := sheds_ask fun _ => by simp
@[simp] theorem sheds_otpCtlWrite (p : Path) (v : Word) : (otpCtlWrite p v).Sheds s := sheds_ask fun _ => by simp
@[simp] theorem sheds_burnDoneAct : burnDoneAct.Sheds s := sheds_ask fun _ => by simp
@[simp] theorem sheds_otpDataWrite (v : Word) : (otpDataWrite v).Sheds s := sheds_ask fun _ => by simp
@[simp] theorem sheds_bootCtlWrite (p : Path) (v : Word) : (bootCtlWrite p v).Sheds s := by simp [bootCtlWrite]

/-! ### Power -/

@[simp] theorem sheds_keyBad : keyBad.Sheds s := by simp [keyBad]
@[simp] theorem sheds_resetAccepted : resetAccepted.Sheds s := by simp [resetAccepted]
@[simp] theorem sheds_resetKeyWrite (p : Path) (v : Word) : (resetKeyWrite p v).Sheds s := sheds_ask fun _ => by simp
@[simp] theorem sheds_cycKeyWrite (p : Path) (v : Word) : (cycKeyWrite p v).Sheds s := sheds_ask fun _ => by simp
@[simp] theorem sheds_quiesceLanes : quiesceLanes.Sheds s := by simp [quiesceLanes]
@[simp] theorem sheds_deviceResetAct : deviceResetAct.Sheds s := sheds_ask fun _ => by simp
@[simp] theorem sheds_pwrcycReqAct : pwrcycReqAct.Sheds s := sheds_ask fun _ => by simp
@[simp] theorem sheds_standbyEnd : standbyEnd.Sheds s := by simp [standbyEnd]
@[simp] theorem sheds_standbyEnteredAct : standbyEnteredAct.Sheds s := sheds_ask fun _ => by simp
@[simp] theorem sheds_pfLoad : pfLoad.Sheds s := sheds_ask fun _ => by simp
@[simp] theorem sheds_pfRecognise : pfRecognise.Sheds s := sheds_ask fun _ => by simp
@[simp] theorem sheds_pfStop : pfStop.Sheds s := sheds_ask fun _ => by simp
@[simp] theorem sheds_pwrfailAct : pwrfailAct.Sheds s := sheds_ask fun _ => by simp
@[simp] theorem sheds_pfFinal (drained : Bool) : (pfFinal drained).Sheds s := sheds_ask fun _ => by simp
@[simp] theorem sheds_pfDrained : pfDrained.Sheds s := sheds_ask fun _ => by simp
@[simp] theorem sheds_pwrfailDrainedAct : pwrfailDrainedAct.Sheds s := sheds_ask fun _ => by simp
@[simp] theorem sheds_drainMarkAct : drainMarkAct.Sheds s := sheds_ask fun _ => by simp
@[simp] theorem sheds_clockFailureAct : clockFailureAct.Sheds s := sheds_ask fun _ => by simp

/-! ### Frames and reads over the paths -/

@[simp] theorem sheds_stopWrite (p : Path) (v : Word) : (stopWrite p v).Sheds s := by simp [stopWrite]
@[simp] theorem sheds_mailBody (p : Path) (op : Nat) (a : Nat → Nat) : (mailBody p op a).Sheds s := by
  unfold mailBody
  split <;> simp
@[simp] theorem sheds_cmdOpWrite (p : Path) (v : Word) : (cmdOpWrite p v).Sheds s := by simp [cmdOpWrite]
@[simp] theorem sheds_mailNext (p : Path) : (mailNext p).Sheds s := sheds_ask fun _ => by simp
@[simp] theorem sheds_sitWrite (p : Path) (n : Nat) (v : Word) : (sitWrite p n v).Sheds s := by simp [sitWrite]
@[simp] theorem sheds_msixWrite (a : Nat) (v : Word) : (msixWrite a v).Sheds s := sheds_ask fun _ => by simp
@[simp] theorem sheds_scpReply (b : Nat) : (scpReply b).Sheds s := by simp [scpReply]
@[simp] theorem sheds_scpLead (n : Nat) : (scpLead n).Sheds s := by simp [scpLead]
@[simp] theorem sheds_scpCrcErr : scpCrcErr.Sheds s := by simp [scpCrcErr]
@[simp] theorem sheds_scpFrameErr : scpFrameErr.Sheds s := by simp [scpFrameErr]
@[simp] theorem sheds_scpCut : scpCut.Sheds s := by simp [scpCut]
@[simp] theorem sheds_scpWithdraw : scpWithdraw.Sheds s := by simp [scpWithdraw]
@[simp] theorem sheds_winTimeout (p : Path) : (winTimeout p).Sheds s := sheds_ask fun _ => by split <;> simp
@[simp] theorem sheds_barRead (r : ReadReq) : (barRead r).Sheds s := sheds_ask fun _ => by simp

end

end Sys2Proof.Machine
end

section
/-!
SUPPORT. A write by an engine (R290, R291): the other engines give the line up before it enters the engine's buffer, so that no
line comes to stand in two buffers.
-/

namespace Sys2Proof.Machine

section
variable {s t : State} {e : Nat} {p : Nat × Nat}

/-! ### One holder, engine by engine -/

theorem oneHolder_iff : s.oneHolder ↔ (∀ e < 4, (s.engine e).places.Nodup) ∧
    ∀ e < 4, ∀ f < 4, e ≠ f → (s.engine e).places.Disjoint (s.engine f).places := by
  have hpairs : (List.range 4).Pairwise (Function.onFun List.Disjoint fun e => (s.engine e).places) ↔
      ∀ e < 4, ∀ f < 4, e ≠ f → (s.engine e).places.Disjoint (s.engine f).places := by
    constructor
    · intro h e he f hf hne
      have : Std.Symm (Function.onFun List.Disjoint fun e => (s.engine e).places) := ⟨fun _ _ hd => hd.symm⟩
      exact h.forall (List.mem_range.2 he) (List.mem_range.2 hf) hne
    · exact fun h => List.nodup_range.pairwise_of_forall_ne fun e he f hf => h e (List.mem_range.1 he) f (List.mem_range.1 hf)
  rw [State.oneHolder, dirtyLines_eq, List.nodup_flatMap, hpairs]
  simp only [List.mem_range]

/-- No engine but `e` buffers the line. -/
def State.freeButFor (s : State) (e : Nat) (p : Nat × Nat) : Prop := ∀ f < 4, f ≠ e → p ∉ (s.engine f).places

theorem Shed.freeButFor (h : Shed s t) (hs : s.freeButFor e p) : t.freeButFor e p := fun f hf hne hp =>
  hs f hf hne ((h f).subset hp)

theorem not_mem_places_of_line_none {x : Engine} {space line : Nat} (h : x.line space line = none) :
    (space, line) ∉ x.places := by
  intro hmem
  obtain ⟨l, hl, hplace⟩ := List.mem_map.1 hmem
  have hne := List.find?_eq_none.1 h l hl
  simp only [WLine.place, Prod.mk.injEq] at hplace
  simp [hplace] at hne

/-- A line enters the one buffer that may hold it. -/
theorem oneHolder_modEngine (hw : s.wf = true) (hs : s.oneHolder) (hfree : s.freeButFor e p) {f : Engine → Engine}
    (hf : ∀ x, (f x).places = x.places.filter (· != p) ++ [p]) : ((modEngine e f).run s).oneHolder := by
  obtain ⟨hnodup, hdisj⟩ := oneHolder_iff.1 hs
  have heng : ∀ g, (((modEngine e f).run s).engine g).places =
      if g = e then (s.engine e).places.filter (· != p) ++ [p] else (s.engine g).places := fun g => by
    rw [engine_modEngine hw]
    split
    · exact hf _
    · rfl
  have hother : ∀ g < 4, g ≠ e → e < 4 →
      ((s.engine e).places.filter (· != p) ++ [p]).Disjoint (s.engine g).places := fun g hg hne he => by
    rw [List.disjoint_append_left, List.singleton_disjoint]
    exact ⟨List.disjoint_of_subset_left (List.filter_subset_self _) (hdisj e he g hg (Ne.symm hne)), hfree g hg hne⟩
  refine oneHolder_iff.2 ⟨fun g hg => ?_, fun g hg k hk hne => ?_⟩
  · rw [heng]
    split
    · next h =>
      refine List.nodup_append'.2 ⟨(hnodup e (h ▸ hg)).filter _, List.nodup_singleton _, ?_⟩
      simp
    · exact hnodup g hg
  · rw [heng, heng]
    split
    · next h => rw [if_neg fun hke => hne (h.trans hke.symm)]; exact hother k hk (fun hke => hne (h.trans hke.symm)) (h ▸ hg)
    · next h =>
      split
      · next h' => exact (hother g hg h (h' ▸ hk)).symm
      · exact hdisj g hg k hk hne

/-! ### A write into a buffer -/

theorem wline_place {space a : Nat} {l : WLine} (h : s.wline e space a = some l) : l.place = (space, a / 64) := by
  have hl := List.find?_some h
  simp only [Bool.and_eq_true, beq_iff_eq] at hl
  simp [WLine.place, hl]

/-- Bytes written into a buffered line leave it the line it is of. -/
theorem place_foldl_bytes (a : Nat) (l : List (Byte × Nat)) (x : WLine) :
    (l.foldl (fun (acc : WLine) p =>
      { acc with mask := setBit acc.mask (a % 64 + p.2), bytes := acc.bytes.set (a % 64 + p.2) p.1 }) x).place = x.place := by
  induction l generalizing x with
  | nil => rfl
  | cons b rest ih => exact (ih _).trans rfl

theorem places_replaced (wcb : List WLine) {put : WLine} {space line : Nat} (hput : put.place = (space, line)) :
    (wcb.filter (fun y => !(y.space == space && y.line == line)) ++ [put]).map WLine.place =
      (wcb.map WLine.place).filter (· != (space, line)) ++ [(space, line)] := by
  rw [List.map_append, List.filter_map, List.map_singleton, hput]
  rfl

theorem wcbPut_oneHolder {space a : Nat} (hw : s.wf = true) (hs : s.oneHolder) (hfree : s.freeButFor e (space, a / 64))
    (bs : List Byte) : ((wcbPut e space a bs).run s).oneHolder := by
  have hroom : (Act.ask fun s => when_ (s.wline e space a).isNone (wcbRoom e)).Sheds s := by simp
  have hflush : ∀ t, (Act.ask fun s => forSome (s.wline e space a) fun l =>
      when_ (l.mask == 2 ^ 64 - 1) (flushLine e l)).Sheds t := fun t => by simp
  have hwu := Act.run_wf (Act.ask fun s => when_ (s.wline e space a).isNone (wcbRoom e)) s hw
  have hshed := hroom.shed hw
  simp only [wcbPut, run_acts_cons, run_acts_nil]
  generalize (Act.ask fun s => when_ (s.wline e space a).isNone (wcbRoom e)).run s = u at hwu hshed
  refine ((hflush _).shed (Act.run_wf _ u hwu)).oneHolder ?_
  rw [run_ask]
  refine oneHolder_modEngine hwu (hshed.oneHolder hs) (hshed.freeButFor hfree) fun x => ?_
  refine places_replaced x.wcb ?_
  rw [place_foldl_bytes]
  cases hl : u.wline e space a with
  | none => rfl
  | some l =>
    have hplace := wline_place hl
    exact hplace

theorem touchWriteLine_freeButFor (hw : s.wf = true) (hs : s.oneHolder) (q : FReq) (space line : Nat) :
    ((touchWriteLine q (some e) space line).run s).freeButFor e (space, line) := by
  have hothers : ∀ f ∈ othersOf (some e), f < 4 := fun f hf => List.mem_range.1 (List.mem_filter.1 hf).1
  obtain ⟨_, hnone⟩ := recallLines_thinned q space line (othersOf (some e)) hw hothers (linesOnce_of_oneHolder hs)
  exact fun f hf hne => not_mem_places_of_line_none
    (hnone f (List.mem_filter.2 ⟨List.mem_range.2 hf, by simpa using hne⟩))

end

/-! ### The meanings that keep one holder -/

/-- From a well-formed state with one holder for each line, the meaning ends in such a state. -/
def Act.KeepsOne (a : Act) : Prop := ∀ s, s.wf = true → s.oneHolder → (a.run s).oneHolder

section
variable {α : Type} {a b : Act}

@[simp] theorem keepsOne_of_sheds (h : ∀ s, a.Sheds s) : a.KeepsOne := fun s hw hs => ((h s).shed hw).oneHolder hs
theorem keepsOne_seq (ha : a.KeepsOne) (hb : b.KeepsOne) : (Act.seq a b).KeepsOne := fun s hw hs =>
  hb _ (Act.run_wf a s hw) (ha s hw hs)
theorem keepsOne_ask {k : State → Act} (h : ∀ s, (k s).KeepsOne) : (Act.ask k).KeepsOne := fun s => h s s
@[simp] theorem keepsOne_when (c : Bool) (a : Act) : (when_ c a).KeepsOne ↔ (c = true → a.KeepsOne) := by
  cases c <;> simp [when_]
@[simp] theorem keepsOne_ite (c : Prop) [Decidable c] (a b : Act) :
    (if c then a else b).KeepsOne ↔ (c → a.KeepsOne) ∧ (¬c → b.KeepsOne) := by split <;> simp_all
@[simp] theorem keepsOne_forSome (o : Option α) (f : α → Act) : (forSome o f).KeepsOne ↔ ∀ x, o = some x → (f x).KeepsOne := by
  cases o <;> simp [forSome]
theorem keepsOne_acts {l : List Act} (h : ∀ a ∈ l, a.KeepsOne) : (acts l).KeepsOne := by
  induction l with
  | nil => simp
  | cons a l ih =>
    obtain ⟨ha, hl⟩ := List.forall_mem_cons.1 h
    exact fun s hw hs => by rw [run_acts_cons]; exact ih hl _ (Act.run_wf a s hw) (ha s hw hs)
theorem keepsOne_forEach {l : List α} {f : α → Act} (h : ∀ x ∈ l, (f x).KeepsOne) : (forEach l f).KeepsOne :=
  keepsOne_acts fun _ ha => by
    obtain ⟨x, hx, rfl⟩ := List.mem_map.1 ha
    exact h x hx

end

/-- A write by an engine keeps one holder: the line is free but for the engine when it enters its buffer. -/
@[simp] theorem keepsOne_engineWrite (q : FReq) (e space a : Nat) (bs : List Byte) : (engineWrite q e space a bs).KeepsOne :=
  keepsOne_forEach fun p _ => (keepsOne_when _ _).2 fun _ s hw hs => by
    have htouch : (touchWriteLine q (some e) space (p.1 / 64)).Sheds s := by simp
    simp only [run_acts_cons, run_acts_nil]
    exact wcbPut_oneHolder (Act.run_wf _ s hw) ((htouch.shed hw).oneHolder hs) (touchWriteLine_freeButFor hw hs q _ _) p.2

end Sys2Proof.Machine
end

section
/-!
SUPPORT. The meanings that reach a write by an engine, and the commands: each keeps one holder for a line.
-/

namespace Sys2Proof.Machine

-- The many short proofs are checked one after another, for each would else hold a thread of its own.
set_option Elab.async false

section
variable {body act : Act}

/-! ### The frames of rows -/

@[simp] theorem keepsOne_raised (h : act.KeepsOne) : (raised act).KeepsOne := keepsOne_ask fun _ => keepsOne_acts (by simp [h])
@[simp] theorem keepsOne_underGrant (c : Nat) (h : body.KeepsOne) : (underGrant c body).KeepsOne := keepsOne_ask fun _ =>
  (keepsOne_ite _ _ _).2 ⟨fun _ => h, fun _ => (keepsOne_when _ _).2 fun _ => keepsOne_seq (by simp) h⟩
@[simp] theorem keepsOne_opRow (c op : Nat) (h : body.KeepsOne) : (opRow c op body).KeepsOne := by
  refine keepsOne_seq (by simp) (keepsOne_ask fun _ => (keepsOne_when _ _).2 fun _ => keepsOne_underGrant c ?_)
  refine keepsOne_seq (keepsOne_of_sheds fun _ => sheds_ask fun _ => ?_) (keepsOne_seq (by simp) (keepsOne_ask fun _ => ?_))
  · dsimp only
    split <;> simp
  · split
    · exact (keepsOne_when _ _).2 fun _ => keepsOne_acts (by simp [h])
    · simp
@[simp] theorem keepsOne_descRow (c op : Nat) (h : body.KeepsOne) : (descRow c op body).KeepsOne :=
  keepsOne_ask fun _ => by simp [h]
@[simp] theorem keepsOne_pathWrite (p : Path) (off : Nat) (v : Word) (h : act.KeepsOne) : (pathWrite p off v act).KeepsOne :=
  keepsOne_ask fun _ => by simp [h]
@[simp] theorem keepsOne_zDeliver (h : ZHdr) (typ : Nat) (b : List Byte) (hact : act.KeepsOne) :
    (zDeliver h typ b act).KeepsOne := by
  have hhere : (Act.ask fun s => if h.dst == s.self then act else zPass h false typ b).KeepsOne :=
    keepsOne_ask fun _ => by simp [hact]
  refine keepsOne_ask fun _ => (keepsOne_when _ _).2 fun _ => (keepsOne_ite _ _ _).2 ⟨by simp, fun _ => ?_⟩
  exact keepsOne_seq (by simp) ((keepsOne_ite _ _ _).2 ⟨by simp, fun _ => hhere⟩)

end

/-! ### Moves -/

@[simp] theorem keepsOne_writePiece (c : Nat) (d : Cur) (full n : Nat) (bs : List Byte) : (writePiece c d full n bs).KeepsOne :=
  keepsOne_ask fun _ => by
    refine (keepsOne_ite _ _ _).2 ⟨by simp, fun _ => (keepsOne_ite _ _ _).2 ⟨fun _ => ?_, fun _ => ?_⟩⟩
    · split <;> simp
    · split
      · exact keepsOne_acts (by simp)
      all_goals simp
theorem keepsOne_withFree (c : Nat) (d : List Word) (off : Nat) (bs : List Byte) {k : List Byte → Act} (h : ∀ x, (k x).KeepsOne) :
    (withFree c d off bs k).KeepsOne := by
  refine (keepsOne_ite _ _ _).2 ⟨fun _ => h _, fun _ => keepsOne_ask fun _ => ?_⟩
  exact keepsOne_seq (by simp) (keepsOne_seq (by simp) (h _))
@[simp] theorem keepsOne_move (c fuel : Nat) : (move c fuel).KeepsOne := by
  induction fuel with
  | zero => simp [move]
  | succ fuel ih =>
    refine keepsOne_ask fun _ => ?_
    split
    · simp
    · refine (keepsOne_ite _ _ _).2 ⟨by simp, fun _ => ?_⟩
      dsimp only
      split
      · refine keepsOne_seq ?_ (keepsOne_seq (keepsOne_ask fun _ => ?_) ih)
        · exact keepsOne_withFree _ _ _ _ fun _ => keepsOne_writePiece _ _ _ _ _
        · split <;> simp
      · refine (keepsOne_ite _ _ _).2 ⟨by simp, fun _ => (keepsOne_ite _ _ _).2 ⟨by simp, fun _ => ?_⟩⟩
        exact keepsOne_underGrant c (keepsOne_seq (by simp) ih)
@[simp] theorem keepsOne_moveOn (c : Nat) : (moveOn c).KeepsOne := keepsOne_ask fun _ => by split <;> simp
@[simp] theorem keepsOne_moveRow (c op bursts : Nat) : (moveRow c op bursts).KeepsOne := keepsOne_ask fun _ =>
  (keepsOne_when _ _).2 fun _ => keepsOne_opRow c op (keepsOne_acts (by simp))
@[simp] theorem keepsOne_loopBody (c : Nat) : (loopBody c).KeepsOne := keepsOne_ask fun _ =>
  (keepsOne_forSome _ _).2 fun _ _ => keepsOne_acts (by simp)

/-! ### Results of an ALLOC -/

@[simp] theorem keepsOne_putResult (c fuel : Nat) : (putResult c fuel).KeepsOne := by
  induction fuel with
  | zero => simp [putResult]
  | succ fuel ih =>
    refine keepsOne_ask fun _ => ?_
    split
    · simp
    · refine (keepsOne_ite _ _ _).2 ⟨by simp, fun _ => ?_⟩
      split
      · simp
      · exact keepsOne_acts (by simp [ih])
@[simp] theorem keepsOne_resultOn (c : Nat) : (resultOn c).KeepsOne := keepsOne_ask fun _ =>
  (keepsOne_forSome _ _).2 fun _ _ => (keepsOne_when _ _).2 fun _ => keepsOne_acts (by simp)
theorem keepsOne_allocMake (ctx : Nat) (d : List Word) (o : AllocOut) {k : Nat → Nat → Nat → Act}
    (h : ∀ x y z, (k x y z).KeepsOne) : (allocMake ctx d o k).KeepsOne := by
  cases o with
  | user obj e ps => exact keepsOne_acts (by simp [h])
  | priv obj g n => exact keepsOne_acts (by simp [h])
  | _ => exact keepsOne_of_sheds fun _ => trivial
@[simp] theorem keepsOne_allocEnd (o : CupOp) : (allocEnd o).KeepsOne := keepsOne_ask fun _ => by
  dsimp only
  split
  · simp
  · simp
  · refine keepsOne_allocMake _ _ _ fun _ _ _ => (keepsOne_ite _ _ _).2 ⟨by simp, fun _ => keepsOne_ask fun _ => ?_⟩
    exact (keepsOne_when _ _).2 fun _ => keepsOne_acts (by simp)
@[simp] theorem keepsOne_cupEndAct : cupEndAct.KeepsOne := keepsOne_ask fun _ =>
  (keepsOne_forSome _ _).2 fun _ _ => keepsOne_acts (by simp)
@[simp] theorem keepsOne_allocBody (c : Nat) : (allocBody c).KeepsOne := keepsOne_ask fun _ => by simp

/-! ### Completion records, and channels that go on -/

@[simp] theorem keepsOne_recordAct (q : Nat) : (recordAct q).KeepsOne := keepsOne_ask fun _ => by
  split
  · simp
  · refine (keepsOne_when _ _).2 fun _ => (keepsOne_ite _ _ _).2 ⟨fun _ => keepsOne_acts (by simp), fun _ => ?_⟩
    split <;> simp
@[simp] theorem keepsOne_chanResume (c : Nat) : (chanResume c).KeepsOne := by
  refine keepsOne_seq (by simp) (keepsOne_ask fun _ => ?_)
  split
  · refine (keepsOne_ite _ _ _).2 ⟨by simp, fun _ => (keepsOne_when _ _).2 fun _ => (keepsOne_ite _ _ _).2 ⟨fun _ => ?_, by simp⟩⟩
    exact keepsOne_acts (by simp)
  · simp
@[simp] theorem keepsOne_walkEnd (w : Who) : (walkEnd w).KeepsOne := by cases w <;> simp [walkEnd]
@[simp] theorem keepsOne_readEnd (r : HRead) (bs : List Byte) : (readEnd r bs).KeepsOne := keepsOne_ask fun _ => by
  split
  · dsimp only
    split
    · simp
    · exact keepsOne_acts (by simp)
    · simp
  · exact keepsOne_acts (by simp)
  · simp
  · simp
@[simp] theorem keepsOne_completionAct (tag status : Nat) (poison : Bool) (data : List Byte) :
    (completionAct tag status poison data).KeepsOne := keepsOne_ask fun _ => by
  refine (keepsOne_when _ _).2 fun _ => ?_
  split
  · simp
  · refine (keepsOne_ite _ _ _).2 ⟨by simp, fun _ => (keepsOne_ite _ _ _).2 ⟨by simp, fun _ => keepsOne_acts (by simp)⟩⟩
@[simp] theorem keepsOne_frStart (cause : Nat) : (frStart cause).KeepsOne := keepsOne_ask fun _ =>
  (keepsOne_ite _ _ _).2 ⟨by simp, fun _ => keepsOne_acts (by simp)⟩
@[simp] theorem keepsOne_stallCheck (c : Nat) : (stallCheck c).KeepsOne := keepsOne_ask fun _ => by
  refine (keepsOne_forSome _ _).2 fun _ _ => ?_
  dsimp only
  split
  · simp
  · simp
  · simp
  all_goals exact keepsOne_acts (by simp)
@[simp] theorem keepsOne_stallWake : stallWake.KeepsOne := keepsOne_ask fun _ => by
  refine (keepsOne_when _ _).2 fun _ => keepsOne_seq (by simp) (keepsOne_forEach fun _ _ => keepsOne_ask fun _ => ?_)
  simp
@[simp] theorem keepsOne_prtCtlWrite (p : Path) (v : Word) : (prtCtlWrite p v).KeepsOne :=
  keepsOne_seq (by simp) (keepsOne_ask fun _ => by simp)
@[simp] theorem keepsOne_protEnable (p : Path) (v : Word) : (protEnable p v).KeepsOne :=
  keepsOne_ask fun _ => keepsOne_acts (by simp)

/-! ### SAMPLE, PMB_XFER and answers of peers -/

@[simp] theorem keepsOne_sampleIndex (c : Nat) (d : Cur) : (sampleIndex c d).KeepsOne :=
  keepsOne_ask fun _ => keepsOne_acts (by simp)
@[simp] theorem keepsOne_sampleGo (c fuel : Nat) : (sampleGo c fuel).KeepsOne := by
  induction fuel with
  | zero => simp [sampleGo]
  | succ fuel ih =>
    have hnext : (acts [sampleNext c, sampleGo c fuel]).KeepsOne := keepsOne_acts (by simp [ih])
    refine keepsOne_ask fun _ => ?_
    split
    · simp
    · refine (keepsOne_ite _ _ _).2 ⟨by simp, fun _ => ?_⟩
      split
      · refine keepsOne_seq (by simp) (keepsOne_seq (keepsOne_ask fun _ => ?_) ih)
        split <;> simp
      · simp [hnext]
@[simp] theorem keepsOne_sampleBody (c : Nat) : (sampleBody c).KeepsOne := keepsOne_ask fun _ => by simp
@[simp] theorem keepsOne_sampleStale (c : Nat) : (sampleStale c).KeepsOne := keepsOne_ask fun _ =>
  (keepsOne_forSome _ _).2 fun _ _ => (keepsOne_when _ _).2 fun _ => keepsOne_acts (by simp)
@[simp] theorem keepsOne_busStore (c status fuel : Nat) : (busStore c status fuel).KeepsOne := by
  induction fuel with
  | zero => simp [busStore]
  | succ fuel ih =>
    refine keepsOne_ask fun _ => (keepsOne_forSome _ _).2 fun _ _ => ?_
    split
    · simp
    · dsimp only
      split
      · exact keepsOne_acts (by simp [ih])
      all_goals simp
@[simp] theorem keepsOne_pmbBody (c : Nat) : (pmbBody c).KeepsOne := keepsOne_ask fun _ => by
  refine (keepsOne_forSome _ _).2 fun _ _ => ?_
  split
  · exact keepsOne_acts (by simp)
  · simp
@[simp] theorem keepsOne_busEnd (c : Nat) (wire : List Byte) (cause byte : Nat) (data : List Byte) :
    (busEnd c wire cause byte data).KeepsOne := keepsOne_ask fun _ =>
  (keepsOne_forSome _ _).2 fun _ _ => keepsOne_acts (by simp)
@[simp] theorem keepsOne_transactionEnd (k cause : Nat) (clear : Bool) (byte : Nat) (data : List Byte) :
    (transactionEnd k cause clear byte data).KeepsOne := keepsOne_ask fun _ => by
  refine (keepsOne_when _ _).2 fun _ => (keepsOne_forSome _ _).2 fun u _ => keepsOne_raised ?_
  cases u <;> exact keepsOne_acts (by simp)
@[simp] theorem keepsOne_memRspRecv (h : ZHdr) (status : Nat) (data : List Byte) : (memRspRecv h status data).KeepsOne := by
  refine keepsOne_zDeliver _ _ _ (keepsOne_ask fun _ => (keepsOne_forSome _ _).2 fun _ _ => ?_)
  split
  · refine (keepsOne_ite _ _ _).2 ⟨by simp, fun _ => (keepsOne_forSome _ _).2 fun _ _ => ?_⟩
    exact (keepsOne_ite _ _ _).2 ⟨by simp, fun _ => keepsOne_acts (by simp)⟩
  · exact (keepsOne_ite _ _ _).2 ⟨by simp, fun _ => (keepsOne_forSome _ _).2 fun _ _ => keepsOne_acts (by simp)⟩
  · simp
  · simp

/-! ### Register writes -/

@[simp] theorem keepsOne_blockWrite (p : Path) (off : Nat) (v : Word) : (blockWrite p off v).KeepsOne := keepsOne_ask fun _ => by
  split <;> simp
@[simp] theorem keepsOne_bootWrite (off v : Nat) : (bootWrite off v).KeepsOne :=
  (keepsOne_ite _ _ _).2 ⟨fun _ => keepsOne_acts (by simp), fun _ =>
    (keepsOne_ite _ _ _).2 ⟨fun _ => keepsOne_acts (by simp), by simp⟩⟩
@[simp] theorem keepsOne_bootWrites (l : List (Nat × Nat)) : (bootWrites l).KeepsOne := keepsOne_forEach fun _ _ =>
  keepsOne_bootWrite _ _
@[simp] theorem keepsOne_applySect (x : Sect) : (applySect x).KeepsOne := by
  unfold applySect
  split
  · simp
  · refine keepsOne_seq (by simp) (keepsOne_seq (keepsOne_forEach fun _ _ => ?_) (keepsOne_bootWrite _ _))
    exact keepsOne_acts (by simp)
  · simp
  · exact keepsOne_seq (keepsOne_forEach fun _ _ => keepsOne_bootWrites _) (by simp)
  · simp
  · exact keepsOne_acts (by simp)
  · simp
  · simp
  · simp
@[simp] theorem keepsOne_checkDoneAct : checkDoneAct.KeepsOne := keepsOne_ask fun _ => by
  refine (keepsOne_when _ _).2 fun _ => (keepsOne_ite _ _ _).2 ⟨by simp, fun _ => ?_⟩
  split
  · simp
  · exact keepsOne_seq (by simp) (keepsOne_seq (by simp) (keepsOne_forEach fun _ _ => by simp))
@[simp] theorem keepsOne_standbyBegin : standbyBegin.KeepsOne := keepsOne_ask fun _ => keepsOne_acts (by simp)
@[simp] theorem keepsOne_pwrWrite (p : Path) (v : Word) : (pwrWrite p v).KeepsOne := keepsOne_ask fun _ => by simp
@[simp] theorem keepsOne_viewApply (w : JobWait) : (viewApply w).KeepsOne := by
  cases w with
  | viewSet n entry v =>
    refine keepsOne_ask fun _ => keepsOne_seq (by simp) (keepsOne_forEach fun _ _ => (keepsOne_when _ _).2 fun _ => ?_)
    exact keepsOne_acts (by simp)
  | _ => exact keepsOne_of_sheds fun _ => trivial
@[simp] theorem keepsOne_mailDoneAct (p : Path) : (mailDoneAct p).KeepsOne := keepsOne_ask fun _ =>
  (keepsOne_forSome _ _).2 fun _ _ => (keepsOne_when _ _).2 fun _ => keepsOne_acts (by simp)
@[simp] theorem keepsOne_regWrite (p : Path) (off : Nat) (v : Word) : (regWrite p off v).KeepsOne := by
  unfold regWrite
  split <;> simp
@[simp] theorem keepsOne_writeReg (p : Path) (off : Nat) (v : Word) : (writeReg p off v).KeepsOne :=
  keepsOne_pathWrite _ _ _ (keepsOne_regWrite _ _ _)
@[simp] theorem keepsOne_barWrite (off : Nat) (v : Word) (be : Nat) : (barWrite off v be).KeepsOne :=
  keepsOne_ask fun _ => by simp
@[simp] theorem keepsOne_barWriteReq (off be : Nat) (ws : List (Word × Nat)) : (barWriteReq off be ws).KeepsOne :=
  keepsOne_ask fun _ => (keepsOne_ite _ _ _).2 ⟨by simp, fun _ =>
    (keepsOne_ite _ _ _).2 ⟨by simp, fun _ => keepsOne_forEach fun _ _ => by simp⟩⟩
@[simp] theorem keepsOne_busWrite (p : Path) (off : Nat) (v : Word) (be : Nat) (more : List (Word × Nat)) :
    (busWrite p off v be more).KeepsOne := by cases p <;> simp [busWrite]
@[simp] theorem keepsOne_scpFrame (bytes : List Byte) : (scpFrame bytes).KeepsOne := keepsOne_ask fun _ => by
  have hwords : ∀ f : Frame, (acts [
      forEach (List.range f.n) fun i => writeReg .scp (f.off i) (f.word i), scpReply 0x5A]).KeepsOne := fun f =>
    keepsOne_seq (keepsOne_forEach fun _ _ => by simp) (by simp)
  refine (keepsOne_when _ _).2 fun _ => (keepsOne_forSome _ _).2 fun f _ => (keepsOne_ite _ _ _).2 ⟨by simp, fun _ => ?_⟩
  exact keepsOne_acts (by simp [hwords])
@[simp] theorem keepsOne_csRise (bytes : List Byte) : (csRise bytes).KeepsOne := keepsOne_ask fun _ => by
  refine (keepsOne_when _ _).2 fun _ => (keepsOne_ite _ _ _).2 ⟨by simp, fun _ => keepsOne_seq ?_ (by simp)⟩
  split <;> simp

/-! ### Rows and commands -/

@[simp] theorem keepsOne_barDrain (fuel : Nat) : (barDrain fuel).KeepsOne := by
  induction fuel with
  | zero => simp [barDrain]
  | succ fuel ih =>
    refine keepsOne_ask fun _ => (keepsOne_when _ _).2 fun _ => (keepsOne_forSome _ _).2 fun r _ => ?_
    cases r <;> exact keepsOne_acts (by simp [ih])
theorem keepsOne_row {a : Act} (h : a.KeepsOne) : (row a).KeepsOne := by
  have hdrain : (Act.ask fun s => barDrain s.bar.behind.length).KeepsOne := keepsOne_ask fun _ => by simp
  refine keepsOne_ask fun _ => (keepsOne_when _ _).2 fun _ => keepsOne_ask fun _ => ?_
  exact (keepsOne_ite _ _ _).2 ⟨fun _ => h, fun _ => keepsOne_acts (by simp [h, hdrain])⟩

end Sys2Proof.Machine
end

section
/-!
SUPPORT. The statement that a line is dirty in one engine at most.
-/

namespace Sys2Proof.Machine

/-- Every command runs a meaning that keeps one holder for each line. -/
theorem exec_keepsOne (i : Instr) (s : State) : ∃ a : Act, exec i s = .next (a.run s) ∧ a.KeepsOne := by
  cases i with
  | coldReset x => exact ⟨coldAct x, rfl, by simp⟩
  | supplyTrip => exact ⟨supplyTripAct, rfl, by simp⟩
  | warmReset lowNs x => exact ⟨warmAct lowNs x, rfl, by simp⟩
  | scpRead r => exact ⟨_, rfl, keepsOne_row (by cases r <;> simp)⟩
  | disabledStallTimeout c | chairTakeTimeout c => exact ⟨_, rfl, keepsOne_row (by cases c <;> simp)⟩
  | sqDb n slot v be | cqDb n slot v be => exact ⟨_, rfl, keepsOne_row (keepsOne_of_sheds fun _ => by simp)⟩
  | _ => exact ⟨_, rfl, keepsOne_row (by simp)⟩

/-- Settles O13: only a write by an engine puts a line into a buffer, and the other engines have given the line up by then
(`keepsOne_engineWrite`); every other meaning leaves in the buffers lines of those they held. -/
theorem dirtyLinesHaveOneHolder : Obligations.DirtyLinesHaveOneHolder := by
  refine ⟨by decide, fun i s t hexec hwf hone => ?_⟩
  obtain ⟨a, ha, hkeeps⟩ := exec_keepsOne i s
  cases ha.symm.trans hexec
  exact hkeeps s hwf hone

end Sys2Proof.Machine
end

section
/-!
SUPPORT. PROT_UNIT_ENABLE writes the whole of PRT_CTL, its event enables among it (R323, R329).
-/

namespace Sys2Proof.Machine

/-- MSI-X is enabled, and a shade write has overrun a fill: PRT_EVT.SHD_OVR is set, which the reset value of PRT_CTL.ALERT_EN
does not enable. -/
def overrunUnheard : State :=
  (acts [put F.PRT_EVT_SHD_OVR 1, modHost fun h => { h with msixEn := true }]).run State.reset

theorem overrunUnheard_ready : Reaches overrunUnheard .scp 0x280 ∧ overrunUnheard.fld F.PRT_CTL_LOCK = 0 ∧
    overrunUnheard.fld F.PRT_EVT_SHD_OVR = 1 ∧ overrunUnheard.host.pend = 0 := by decide

theorem overrunUnheard_nothing_stalls :
    (∀ c, (overrunUnheard.chan c).park ≠ .stall) ∧ overrunUnheard.zhn.stalled = [] :=
  ⟨fun _ => Park.noConfusion, rfl⟩

/-- The write of PRT_CTL's reset word with all three event enables set raises vector 0 for the event that it enables (R329). -/
theorem overrunUnheard_enable_raises :
    ((row (pathWrite .scp 0x280 0xF071 (protEnable .scp 0xF071))).run overrunUnheard).host.pend = 1 := by decide

/-- Refutes O38: with no access stalled, a PROT_UNIT_ENABLE that also sets an event enable of PRT_CTL raises MSI-X vector 0 for
the event bit that stands, so it changes the host link's pending bits beside its own register. -/
theorem not_protectionUnitRows : ¬ Obligations.ProtectionUnitRows := by
  intro h
  obtain ⟨hreaches, hunlocked, _, hquiet⟩ := overrunUnheard_ready
  obtain ⟨hchans, hpeers⟩ := overrunUnheard_nothing_stalls
  obtain ⟨_, _, _, _, enables, _⟩ := h overrunUnheard .scp
  obtain ⟨t, hexec, _, _, _, hframe⟩ := enables 0xF071 hreaches ⟨by decide, hunlocked⟩
  cases hexec
  obtain ⟨_, hparts, _⟩ := hframe hchans hpeers
  have hhost : _ = overrunUnheard.host := hparts .host List.not_mem_nil
  have hpend := overrunUnheard_enable_raises.symm.trans (congrArg HostLink.pend hhost)
  exact absurd (hpend.trans hquiet) (by decide)

end Sys2Proof.Machine
end

section
/-!
SUPPORT. States that the statements on chairs do not foresee: a bite that waits for an operation of the Cupboard (R216, R268),
and a held read of CHR_WAIT that asks for one byte of its word (R92).
-/

namespace Sys2Proof.Machine

/-! ### O45: a bite that waits for an ALLOC that fails -/

/-- An ALLOC that the Cupboard performs. -/
def grantedAlloc : Cur := plainCur [0x38] .cup

/-- Channel 0 runs it on engine 0; the Cupboard is not enabled, as after a reset, so that it fails with cause 1 (R359). -/
def allocating : State := { State.reset with
  cup := { State.reset.cup with op := some ⟨0, 64, grantedAlloc.words⟩ }
  engines := [(0, { Engine.init with chan := some 0 })]
  chans := [(0, runningWith grantedAlloc)] }

/-- The Snuffer has bitten the channel; the bite acts once the ALLOC has ended (R268). -/
def bittenAlloc : State := (row (biteAct 0 (.chan 0))).run allocating

theorem bittenAlloc_fails : Running bittenAlloc ∧ (bittenAlloc.chan 0).stopPend = 0 ∧
    bittenAlloc.cup.op = some ⟨0, 64, grantedAlloc.words⟩ ∧ bittenAlloc.cup.waits = [] ∧
    bittenAlloc.cupMine ⟨0, 64, grantedAlloc.words⟩ = true ∧
    allocFails bittenAlloc ⟨0, 64, grantedAlloc.words⟩ = some 1 := by decide +kernel

/-- The end of the ALLOC lets the bite act: its descriptor ends with SNUFFED and is current no more (R216). -/
theorem bittenAlloc_ends : doneStatus ((row cupEndAct).run bittenAlloc) 0 = none := by decide +kernel

/-- Refutes O45: the statement does not ask that no bite of the channel waits, and an ALLOC that fails lets a bite that waits
for it act, and does not stand completed with ALLOC_FAIL. -/
theorem not_chairAndObjectDescriptors : ¬ Obligations.ChairAndObjectDescriptors := by
  intro h
  obtain ⟨hrun, hstop, hop, hwaits, hmine, hcause⟩ := bittenAlloc_fails
  obtain ⟨_, _, _, _, ends⟩ := h bittenAlloc 0 hstop hrun
  obtain ⟨alloc, _⟩ := ends _ hop hwaits hstop hmine
  obtain ⟨t, hexec, _, hdone, _⟩ := alloc rfl 1 hcause (by decide)
  obtain rfl : _ = t := Host.Outcome.next.inj hexec
  exact absurd (bittenAlloc_ends.symm.trans hdone) (by decide)

/-! ### O47: a held read of one byte -/

/-- The control port holds chair 0, whose table admits context 0 as after a reset, and the host link is up. -/
def heldByScp : State := { State.reset with
  host := { State.reset.host with link := true, fr := false }
  chairs := [(0, { Chair.init with held := true, mid := 1 })] }

/-- The host has read byte 0 of CHR_WAIT[0], and the read is held (R92, R337). -/
def oneByteWait : State := (row (barRead ⟨false, 0x600, 1, 1, 0⟩)).run heldByScp

/-- The read that BAR0 holds. -/
def oneByteRead : HeldRead := ⟨some (.chrWait 0), 0, 0, 0x600, 1, false, 1, 0, []⟩

theorem oneByteWait_held : Running oneByteWait ∧ oneByteWait.tabRemote 0 = false ∧
    oneByteWait.heldOn .bar0 (.chrWait 0) = true ∧ (oneByteWait.port .bar0).held = some oneByteRead := by decide +kernel

/-- At its limit the read returns the one byte that it asks for, the holder's MID. -/
theorem oneByteWait_returns : ((row (chrWaitTimeoutAct .bar0)).run oneByteWait).bar.cpls = [⟨0, [1]⟩] := by decide +kernel

/-- Refutes O47: the statement does not ask that a held read of BAR0 asks for all four bytes of its word, and a read of one
byte of CHR_WAIT that reaches its limit does not show the whole word. -/
theorem not_chairPorts : ¬ Obligations.ChairPorts := by
  intro h
  obtain ⟨hrun, hlocal, hheld, hread⟩ := oneByteWait_held
  obtain ⟨_, _, limit, _⟩ := h oneByteWait .bar0 0 (by decide) hlocal
  obtain ⟨t, hexec, ⟨_, hshows⟩, _⟩ := limit hrun hheld fun r hr => by
    obtain rfl : oneByteRead = r := Option.some.inj (hread.symm.trans hr)
    exact ⟨rfl, rfl⟩
  obtain rfl : _ = t := Host.Outcome.next.inj hexec
  have hlength := congrArg (List.map fun x : Cpl => x.data.length) (oneByteWait_returns.symm.trans hshows)
  simp [leBytes] at hlength

end Sys2Proof.Machine
end

section
/-!
SUPPORT. States that the statements on the scrubber and on guarded writes do not foresee: a shade fill that shades a range before
the scrubber writes it (R314, R316, R364), and a trace writer that has no room at a thaw (R569, R570).
-/

namespace Sys2Proof.Machine

-- The many short proofs are checked one after another, for each would else hold a thread of its own.
set_option Elab.async false

/-! ### O46: a shade fill that overtakes the scrubber -/

/-- Granule 0 of staging stands with the scrubber and holds a byte 7.  Region 0 lets the device write it and is strict, so that
its shade has to be 0; a fill in progress has that granule left to give shade 5. -/
def fillOverScrub : State := { State.reset with
  regs := ((acts [put F.PRT_CTL_EN 1, put F.PRT_SHD_FILL_SHADE 5, putWord 1 0x28C 0, putWord 1 0x290 0x40F]).run State.reset).regs
  cup := { State.reset.cup with scrub := [(0, 1)] }
  fillLeft := 1
  stag := [(0, 7)] }

theorem fillOverScrub_allowed : Running fillOverScrub ∧ fillOverScrub.cup.scrub.head? = some (0, 1) ∧ fillOverScrub.oneHolder ∧
    fillOverScrub.firstRefused ⟨3, 2, 15, 0, false, 0xFF, 0, 64 * 0, 64 * 1, true⟩ = none := by decide +kernel

/-- By the clock in which the scrubber has written, the fill has shaded the granule, and the write was refused. -/
theorem fillOverScrub_kept : ((row scrubAct).run fillOverScrub).cohByte 0 0 = 7 := by decide +kernel

/-- Refutes O46: the statement asks for leave to write as SCRUB_DONE begins, and a shade fill in progress takes it away before
the scrubber writes. -/
theorem not_cupboardAndMemoryTime : ¬ Obligations.CupboardAndMemoryTime := by
  intro h
  obtain ⟨hrun, hscrub, hholder, hallowed⟩ := fillOverScrub_allowed
  obtain ⟨_, _, scrubbed, _⟩ := h fillOverScrub hrun
  obtain ⟨t, hexec, _, hzero, _⟩ := scrubbed _ hscrub (by decide) hholder hallowed
  obtain rfl : _ = t := Host.Outcome.next.inj hexec
  exact absurd (fillOverScrub_kept.symm.trans (hzero 0 (by decide) (by decide))) (by decide)

/-! ### O60: a thaw that finds the trace writer full -/

/-- The thaw that the reset owes a record to has not come, and 16 records wait for the trace buffer. -/
def fullWriter : State := { State.reset with
  ports := [(0x25, { Port.init with last := 16 })]
  boot := { State.reset.boot with thawRec := true } }

theorem fullWriter_reaches : Reaches fullWriter .scp 0x9C0 ∧ fullWriter.pwr.off = false ∧ fullWriter.pfHeld = false := by
  decide +kernel

/-- The RESET record is dropped (R569). -/
theorem fullWriter_drops : ((row (pathWrite .scp 0x9C0 ((0x4001 ||| 4) &&& ~~~2) (trcCtlWrite .scp ((0x4001 ||| 4) &&& ~~~2)))).run
    fullWriter).fld F.TRC_STAT_WR = fullWriter.fld F.TRC_STAT_WR := by decide +kernel

/-- Refutes O60: the statement does not ask that the trace writer has room, and the RESET record of a thaw that finds 16 records
waiting is dropped. -/
theorem not_guardedWrites : ¬ Obligations.GuardedWrites := by
  intro h
  obtain ⟨hreach, hon, hheld⟩ := fullWriter_reaches
  obtain ⟨_, _, trace⟩ := h fullWriter .scp 0x4001 hon
  obtain ⟨_, _, _, owed⟩ := trace hreach
  obtain ⟨t, hexec, _, _, hcount, _⟩ := owed hheld rfl (by decide) (by decide)
  obtain rfl : _ = t := Host.Outcome.next.inj hexec
  exact absurd (fullWriter_drops.symm.trans hcount) (by decide)

end Sys2Proof.Machine
end

section
/-!
SUPPORT. A state that the statement on the governor does not foresee: a locked region that refuses the governor's reads while the
protection unit is disabled (R323).
-/

namespace Sys2Proof.Machine

-- The many short proofs are checked one after another, for each would else hold a thread of its own.
set_option Elab.async false

/-! ### O53: a profile that a locked region keeps from the governor -/

/-- A decision to add a phase to rail 0. -/
def addPhase : PhaseJob := ⟨0, true, 4, 0, 0, 0, 0, 0, 0, 0, none⟩

/-- The phase channel, 0, is idle.  The protection unit is disabled; region 0, which is locked, covers page 0 of staging, where rail
0's profile lies, and lets the governor neither read nor write. -/
def lockedProfile : State := { State.reset with
  regs := ((acts [put F.PRT_CTL_EN 0, putWord 1 0x28C 0, putWord 1 0x290 0x221]).run State.reset).regs
  chans := [(0, { Chan.init with st := .idle, ctx := 65, count := 4 })]
  gov := { State.reset.gov with jobs := [addPhase] } }

theorem lockedProfile_ready : Governs lockedProfile ∧ lockedProfile.fld F.KND_CHAIR_EN = 0 ∧ lockedProfile.fld F.PRT_CTL_EN = 0 ∧
    lockedProfile.phaseChan = some 0 := by decide +kernel

/-- The change fails, for its profile cannot be read (R398). -/
theorem lockedProfile_fails : ((row phaseChange).run lockedProfile).gov.job = none := by decide +kernel

/-- Refutes O53: the statement asks that the protection unit is disabled, and a locked region still refuses the governor's read of
the rail's profile, so that the change is not submitted. -/
theorem not_governorDecides : ¬ Obligations.GovernorDecides := by
  intro h
  obtain ⟨_, change, _⟩ := h
  obtain ⟨hgoverns, hchair, hunit, hchan⟩ := lockedProfile_ready
  obtain ⟨_, decided⟩ := change lockedProfile hgoverns
  obtain ⟨submitted, _⟩ := decided rfl addPhase rfl
  obtain ⟨t, hexec, hjob, _⟩ := submitted hchair hunit 0 hchan
  obtain rfl : _ = t := Host.Outcome.next.inj hexec
  exact absurd (lockedProfile_fails.symm.trans hjob) nofun

end Sys2Proof.Machine
end

section
/-!
SUPPORT. States that the statements on pin wicks and on bus transactions do not foresee: a shade fill in progress while a pin is
parked (R316, R459), and an alert that fell and rose during an alert response (R453).
-/

namespace Sys2Proof.Machine

-- The many short proofs are checked one after another, for each would else hold a thread of its own.
set_option Elab.async false

/-! ### O54: a shade fill in progress while a pin is parked -/

/-- Pin 0 is parked for five clocks more, and a fill has one granule left to shade. -/
def parkedInFill : State := { State.reset with
  wicks := [(0, { Wick.init with parkEnd := some (State.reset.clk + 5) })]
  fillLeft := 1 }

theorem parkedInFill_parked : Running parkedInFill ∧ (parkedInFill.wick 0).parkEnd = some (State.reset.clk + 5) := by
  decide +kernel

/-- PRT_SHD_ADDR shows the granule past the fill by the end of the park. -/
theorem parkedInFill_gran : ((row (parkEndAct 0)).run parkedInFill).regs ≠ parkedInFill.regs := by decide +kernel

/-- Refutes O54: PARK_END lets the five clocks of the park pass, and a shade fill in progress moves PRT_SHD_ADDR.GRAN meanwhile,
while the statement has every register as it was. -/
theorem not_pinWicks : ¬ Obligations.PinWicks := by
  intro h
  obtain ⟨hrun, hpark⟩ := parkedInFill_parked
  obtain ⟨_, _, parks⟩ := h
  obtain ⟨_, ends⟩ := parks parkedInFill 0 hrun (by decide)
  obtain ⟨t, hexec, _, _, _, _, _, _, _, hregs⟩ := ends _ hpark
  obtain rfl : _ = t := Host.Outcome.next.inj hexec
  exact parkedInFill_gran hregs

/-! ### O55: an alert that fell and rose during an alert response -/

/-- Port 0 is enabled and its alert response is on the bus.  The pin has since risen, fallen again, which starts a new series, and
risen. -/
def alertAgain : State :=
  (acts [put F.PMB0_CTL_EN 1, put F.PMB0_CTL_ARA_AUTO 1, alertFall 0, alertRise 0, alertFall 0, alertRise 0]).run State.reset

theorem alertAgain_answers : Running alertAgain ∧ (alertAgain.pmbp 0).user = some .ara ∧ alertAgain.busWaiters 0 = [] ∧
    (alertAgain.pmbp 0).alert = false := by decide +kernel

/-- The first response of the new series takes the bus. -/
theorem alertAgain_next : (((row (transactionEnd 0 0 false 0 [1])).run alertAgain).pmbp 0).user = some .ara := by
  decide +kernel

/-- Refutes O55: the end of an alert response is stated to leave the bus idle, and a series that an alert began during that
response takes it at once. -/
theorem not_busTransactions : ¬ Obligations.BusTransactions := by
  intro h
  obtain ⟨hrun, huser, hwaiters, halert⟩ := alertAgain_answers
  obtain ⟨_, _, _, ara, _⟩ := h alertAgain hrun
  obtain ⟨good, _⟩ := ara huser hwaiters halert
  obtain ⟨t, hexec, hidle, _⟩ := good 0 1 []
  obtain rfl : _ = t := Host.Outcome.next.inj hexec
  exact absurd (alertAgain_next.symm.trans hidle) nofun

end Sys2Proof.Machine
end

section
/-!
SUPPORT. A state that the statement on the answers of the host does not foresee: a timeout that ends walks, whose place and whose tag
the next walk takes (R126, R267, R300).
-/

namespace Sys2Proof.Machine

-- The many short proofs are checked one after another, for each would else hold a thread of its own.
set_option Elab.async false

/-! ### O35: a tag that returns and is taken at once -/

/-- A channel of context 1 whose copy waits for a walk of its source. -/
def walkWaits : Chan := { Chan.init with
  st := .queued, ctx := 1, run := some { Run.start 0 none 0 with cur := some (plainCur [0x01] .walk) } }

/-- An outstanding read of 8 bytes with a tag. -/
def readOf (tag : Nat) (p : Purpose) : HRead := ⟨tag, 0, 8, p, [], false, 0, false, false, 10, 0⟩

/-- Tag 0 fetches a submission entry of queue 0, of the user context 1.  Eight walks are in progress, for the channels of that context,
and a miss of queue 1, of context 0, waits for one of them to end. -/
def walksFull : State := { State.reset with
  host := { State.reset.host with
    link := true, fr := false, extTag := true, tagsUsed := 9
    reads := readOf 0 (.ring 0) :: (List.range 8).map (fun c => readOf (c + 1) (.walk (.chan c) 0 0 1 false true))
    walkq := [⟨.sq 1, 0, 0, false, State.reset.internalReq⟩] }
  queues := [(0, { Queue.init with live := true, ctx := 1, reading := true }), (1, { Queue.init with live := true })]
  ctxs := SMap.set Ctx.init State.reset.ctxs 1 { Ctx.init with st := .live }
  chans := (List.range 8).map fun c => (c, walkWaits) }

theorem walksFull_reads : Running walksFull ∧ walksFull.linkUp = true ∧
    walksFull.host.reads.find? (·.tag == 0) = some (readOf 0 (.ring 0)) ∧ (walksFull.queue 0).live = true ∧
    (walksFull.ctx (walksFull.queue 0).ctx).st = .live ∧ walksFull.host.waits = [] := by decide +kernel

/-- The walk of queue 1 has tag 0. -/
theorem walksFull_takes : ((row (timeoutAct 0)).run walksFull).host.reads.any (fun r => r.tag == 0) = true := by decide +kernel

/-- Refutes O35: the timeout of a ring read loses its context, which ends that context's walks, and the miss that waited for a walk
takes the tag that has just come back, so that it does not stay off the books. -/
theorem not_hostReadsAnswered : ¬ Obligations.HostReadsAnswered := by
  intro h
  obtain ⟨hrun, hlink, hfind, hlive, hctx, hwaits⟩ := walksFull_reads
  obtain ⟨_, reads, _⟩ := h walksFull hrun hlink
  obtain ⟨_, _, _, _, ring⟩ := reads 0 _ hfind
  obtain ⟨t, hexec, _, _, hback, _⟩ := ring rfl 0 rfl hlive hctx
  obtain rfl : _ = t := Host.Outcome.next.inj hexec
  obtain ⟨hgone, _⟩ := hback
  exact absurd (walksFull_takes.symm.trans (hgone hwaits)) (by decide)

end Sys2Proof.Machine
end

section
/-!
SUPPORT. A state that the statement on peer operations does not foresee: a register read that waits for a shared chair and goes on to
further registers when the home's answer comes (R86, R337, R513).
-/

namespace Sys2Proof.Machine

-- The many short proofs are checked one after another, for each would else hold a thread of its own.
set_option Elab.async false

/-! ### O58: a read that goes on when a chair is granted -/

/-- Peer 1 is present through port 0. -/
def withPeer : State := { State.reset with
  zhn := { State.reset.zhn with
    p0 := { ZPort.init with ready := true, up := true }
    peers := [(1, { Peer.init with present := true, seen0 := some (0, 0) })] } }

/-- Table 0 is shared and lives on peer 1, and the control port reads the CHR_WAIT registers of chairs 7 and 8: the read is held on
chair 7.  Table 1, with chair 8, does not admit the control port. -/
def waitsRemote : State :=
  (acts [putI 0 F.CHR_TAB_CFG_SHARED 1, putI 0 F.CHR_TAB_CFG_HOME 1, putI 0 F.CHR_TAB_CFG_BMC 1, putI 1 F.CHR_TAB_CFG_BMC 0,
    readStart .scp 0x61C 2 false 15 15]).run withPeer

/-- The next packet of peer 1 at port 0. -/
def fromPeer : ZHdr := ⟨0, 0, 1, false, 0, 0, 0⟩

/-- Chair 7 is held by this device's control port. -/
def grantWord : Word := BitVec.ofNat 32 (2 ^ 10 + 1)

theorem waitsRemote_ready : Running waitsRemote ∧ waitsRemote.oneHolder ∧ ForUs waitsRemote fromPeer ∧
    waitsRemote.heldOn .scp (.chrWait 7) = true ∧ waitsRemote.tabRemote (7 / 8) = true ∧
    waitsRemote.tab (7 / 8) F.CHR_TAB_CFG_HOME = fromPeer.src := by decide +kernel

/-- The read of chair 8 is denied, which counts in CHR_CNT.REFUSED. -/
theorem waitsRemote_denied : ((row (chrUpdRecv fromPeer 7 grantWord)).run waitsRemote).regs ≠ waitsRemote.regs := by decide +kernel

/-- Refutes O58: a CHR_UPD that grants a chair lets the read that waits for it go on, and the next register it reads denies it, while
the statement has every register as it was. -/
theorem not_zheynOperations : ¬ Obligations.ZheynOperations := by
  intro h
  obtain ⟨hrun, hone, hfor, _, hremote, hhome⟩ := waitsRemote_ready
  obtain ⟨_, _, _, _, _, _, _, _, _, chairs, _⟩ := h waitsRemote hrun hone
  obtain ⟨_, mirror, _⟩ := chairs fromPeer 7 grantWord hfor
  obtain ⟨update, _⟩ := mirror (by decide) hremote hhome
  obtain ⟨t, hexec, _, hregs⟩ := update
  obtain rfl : _ = t := Host.Outcome.next.inj hexec
  exact waitsRemote_denied hregs

end Sys2Proof.Machine
end

section
/-!
SUPPORT. A state that the statement on the links and peers of the Zheyn link does not foresee: `State.wf` does not ask that the table of
peers is canonical.
-/

namespace Sys2Proof.Machine

-- The many short proofs are checked one after another, for each would else hold a thread of its own.
set_option Elab.async false

/-! ### O57: a table of peers that lists one twice -/

/-- The table lists peer 1 twice, present since clock 0. -/
def twicePresent : State := { State.reset with
  zhn := { State.reset.zhn with peers := [(1, { Peer.init with present := true }), (1, { Peer.init with present := true })] } }

theorem twicePresent_present : Running twicePresent ∧ 1 ≠ twicePresent.self ∧ (twicePresent.peer 1).present = true := by decide +kernel

/-- The first entry goes, as it says what no entry says, and the second one shows. -/
theorem twicePresent_stays : (((row (peerLostAct 1)).run twicePresent).peer 1).present = true := by decide +kernel

/-- Refutes O57: the statement asks for `State.wf`, which leaves the table of peers free, and a peer that the table lists twice is
present after its loss. -/
theorem not_zheynLinksAndPeers : ¬ Obligations.ZheynLinksAndPeers := by
  intro h
  obtain ⟨hrun, hself, hpresent⟩ := twicePresent_present
  obtain ⟨_, peers⟩ := h twicePresent hrun
  obtain ⟨_, lost⟩ := peers 1 (by decide) hself
  obtain ⟨t, hexec, _, habsent, _⟩ := lost hpresent
  obtain rfl : _ = t := Host.Outcome.next.inj hexec
  exact absurd (twicePresent_stays.symm.trans habsent) (by decide)

end Sys2Proof.Machine
end

section
/-!
SUPPORT. A state that the statement on the boot loader does not foresee: a locked region that refuses the boot loader's writes while the
protection unit is disabled (R323).
-/

namespace Sys2Proof.Machine

-- The many short proofs are checked one after another, for each would else hold a thread of its own.
set_option Elab.async false

/-! ### O59: a boot buffer that a locked region keeps -/

/-- A flash load has read its header, and one byte more is on its way.  The protection unit is disabled; region 0, which is locked,
covers the first page of the boot buffer and lets no access of the device itself through. -/
def lockedBuffer : State := { State.reset with
  regs := ((acts [put F.PRT_CTL_EN 0, put F.BOOT_STAT_PHASE 1, putWord 1 0x28C 0x1800180, putWord 1 0x290 0x421]).run
    State.reset).regs
  boot := { State.reset.boot with headerOk := true, spi := some ⟨3, 3, 64, 0, 1, 0⟩ } }

theorem lockedBuffer_loads : Running lockedBuffer ∧ lockedBuffer.phase = 1 ∧ lockedBuffer.boot.headerOk = true ∧
    lockedBuffer.fld F.PRT_CTL_EN = 0 ∧ lockedBuffer.boot.spi = some ⟨3, 3, 64, 0, 1, 0⟩ := by decide +kernel

/-- The byte does not reach the buffer. -/
theorem lockedBuffer_kept : ((row (bodyAct [7])).run lockedBuffer).cohBytes 0 (bootBase + 64) 1 = [0] := by decide +kernel

/-- Refutes O59: the statement asks that the protection unit is disabled, and a locked region still refuses the boot loader's write of
the image to its buffer. -/
theorem not_bootLoads : ¬ Obligations.BootLoads := by
  intro h
  obtain ⟨hrun, hphase, hheader, hunit, hspi⟩ := lockedBuffer_loads
  obtain ⟨_, _, _, _, body, _⟩ := h lockedBuffer hrun
  obtain ⟨t, hexec, _, hbytes, _⟩ := body [7] hphase hheader hunit _ hspi rfl rfl (by decide)
  obtain rfl : _ = t := Host.Outcome.next.inj hexec
  exact absurd (lockedBuffer_kept.symm.trans hbytes) (by decide)

end Sys2Proof.Machine
end

section
/-!
SUPPORT. A state that the statements on the lanes do not foresee: a bite that waits while an EMIT of its channel has a frame out, and
whose context has a frame waiting on another lane (R216, R236, R555).
-/

namespace Sys2Proof.Machine

-- The many short proofs are checked one after another, for each would else hold a thread of its own.
set_option Elab.async false

/-! ### O48 and O49: a bite that acts at the end of an EMIT -/

/-- A frame of a channel's EMIT to phase controller 0. -/
def frameOfEmit (c : Nat) : TxFrame := ⟨.emit c 0, 0, 0, [], 0, 0, 0, 0, 0, 0, none, 0⟩

/-- A channel of context 1 whose EMIT has its frame on a lane. -/
def emitting : Chan := { Chan.init with
  st := .queued, ctx := 1, run := some { Run.start 0 none 0 with cur := some (plainCur [0x10] .lane) } }

/-- Channels 0 and 1 of the user context 1 emit; channel 0 is bitten.  Its frame is unacknowledged on lane 0, and that of channel 1
waits on lane 1. -/
def bittenEmit : State := { State.reset with
  regs := ((acts [putI 0 (F.LAN_CTL_EN.lane 0) 1]).run State.reset).regs
  ctxs := SMap.set Ctx.init State.reset.ctxs 1 { Ctx.init with st := .live }
  chans := [(0, { emitting with bitten := true }), (1, emitting)]
  lanes := [(0, { Lane.init with st := .trained, unacked := [frameOfEmit 0] }),
    (1, { Lane.init with st := .trained, waiting := [frameOfEmit 1] })] }

theorem bittenEmit_waits : Running bittenEmit ∧ (bittenEmit.lane 0).tx = none ∧ (bittenEmit.lane 0).st = .trained ∧
    (bittenEmit.lane 0).unacked.head? = some (frameOfEmit 0) ∧ Reaches bittenEmit .scp (0x800 + 32 * 0) ∧
    bittenEmit.fldI 0 (F.LAN_CTL_EN.lane 0) = 1 ∧ bittenEmit.fldI 0 (F.LAN_CTL_LOCK.lane 0) = 0 := by decide +kernel

/-- The acknowledgement ends the EMIT, the bite loses the context, and the frame on lane 1 goes. -/
theorem bittenEmit_acked : ((row (ackReceived 0)).run bittenEmit).lane 1 ≠ bittenEmit.lane 1 := by decide +kernel

/-- So it does when lane 0 goes down. -/
theorem bittenEmit_cleared :
    ((row (pathWrite .scp 0x800 0 (lanCtlWrite .scp 0 0))).run bittenEmit).lane 1 ≠ bittenEmit.lane 1 := by decide +kernel

/-- Refutes O48: the statement does not ask that no bite of the channel waits, and the bite that acts when its last frame is acknowledged
loses its context, whose frames leave the other lanes. -/
theorem not_lanesTransmit : ¬ Obligations.LanesTransmit := by
  intro h
  obtain ⟨hrun, htx, hst, hhead, _⟩ := bittenEmit_waits
  obtain ⟨_, answers, _⟩ := h bittenEmit 0 hrun (by decide) htx
  obtain ⟨ack, _⟩ := answers (.inl hst) _ hhead
  obtain ⟨t, hexec, _, _, _, hothers⟩ := ack
  obtain rfl : _ = t := Host.Outcome.next.inj hexec
  exact bittenEmit_acked (hothers 1 (by decide))

/-- Refutes O49: likewise, the bite that acts when a write of LAN_CTL takes the lane down loses the channel's context, whose frames leave
the other lanes. -/
theorem not_lanesReceiveAndTrain : ¬ Obligations.LanesReceiveAndTrain := by
  intro h
  obtain ⟨hrun, htx, hst, _, hreach, hen, hlock⟩ := bittenEmit_waits
  obtain ⟨_, _, _, _, _, clear⟩ := h bittenEmit 0 hrun (by decide) htx (by simp [hst])
  obtain ⟨t, hexec, _, _, _, _, _, hothers⟩ := clear .scp hreach hen hlock
  obtain rfl : _ = t := Host.Outcome.next.inj hexec
  exact bittenEmit_cleared (hothers 1 (by decide))

end Sys2Proof.Machine
end

section
/-!
SUPPORT. A register write that the statement on the access types does not foresee: clearing PMB_EVT.NAK reopens PMB_CAP, at 0x360
(R466).
-/

namespace Sys2Proof.Machine

-- The many short proofs are checked one after another, for each would else hold a thread of its own.
set_option Elab.async false

/-! ### O6: the capture of a PMB_NAK -/

/-- A capture of a PMB_NAK stands. -/
def nakCaptured : State := (put F.PMB_CAP_VALID 1).run State.reset

theorem nakCaptured_reaches : Reaches nakCaptured .scp 0x35C := by decide +kernel

theorem regFind_pmbEvt : ∃ r, regFind 0x35C = some r ∧ r.clr = false ∧ ∃ f, f ∈ r.flds := by
  refine ⟨_, rfl, rfl, _, List.mem_cons_self⟩

/-- The write that clears NAK lets the next PMB_NAK be captured. -/
theorem nakCaptured_reopened : ((row (busWrite .scp 0x35C 1 15 [])).run nakCaptured).word 0 0x360 ≠ nakCaptured.word 0 0x360 := by
  decide +kernel

/-- Refutes O6: PMB_CAP stands at 0x360, which the statement does not list among the captures that a cleared event reopens. -/
theorem not_registerWriteByAccessType : ¬ Obligations.RegisterWriteByAccessType := by
  intro h
  obtain ⟨_, _, byFields⟩ := h
  obtain ⟨r, hreg, hclr, f, hf⟩ := regFind_pmbEvt
  obtain ⟨t, hexec, _, _, _, _, _, _, _, hwords⟩ := byFields nakCaptured .scp 0x35C 1 nakCaptured_reaches (by decide) (by decide)
    (by decide) nofun r hreg hclr f hf
  obtain rfl : _ = t := Host.Outcome.next.inj hexec
  exact nakCaptured_reopened (hwords 0 0x360 (by decide) (by decide))

end Sys2Proof.Machine
end

section
/-!
SUPPORT. A core clock in which no bite is due and every book balances (R215, R301).
-/

namespace Sys2Proof.Machine

-- The many short proofs are checked one after another, for each would else hold a thread of its own.
set_option Elab.async false

/-- Actions that each leave a state alone leave it alone in a row. -/
theorem run_acts_same {l : List Act} {s : State} (h : ∀ a ∈ l, a.run s = s) : (acts l).run s = s := by
  induction l with
  | nil => rfl
  | cons a l ih => rw [run_acts_cons, h a List.mem_cons_self, ih fun b hb => h b (List.mem_cons_of_mem a hb)]

theorem run_forEach_same {α : Type} {l : List α} {f : α → Act} {s : State} (h : ∀ x ∈ l, (f x).run s = s) :
    (forEach l f).run s = s :=
  run_acts_same fun _ ha => by
    obtain ⟨x, hx, rfl⟩ := List.mem_map.1 ha
    exact h x hx

/-- A book whose copies agree is left alone (R306). -/
theorem run_bookBad_agrees (f : Fld) (holder : Nat) {differs : Bool} {s : State} (h : differs = false) :
    (bookBad f holder differs).run s = s := by
  simp [bookBad, h]

/-- No bite falls where none is due. -/
theorem run_dueBites_none {s : State} (h : ∀ e < 4, s.biteDue e = none) : dueBites.run s = s :=
  run_forEach_same fun e he => by simp [h e (List.mem_range.1 he)]

/-- Books that balance are left alone, and no bite falls. -/
theorem run_books_quiet {s : State} (h : s.quiet = true) : (acts [dueBites, bookCheck]).run s = s := by
  simp only [State.quiet, Bool.and_eq_true, List.all_eq_true, beq_iff_eq, List.mem_range, Option.isNone_iff_eq_none] at h
  obtain ⟨⟨⟨⟨⟨⟨⟨hbites, hcredits⟩, htags⟩, htokens⟩, hlines⟩, hpend⟩, hlamp⟩, hdescs⟩ := h
  have hcheck : bookCheck.run s = s := by
    refine run_acts_same (List.forall_mem_cons.2 ⟨run_forEach_same fun i hi => ?_, ?_⟩)
    · exact run_bookBad_agrees _ _ (by rw [hcredits i (List.mem_range.1 hi)]; rfl)
    simp only [List.forall_mem_cons, List.not_mem_nil, false_implies, implies_true, and_true]
    exact ⟨run_bookBad_agrees _ _ (bne_eq_false_iff_eq.2 htags),
      run_forEach_same fun b hb => run_bookBad_agrees _ _ (bne_eq_false_iff_eq.2 (htokens b (List.mem_range.1 hb))),
      run_forEach_same fun e he => run_bookBad_agrees _ _ (bne_eq_false_iff_eq.2 (hlines e (List.mem_range.1 he))),
      run_forEach_same fun c hc => run_bookBad_agrees _ _ (bne_eq_false_iff_eq.2 (hpend c hc)),
      run_bookBad_agrees _ _ (bne_eq_false_iff_eq.2 hlamp), run_bookBad_agrees _ _ (bne_eq_false_iff_eq.2 hdescs)⟩
  simp only [run_acts_cons, run_acts_nil, run_dueBites_none hbites, hcheck]

/-- What is left of a quiet core clock: time passes, and a posted write leaves on a link that is up. -/
def quietTick : Act := acts [tickBy 1, .ask fun s => when_ s.host.link (modHost (HostLink.sendOne s.clk))]

theorem tick_of_quiet {s : State} (hon : s.pwr.off = false) (h : ((tickBy 1).run s).quiet = true) : tick s = quietTick.run s := by
  have hbooks := run_books_quiet h
  simp only [run_acts_cons, run_acts_nil] at hbooks
  simp only [tick, tickAct, quietTick, run_ask, run_when, hon, Bool.not_false, if_true, run_acts_cons, run_acts_nil, hbooks]

theorem quietTick_only : quietTick.Only (timeParts ++ [.host]) timeOffs := by
  simp only [quietTick, only_acts_cons, only_acts_nil, only_ask, only_when, only_modHost, and_true]
  exact ⟨only_tickBy 1 (List.subset_append_left _ _) (List.Subset.refl _), fun _ _ => by decide⟩

theorem quietTick_clk (s : State) : (quietTick.run s).clk = s.clk + 1 := by
  simp only [quietTick, run_acts_cons, run_acts_nil, run_ask, run_when]
  rw [← tickBy_clk]
  split <;> rfl

/-- A step of an empty queue on a device that is on lets a core clock pass. -/
theorem clk_lt_tick {s : State} (hon : s.pwr.off = false) : s.clk + 1 ≤ (tick s).clk := by
  simp only [tick, tickAct, run_ask, run_when, hon, Bool.not_false, if_true]
  rw [run_acts_cons, ← tickBy_clk]
  exact Act.clk_le_run _ _

/-- Settles O1: a step of an empty queue is the tick, which in a quiet state is the passing of time and the sending of one posted
write. -/
theorem stepTakesFront : Obligations.StepTakesFront := by
  constructor
  · intro i rest s h
    simp [step, h]
  · intro s hwf hpending
    refine ⟨tick s, by simp [step, hpending], by simp [tick, hpending], fun hoff => by simp [tick, tickAct, hoff], clk_lt_tick,
      fun hon hquiet => ?_⟩
    rw [tick_of_quiet hon hquiet]
    obtain ⟨hpend, hparts, hwords⟩ := Act.Only.unchanged _ s quietTick_only (s.wf_regs hwf)
    refine ⟨quietTick_clk s, hpend, fun p hp => hparts p fun hin => hp ?_, hwords⟩
    revert hin
    cases p <;> decide

end Sys2Proof.Machine
end

section
/-!
SUPPORT. What a reset leaves: the tables it empties, the pieces each of its parts alone touches; and with it the proof for cold
and warm resets.
-/

namespace Sys2Proof.Machine

-- The many short proofs are checked one after another, for each would else hold a thread of its own.
set_option Elab.async false

/-- A meaning that puts no register keeps the register words as they are stored. -/
theorem Act.Only.regs {ps : List Part} {a : Act} (h : a.Only ps []) (s : State) : (a.run s).regs = s.regs := by
  induction a generalizing s with
  | skip => rfl
  | upd u =>
    cases u with
    | reg key w => exact absurd h List.not_mem_nil
    | keepRegs keep => exact absurd h id
    | _ => obtain ⟨p, hp, -⟩ := h; exact Upd.apply_regs _ s p hp
  | seq a b iha ihb => rw [run_seq, ihb h.2, iha h.1]
  | ask k ih => exact ih s (h s) s

/-! ### The parts of a reset -/

/-- The tables that every reset empties, the contexts of the device alone being there after it. -/
structure TablesReset (t : State) : Prop where
  ctxs : t.ctxs = ctxsReset
  chans : t.chans = []
  queues : t.queues = []
  mems : t.mems = []
  fences : t.fences = []
  engines : t.engines = []
  chairs : t.chairs = []
  due : t.due = []
  tlb : t.tlb = []

/-- The pieces of `TablesReset`. -/
def tableParts : List Part := [.ctxs, .chans, .queues, .mems, .fences, .engines, .chairs, .due, .tlb]

/-- What touches none of the tables keeps them reset. -/
theorem TablesReset.run {ps : List Part} {offs : List Nat} {a : Act} {t : State} (h : TablesReset t) (ha : a.Only ps offs)
    (hp : ∀ p ∈ tableParts, p ∉ ps) : TablesReset (a.run t) where
  ctxs := (ha.part a t .ctxs (hp _ (by decide))).trans h.ctxs
  chans := (ha.part a t .chans (hp _ (by decide))).trans h.chans
  queues := (ha.part a t .queues (hp _ (by decide))).trans h.queues
  mems := (ha.part a t .mems (hp _ (by decide))).trans h.mems
  fences := (ha.part a t .fences (hp _ (by decide))).trans h.fences
  engines := (ha.part a t .engines (hp _ (by decide))).trans h.engines
  chairs := (ha.part a t .chairs (hp _ (by decide))).trans h.chairs
  due := (ha.part a t .due (hp _ (by decide))).trans h.due
  tlb := (ha.part a t .tlb (hp _ (by decide))).trans h.tlb

/-- A cold reset empties the staging, the object store and the shades as well. -/
structure MemoriesReset (t : State) : Prop where
  stag : t.stag = []
  objs : t.objs = []
  shades : t.shades = []

theorem MemoriesReset.run {ps : List Part} {offs : List Nat} {a : Act} {t : State} (h : MemoriesReset t) (ha : a.Only ps offs)
    (hp : ∀ p ∈ [Part.stag, .objs, .shades], p ∉ ps) : MemoriesReset (a.run t) where
  stag := (ha.part a t .stag (hp _ (by decide))).trans h.stag
  objs := (ha.part a t .objs (hp _ (by decide))).trans h.objs
  shades := (ha.part a t .shades (hp _ (by decide))).trans h.shades

theorem tablesReset_resetTables (kind : Nat) (s : State) : TablesReset ((resetTables kind).run s) := by
  by_cases hk : kind = rkCold <;> constructor <;> simp [resetTables, hk] <;> rfl

theorem memoriesReset_resetTables (s : State) : MemoriesReset ((resetTables rkCold).run s) := by
  constructor <;> simp [resetTables] <;> rfl

/-- The pieces that the emptying of the tables may touch. -/
def wipedParts : List Part :=
  tableParts ++ [.stag, .objs, .lanemem, .shades, .errq, .trace, .pmb, .wicks, .elder, .ports, .wbq, .lanes, .freeSeq, .fillLeft,
    .fillAt, .fillEnd, .tlbInv, .descUsed, .laneWicks, .cup, .gov]

theorem only_resetTables (kind : Nat) : (resetTables kind).Only wipedParts [] := by
  simp [resetTables, wipedParts, tableParts, UpdIn, Upd.part]

/-- The pieces that the reset of the blocks may touch. -/
def blockParts : List Part := [.lamp, .host, .wheel, .ptm, .zhn, .kindle, .tap, .otp, .pwr, .boot, .pmb, .wicks]

theorem only_resetBlocks (kind : Nat) : (resetBlocks kind).Only blockParts [] := by
  intro s
  by_cases hk : kind = rkDevice <;>
    simp [hk, blockParts, UpdIn, Upd.part]

/-- The last two loops of the reset of the blocks are of the PMBus ports and the pins. -/
theorem only_resetPins : (acts [forEach (List.range 4) fun p => modPmbp p fun x => { PmbPort.init with alert := x.alert },
    forEach (List.range 64) fun w => .ask fun s => modWick w fun x =>
      { x with parkEnd := none, level := s.wckFunc w != 0 && x.pad }]).Only [.pmb, .wicks] [] := by
  simp

theorem resetBlocks_pwr (kind : Nat) (s : State) : ((resetBlocks kind).run s).pwr = State.reset.pwr := by
  simp only [resetBlocks, run_ask, run_acts_cons]
  rw [← run_acts_cons]
  exact (only_resetPins.part _ _ .pwr (by decide)).trans rfl

theorem resetBlocks_otp (kind : Nat) (s : State) : ((resetBlocks kind).run s).otp = { s.otp with
    hold := [], burning := s.otp.burning && kind != rkCold,
    words := if s.otp.burning && kind == rkCold then [] else s.otp.words } := by
  simp only [resetBlocks, run_ask, run_acts_cons]
  rw [← run_acts_cons]
  refine (only_resetPins.part _ _ .otp (by decide)).trans ?_
  by_cases hk : kind = rkDevice <;> by_cases hc : kind = rkCold <;> simp [hk, hc] <;> rfl

/-! ### The registers after a cold and a warm reset -/

/-- A field put at the value it has at reset leaves a register that reads its Reset word as it is. -/
theorem word_put_zero {f : Fld} {s : State} (hw : Regs.wf s.regs = true) (hoff : f.off < 0x1000)
    (hz : putField (regReset f.off) f 0 &&& BitVec.ofNat 32 (regMask f.off) = regReset f.off)
    (hs : s.word 0 f.off = regReset f.off) (inst off : Nat) : ((put f 0).run s).word inst off = s.word inst off := by
  show ((Upd.reg (f.off + 0x1000 * 0) (putField (s.word 0 f.off) f 0)).apply s).word inst off = s.word inst off
  by_cases hk : off + 0x1000 * inst = f.off + 0x1000 * 0
  · have hkey : ∀ t : State, t.word inst off = t.word 0 f.off := fun t => by simp only [State.word, hk]
    rw [hkey, hkey, hs]
    cases hh : hardWired f.off with
    | false => exact (word_setReg_same s 0 f.off _ hw hoff hh).trans (hs ▸ hz)
    | true => simpa [State.word, setReg, keyOff, Nat.mod_eq_of_lt hoff, hh] using hs
  · exact word_setReg_ne s _ inst off _ hw hk

/-- The word TRC_STAT alone outlives the emptying of the registers in a warm reset. -/
def TrcStatOnly (t : State) : Prop :=
  Regs.wf t.regs = true ∧ ∀ inst off, off < 0x1000 → off ≠ 0x9C4 → t.word inst off = regReset off

theorem TrcStatOnly.put_zero {f : Fld} {t : State} (h : TrcStatOnly t) (hoff : f.off < 0x1000) (hne : f.off ≠ 0x9C4)
    (hz : putField (regReset f.off) f 0 &&& BitVec.ofNat 32 (regMask f.off) = regReset f.off) :
    TrcStatOnly ((put f 0).run t) :=
  ⟨Act.run_regs_wf _ _ h.1, fun inst off ho hn =>
    (word_put_zero h.1 hoff hz (h.2 0 f.off hoff hne) inst off).trans (h.2 inst off ho hn)⟩

theorem TrcStatOnly.run {a : Act} {ps : List Part} {t : State} (h : TrcStatOnly t) (ha : a.Only ps [0x9C4]) :
    TrcStatOnly (a.run t) :=
  ⟨Act.run_regs_wf _ _ h.1, fun inst off ho hn =>
    (ha.word a t h.1 inst off ho (by simpa using hn)).trans (h.2 inst off ho hn)⟩

theorem trcStatOnly_resetRegs (s : State) : TrcStatOnly ((resetRegs rkWarm).run s) := by
  have h0 : TrcStatOnly ((Upd.keepRegs (fun _ => false)).apply s) :=
    ⟨by simp [Regs.wf, regsFrom], fun inst off ho _ => by
      simp [State.word, keyReset, keyOff_inst off inst ho]⟩
  have h1 := h0.run (a := .upd (.reg 0x9C4 (s.word 0 0x9C4))) (ps := []) (List.mem_singleton.2 rfl)
  have h2 := (h1.put_zero (f := F.DEV_PF_STAT_HELD) (by decide) (by decide) (by decide)).put_zero (f := F.KND_CTL_ARM) (by decide)
    (by decide) (by decide)
  have h3 := (h2.put_zero (f := F.GOV_CTL_EN) (by decide) (by decide) (by decide)).run (a := put F.TRC_STAT_FROZEN 1) (ps := [])
    ((only_put _ _ (by decide)).2 (by decide))
  simpa [resetRegs, rkWarm, rkDevice, rkCold] using h3

/-- With no word listed, a field put at zero lists none when its Reset word has it at zero. -/
theorem regs_put_zero {f : Fld} {s : State} (hs : s.regs = [])
    (hz : putField (keyReset f.off) f 0 &&& BitVec.ofNat 32 (regMask (keyOff f.off)) = keyReset f.off) :
    ((put f 0).run s).regs = [] := by
  show setReg s.regs (f.off + 0x1000 * 0) (putField (SMap.get (keyReset (f.off + 0x1000 * 0)) s.regs (f.off + 0x1000 * 0)) f 0) = []
  simp only [hs, Nat.mul_zero, Nat.add_zero, SMap.get, setReg, SMap.set]
  simp [hz]

theorem regs_resetRegs_cold (s : State) : ((resetRegs rkCold).run s).regs = [] := by
  have h0 : ((Upd.keepRegs (fun _ => false)).apply s).regs = [] := by simp
  have h1 := regs_put_zero (f := F.GOV_CTL_EN) (regs_put_zero (f := F.KND_CTL_ARM) (regs_put_zero (f := F.DEV_PF_STAT_HELD) h0
    (by decide)) (by decide)) (by decide)
  simpa [resetRegs, rkWarm, rkDevice, rkCold] using h1

/-- The registers' part of a reset touches no other piece of the state. -/
theorem part_resetRegs (kind : Nat) (s : State) (p : Part) : p.same s ((resetRegs kind).run s) := by
  have hreg : ∀ (f : Fld) (v : Nat), f.off < 0x1000 → (put f v).Only [] (List.range 0x1000) := fun f v h =>
    (only_put f v h).2 (List.mem_range.2 h)
  have hrest : ∀ kept : List (Nat × Word), (acts [forEach kept fun e => .upd (.reg e.1 e.2), put F.DEV_PF_STAT_HELD 0,
      put F.KND_CTL_ARM 0, put F.GOV_CTL_EN 0, when_ (kind != rkCold) (put F.TRC_STAT_FROZEN 1)]).Only [] (List.range 0x1000) := by
    intro kept
    simp only [only_acts_cons, only_acts_nil, only_forEach, only_when, and_true]
    exact ⟨fun e _ => List.mem_range.2 (Nat.mod_lt _ (by decide)), hreg _ _ (by decide), hreg _ _ (by decide), hreg _ _ (by decide),
      fun _ => hreg _ _ (by decide)⟩
  simp only [resetRegs, run_ask]
  rw [run_acts_cons]
  exact Part.same_trans p s _ _ (Upd.apply_same (.keepRegs fun _ => false) s p (by simp [Upd.part]))
    ((hrest _).part _ _ p List.not_mem_nil)

/-! ### The whole reset, cold or warm -/

/-- The pieces that the reset of the paths may touch. -/
def resetPathParts : List Part := [.jobScp, .jobBar, .scp, .bar]

theorem only_resetPaths {kind : Nat} (hk : kind ≠ rkDevice) : (resetPaths kind).Only resetPathParts [] := by
  simp [resetPaths, hk, resetPathParts, UpdIn, Upd.part]

/-- The paths after a cold or warm reset: nothing held, nothing in progress. -/
theorem resetPaths_paths {kind : Nat} (hk : kind ≠ rkDevice) (s : State) :
    ((resetPaths kind).run s).scp = State.reset.scp ∧ ((resetPaths kind).run s).bar = State.reset.bar ∧
      ((resetPaths kind).run s).jobScp = none ∧ ((resetPaths kind).run s).jobBar = none := by
  simp [resetPaths, hk]
  exact ⟨rfl, rfl, rfl⟩

/-- The state of a cold or warm reset behind its registers: tables, blocks and paths. -/
def resetRest (kind : Nat) : Act := acts [resetTables kind, resetBlocks kind, resetPaths kind]

theorem tablesReset_resetRest {kind : Nat} (hk : kind ≠ rkDevice) (s : State) : TablesReset ((resetRest kind).run s) := by
  simp only [resetRest, run_acts_cons, run_acts_nil]
  exact ((tablesReset_resetTables kind s).run (only_resetBlocks kind) (by decide)).run (only_resetPaths hk) (by decide)

theorem memoriesReset_resetRest (s : State) : MemoriesReset ((resetRest rkCold).run s) := by
  simp only [resetRest, run_acts_cons, run_acts_nil]
  exact ((memoriesReset_resetTables s).run (only_resetBlocks _) (by decide)).run (only_resetPaths (by decide)) (by decide)

theorem pwr_resetRest {kind : Nat} (hk : kind ≠ rkDevice) (s : State) : ((resetRest kind).run s).pwr = State.reset.pwr := by
  simp only [resetRest, run_acts_cons, run_acts_nil]
  exact ((only_resetPaths hk).part _ _ .pwr (by decide)).trans (resetBlocks_pwr kind _)

theorem hashEn_resetRest {kind : Nat} (hk : kind ≠ rkDevice) (s : State) :
    ((resetRest kind).run s).otp.hashEn = s.otp.hashEn := by
  simp only [resetRest, run_acts_cons, run_acts_nil]
  have hpaths := (only_resetPaths hk).part _ ((resetBlocks kind).run ((resetTables kind).run s)) .otp (by decide)
  have htables := (only_resetTables kind).part _ s .otp (by decide)
  have hblocks := congrArg Otp.hashEn (resetBlocks_otp kind ((resetTables kind).run s))
  have hwiped : ((resetTables kind).run s).otp.hashEn = s.otp.hashEn := congrArg Otp.hashEn htables
  exact (congrArg Otp.hashEn hpaths).trans (hblocks.trans hwiped)

/-- What a cold or warm reset touches behind its registers. -/
theorem only_resetRest {kind : Nat} (hk : kind ≠ rkDevice) :
    (resetRest kind).Only (wipedParts ++ blockParts ++ resetPathParts) [] := by
  simp only [resetRest, only_acts_cons, only_acts_nil, and_true]
  exact ⟨(only_resetTables kind).mono (by simp) (by simp), (only_resetBlocks kind).mono (by intro p hp; simp [hp]) (by simp),
    (only_resetPaths hk).mono (by intro p hp; simp [hp]) (by simp)⟩

/-- The straps as a cold or warm reset samples them (R526). -/
def strapsOf (x : Straps) : Straps := { x with bootSrc := x.bootSrc % 4, peerId := x.peerId % 4 }

theorem run_resetGo_some (kind : Nat) (x : Straps) (s : State) :
    (resetGo kind (some x)).run s = (resetRest kind).run ((resetRegs kind).run ((Upd.straps (strapsOf x)).apply s)) := by
  simp [resetGo, resetRest, strapsOf]

/-- What a cold and a warm reset have in common: the pieces a reset of either kind leaves behind. -/
structure ResetEnd (x : Straps) (s t : State) : Prop where
  tables : TablesReset t
  pwr : t.pwr = State.reset.pwr
  straps : t.straps = strapsOf x
  scp : t.scp = State.reset.scp
  bar : t.bar = State.reset.bar
  jobScp : t.jobScp = none
  jobBar : t.jobBar = none
  hashEn : t.otp.hashEn = s.otp.hashEn

theorem resetEnd_resetGo {kind : Nat} (hk : kind ≠ rkDevice) (x : Straps) (s : State) :
    ResetEnd x s ((resetGo kind (some x)).run s) := by
  rw [run_resetGo_some]
  have hregs := part_resetRegs kind ((Upd.straps (strapsOf x)).apply s)
  generalize hr : (resetRegs kind).run ((Upd.straps (strapsOf x)).apply s) = r at hregs
  have hpaths := resetPaths_paths hk ((resetBlocks kind).run ((resetTables kind).run r))
  refine ⟨tablesReset_resetRest hk r, pwr_resetRest hk r, ?_, ?_, ?_, ?_, ?_, ?_⟩
  · exact ((only_resetRest hk).part _ r .straps (by decide)).trans (hregs .straps)
  · simpa only [resetRest, run_acts_cons, run_acts_nil] using hpaths.1
  · simpa only [resetRest, run_acts_cons, run_acts_nil] using hpaths.2.1
  · simpa only [resetRest, run_acts_cons, run_acts_nil] using hpaths.2.2.1
  · simpa only [resetRest, run_acts_cons, run_acts_nil] using hpaths.2.2.2
  · exact (hashEn_resetRest hk r).trans (congrArg Otp.hashEn (hregs .otp))

/-- Time leaves the OTP as it was. -/
theorem otp_tickBy (n : Nat) (s : State) : ((tickBy n).run s).otp = s.otp :=
  (only_tickBy (ps := timeParts) (offs := timeOffs) n (fun _ h => h) (fun _ h => h)).part _ s .otp (by decide)

theorem coldReset_next (x : Straps) (s : State) :
    ∃ t, exec (.coldReset x) s = .next t ∧ t.regs = [] ∧ MemoriesReset t ∧ ResetEnd x s t := by
  refine ⟨(coldAct x).run s, rfl, ?_, ?_, ?_⟩ <;>
    simp only [coldAct, run_acts_cons, run_acts_nil]
  · rw [run_resetGo_some]
    exact ((only_resetRest (by decide)).regs _).trans (regs_resetRegs_cold _)
  · rw [run_resetGo_some]; exact memoriesReset_resetRest _
  · obtain ⟨h1, h2, h3, h4, h5, h6, h7, h8⟩ := resetEnd_resetGo (kind := rkCold) (by decide) x ((tickBy (usClocks 1200)).run s)
    exact ⟨h1, h2, h3, h4, h5, h6, h7, h8.trans (congrArg Otp.hashEn (otp_tickBy _ s))⟩

theorem warmReset_next (x : Straps) {ns : Nat} {s : State} (hns : 1000 ≤ ns) (hp : s.pwr.off = false ∨ s.pwr.clockLost = true) :
    ∃ t, exec (.warmReset ns x) s = .next t ∧ TrcStatOnly t ∧ ResetEnd x s t := by
  have hon : (!s.pwr.off || s.pwr.clockLost) = true := by simpa using hp
  have hrun : (warmAct ns x).run s = (resetGo rkWarm (some x)).run ((tickBy (ns * 4 / 5)).run s) := by
    simp only [warmAct, run_ask, run_when, hon, if_true]
    rw [if_neg (by omega), if_neg (by omega), run_acts_cons, run_acts_cons, run_acts_nil]
  refine ⟨(warmAct ns x).run s, rfl, ?_, ?_⟩ <;> rw [hrun]
  · rw [run_resetGo_some]
    exact (trcStatOnly_resetRegs _).run ((only_resetRest (by decide)).mono (fun _ h => h) (by simp))
  · obtain ⟨h1, h2, h3, h4, h5, h6, h7, h8⟩ := resetEnd_resetGo (kind := rkWarm) (by decide) x ((tickBy (ns * 4 / 5)).run s)
    exact ⟨h1, h2, h3, h4, h5, h6, h7, h8.trans (congrArg Otp.hashEn (otp_tickBy _ s))⟩

/-- A pulse on RESET# of less than 100 ns is ignored (R523). -/
theorem warmReset_short (x : Straps) {ns : Nat} (s : State) (hns : ns < 100) : exec (.warmReset ns x) s = .next s := by
  show Host.Outcome.next ((warmAct ns x).run s) = _
  simp only [warmAct, run_ask, run_when]
  rw [if_pos hns, run_skip, ite_self]

theorem only_supplyTripAct : supplyTripAct.Only [.pwr, .kindle, .host] [] := by
  simp [supplyTripAct]

theorem supplyTripAct_link (s : State) : (supplyTripAct.run s).host.link = false := by
  cases hl : s.host.link <;> simp only [supplyTripAct, run_ask, run_acts_cons, run_acts_nil, run_when, hl]
  · exact hl
  · rfl

theorem supplyTripAct_pins (s : State) : (supplyTripAct.run s).pwr = { State.reset.pwr with off := true, pin := .hiZ } ∧
    (supplyTripAct.run s).kindle = { s.kindle with ack := false, nak := false } := by
  cases hl : s.host.link <;> simp only [supplyTripAct, run_ask, run_acts_cons, run_acts_nil, run_when, hl] <;> exact ⟨rfl, rfl⟩

theorem supplyTrip_next (s : State) (hw : s.wf = true) : ∃ t, exec .supplyTrip s = .next t ∧ t.pwr.off = true ∧ t.pwr.pin = .hiZ ∧
    t.kindle.ack = false ∧ t.kindle.nak = false ∧ t.host.link = false ∧ Unchanged [.pwr, .kindle, .host] [] s t := by
  obtain ⟨hpwr, hkindle⟩ := supplyTripAct_pins s
  exact ⟨supplyTripAct.run s, rfl, by rw [hpwr], by rw [hpwr], by rw [hkindle], by rw [hkindle], supplyTripAct_link s,
    only_supplyTripAct.unchanged _ s (State.wf_regs s hw)⟩

/-- Settles O29: each part of the reset keeps what the parts before it left at reset. -/
theorem coldAndWarmResets : Obligations.ColdAndWarmResets := by
  unfold Obligations.ColdAndWarmResets
  intro s x ns hw
  refine ⟨?_, fun hns hp => ?_, warmReset_short x s, supplyTrip_next s hw⟩
  · obtain ⟨t, hexec, hregs, ⟨hstag, hobjs, hshades⟩, ⟨htab, hpwr, hstraps, hscp, hbar, hjs, hjb, hhash⟩⟩ := coldReset_next x s
    obtain ⟨hctxs, hchans, hqueues, hmems, hfences, hengines, -, -, -⟩ := htab
    exact ⟨t, hexec, hregs, by rw [hpwr]; rfl, by rw [hstraps]; rfl, by rw [hstraps]; rfl, by rw [hstraps]; rfl, hctxs, hchans,
      hqueues, hmems, hfences, hengines, hstag, hobjs, hshades, hscp, hbar, hjs, hjb, hhash⟩
  · obtain ⟨t, hexec, htrc, ⟨htab, hpwr, hstraps, hscp, -, hjs, hjb, hhash⟩⟩ := warmReset_next x hns hp
    obtain ⟨hctxs, hchans, hqueues, hmems, hfences, -, -, -, -⟩ := htab
    exact ⟨t, hexec, htrc.2, by rw [hpwr]; rfl, by rw [hstraps]; rfl, by rw [hstraps]; rfl, hctxs, hchans, hqueues, hmems, hfences,
      hscp, hjs, hjb, hhash⟩

end Sys2Proof.Machine
end

section
/-!
SUPPORT. What a device reset keeps of the registers (R579), and of the host link; the HOLD frames before it change only lanes and
trace; and with them the proof for the device reset, the power cycle and the lost clock.
-/

namespace Sys2Proof.Machine

-- The many short proofs are checked one after another, for each would else hold a thread of its own.
set_option Elab.async false

/-! ### The registers a device reset puts back -/

/-- Register words put one after another. -/
def loadRegs (l : List (Nat × Word)) : Act := forEach l fun e => .upd (.reg e.1 e.2)

@[simp] theorem run_loadRegs_cons (e : Nat × Word) (l : List (Nat × Word)) (s : State) :
    (loadRegs (e :: l)).run s = (loadRegs l).run ((Upd.reg e.1 e.2).apply s) := run_forEach_cons _ _ _ _

/-- A key that is not put keeps its word. -/
theorem get_loadRegs_ne {l : List (Nat × Word)} {k : Nat} (hk : ∀ e ∈ l, e.1 ≠ k) {s : State} (hw : Regs.wf s.regs = true) :
    SMap.get (keyReset k) ((loadRegs l).run s).regs k = SMap.get (keyReset k) s.regs k := by
  induction l generalizing s with
  | nil => rfl
  | cons e l ih =>
    have hne : k ≠ e.1 := fun h => hk e (List.mem_cons_self) h.symm
    rw [run_loadRegs_cons, ih (fun x hx => hk x (List.mem_cons_of_mem _ hx)) (setReg_wf _ _ _ hw)]
    simp [setReg_get _ _ _ _ hw, hne]

/-- Listed keys ascend. -/
theorem regsFrom_le {m : SMap Word} {lo : Nat} (h : regsFrom lo m = true) {e : Nat × Word} (he : e ∈ m) : lo ≤ e.1 := by
  induction m generalizing lo with
  | nil => cases he
  | cons x rest ih =>
    simp only [regsFrom, Bool.and_eq_true, decide_eq_true_eq] at h
    rcases List.mem_cons.1 he with rfl | he
    · exact h.1.1
    · have := ih h.2 he; omega

/-- A listed register reads its word. -/
theorem get_of_mem {m : SMap Word} {lo : Nat} (h : regsFrom lo m = true) {k : Nat} {w d : Word} (he : (k, w) ∈ m) :
    SMap.get d m k = w := by
  induction m generalizing lo with
  | nil => cases he
  | cons x rest ih =>
    obtain ⟨xk, xw⟩ := x
    simp only [regsFrom, Bool.and_eq_true, decide_eq_true_eq] at h
    rcases List.mem_cons.1 he with heq | he
    · cases heq; simp [SMap.get]
    · have hlt := regsFrom_le h.2 he
      have h1 : xk ≠ k := by simp only at hlt; omega
      have h2 : ¬ k < xk := by simp only at hlt; omega
      simp [SMap.get, h1, h2, ih h.2 he]

/-- A register put once, from a list in ascending order, reads as it was put. -/
theorem get_loadRegs_mem (g : Nat → Word → Word) {m : SMap Word} {lo : Nat} (hm : regsFrom lo m = true) {k : Nat} {w : Word}
    (he : (k, w) ∈ m) (hh : hardWired (keyOff k) = false) {s : State} (hw : Regs.wf s.regs = true) :
    SMap.get (keyReset k) ((loadRegs (m.map fun e => (e.1, g e.1 e.2))).run s).regs k =
      g k w &&& BitVec.ofNat 32 (regMask (keyOff k)) := by
  induction m generalizing lo s with
  | nil => cases he
  | cons x rest ih =>
    obtain ⟨xk, xw⟩ := x
    simp only [regsFrom, Bool.and_eq_true, decide_eq_true_eq] at hm
    simp only [List.map_cons, run_loadRegs_cons]
    rcases List.mem_cons.1 he with heq | he
    · cases heq
      rw [get_loadRegs_ne _ (setReg_wf _ _ _ hw)]
      · simp [setReg_get _ _ _ _ hw, hh]
      · intro e hin
        obtain ⟨y, hy, rfl⟩ := List.mem_map.1 hin
        have := regsFrom_le hm.2 hy
        simp only; omega
    · exact ih hm.2 he (setReg_wf _ _ _ hw)

/-- The words of a device reset: its first two acts. -/
def deviceRegs : Act := .ask fun s => .seq (.upd (.keepRegs fun _ => false)) (loadRegs (s.regs.map fun e => (e.1, s.deviceWord e.1 e.2)))

/-- A register after a device reset: at its Reset word and there before, or as `deviceWord` has it. -/
theorem word_deviceRegs {s : State} (hw : Regs.wf s.regs = true) {off : Nat} (ho : off < 0x1000) (inst : Nat) :
    ((deviceRegs.run s).word inst off = regReset off ∧ s.word inst off = regReset off) ∨
      (deviceRegs.run s).word inst off =
        s.deviceWord (off + 0x1000 * inst) (s.word inst off) &&& BitVec.ofNat 32 (regMask off) := by
  have hempty : Regs.wf ((Upd.keepRegs fun _ => false).apply s).regs = true := Upd.apply_regs_wf _ _ hw
  have hkey : keyReset (off + 0x1000 * inst) = regReset off := by rw [keyReset, keyOff_inst off inst ho]
  have hsorted : regsFrom 0 s.regs = true := by simp only [Regs.wf, Bool.and_eq_true] at hw; exact hw.1
  by_cases hlisted : ∃ w, (off + 0x1000 * inst, w) ∈ s.regs
  · obtain ⟨w, hin⟩ := hlisted
    have hwired : hardWired (keyOff (off + 0x1000 * inst)) = false := by
      simp only [Regs.wf, Bool.and_eq_true, List.all_eq_true] at hw
      have := hw.2 _ hin
      simp only [regWf, Bool.and_eq_true, Bool.not_eq_true'] at this
      exact this.1
    have hread : s.word inst off = w := get_of_mem hsorted hin
    refine .inr ?_
    have := get_loadRegs_mem s.deviceWord hsorted hin hwired hempty
    rwa [← hread, keyOff_inst off inst ho] at this
  · have hread : s.word inst off = regReset off := by
      rcases regs_get_mem s.regs (off + 0x1000 * inst) (keyReset (off + 0x1000 * inst)) with h | h
      · rw [← hkey]; exact h
      · exact absurd ⟨_, h⟩ hlisted
    refine .inl ⟨?_, hread⟩
    have := get_loadRegs_ne (l := s.regs.map fun e => (e.1, s.deviceWord e.1 e.2)) (k := off + 0x1000 * inst) (by
      intro e he hk
      obtain ⟨y, hy, rfl⟩ := List.mem_map.1 he
      exact hlisted ⟨y.2, by rw [← hk]; exact hy⟩) hempty
    rw [hkey] at this
    simpa [deviceRegs, State.word, hkey, SMap.get] using this

/-! ### Lock bits -/

/-- The last field of a register is its lock, at bit 31, and the fields before it lie below. -/
def lockOnTop (off : Nat) : Bool :=
  match regFind off with
  | none => false
  | some r =>
    let below := r.flds.dropLast
    r.flds == below ++ [⟨31, 31, .lock⟩] && decide ((below.map fun f => (2 ^ (f.hi + 1 - f.lo) - 1) * 2 ^ f.lo).sum < 2 ^ 31)

/-- What a device reset leaves of a locked register keeps its lock. -/
theorem bits_lockedWord {off : Nat} (h : lockOnTop off = true) (w : Word) :
    bits (lockedWord off w).toNat 31 1 = bits w.toNat 31 1 := by
  unfold lockOnTop at h
  unfold lockedWord
  cases hr : regFind off with
  | none => simp [hr] at h
  | some r =>
    simp only [hr, Bool.and_eq_true, decide_eq_true_eq, beq_iff_eq] at h
    obtain ⟨hflds, hsum⟩ := h
    simp only
    rw [hflds, List.map_append, List.sum_append]
    simp only [List.map_cons, List.map_nil, List.sum_cons, List.sum_nil]
    generalize r.flds.dropLast = below at hsum
    have hle : (below.map fun f : RField => (if f.acc == .rwl || f.acc == .lock then bits w.toNat f.lo (f.hi + 1 - f.lo)
        else bits (regReset off).toNat f.lo (f.hi + 1 - f.lo)) * 2 ^ f.lo).sum ≤
        (below.map fun f => (2 ^ (f.hi + 1 - f.lo) - 1) * 2 ^ f.lo).sum := by
      refine List.sum_le_sum fun f _ => Nat.mul_le_mul_right _ ?_
      split <;> exact Nat.le_sub_one_of_lt (bits_lt _ _ _)
    generalize (below.map fun f : RField => (if f.acc == .rwl || f.acc == .lock then bits w.toNat f.lo (f.hi + 1 - f.lo)
        else bits (regReset off).toNat f.lo (f.hi + 1 - f.lo)) * 2 ^ f.lo).sum = low at hle
    have hlow : low < 2 ^ 31 := Nat.lt_of_le_of_lt hle hsum
    have hbit : bits w.toNat 31 1 < 2 := bits_lt _ _ _
    generalize bits w.toNat 31 1 = b at hbit
    simp only [BitVec.toNat_ofNat, bits]
    simp
    omega

/-- The implemented bits of a word hold a field of its register. -/
theorem bits_masked {f : Fld} (hf : f.ok) (w : Word) :
    bits (w &&& BitVec.ofNat 32 (regMask f.off)).toNat f.lo f.width = bits w.toNat f.lo f.width := by
  apply Nat.eq_of_testBit_eq
  intro i
  simp only [testBit_bits, BitVec.toNat_and, BitVec.toNat_ofNat, Nat.testBit_and]
  by_cases hi : i < f.width
  · simp only [Fld.ok_testBit f hf (f.lo + i) (by omega) (by omega), Bool.and_true]
  · simp [hi]

/-- A register kept whole by a device reset keeps its fields. -/
theorem fld_deviceRegs_kept {s : State} (hw : Regs.wf s.regs = true) {f : Fld} (hf : f.ok) (hk : keptOff f.off = true) :
    (deviceRegs.run s).fld f = s.fld f := by
  have hkeyOff : keyOff (f.off + 0x1000 * 0) = f.off := keyOff_inst _ _ hf.1
  rcases word_deviceRegs hw hf.1 0 with ⟨h1, h2⟩ | h
  · simp only [State.fld, State.fldI, h1, h2]
  · have hdev : s.deviceWord (f.off + 0x1000 * 0) (s.word 0 f.off) = s.word 0 f.off := by
      simp only [State.deviceWord, hkeyOff, hk, if_true]
    simp only [State.fld, State.fldI, h, hdev]
    exact bits_masked hf _

/-- The lock bit of a block that a device reset clears keeps its value. -/
theorem lock_deviceRegs {s : State} (hw : Regs.wf s.regs = true) {off : Nat} (hf : (Fld.mk off 31 1).ok)
    (htop : lockOnTop off = true) (hlock : lockField off = ⟨off, 31, 1⟩) (hrst : bits (regReset off).toNat 31 1 = 0)
    (hoff : keptOff off = false ∧ off ≠ 0x28C ∧ off ≠ 0x290 ∧ off ≠ 0x024 ∧ 0x180 ≤ off) :
    (deviceRegs.run s).fld ⟨off, 31, 1⟩ = s.fld ⟨off, 31, 1⟩ := by
  obtain ⟨hkept, h28c, h290, h024, hlow⟩ := hoff
  have hkeyOff : keyOff (off + 0x1000 * 0) = off := keyOff_inst _ _ hf.1
  rcases word_deviceRegs hw hf.1 0 with ⟨h1, h2⟩ | h
  · simp only [State.fld, State.fldI, h1, h2]
  · have hbits : (deviceRegs.run s).fld ⟨off, 31, 1⟩ = bits (s.deviceWord off (s.word 0 off)).toNat 31 1 := by
      simp only [State.fld, State.fldI, h]
      exact bits_masked hf _
    rw [hbits]
    have hdev : s.deviceWord off (s.word 0 off) =
        if s.fld ⟨off, 31, 1⟩ == 1 then lockedWord off (s.word 0 off) else regReset off := by
      have hkey : keyOff off = off := Nat.mod_eq_of_lt hf.1
      simp [State.deviceWord, hkey, hkept, h28c, h290, h024, hlow, State.locked, hlock, State.fld]
    rw [hdev]
    have hlt : s.fld ⟨off, 31, 1⟩ < 2 := bits_lt _ _ _
    by_cases hset : s.fld ⟨off, 31, 1⟩ = 1
    · simp only [hset, beq_self_eq_true, if_true, bits_lockedWord htop]
      exact hset
    · simp only [beq_iff_eq, hset, if_false, hrst]
      omega

/-! ### The device reset -/

/-- The registers' part of a device reset, behind the words it puts back. -/
theorem run_resetRegs_device (s : State) : (resetRegs rkDevice).run s =
    (acts [put F.DEV_PF_STAT_HELD 0, put F.KND_CTL_ARM 0, put F.GOV_CTL_EN 0, put F.TRC_STAT_FROZEN 1]).run (deviceRegs.run s) := by
  simp [resetRegs, deviceRegs, loadRegs, rkDevice, rkCold]

/-- What the last puts of a reset's registers leave of a field of another register. -/
theorem fld_resetRegs_device {s : State} (hw : Regs.wf s.regs = true) {f : Fld} (hf : f.ok)
    (hn : f.off ∉ [F.DEV_PF_STAT_HELD.off, F.KND_CTL_ARM.off, F.GOV_CTL_EN.off, F.TRC_STAT_FROZEN.off]) :
    ((resetRegs rkDevice).run s).fld f = (deviceRegs.run s).fld f := by
  rw [run_resetRegs_device]
  exact Act.Only.fld (ps := []) (offs := [F.DEV_PF_STAT_HELD.off, F.KND_CTL_ARM.off, F.GOV_CTL_EN.off, F.TRC_STAT_FROZEN.off])
    (by simp [only_put _ _ (show F.DEV_PF_STAT_HELD.off < 0x1000 by decide), only_put _ _ (show F.KND_CTL_ARM.off < 0x1000 by decide),
      only_put _ _ (show F.GOV_CTL_EN.off < 0x1000 by decide), only_put _ _ (show F.TRC_STAT_FROZEN.off < 0x1000 by decide)])
    (Act.run_regs_wf _ _ hw) f hf.1 hn

/-- A reset ends the hold, the arming and the governor's enable. -/
theorem resetRegs_device_cleared {s : State} (hw : Regs.wf s.regs = true) : ((resetRegs rkDevice).run s).fld F.DEV_PF_STAT_HELD = 0 ∧
    ((resetRegs rkDevice).run s).fld F.KND_CTL_ARM = 0 ∧ ((resetRegs rkDevice).run s).fld F.GOV_CTL_EN = 0 := by
  rw [run_resetRegs_device]
  have h0 : Regs.wf (deviceRegs.run s).regs = true := Act.run_regs_wf _ _ hw
  have h1 := Act.run_regs_wf (put F.DEV_PF_STAT_HELD 0) _ h0
  have h2 := Act.run_regs_wf (put F.KND_CTL_ARM 0) _ h1
  have h3 := Act.run_regs_wf (put F.GOV_CTL_EN 0) _ h2
  simp only [run_acts_cons, run_acts_nil]
  refine ⟨?_, ?_, ?_⟩
  · rw [fld_put_off _ _ _ _ h3 (by decide), fld_put_off _ _ _ _ h2 (by decide), fld_put_off _ _ _ _ h1 (by decide),
      fld_put_same _ _ _ h0 ((Fld.ok_iff _).2 (by decide))]
    rfl
  · rw [fld_put_off _ _ _ _ h3 (by decide), fld_put_off _ _ _ _ h2 (by decide), fld_put_same _ _ _ h1 ((Fld.ok_iff _).2 (by decide))]
    rfl
  · rw [fld_put_off _ _ _ _ h3 (by decide), fld_put_same _ _ _ h2 ((Fld.ok_iff _).2 (by decide))]
    rfl

theorem host_resetBlocks_device (s : State) : ((resetBlocks rkDevice).run s).host =
    { s.host with outq := [], reads := [], waits := [], walkq := [], tagsUsed := 0 } := by
  simp only [resetBlocks, run_ask, run_acts_cons]
  rw [← run_acts_cons]
  refine (only_resetPins.part _ _ .host (by decide)).trans ?_
  simp [rkDevice, rkCold]
  rfl

/-- A read that is not held is not released. -/
theorem run_readRelease_free {p : Path} {s : State} (h : (s.port p).held = none) : (readRelease p).run s = s := by
  simp [readRelease, h]

/-- With no read held a device reset only forgets the mailboxes' commands. -/
theorem run_resetPaths_device {s : State} (hscp : s.scp.held = none) (hbar : s.bar.held = none) :
    (resetPaths rkDevice).run s = { s with jobScp := none, jobBar := none } := by
  have h1 : ((Upd.jobBar none).apply ((Upd.jobScp none).apply s)).port .scp = s.scp := rfl
  have h2 : ((Upd.jobBar none).apply ((Upd.jobScp none).apply s)).port .bar0 = s.bar := rfl
  simp only [resetPaths, beq_self_eq_true, if_true, run_acts_cons, run_acts_nil, run_upd]
  rw [run_readRelease_free (p := .scp) (by rw [h1]; exact hscp), run_readRelease_free (p := .bar0) (by rw [h2]; exact hbar)]
  rfl

/-- A device reset, with no read held, behind its registers. -/
theorem run_resetGo_device {s : State} (hscp : s.scp.held = none) (hbar : s.bar.held = none) :
    (resetGo rkDevice none).run s =
      { (resetBlocks rkDevice).run ((resetTables rkDevice).run ((resetRegs rkDevice).run s)) with jobScp := none, jobBar := none } := by
  have hfree : ∀ p ∉ wipedParts ++ blockParts,
      p.same s ((resetBlocks rkDevice).run ((resetTables rkDevice).run ((resetRegs rkDevice).run s))) := fun p hp =>
    Part.same_trans p _ _ _ (part_resetRegs rkDevice s p) (Part.same_trans p _ _ _
      ((only_resetTables rkDevice).part _ _ p fun h => hp (List.mem_append_left _ h))
      ((only_resetBlocks rkDevice).part _ _ p fun h => hp (List.mem_append_right _ h)))
  have h1 := hfree .scp (by decide)
  have h2 := hfree .bar (by decide)
  simp only [resetGo, run_acts_cons, run_acts_nil, run_forSome_none]
  exact run_resetPaths_device ((congrArg PathPort.held h1).trans hscp) ((congrArg PathPort.held h2).trans hbar)

theorem fld_forgetJobs (u : State) (f : Fld) : ({ u with jobScp := none, jobBar := none } : State).fld f = u.fld f := rfl

/-- A field behind a device reset is the one behind its registers. -/
theorem fld_resetGo_device {s : State} (hw : Regs.wf s.regs = true) (hscp : s.scp.held = none) (hbar : s.bar.held = none) {f : Fld}
    (hf : f.off < 0x1000) : ((resetGo rkDevice none).run s).fld f = ((resetRegs rkDevice).run s).fld f := by
  rw [run_resetGo_device hscp hbar]
  have hregs : Regs.wf ((resetRegs rkDevice).run s).regs = true := Act.run_regs_wf _ _ hw
  have htables := (only_resetTables rkDevice).fld hregs f hf List.not_mem_nil
  have hblocks := (only_resetBlocks rkDevice).fld (Act.run_regs_wf (resetTables rkDevice) _ hregs) f hf List.not_mem_nil
  rw [fld_forgetJobs, hblocks, htables]

/-- The pieces that HOLD frames change. -/
def holdParts : List Part := timeParts ++ [.trace, .ports]

/-- The registers that HOLD frames change. -/
def holdOffs : List Nat := timeOffs ++ [F.TRC_STAT_WR.off, F.TRC_CNT_DROP.off]

theorem only_advanceTo {ps : List Part} {offs : List Nat} (clk : Nat) (hp : timeParts ⊆ ps) (ho : timeOffs ⊆ offs) :
    (advanceTo clk).Only ps offs := fun _ => only_tickBy _ hp ho

theorem only_settleTx {ps : List Part} {offs : List Nat} (l : Nat) (hp : .lanes ∈ ps) : (settleTx l).Only ps offs := by
  simp [settleTx, hp]

theorem only_txFree {ps : List Part} {offs : List Nat} (l : Nat) (hp : timeParts ⊆ ps) (ho : timeOffs ⊆ offs) :
    (txFree l).Only ps offs := by
  simp [txFree, only_advanceTo _ hp ho, only_settleTx l (hp (show .lanes ∈ timeParts by decide))]

theorem only_startBcast {ps : List Part} {offs : List Nat} (l cmd : Nat) (payload : List Byte) (hp : .lanes ∈ ps) :
    (startBcast l cmd payload).Only ps offs := by
  simp [startBcast, hp]

theorem only_setLaneSt {ps : List Part} {offs : List Nat} (l : Nat) (st : LaneSt) (hp : [.trace, .ports, .lanes] ⊆ ps)
    (ho : [F.TRC_STAT_WR.off, F.TRC_CNT_DROP.off] ⊆ offs) : (setLaneSt l st).Only ps offs := by
  have hp' := hp
  simp only [List.cons_subset, List.nil_subset, and_true] at hp'
  simp [setLaneSt, only_traceRec _ _ (show [.trace, .ports] ⊆ ps by simp [hp']) ho, hp']

theorem only_rxAnswer {ps : List Part} {offs : List Nat} (l : Nat) (hp : timeParts ⊆ ps) (ho : timeOffs ⊆ offs) :
    (rxAnswer l).Only ps offs := by
  simp [rxAnswer, txChars, only_txFree l hp ho, hp (show .lanes ∈ timeParts by decide)]

theorem only_holdStart (l : Nat) : (holdStart l).Only holdParts holdOffs := by
  simp [holdStart, only_txFree l (ps := holdParts) (offs := holdOffs) (by decide) (by decide),
    only_rxAnswer l (ps := holdParts) (offs := holdOffs) (by decide) (by decide),
    only_startBcast l _ _ (ps := holdParts) (offs := holdOffs) (by decide)]

theorem only_holdEnter (l : Nat) : (holdEnter l).Only holdParts holdOffs := by
  simp [holdEnter, only_advanceTo _ (ps := holdParts) (offs := holdOffs) (by decide) (by decide),
    only_setLaneSt l _ (ps := holdParts) (offs := holdOffs) (by decide) (by decide), show .lanes ∈ holdParts by decide]

theorem only_holdFrames (ls : List Nat) : (holdFrames ls).Only holdParts holdOffs := by
  simp [holdFrames, only_holdStart, only_holdEnter]

theorem run_deviceResetAct {s : State} (hon : s.pwr.off = false) (hseq : s.pwr.seq = some true) (hk : s.kindle.entry = none) :
    deviceResetAct.run s = (resetGo rkDevice none).run (quiesceLanes.run s) := by
  simp [deviceResetAct, hon, hseq, hk]

/-- The lock of a block behind a device reset is the one before. -/
theorem lock_resetGo_device {s : State} (hw : Regs.wf s.regs = true) (hscp : s.scp.held = none) (hbar : s.bar.held = none) {f : Fld}
    (hf : f.ok) (hn : f.off ∉ [F.DEV_PF_STAT_HELD.off, F.KND_CTL_ARM.off, F.GOV_CTL_EN.off, F.TRC_STAT_FROZEN.off])
    (hkept : (deviceRegs.run s).fld f = s.fld f) : ((resetGo rkDevice none).run s).fld f = s.fld f :=
  (fld_resetGo_device hw hscp hbar hf.1).trans ((fld_resetRegs_device hw hf hn).trans hkept)

/-- What a device reset leaves of the state it finds, with no read held. -/
structure DeviceResetEnd (s t : State) : Prop where
  tables : TablesReset t
  link : t.host.link = s.host.link
  table : t.host.table = s.host.table
  gen : t.host.gen = s.host.gen
  width : t.host.width = s.host.width
  reads : t.host.reads = []
  outq : t.host.outq = []
  pwr : t.pwr = State.reset.pwr
  straps : t.straps = s.straps
  held : t.fld F.DEV_PF_STAT_HELD = 0
  arm : t.fld F.KND_CTL_ARM = 0
  gov : t.fld F.GOV_CTL_EN = 0
  whl : t.fld F.WHL_CTL_LOCK = s.fld F.WHL_CTL_LOCK
  prt : t.fld F.PRT_CTL_LOCK = s.fld F.PRT_CTL_LOCK
  cup : t.fld F.CUP_CTL_LOCK = s.fld F.CUP_CTL_LOCK

/-- What is behind a reset's registers, tables and blocks. -/
theorem tablesReset_device (s : State) :
    TablesReset ((resetBlocks rkDevice).run ((resetTables rkDevice).run ((resetRegs rkDevice).run s))) :=
  (tablesReset_resetTables _ _).run (only_resetBlocks _) (by decide)

/-- The host link behind a device reset: what was on its way is gone. -/
theorem host_device (s : State) :
    ((resetBlocks rkDevice).run ((resetTables rkDevice).run ((resetRegs rkDevice).run s))).host =
      { s.host with outq := [], reads := [], waits := [], walkq := [], tagsUsed := 0 } := by
  have htables := (only_resetTables rkDevice).part _ ((resetRegs rkDevice).run s) .host (by decide)
  have hregs := part_resetRegs rkDevice s .host
  rw [host_resetBlocks_device, show _ = _ from htables.trans hregs]

theorem straps_device (s : State) :
    ((resetBlocks rkDevice).run ((resetTables rkDevice).run ((resetRegs rkDevice).run s))).straps = s.straps :=
  ((only_resetBlocks rkDevice).part _ _ .straps (by decide)).trans
    (((only_resetTables rkDevice).part _ _ .straps (by decide)).trans (part_resetRegs rkDevice s .straps))

theorem deviceResetEnd_resetGo {s : State} (hw : Regs.wf s.regs = true) (hscp : s.scp.held = none) (hbar : s.bar.held = none) :
    DeviceResetEnd s ((resetGo rkDevice none).run s) := by
  obtain ⟨hheld, harm, hgov⟩ := resetRegs_device_cleared hw
  have hlock : ∀ off : Nat, (Fld.mk off 31 1).ok → lockOnTop off = true → lockField off = ⟨off, 31, 1⟩ →
      bits (regReset off).toNat 31 1 = 0 →
      (keptOff off = false ∧ off ≠ 0x28C ∧ off ≠ 0x290 ∧ off ≠ 0x024 ∧ 0x180 ≤ off) →
      off ∉ [F.DEV_PF_STAT_HELD.off, F.KND_CTL_ARM.off, F.GOV_CTL_EN.off, F.TRC_STAT_FROZEN.off] →
      ((resetGo rkDevice none).run s).fld ⟨off, 31, 1⟩ = s.fld ⟨off, 31, 1⟩ := fun off hf htop hl hrst ho hn =>
    lock_resetGo_device hw hscp hbar hf hn (lock_deviceRegs hw hf htop hl hrst ho)
  have htables := tablesReset_device s
  have hhost := host_device s
  have hstraps := straps_device s
  have hpwr := resetBlocks_pwr rkDevice ((resetTables rkDevice).run ((resetRegs rkDevice).run s))
  have hrun := run_resetGo_device hscp hbar
  generalize (resetBlocks rkDevice).run ((resetTables rkDevice).run ((resetRegs rkDevice).run s)) = u at htables hhost hstraps hpwr hrun
  have hhost' : ((resetGo rkDevice none).run s).host = { s.host with outq := [], reads := [], waits := [], walkq := [], tagsUsed := 0 } := by
    rw [hrun]; exact hhost
  obtain ⟨h1, h2, h3, h4, h5, h6, h7, h8, h9⟩ := htables
  refine ⟨?_, by rw [hhost'], by rw [hhost'], by rw [hhost'], by rw [hhost'], by rw [hhost'], by rw [hhost'], ?_, ?_, ?_, ?_, ?_, ?_, ?_, ?_⟩
  · rw [hrun]; exact ⟨h1, h2, h3, h4, h5, h6, h7, h8, h9⟩
  · rw [hrun]; exact hpwr
  · rw [hrun]; exact hstraps
  · exact (fld_resetGo_device hw hscp hbar (by decide)).trans hheld
  · exact (fld_resetGo_device hw hscp hbar (by decide)).trans harm
  · exact (fld_resetGo_device hw hscp hbar (by decide)).trans hgov
  · exact lock_resetGo_device hw hscp hbar ((Fld.ok_iff _).2 (by decide)) (by decide)
      (fld_deviceRegs_kept hw ((Fld.ok_iff _).2 (by decide)) (by decide))
  · exact hlock 0x280 ((Fld.ok_iff _).2 (by decide)) (by decide) (by decide) (by decide) (by decide) (by decide)
  · exact hlock 0x2C4 ((Fld.ok_iff _).2 (by decide)) (by decide) (by decide) (by decide) (by decide) (by decide)

/-! ### The rows -/

/-- What the HOLD frames of a quiesced device leave as it was. -/
theorem unchanged_quiesceLanes {s : State} (hw : Regs.wf s.regs = true) : Unchanged holdParts holdOffs s (quiesceLanes.run s) :=
  (only_holdFrames _).unchanged _ s hw

theorem deviceReset_next {s : State} (hr : Running s) (hseq : s.pwr.seq = some true) (hk : s.kindle.entry = none)
    (hscp : s.scp.held = none) (hbar : s.bar.held = none) : ∃ t, exec .deviceReset s = .next t ∧ DeviceResetEnd s t := by
  have hw := State.wf_regs s hr.1
  obtain ⟨-, hpart, -⟩ := unchanged_quiesceLanes hw
  have hfld := fun f h hn => (only_holdFrames (List.range 8)).fld hw f h hn
  have hend := deviceResetEnd_resetGo (s := quiesceLanes.run s) (Act.run_regs_wf _ _ hw)
    ((congrArg PathPort.held (hpart .scp (by decide))).trans hscp) ((congrArg PathPort.held (hpart .bar (by decide))).trans hbar)
  have hhost : (quiesceLanes.run s).host = s.host := hpart .host (by decide)
  refine ⟨_, row_next hr (run_deviceResetAct hr.2.1 hseq hk), ?_⟩
  obtain ⟨h1, h2, h3, h4, h5, h6, h7, h8, h9, h10, h11, h12, h13, h14, h15⟩ := hend
  exact ⟨h1, hhost ▸ h2, hhost ▸ h3, hhost ▸ h4, hhost ▸ h5, h6, h7, h8, h9.trans (hpart .straps (by decide)), h10, h11, h12,
    h13.trans (hfld _ (by decide) (by decide)), h14.trans (hfld _ (by decide) (by decide)), h15.trans (hfld _ (by decide) (by decide))⟩

theorem pwrcycReq_next {s : State} (hr : Running s) (hseq : s.pwr.seq = some false) (hk : s.kindle.entry = none) :
    ∃ t, exec .pwrcycReq s = .next t ∧ t.pwr.pin = .low ∧ t.pwr.quiesced = true ∧ t.pwr.seq = none := by
  refine ⟨_, row_next hr (t := { quiesceLanes.run s with
    pwr := { (quiesceLanes.run s).pwr with seq := none, quiesced := true, pin := .low } }) ?_, rfl, rfl, rfl⟩
  simp only [pwrcycReqAct, run_ask, run_when, hr.2.1, hseq, hk]
  rfl

theorem clockFailure_next {s : State} (hr : Running s) : ∃ t, exec .clockFailure s = .next t ∧ t.pwr.off = true ∧
    t.pwr.clockLost = true ∧ (s.fld F.ERR_CTL_AUTO_CYC = 1 → t.pwr.pin = .low) ∧
    (s.fld F.ERR_CTL_AUTO_CYC = 0 → t.pwr.pin = s.pwr.pin) ∧ Unchanged [.pwr] [] s t := by
  have honly : clockFailureAct.Only [.pwr] [] := by simp [clockFailureAct]
  have hpwr : (clockFailureAct.run s).pwr =
      { s.pwr with off := true, clockLost := true, pin := if s.flag F.ERR_CTL_AUTO_CYC then .low else s.pwr.pin } := by
    simp [clockFailureAct, hr.2.1, modPwr]
  refine ⟨clockFailureAct.run s, row_next hr rfl, by rw [hpwr], by rw [hpwr], fun h => ?_, fun h => ?_,
    honly.unchanged _ s (State.wf_regs s hr.1)⟩
  · rw [hpwr]; simp [State.flag, h]
  · rw [hpwr]; simp [State.flag, h]

/-- Settles O28: the HOLD frames touch lanes and trace alone, and the reset keeps the WHL block and the set locks. -/
theorem deviceResetAndPowerCycle : Obligations.DeviceResetAndPowerCycle := by
  unfold Obligations.DeviceResetAndPowerCycle
  intro s hr
  refine ⟨fun hseq hk hscp hbar => ?_, pwrcycReq_next hr, clockFailure_next hr⟩
  obtain ⟨t, hexec, ⟨htab, hlink, htable, hgen, hwidth, hreads, houtq, hpwr, hstraps, hheld, harm, hgov, hwhl, hprt, hcup⟩⟩ :=
    deviceReset_next hr hseq hk hscp hbar
  obtain ⟨hctxs, hchans, hqueues, hmems, hfences, -, hchairs, hdue, htlb⟩ := htab
  have hpf : t.pfHeld = false := by simp [State.pfHeld, State.flag, hheld]
  exact ⟨t, hexec, hctxs, hchans, hqueues, hmems, hfences, hchairs, hdue, htlb, hlink, htable, hgen, hwidth, hreads, houtq, hpf,
    by rw [hpwr]; rfl, hwhl, hprt, hcup, harm, hgov, hstraps⟩

end Sys2Proof.Machine
end

section
/-!
SUPPORT. A state whose list of register words names DEV_PF_CNT twice, which the statement does not rule out, and what a device
reset makes of it.
-/

namespace Sys2Proof.Machine

-- The many short proofs are checked one after another, for each would else hold a thread of its own.
set_option Elab.async false

/-- An accepted device reset, with DEV_PF_CNT listed at 5 and behind that at its Reset word. -/
def pfCntTwice : State :=
  { State.reset with
    pwr := { State.reset.pwr with off := false, seq := some true }
    regs := [(0x060, 5), (0x060, 0)] }

/-- A device reset puts the listed words back one after another, and the last one stays. -/
theorem pfCntTwice_lowered : pfCntTwice.fld F.DEV_PF_CNT_REQS = 5 ∧
    ((row deviceResetAct).run pfCntTwice).fld F.DEV_PF_CNT_REQS = 0 := by decide +kernel

/-- Refutes O7: a device reset lowers a DEV_PF_CNT that the register words of the state list twice. -/
theorem not_counterClearZeroes : ¬ Obligations.CounterClearZeroes := by
  intro h
  obtain ⟨-, -, hkept, -⟩ := h
  obtain ⟨hbefore, hafter⟩ := pfCntTwice_lowered
  obtain ⟨hle, -⟩ := hkept .deviceReset pfCntTwice _ rfl rfl
  exact absurd (hbefore.symm.trans_le (hle.trans_eq hafter)) (by decide)

end Sys2Proof.Machine
end

section
/-!
SUPPORT. What the commands leave of the fuses and the straps, and what stops, function resets and faults leave of the channels,
the lanes, the power control and function resets: the relation, the updates that keep it, and the combinators.
-/

namespace Sys2Proof.Machine

-- The many short proofs are checked one after another, for each would else hold a thread of its own.
set_option Elab.async false

/-! ### The relation -/

/-- Burned fuses stay burned. -/
def Otp.Stays (x y : Otp) : Prop :=
  x.hashEn = true → x.burning = false → y.hashEn = true ∧ y.burning = false ∧ y.words = x.words

/-- A function reset in force stays so. -/
def HostLink.Stays (x y : HostLink) : Prop := x.fr = true → y.fr = true

/-- No chain runs and none is due. -/
def Chan.Rests (x : Chan) : Prop := x.run = none ∧ x.subs = []

/-- The descriptor is an operation that the device performs as one whole (R268); `op` is the Cupboard's operation. -/
def Cur.whole (op : Option CupOp) (c : Nat) (d : Cur) : Bool :=
  match d.phase with
  | .done _ => false
  | .fenceRsp => true
  | .chairRsp => dOp d.words == 0x31
  | .flush => dOp d.words == 0x22 && d.after.isNone
  | .cup => (match op with | some o => o.chan == c | none => false)
  | _ => dOp d.words == 0x38 && d.data.isSome

/-- The channel's current descriptor is such an operation. -/
def Chan.whole (op : Option CupOp) (c : Nat) (x : Chan) : Bool := (x.run.bind (·.cur)).any (·.whole op c)

theorem atomicBusy_eq (s : State) (c : Nat) : s.atomicBusy c = (s.chan c).whole s.cup.op c := by
  unfold State.atomicBusy State.cur Chan.whole
  cases (s.chan c).run.bind (·.cur) with
  | none => rfl
  | some d => simp only [Option.any_some, Cur.whole] <;> cases d.phase <;> rfl

/-- A channel that rests goes on resting, and another rests or stays in its context, is neither freed nor begins to die, and begins
no operation that is performed as one whole.  Where `N` holds no chain starts. -/
structure Chan.Stays (N : Prop) (op : Option CupOp) (c : Nat) (x y : Chan) : Prop where
  rests : x.Rests → y.Rests
  same : y.Rests ∨ (y.ctx = x.ctx ∧ (x.st ≠ .free → y.st ≠ .free) ∧ (x.st ≠ .dying → y.st ≠ .dying) ∧
    (x.whole op c = false → y.whole op c = false))
  chainless : N → x.run = none → y.run = none

/-- The fuses and the straps stay.  Where `G` holds, so do the power control, DEV_PWR.STANDBY, the lanes' states but for lanes that
go down, and a function reset; where `D` holds as well, the channels stay as said above. -/
structure Steady (G D N : Prop) (s t : State) : Prop where
  otp : s.otp.Stays t.otp
  straps : t.straps = s.straps
  pwr : G → t.pwr = s.pwr
  standby : G → t.word 0 0x010 = s.word 0 0x010
  lanes : G → ∀ l, (t.lane l).st = (s.lane l).st ∨ (t.lane l).st = .down
  host : G → s.host.Stays t.host
  op : D → t.cup.op = s.cup.op
  chans : G → D → ∀ c, (s.chan c).Stays N s.cup.op c (t.chan c)

section
variable {G D N : Prop} {s t u : State} {op : Option CupOp} {c : Nat}

theorem Otp.Stays.refl (x : Otp) : x.Stays x := fun h1 h2 => ⟨h1, h2, rfl⟩

theorem Otp.Stays.trans {x y z : Otp} (h : x.Stays y) (h' : y.Stays z) : x.Stays z := fun h1 h2 => by
  obtain ⟨g1, g2, g3⟩ := h h1 h2
  obtain ⟨k1, k2, k3⟩ := h' g1 g2
  exact ⟨k1, k2, k3.trans g3⟩

theorem HostLink.Stays.refl (x : HostLink) : x.Stays x := fun h => h

theorem HostLink.Stays.trans {x y z : HostLink} (h : x.Stays y) (h' : y.Stays z) : x.Stays z := fun hfr => h' (h hfr)

theorem Chan.Stays.refl (x : Chan) : x.Stays N op c x :=
  ⟨fun h => h, .inr ⟨rfl, fun h => h, fun h => h, fun h => h⟩, fun _ h => h⟩

theorem Chan.Stays.trans {x y z : Chan} (h : x.Stays N op c y) (h' : y.Stays N op c z) : x.Stays N op c z where
  rests hr := h'.rests (h.rests hr)
  same := by
    rcases h'.same with hz | ⟨hctx', hfree', hdying', hwhole'⟩
    · exact .inl hz
    · rcases h.same with hy | ⟨hctx, hfree, hdying, hwhole⟩
      · exact .inl (h'.rests hy)
      · exact .inr ⟨hctx'.trans hctx, fun g => hfree' (hfree g), fun g => hdying' (hdying g), fun g => hwhole' (hwhole g)⟩
  chainless hN hr := h'.chainless hN (h.chainless hN hr)

theorem Steady.refl (s : State) : Steady G D N s s where
  otp := Otp.Stays.refl _
  straps := rfl
  pwr _ := rfl
  standby _ := rfl
  lanes _ _ := .inl rfl
  host _ := HostLink.Stays.refl _
  op _ := rfl
  chans _ _ _ := Chan.Stays.refl _

theorem Steady.trans (h : Steady G D N s t) (h' : Steady G D N t u) : Steady G D N s u where
  otp := h.otp.trans h'.otp
  straps := h'.straps.trans h.straps
  pwr g := (h'.pwr g).trans (h.pwr g)
  standby g := (h'.standby g).trans (h.standby g)
  lanes g l := by
    rcases h'.lanes g l with hl | hl
    · rw [hl]; exact h.lanes g l
    · exact .inr hl
  host g := (h.host g).trans (h'.host g)
  op hD := (h'.op hD).trans (h.op hD)
  chans g hD c := (h.chans g hD c).trans (h.op hD ▸ h'.chans g hD c)

/-! ### The meanings that keep it -/

/-- The update puts in place only what stays as the relation to `s` asks. -/
@[simp] def Upd.steady (G D N : Prop) (s : State) : Upd → Prop
  | .otp x => s.otp.Stays x
  | .straps _ => False
  | .pwr x => G → x = s.pwr
  | .reg key _ => G → key ≠ 0x010
  | .keepRegs keep => G → keep 0x010 = true
  | .lane l x => G → x.st = (s.lane l).st ∨ x.st = .down
  | .host x => G → s.host.Stays x
  | .cup x => D → x.op = s.cup.op
  | .chan c x => G → D → (s.chan c).Stays N s.cup.op c x
  | .wipe _ => ¬ G
  | _ => True

/-- So does every update of the meaning, as long as the state is related so. -/
def Act.Steady (G D N : Prop) (s : State) : Act → Prop
  | .skip => True
  | .upd x => x.steady G D N s
  | .seq a b => a.Steady G D N s ∧ b.Steady G D N s
  | .ask k => ∀ u, (G → u.wf = true) → Machine.Steady G D N s u → (k u).Steady G D N s

/-- The pieces of state the relation speaks of. -/
def steadyParts : List Part := [.otp, .straps, .pwr, .lanes, .host, .cup, .chans]

theorem Steady.of_same (h : ∀ p ∈ steadyParts, p.same s t) (hw : t.regs = s.regs) : Steady G D N s t := by
  have hotp : t.otp = s.otp := h .otp (by decide)
  have hlanes : t.lanes = s.lanes := h .lanes (by decide)
  have hhost : t.host = s.host := h .host (by decide)
  have hcup : t.cup = s.cup := h .cup (by decide)
  have hchans : t.chans = s.chans := h .chans (by decide)
  exact {
    otp := hotp ▸ Otp.Stays.refl _
    straps := h .straps (by decide)
    pwr := fun _ => h .pwr (by decide)
    standby := fun _ => by rw [State.word, State.word, hw]
    lanes := fun _ l => .inl (by rw [State.lane, hlanes, State.lane])
    host := fun _ => hhost ▸ HostLink.Stays.refl _
    op := fun _ => by rw [hcup]
    chans := fun _ _ c => by rw [State.chan, State.chan, hchans]; exact Chan.Stays.refl _ }

theorem State.wf_lanes {s : State} (h : s.wf = true) : SMap.wf Lane.init s.lanes = true := ((s.wf_iff.1 h).2.2 .lanes :)

/-- Kept words are found where they were. -/
theorem get_filter_kept {m : SMap Word} {lo : Nat} (hm : regsFrom lo m = true) (keep : Nat → Bool) (k : Nat) (d : Word)
    (hk : keep k = true) : SMap.get d (m.filter fun e => keep e.1) k = SMap.get d m k := by
  induction m generalizing lo with
  | nil => rfl
  | cons e rest ih =>
    obtain ⟨x, v⟩ := e
    simp only [regsFrom, Bool.and_eq_true, decide_eq_true_eq] at hm
    have hrest := ih hm.2
    cases hx : keep x with
    | true => simp only [List.filter_cons, hx, if_true, SMap.get, hrest]
    | false =>
      have hne : x ≠ k := fun h => by rw [h, hk] at hx; cases hx
      simp only [List.filter_cons, hx, Bool.false_eq_true, if_false, hrest, SMap.get, hne]
      split
      · next hlt => exact regs_get_below rest (x + 1) k d hm.2 (by omega)
      · rfl

theorem Upd.steady_apply {x : Upd} (hx : x.steady G D N s) (hw : G → u.wf = true) (hu : Machine.Steady G D N s u) :
    Machine.Steady G D N s (x.apply u) := by
  cases x with
  | otp x => exact { hu with otp := hx }
  | straps x => exact hx.elim
  | pwr x => exact { hu with pwr := hx }
  | reg key w =>
    refine { hu with standby := fun g => ?_ }
    rw [word_setReg_ne u key 0 0x010 w (State.wf_regs u (hw g)) (hx g).symm]
    exact hu.standby g
  | keepRegs keep =>
    refine { hu with standby := fun g => ?_ }
    have hregs := State.wf_regs u (hw g)
    simp only [Regs.wf, Bool.and_eq_true] at hregs
    exact (get_filter_kept hregs.1 keep _ _ (hx g)).trans (hu.standby g)
  | lane l x =>
    refine { hu with lanes := fun g m => ?_ }
    rw [lane_after l m x u (State.wf_lanes (hw g))]
    split
    · next h => exact h ▸ hx g
    · exact hu.lanes g m
  | host x => exact { hu with host := hx }
  | cup x => exact { hu with op := hx }
  | chan c x =>
    refine { hu with chans := fun g hD d => ?_ }
    rw [chan_after c d x u (State.wf_chans (hw g))]
    split
    · next h => exact h ▸ hx g hD
    · exact hu.chans g hD d
  | wipe w =>
    have hG : ∀ {p : Prop}, G → p := fun g => absurd g hx
    have hotp : ((Upd.wipe w).apply u).otp = u.otp := by cases w <;> rfl
    have hstraps : ((Upd.wipe w).apply u).straps = u.straps := by cases w <;> rfl
    have hcup : ((Upd.wipe w).apply u).cup = u.cup := by cases w <;> rfl
    exact ⟨hotp ▸ hu.otp, hstraps.trans hu.straps, fun g => hG g, fun g => hG g, fun g => hG g, fun g => hG g,
      fun hD => (congrArg Cup.op hcup).trans (hu.op hD), fun g => hG g⟩
  | mem m a b =>
    refine hu.trans (Steady.of_same (fun p hp => Upd.apply_same _ u p ?_) (Upd.apply_regs _ u _ rfl))
    cases m <;> rintro ⟨⟩ <;> simp [steadyParts] at hp
  | _ =>
    refine hu.trans (Steady.of_same (fun p hp => Upd.apply_same _ u p ?_) (Upd.apply_regs _ u _ rfl))
    rintro ⟨⟩ <;> simp [steadyParts] at hp

theorem Act.Steady.run {a : Act} (ha : a.Steady G D N s) (hw : G → u.wf = true) (hu : Machine.Steady G D N s u) :
    Machine.Steady G D N s (a.run u) := by
  induction a generalizing u with
  | skip => exact hu
  | upd x => exact x.steady_apply ha hw hu
  | seq a b iha ihb => exact ihb ha.2 (fun g => Act.run_wf a u (hw g)) (iha ha.1 hw hu)
  | ask k ih => exact ih u (ha u hw hu) hw hu

theorem Act.Steady.steady {a : Act} (h : a.Steady G D N s) (hw : G → s.wf = true) : Machine.Steady G D N s (a.run s) :=
  h.run hw (Machine.Steady.refl s)

end

/-! ### Combinators -/

section
variable {G D N : Prop} {s : State} {α : Type}

@[simp] theorem steady_skip : Act.skip.Steady G D N s := trivial
@[simp] theorem steady_upd (x : Upd) : (Act.upd x).Steady G D N s ↔ x.steady G D N s := Iff.rfl
@[simp] theorem steady_seq (a b : Act) : (Act.seq a b).Steady G D N s ↔ a.Steady G D N s ∧ b.Steady G D N s := Iff.rfl
@[simp] theorem steady_acts_nil : (acts []).Steady G D N s := trivial
@[simp] theorem steady_acts_cons (a : Act) (l : List Act) :
    (acts (a :: l)).Steady G D N s ↔ a.Steady G D N s ∧ (acts l).Steady G D N s := by
  cases l <;> simp [acts]
@[simp] theorem steady_when (b : Bool) (a : Act) : (when_ b a).Steady G D N s ↔ (b = true → a.Steady G D N s) := by
  cases b <;> simp [when_]
@[simp] theorem steady_ite (c : Prop) [Decidable c] (a b : Act) :
    (if c then a else b).Steady G D N s ↔ (c → a.Steady G D N s) ∧ (¬c → b.Steady G D N s) := by split <;> simp_all
@[simp] theorem steady_forEach (l : List α) (f : α → Act) : (forEach l f).Steady G D N s ↔ ∀ x ∈ l, (f x).Steady G D N s := by
  induction l with
  | nil => simp [forEach]
  | cons x l ih => simp only [forEach, List.map_cons, steady_acts_cons] at *; simp [ih]
@[simp] theorem steady_forSome (o : Option α) (f : α → Act) :
    (forSome o f).Steady G D N s ↔ ∀ x, o = some x → (f x).Steady G D N s := by
  cases o <;> simp [forSome]
@[simp] theorem steady_rep (n : Nat) {a : Act} (h : a.Steady G D N s) : (rep n a).Steady G D N s := by
  induction n with
  | zero => trivial
  | succ n ih => exact ⟨h, ih⟩
/-- A meaning that is steady whatever state it sees. -/
theorem steady_ask {k : State → Act} (h : ∀ u, (k u).Steady G D N s) : (Act.ask k).Steady G D N s := fun u _ _ => h u
@[simp] theorem steady_ask_iff (k : State → Act) : (Act.ask k).Steady G D N s ↔
    ∀ u, (G → u.wf = true) → Steady G D N s u → (k u).Steady G D N s := Iff.rfl

/-! ### Changes of one piece of state -/

@[simp] theorem steady_modCtx (i : Nat) (f : Ctx → Ctx) : (modCtx i f).Steady G D N s := steady_ask fun _ => trivial
theorem steady_modLane (l : Nat) {f : Lane → Lane} (h : G → ∀ x, (f x).st = x.st ∨ (f x).st = .down) :
    (modLane l f).Steady G D N s := fun u _ hu g => by
  rcases h g (u.lane l) with hl | hl
  · exact hl ▸ hu.lanes g l
  · exact .inr hl
/-- A change of the host link that ends no function reset. -/
theorem steady_modHost {f : HostLink → HostLink} (h : G → ∀ x, HostLink.Stays x (f x)) : (modHost f).Steady G D N s :=
  fun _ _ hu g => (hu.host g).trans (h g _)
theorem steady_modCup {f : Cup → Cup} (h : D → ∀ x, (f x).op = x.op) : (modCup f).Steady G D N s :=
  fun _ _ hu hD => (h hD _).trans (hu.op hD)
/-- A change of a channel to what it may become in any state. -/
theorem steady_modChan (c : Nat) {f : Chan → Chan} (h : D → ∀ x op, Chan.Stays N op c x (f x)) : (modChan c f).Steady G D N s :=
  fun _ _ hu g hD => (hu.chans g hD c).trans (h hD _ _)
theorem steady_modOtp {f : Otp → Otp} (h : ∀ x, Otp.Stays x (f x)) : (modOtp f).Steady G D N s :=
  fun _ _ hu => hu.otp.trans (h _)
theorem steady_modPwr {f : Power → Power} (h : G → ∀ x, f x = x) : (modPwr f).Steady G D N s :=
  fun _ _ hu g => (h g _).trans (hu.pwr g)

@[simp] theorem steady_modQueue (i : Nat) (f : Queue → Queue) : (modQueue i f).Steady G D N s := steady_ask fun _ => trivial
@[simp] theorem steady_modMobj (i : Nat) (f : MemObj → MemObj) : (modMobj i f).Steady G D N s := steady_ask fun _ => trivial
@[simp] theorem steady_modFence (i : Nat) (f : Fence → Fence) : (modFence i f).Steady G D N s := steady_ask fun _ => trivial
@[simp] theorem steady_modEngine (i : Nat) (f : Engine → Engine) : (modEngine i f).Steady G D N s := steady_ask fun _ => trivial
@[simp] theorem steady_modChair (i : Nat) (f : Chair → Chair) : (modChair i f).Steady G D N s := steady_ask fun _ => trivial
@[simp] theorem steady_modPmbp (i : Nat) (f : PmbPort → PmbPort) : (modPmbp i f).Steady G D N s := steady_ask fun _ => trivial
@[simp] theorem steady_modWick (i : Nat) (f : Wick → Wick) : (modWick i f).Steady G D N s := steady_ask fun _ => trivial
@[simp] theorem steady_modWheel (f : Wheel → Wheel) : (modWheel f).Steady G D N s := steady_ask fun _ => trivial
@[simp] theorem steady_modLamp (f : Lamp → Lamp) : (modLamp f).Steady G D N s := steady_ask fun _ => trivial
@[simp] theorem steady_modPtm (f : Ptm → Ptm) : (modPtm f).Steady G D N s := steady_ask fun _ => trivial
@[simp] theorem steady_modKindle (f : Kindle → Kindle) : (modKindle f).Steady G D N s := steady_ask fun _ => trivial
@[simp] theorem steady_modGov (f : Gov → Gov) : (modGov f).Steady G D N s := steady_ask fun _ => trivial
@[simp] theorem steady_modZhn (f : Zhn → Zhn) : (modZhn f).Steady G D N s := steady_ask fun _ => trivial
@[simp] theorem steady_modBoot (f : Boot → Boot) : (modBoot f).Steady G D N s := steady_ask fun _ => trivial
@[simp] theorem steady_modScp (f : PathPort → PathPort) : (modScp f).Steady G D N s := steady_ask fun _ => trivial
@[simp] theorem steady_modBar (f : PathPort → PathPort) : (modBar f).Steady G D N s := steady_ask fun _ => trivial
@[simp] theorem steady_modZport (p : Nat) (f : ZPort → ZPort) : (modZport p f).Steady G D N s := steady_modZhn _
@[simp] theorem steady_storeBytes (m : MemId) (a : Nat) (l : List Byte) : (storeBytes m a l).Steady G D N s := by
  induction l generalizing a with
  | nil => trivial
  | cons b rest ih => exact ⟨trivial, ih (a + 1)⟩
@[simp] theorem steady_drawFree {k : Nat → Act} (h : ∀ n, (k n).Steady G D N s) : (drawFree k).Steady G D N s :=
  steady_ask fun _ => ⟨trivial, h _⟩
@[simp] theorem steady_takeFreeSeq {k : Nat → Act} (h : ∀ n, (k n).Steady G D N s) : (takeFreeSeq k).Steady G D N s :=
  steady_ask fun _ => ⟨trivial, h _⟩

/-! ### Where only the fuses and the straps matter -/

@[simp] theorem loose_modLane (i : Nat) (f : Lane → Lane) : (modLane i f).Steady False D N s := steady_modLane i False.elim
@[simp] theorem loose_modHost (f : HostLink → HostLink) : (modHost f).Steady False D N s := steady_modHost False.elim
@[simp] theorem loose_modCup (f : Cup → Cup) : (modCup f).Steady G False N s := steady_modCup False.elim
@[simp] theorem loose_modChan (i : Nat) (f : Chan → Chan) : (modChan i f).Steady G False N s := steady_modChan i False.elim
@[simp] theorem loose_modPwr (f : Power → Power) : (modPwr f).Steady False D N s := steady_modPwr False.elim

end

end Sys2Proof.Machine
end

section
/-!
SUPPORT. Steady meanings: registers, memories, objects, channels and their accesses.  One lemma per function of the model, in the
model's order.
-/

namespace Sys2Proof.Machine

-- The many short proofs are checked one after another, for each would else hold a thread of its own.
set_option Elab.async false

section
variable {G D N : Prop} {s : State} {α : Type}

/-! ### What a channel may become -/

theorem Chan.whole_map {op : Option CupOp} {c : Nat} {x y : Chan} {f : Run → Run} (h : ∀ r, (f r).cur = r.cur)
    (hy : y.run = x.run.map f := by rfl) : y.whole op c = x.whole op c := by
  rw [Chan.whole, Chan.whole, hy]
  cases x.run with
  | none => rfl
  | some r => simp [h]

theorem Chan.whole_modCur {op : Option CupOp} {c : Nat} {x : Chan} {f : Cur → Cur}
    (h : ∀ d, d.whole op c = false → (f d).whole op c = false) (hx : x.whole op c = false) :
    ({ x with run := x.run.map fun r => { r with cur := r.cur.map f } } : Chan).whole op c = false := by
  unfold Chan.whole at *
  cases hr : x.run with
  | none => rfl
  | some r =>
    cases hd : r.cur with
    | none => simp [hd]
    | some d => simpa [hd] using h d (by simpa [hr, hd] using hx)

/-- A change of a run that keeps its descriptor. -/
theorem Chan.stays_run {N : Prop} {op : Option CupOp} {c : Nat} {x y : Chan} {f : Run → Run} (hrun : y.run = x.run.map f)
    (hsubs : y.subs = x.subs) (hctx : y.ctx = x.ctx) (hst : y.st = x.st) (h : ∀ r, (f r).cur = r.cur) : x.Stays N op c y where
  rests hr := ⟨by rw [hrun, hr.1]; rfl, hsubs.trans hr.2⟩
  same := .inr ⟨hctx, by rw [hst]; exact fun h => h, by rw [hst]; exact fun h => h, by rw [Chan.whole_map h hrun]; exact fun h => h⟩
  chainless _ hr := by rw [hrun, hr]; rfl

/-- A change of a channel that keeps its chain, its submissions and its context, and neither frees it nor kills it. -/
theorem Chan.stays_of {N : Prop} {op : Option CupOp} {c : Nat} {x y : Chan} (hrun : y.run = x.run) (hsubs : y.subs = x.subs)
    (hctx : y.ctx = x.ctx) (hfree : x.st ≠ .free → y.st ≠ .free) (hdying : x.st ≠ .dying → y.st ≠ .dying) : x.Stays N op c y where
  rests hr := ⟨hrun.trans hr.1, hsubs.trans hr.2⟩
  same := .inr ⟨hctx, hfree, hdying, by simp only [Chan.whole, hrun]; exact fun h => h⟩
  chainless _ hr := hrun.trans hr

/-- A channel may come to rest. -/
theorem Chan.stays_rest {N : Prop} {op : Option CupOp} {c : Nat} {x y : Chan} (hy : y.Rests) : x.Stays N op c y where
  rests _ := hy
  same := .inl hy
  chainless _ _ := hy.1

/-- The chain ends; submissions may. -/
theorem Chan.stays_end {N : Prop} {op : Option CupOp} {c : Nat} {x y : Chan} (hrun : y.run = none)
    (hsubs : x.subs = [] → y.subs = []) (hctx : y.ctx = x.ctx) (hfree : x.st ≠ .free → y.st ≠ .free)
    (hdying : x.st ≠ .dying → y.st ≠ .dying) : x.Stays N op c y where
  rests hr := ⟨hrun, hsubs hr.2⟩
  same := .inr ⟨hctx, hfree, hdying, fun _ => by simp [Chan.whole, hrun]⟩
  chainless _ _ := hrun

/-- A change of a channel as `Chan.stays_of` has it. -/
@[simp] theorem steady_modChan_kept (c : Nat) {f : Chan → Chan} (hrun : ∀ x, (f x).run = x.run) (hsubs : ∀ x, (f x).subs = x.subs)
    (hctx : ∀ x, (f x).ctx = x.ctx) (hfree : ∀ x, x.st ≠ .free → (f x).st ≠ .free)
    (hdying : ∀ x, x.st ≠ .dying → (f x).st ≠ .dying) : (modChan c f).Steady G D N s :=
  steady_modChan c fun _ x _ => Chan.stays_of (hrun x) (hsubs x) (hctx x) (hfree x) (hdying x)

/-- A change of a lane that keeps its state. -/
@[simp] theorem steady_modLane_kept (l : Nat) {f : Lane → Lane} (h : ∀ x, (f x).st = x.st) : (modLane l f).Steady G D N s :=
  steady_modLane l fun _ x => .inl (h x)
/-- A change of the host link that is no function reset. -/
@[simp] theorem steady_modHost_kept {f : HostLink → HostLink} (hfr : ∀ x, (f x).fr = x.fr) : (modHost f).Steady G D N s :=
  steady_modHost fun _ x h => (hfr x).trans h
/-- A change of the Cupboard that keeps its operation. -/
@[simp] theorem steady_modCup_kept {f : Cup → Cup} (h : ∀ x, (f x).op = x.op) : (modCup f).Steady G D N s := steady_modCup fun _ => h

/-! ### Registers, counters and events -/

@[simp] theorem steady_putWord (inst off : Nat) (w : Word) (h : G → 0x010 < off) : (putWord inst off w).Steady G D N s :=
  fun g => Nat.ne_of_gt (Nat.lt_of_lt_of_le (h g) (Nat.le_add_right _ _))
@[simp] theorem steady_putI (inst : Nat) (f : Fld) (v : Nat) (h : G → 0x010 < f.off) : (putI inst f v).Steady G D N s :=
  steady_ask fun _ => steady_putWord _ _ _ h
@[simp] theorem steady_put (f : Fld) (v : Nat) (h : G → 0x010 < f.off) : (put f v).Steady G D N s := steady_putI 0 f v h
@[simp] theorem steady_countBy (f : Fld) (n : Nat) (h : G → 0x010 < f.off) : (countBy f n).Steady G D N s :=
  steady_ask fun _ => steady_put _ _ h
@[simp] theorem steady_count (f : Fld) (h : G → 0x010 < f.off) : (count f).Steady G D N s := steady_countBy f 1 h
@[simp] theorem steady_raiseVec (v : Nat) : (raiseVec v).Steady G D N s := steady_modHost fun _ x h => by
  split <;> exact h
@[simp] theorem steady_withAlert (inst off : Nat) {a : Act} (ha : a.Steady G D N s) : (withAlert inst off a).Steady G D N s :=
  steady_ask fun _ => by simp [ha]
@[simp] theorem steady_eventI (inst : Nat) (f : Fld) (h : G → 0x010 < f.off) : (eventI inst f).Steady G D N s :=
  steady_withAlert _ _ (steady_putI _ _ _ h)
@[simp] theorem steady_event (f : Fld) (h : G → 0x010 < f.off) : (event f).Steady G D N s := steady_eventI 0 f h

/-! ### Passing time, trace records, posted errors and packets -/

@[simp] theorem steady_fillGroup : fillGroup.Steady G False N s := steady_ask fun _ => by simp +decide
@[simp] theorem steady_fillBy (n : Nat) : (fillBy n).Steady G False N s := steady_ask fun _ => by simp
@[simp] theorem steady_wbqDrain (n : Nat) : (wbqDrain n).Steady G False N s := steady_ask fun _ => by simp
@[simp] theorem steady_eofBy (n : Nat) : (eofBy n).Steady G False N s := steady_ask fun _ => by simp
@[simp] theorem steady_tickBy (n : Nat) : (tickBy n).Steady G False N s := steady_ask fun _ => by simp
@[simp] theorem steady_advanceTo (clk : Nat) : (advanceTo clk).Steady G False N s := steady_ask fun _ => by simp
@[simp] theorem steady_advanceToWheel (t : WTime) : (advanceToWheel t).Steady False False False s := steady_ask fun _ => by simp
@[simp] theorem steady_portBeat (q : FReq) (res : Nat) : (portBeat q res).Steady G D N s := steady_ask fun _ => by simp
@[simp] theorem steady_traceRec (typ : Nat) (data : List Byte) : (traceRec typ data).Steady G D N s := steady_ask fun _ => by simp +decide
@[simp] theorem steady_zPut (port : Nat) (urgent : Bool) (p : Pkt) : (zPut port urgent p).Steady G D N s := steady_ask fun _ => by simp
@[simp] theorem steady_zQueue (port : Nat) (p : Pkt) : (zQueue port p).Steady G D N s := by simp [zQueue]
@[simp] theorem steady_zSend (typ dst : Nat) (user : Bool) (opId : Nat) (body : List Byte) :
    (zSend typ dst user opId body).Steady G D N s := steady_ask fun _ => by simp
@[simp] theorem steady_zAnswer (typ dst opId : Nat) (body : List Byte) : (zAnswer typ dst opId body).Steady G False N s := by simp [zAnswer]
@[simp] theorem steady_postBytes (body : Nat → List Byte) : (postBytes body).Steady G D N s := steady_ask fun _ => by simp +decide
@[simp] theorem steady_postErr (e : ErrInfo) : (postErr e).Steady G D N s := steady_ask fun _ => by simp
@[simp] theorem steady_postPlain (code block info0 info1 : Nat) : (postPlain code block info0 info1).Steady G D N s := by
  simp [postPlain]
@[simp] theorem steady_whlEvent (f : Fld) (posted : Bool) (h : G → 0x010 < f.off) : (whlEvent f posted).Steady G D N s :=
  steady_ask fun _ => by simp [steady_event f h]

/-! ### Fabric ports -/

@[simp] theorem steady_lateGrant (l : WTime) (n : Nat) : (lateGrant l n).Steady G D N s := steady_ask fun _ => by simp +decide
@[simp] theorem steady_arbitrate (key : Nat) (l : List (Nat × Rank)) {grant : Nat → Act} (h : ∀ n, (grant n).Steady G D N s) :
    (arbitrate key l grant).Steady G D N s := steady_ask fun _ => by
  dsimp only
  split <;> simp +decide [h]
@[simp] theorem steady_portGrant (q : FReq) (res beats : Nat) : (portGrant q res beats).Steady G D N s := steady_ask fun _ => by simp
@[simp] theorem steady_portDrop (res : Nat) : (portDrop res).Steady False False False s := by simp [portDrop]
@[simp] theorem steady_memGrant (q : FReq) (space a n : Nat) : (memGrant q space a n).Steady G D N s := by simp [memGrant]
@[simp] theorem steady_wbqPut (res : Nat) (b : WBeat) : (wbqPut res b).Steady G D N s := steady_ask fun _ => by simp

/-! ### Buffers, the directory and writes to memory -/

@[simp] theorem steady_protCapture (a : Access) (cause region shade : Nat) : (protCapture a cause region shade).Steady G False N s :=
  steady_ask fun _ => by simp +decide
@[simp] theorem steady_storeByte (space a : Nat) (b : Byte) : (storeByte space a b).Steady G D N s := by simp [storeByte]
@[simp] theorem steady_drainLine (l : WLine) : (drainLine l).Steady G D N s := by simp [drainLine]
@[simp] theorem steady_flushKeep (e : Nat) (l : WLine) : (flushKeep e l).Steady G D N s := by simp [flushKeep]
@[simp] theorem steady_flushLine (e : Nat) (l : WLine) : (flushLine e l).Steady G D N s := by simp [flushLine]
@[simp] theorem steady_flushEngine (e : Nat) : (flushEngine e).Steady G D N s := steady_ask fun _ => by simp
@[simp] theorem steady_giveUp (e space line : Nat) : (giveUp e space line).Steady G D N s := steady_ask fun _ => by simp
@[simp] theorem steady_shareLine (e space line : Nat) : (shareLine e space line).Steady False False False s :=
  steady_ask fun _ => by simp
@[simp] theorem steady_recalled : recalled.Steady G D N s := by simp +decide [recalled]
@[simp] theorem steady_dirGrant (q : FReq) : (dirGrant q).Steady G D N s := by simp [dirGrant]
@[simp] theorem steady_touchReadLine (q : FReq) (eng : Option Nat) (space line : Nat) :
    (touchReadLine q eng space line).Steady G False N s := by simp +decide [touchReadLine]
@[simp] theorem steady_touchRead (q : FReq) (eng : Option Nat) (space a n : Nat) : (touchRead q eng space a n).Steady G False N s :=
  steady_ask fun _ => by simp +decide
@[simp] theorem steady_touchWriteLine (q : FReq) (eng : Option Nat) (space line : Nat) :
    (touchWriteLine q eng space line).Steady G D N s := (steady_forEach _ _).2 fun _ _ => steady_ask fun _ => by split <;> simp
@[simp] theorem steady_cacheRead (q : FReq) (e space a n : Nat) : (cacheRead q e space a n).Steady False False False s := steady_ask fun _ =>
  ⟨by simp, (steady_when _ _).2 fun _ => ⟨by simp, (steady_forEach _ _).2 fun _ _ => steady_ask fun _ => by split <;> simp,
    by simp, by simp⟩, by simp⟩
@[simp] theorem steady_wcbRoom (e : Nat) : (wcbRoom e).Steady G False N s := steady_ask fun _ => by simp
@[simp] theorem steady_otherWriteBe (q : FReq) (space a : Nat) (bs : List Byte) (be : List Bool) :
    (otherWriteBe q space a bs be).Steady G D N s := by simp [otherWriteBe]
@[simp] theorem steady_otherWrite (q : FReq) (space a : Nat) (bs : List Byte) : (otherWrite q space a bs).Steady G D N s := by
  simp [otherWrite]
@[simp] theorem steady_shadeRange (first n shade : Nat) : (shadeRange first n shade).Steady G False N s := by simp [shadeRange]
@[simp] theorem steady_internalWrite (space a : Nat) (bs : List Byte) : (internalWrite space a bs).Steady False False False s :=
  steady_ask fun _ => by dsimp only; split <;> simp
@[simp] theorem steady_govRefused (space a off cause region shade : Nat) (acc : Access) :
    (govRefused space a off cause region shade acc).Steady G False N s := by simp [govRefused]
@[simp] theorem steady_govWrite (space a : Nat) (bs : List Byte) : (govWrite space a bs).Steady G False N s :=
  steady_ask fun _ => by dsimp only; split <;> simp
@[simp] theorem steady_govRead (a n : Nat) {k : Option (List Byte) → Act} (h : ∀ x, (k x).Steady False False False s) :
    (govRead a n k).Steady False False False s := steady_ask fun _ => by
  dsimp only
  split <;> simp [h]

/-! ### Waits, fences and memory objects -/

@[simp] theorem steady_modRun (c : Nat) {f : Run → Run} (h : ∀ r, (f r).cur = r.cur) : (modRun c f).Steady G D N s :=
  steady_modChan c fun _ _ _ => Chan.stays_run rfl rfl rfl rfl h
/-- A change of a descriptor that begins no operation performed as one whole. -/
theorem steady_modCur (c : Nat) {f : Cur → Cur} (h : D → ∀ op d, d.whole op c = false → (f d).whole op c = false) :
    (modCur c f).Steady G D N s := by
  unfold modCur modRun
  exact steady_modChan c fun hD x op => {
    rests := fun hr => ⟨by simp [hr.1], hr.2⟩
    same := .inr ⟨rfl, fun h => h, fun h => h, Chan.whole_modCur (h hD op)⟩
    chainless := fun _ hr => by simp [hr] }
@[simp] theorem steady_modCur_free (c : Nat) (f : Cur → Cur) : (modCur c f).Steady G False N s := steady_modCur c False.elim
/-- A change of a descriptor that keeps what it does and how far it is. -/
@[simp] theorem steady_modCur_kept (c : Nat) {f : Cur → Cur} (hphase : ∀ d, (f d).phase = d.phase) (hwords : ∀ d, (f d).words = d.words)
    (hdata : ∀ d, (f d).data = d.data) (hafter : ∀ d, (f d).after = d.after) : (modCur c f).Steady G D N s :=
  steady_modCur c fun _ op d hd => by
    simpa only [Cur.whole, hphase, hwords, hdata, hafter] using hd
@[simp] theorem steady_makeQueued (c : Nat) : (makeQueued c).Steady G D N s := by
  refine steady_ask fun u => steady_modChan c fun _ x op => ?_
  exact {
    rests := fun hr => ⟨by simp [hr.1], hr.2⟩
    same := .inr ⟨rfl, by simp, by simp, fun hx => (Chan.whole_map (x := x) (f := fun r => { r with q := u.now, i := u.now })
      (fun _ => rfl)).trans hx⟩
    chainless := fun _ hr => by simp [hr] }
@[simp] theorem steady_descDone (c status : Nat) : (descDone c status).Steady G D N s :=
  steady_ask fun _ => steady_modCur _ fun _ _ _ _ => rfl
@[simp] theorem steady_releaseWait (c status : Nat) : (releaseWait c status).Steady G D N s := by simp [releaseWait]
@[simp] theorem steady_zForward (peer typ : Nat) (user : Bool) (what : ZFor) (body : List Byte) :
    (zForward peer typ user what body).Steady G D N s := steady_ask fun _ => by simp
@[simp] theorem steady_fenForward (i : Nat) (user : Bool) (what : ZFor) (op : FenOp) : (fenForward i user what op).Steady G D N s :=
  steady_ask fun _ => by simp
@[simp] theorem steady_chairUnwait (w : Sitter) : (chairUnwait w).Steady G D N s := steady_ask fun _ => by simp
@[simp] theorem steady_fenTell (i : Nat) (dead : Bool) : (fenTell i dead).Steady G D N s := steady_ask fun _ => by simp
@[simp] theorem steady_wakeFence (i : Nat) : (wakeFence i).Steady G D N s :=
  steady_ask fun _ => (steady_forEach _ _).2 fun _ _ => by split <;> simp
@[simp] theorem steady_fenceTo (i : Nat) (v : DWord) : (fenceTo i v).Steady G D N s := steady_ask fun _ => by simp
@[simp] theorem steady_fenceSet (i : Nat) (v : DWord) : (fenceSet i v).Steady False False False s := steady_ask fun _ => by simp
@[simp] theorem steady_fenceInc (i : Nat) : (fenceInc i).Steady G D N s := steady_ask fun _ => by simp
@[simp] theorem steady_fenceTryFree (i : Nat) : (fenceTryFree i).Steady G D N s := steady_ask fun _ => by simp
@[simp] theorem steady_abortFenceWaits (i : Nat) : (abortFenceWaits i).Steady G False N s :=
  steady_ask fun _ => (steady_forEach _ _).2 fun _ _ => by split <;> simp
@[simp] theorem steady_fenceDestroyReq (i : Nat) : (fenceDestroyReq i).Steady G False N s := by simp [fenceDestroyReq]
@[simp] theorem steady_proxyBreak (i : Nat) : (proxyBreak i).Steady False False False s := steady_ask fun _ => by simp
@[simp] theorem steady_unmapRun (ctx first n : Nat) : (unmapRun ctx first n).Steady G D N s := by simp [unmapRun]
@[simp] theorem steady_fenceDropUnattr (i : Nat) : (fenceDropUnattr i).Steady G D N s := by simp [fenceDropUnattr]
@[simp] theorem steady_memFree (i : Nat) : (memFree i).Steady G D N s := steady_ask fun _ => by simp
@[simp] theorem steady_memTryFree (i : Nat) : (memTryFree i).Steady G D N s := steady_ask fun _ => by simp
@[simp] theorem steady_memDestroyReq (i : Nat) : (memDestroyReq i).Steady G False N s := by simp [memDestroyReq]
@[simp] theorem steady_dropRef (r : Bool × Nat) : (dropRef r).Steady G D N s := by simp [dropRef]
@[simp] theorem steady_dropRefs (c : Nat) : (dropRefs c).Steady G D N s := steady_ask fun _ => by simp

/-! ### Reads of host memory and walks -/

@[simp] theorem steady_issueRead (r : HReq) : (issueRead r).Steady G D N s := steady_ask fun _ => by simp +decide
@[simp] theorem steady_readGrants (n : Nat) : (readGrants n).Steady G D N s := by
  induction n with
  | zero => trivial
  | succ n ih => exact steady_ask fun _ => by simp [ih]
@[simp] theorem steady_readPump : readPump.Steady G D N s := steady_ask fun _ => steady_readGrants _
@[simp] theorem steady_raiseRead (r : HReq) : (raiseRead r).Steady G D N s := by simp [raiseRead]
@[simp] theorem steady_postWrite (q : FReq) (k : WKind) (addr : Nat) (bs : List Byte) (ro ns : Bool) (ctx : Nat) :
    (postWrite q k addr bs ro ns ctx).Steady G False N s := steady_ask fun _ => by simp
@[simp] theorem steady_dropRead (r : HRead) : (dropRead r).Steady False False False s := by simp [dropRead]
@[simp] theorem steady_aerLog (e : AerErr) : (aerLog e).Steady False False False s := by simp [aerLog]
@[simp] theorem steady_poisoned : poisoned.Steady False False False s := by simp [poisoned]
@[simp] theorem steady_poisonedWrite : poisonedWrite.Steady False False False s := by simp [poisonedWrite]
@[simp] theorem steady_bar4Refused : bar4Refused.Steady False False False s := by simp [bar4Refused]
@[simp] theorem steady_barDword (be : Nat) {act : Act} (hact : act.Steady False False False s) : (barDword be act).Steady False False False s :=
  steady_ask fun _ => by simp [hact]
@[simp] theorem steady_sendMsix (v : Nat) : (sendMsix v).Steady False False False s := steady_ask fun _ => by simp
@[simp] theorem steady_walkBegin (k : WalkReq) : (walkBegin k).Steady G D N s := steady_ask fun _ => by simp
@[simp] theorem steady_walkPump (n : Nat) : (walkPump n).Steady G D N s := by
  induction n with
  | zero => trivial
  | succ n ih => exact steady_ask fun _ => by simp [ih]
@[simp] theorem steady_walkNext : walkNext.Steady G D N s := steady_ask fun _ => steady_walkPump _
@[simp] theorem steady_startWalk (who : Who) (ctx va : Nat) (write : Bool) (q : FReq) : (startWalk who ctx va write q).Steady G False N s :=
  steady_ask fun _ => by simp +decide
@[simp] theorem steady_tlbPut (t : Tlb) : (tlbPut t).Steady False False False s := steady_ask fun _ => by simp

/-! ### Submissions, chains and stops -/

@[simp] theorem steady_lampPlace (c ctx idx : Nat) (target : WTime) (forced : Bool) :
    (lampPlace c ctx idx target forced).Steady G D N s := steady_ask fun _ => by simp +decide
@[simp] theorem steady_lampArmAct : lampArmAct.Steady G D N s := steady_ask fun _ => by simp
@[simp] theorem steady_lampRearm : lampRearm.Steady G D N s := steady_ask fun _ => by simp
@[simp] theorem steady_lampArm (c : Nat) (target : WTime) (forced : Bool) : (lampArm c target forced).Steady G D N s :=
  ⟨steady_lampRearm, steady_ask fun _ => (steady_ite _ _ _).2 ⟨fun _ => trivial, fun _ => by split <;> simp +decide⟩⟩
@[simp] theorem steady_lampDrop (gone : Nat → Nat → Bool) : (lampDrop gone).Steady G D N s := by simp [lampDrop]
@[simp] theorem steady_lampRelease (c : Nat) : (lampRelease c).Steady G D N s := by simp [lampRelease]
@[simp] theorem steady_lateFire : lateFire.Steady G D N s := by simp +decide [lateFire]
@[simp] theorem steady_addDue (d : Due) : (addDue d).Steady G D N s := steady_ask fun _ => by simp
@[simp] theorem steady_endRecord (c : Nat) (sub : Sub) (status : Nat) (wt : WTime) (bytes : Nat) (intr : Bool)
    (acks : List Nat) (q : FReq) :
    (endRecord c sub status wt bytes intr acks q).Steady G D N s := by simp [endRecord]
@[simp] theorem steady_unstarted (c : Nat) (sub : Sub) (status : Nat) : (unstarted c sub status).Steady G D N s :=
  steady_ask fun _ => by simp
@[simp] theorem steady_queueFree (q : Nat) : (queueFree q).Steady G D N s := by simp [queueFree]
@[simp] theorem steady_queueSettle : queueSettle.Steady G D N s := steady_ask fun _ => by simp
/-- Submissions may end. -/
theorem steady_modSubs (c : Nat) {f : List Sub → List Sub} (h : D → f [] = []) : (modSubs c f).Steady G D N s := by
  simp only [modSubs, steady_acts_cons, steady_queueSettle, steady_acts_nil, and_true]
  exact steady_modChan c fun hD x op => {
    rests := fun hr => ⟨hr.1, by simp [hr.2, h hD]⟩
    same := .inr ⟨rfl, fun h => h, fun h => h, fun h => h⟩
    chainless := fun _ h => h }
@[simp] theorem steady_modSubs_nil (c : Nat) : (modSubs c fun _ => []).Steady G D N s := steady_modSubs c fun _ => rfl
@[simp] theorem steady_modSubs_tail (c : Nat) : (modSubs c List.tail).Steady G D N s := steady_modSubs c fun _ => rfl
@[simp] theorem steady_modSubs_dropWhile (c : Nat) (p : Sub → Bool) : (modSubs c (·.dropWhile p)).Steady G D N s :=
  steady_modSubs c fun _ => rfl
@[simp] theorem loose_modSubs (c : Nat) (f : List Sub → List Sub) : (modSubs c f).Steady G False N s := steady_modSubs c False.elim
@[simp] theorem steady_dropSubs (c status : Nat) : (dropSubs c status).Steady G D N s := steady_ask fun _ => by simp
@[simp] theorem steady_leaveEngine (c : Nat) : (leaveEngine c).Steady G D N s := by simp [leaveEngine]
@[simp] theorem steady_flushOf (c : Nat) : (flushOf c).Steady G D N s := steady_ask fun _ => by simp
@[simp] theorem steady_dropReads (gone : Purpose → Bool) : (dropReads gone).Steady G D N s := by simp [dropReads]
@[simp] theorem steady_killReads (c : Nat) : (killReads c).Steady G D N s := by simp [killReads]
@[simp] theorem steady_addBytes (c n : Nat) : (addBytes c n).Steady G D N s := by simp [addBytes]
@[simp] theorem steady_killForwards (c : Nat) : (killForwards c).Steady G D N s := steady_ask fun _ => by simp
@[simp] theorem steady_leaveBus (c : Nat) : (leaveBus c).Steady G D N s := by simp [leaveBus]
@[simp] theorem steady_creditBack (l pc : Nat) : (creditBack l pc).Steady G D N s := by simp [creditBack]
@[simp] theorem steady_cutFirst (l : Nat) (f : TxFrame) : (cutFirst l f).Steady G D N s := by simp [cutFirst]
@[simp] theorem steady_cutEmit (c : Nat) : (cutEmit c).Steady G D N s := by simp [cutEmit]
@[simp] theorem steady_orphanEmit (c : Nat) : (orphanEmit c).Steady G D N s := by simp [orphanEmit]
@[simp] theorem steady_beginSub (c : Nat) : (beginSub c).Steady G False False s := steady_ask fun _ => by simp
@[simp] theorem steady_startFrom (c fuel : Nat) : (startFrom c fuel).Steady G False False s := by
  induction fuel with
  | zero => trivial
  | succ fuel ih => exact steady_ask fun _ => (steady_ite _ _ _).2 ⟨fun _ => trivial, fun _ => by split <;> simp [ih]⟩
@[simp] theorem steady_startNext (c : Nat) : (startNext c).Steady G False False s := steady_startFrom c 17
@[simp] theorem steady_resumeNext (c : Nat) : (resumeNext c).Steady G False False s := steady_ask fun _ => by simp
@[simp] theorem steady_chanFree (c : Nat) : (chanFree c).Steady G D N s := steady_ask fun _ => by
  simp only [steady_acts_cons, steady_otherWrite, steady_ask_iff, steady_upd, Upd.steady, steady_queueSettle, steady_acts_nil,
    implies_true, and_true, true_and]
  exact steady_takeFreeSeq fun _ => steady_modChan c fun _ _ _ => Chan.stays_rest ⟨rfl, rfl⟩
@[simp] theorem steady_arrive (c : Nat) : (arrive c).Steady G False False s := steady_ask fun _ => by simp
@[simp] theorem steady_stopTo (c : Nat) (st : ChanSt) : (stopTo c st).Steady G False False s := steady_ask fun _ => by simp
@[simp] theorem steady_releaseWaits (c : Nat) : (releaseWaits c).Steady G D N s := by simp [releaseWaits]
@[simp] theorem steady_chainEnd (c status : Nat) : (chainEnd c status).Steady G D N s := steady_ask fun u => by
  simp only [steady_acts_cons, steady_leaveEngine, steady_modSubs_tail, steady_acts_nil, true_and, and_true]
  refine ⟨by split <;> simp, steady_modChan c fun _ x op => Chan.stays_end rfl (fun h => h) rfl ?_ ?_⟩
  · split <;> simp
  · intro h
    simp [h]
@[simp] theorem steady_chainEndNormal (c : Nat) (drained : Bool) : (chainEndNormal c drained).Steady G False False s :=
  steady_ask fun _ => by simp
@[simp] theorem steady_dropWaiting (c : Nat) : (dropWaiting c).Steady G False N s := by simp [dropWaiting]
@[simp] theorem steady_cutTime (c : Nat) : (cutTime c).Steady G D N s := steady_ask fun _ => steady_modRun c fun r => by
  split <;> rfl
@[simp] theorem steady_haltChain (c desc off : Nat) : (haltChain c desc off).Steady G False N s := steady_ask fun _ => by simp
@[simp] theorem steady_haltAt (c desc off : Nat) : (haltAt c desc off).Steady G False False s := by simp [haltAt]
@[simp] theorem steady_haltAfter (c nxt : Nat) : (haltAfter c nxt).Steady G False False s := steady_ask fun _ => by simp
@[simp] theorem steady_abortRun (c status : Nat) : (abortRun c status).Steady G D N s := steady_ask fun _ => by simp
@[simp] theorem steady_abortChan (c status subStatus : Nat) : (abortChan c status subStatus).Steady G False False s :=
  steady_ask fun _ => by dsimp only; split <;> simp
@[simp] theorem steady_stopParked (c : Nat) : (stopParked c).Steady G False False s := steady_ask fun _ => by simp
@[simp] theorem steady_parkChan (c : Nat) (p : Park) : (parkChan c p).Steady G False False s := steady_ask fun _ => by simp
@[simp] theorem steady_queueAt (c : Nat) (p : Park) : (queueAt c p).Steady G False N s := steady_ask fun _ => by simp
@[simp] theorem steady_stallChan (c : Nat) (p : Park) : (stallChan c p).Steady G False False s := by simp [stallChan]
@[simp] theorem steady_captureFault (n status desc chan addr : Nat) : (captureFault n status desc chan addr).Steady G False N s :=
  steady_ask fun _ => by simp
@[simp] theorem steady_holdRefs (n c : Nat) : (holdRefs n c).Steady G False N s := steady_ask fun _ => by simp
@[simp] theorem steady_loseCtx (n c : Nat) : (loseCtx n c).Steady G False False s := steady_ask fun _ => by simp
@[simp] theorem steady_faultAfter (c status desc off addr : Nat) : (faultAfter c status desc off addr).Steady G False False s :=
  steady_ask fun _ => by simp
@[simp] theorem steady_faultChan (c status off : Nat) : (faultChan c status off).Steady G False False s := steady_ask fun _ => by simp
@[simp] theorem steady_progressRecord (c : Nat) (d : Cur) (status bytes : Nat) : (progressRecord c d status bytes).Steady G False N s :=
  steady_ask fun _ => by split <;> simp
@[simp] theorem steady_chainGo (c nxt : Nat) (d : Cur) (ok : Bool) : (chainGo c nxt d ok).Steady G False False s := steady_ask fun _ => by simp
@[simp] theorem steady_finishDesc (c status nxt : Nat) : (finishDesc c status nxt).Steady G False False s := steady_ask fun _ => by simp

/-! ### Fetches, takes and what a descriptor leaves -/

@[simp] theorem steady_fetchCopies (c : Nat) : (fetchCopies c).Steady False False False s := steady_ask fun _ => by simp
@[simp] theorem steady_dropCopies (c space a n : Nat) : (dropCopies c space a n).Steady G False N s := by simp [dropCopies]
@[simp] theorem steady_takeRef (r : Bool × Nat) : (takeRef r).Steady False False False s := by simp [takeRef]
@[simp] theorem steady_take (c idx : Nat) (d : List Word) : (take c idx d).Steady False False False s := steady_ask fun u => by
  dsimp only
  split
  · simp
  · refine (steady_ite _ _ _).2 ⟨by simp, fun _ => ?_⟩
    cases u.handleOf (u.chan c).ctx d <;> simp
@[simp] theorem steady_flushRead (c : Nat) : (flushRead c).Steady G False N s := steady_ask fun _ => by split <;> simp
@[simp] theorem steady_settle (c : Nat) : (settle c).Steady G False False s := steady_ask fun _ => by
  refine (steady_forSome _ _).2 fun _ _ => ?_
  dsimp only
  split
  · refine (steady_ite _ _ _).2 ⟨by simp, fun _ => (steady_ite _ _ _).2 ⟨fun _ => ?_, by simp⟩⟩
    split <;> simp
  · trivial
@[simp] theorem steady_haltIdle (c : Nat) : (haltIdle c).Steady G False False s := by simp [haltIdle]
@[simp] theorem steady_settleStop (c : Nat) : (settleStop c).Steady G False False s := by simp [settleStop]
@[simp] theorem steady_renew (c : Nat) : (renew c).Steady False False False s := steady_ask fun _ => by simp
@[simp] theorem steady_takeFailed (c : Nat) : (takeFailed c).Steady False False False s := steady_ask fun _ => by
  split
  · split <;> simp
  · trivial

/-! ### Grants -/

@[simp] theorem steady_raised {a : Act} (ha : a.Steady False False False s) : (raised a).Steady False False False s := steady_ask fun _ => by simp [ha]
@[simp] theorem steady_movedBytes (c n : Nat) : (movedBytes c n).Steady G False N s := steady_ask fun _ => by simp
@[simp] theorem steady_spendGrant (c : Nat) : (spendGrant c).Steady False False False s := by simp [spendGrant]
@[simp] theorem steady_grantBegin (e c : Nat) : (grantBegin e c).Steady False False False s := steady_ask fun _ => by simp
@[simp] theorem steady_regrant (c : Nat) : (regrant c).Steady False False False s := steady_ask fun _ => by simp
@[simp] theorem steady_underGrant (c : Nat) {k : Act} (hk : k.Steady False False False s) : (underGrant c k).Steady False False False s :=
  steady_ask fun _ => by simp [hk]
@[simp] theorem steady_opRow (c op : Nat) {body : Act} (h : body.Steady False False False s) : (opRow c op body).Steady False False False s :=
  ⟨steady_settle c, steady_ask fun _ => (steady_when _ _).2 fun _ => steady_underGrant c
    ⟨steady_ask fun _ => by dsimp only; split <;> simp, steady_renew c, steady_ask fun _ => by split <;> simp [h]⟩⟩

/-! ### Accesses of channels -/

@[simp] theorem steady_accessFault (c status off addr : Nat) : (accessFault c status off addr).Steady G False False s := by simp [accessFault]
@[simp] theorem steady_walkFor (c : Nat) (adr : Nat) (write : Bool) : (walkFor c adr write).Steady G False N s := steady_ask fun _ => by simp
@[simp] theorem steady_viewWait (c entry : Nat) : (viewWait c entry).Steady G False False s := steady_ask fun _ => by simp
@[simp] theorem steady_beatStall (c full : Nat) : (beatStall c full).Steady G False False s := by simp [beatStall]
@[simp] theorem steady_peerAccess (c : Nat) (d : Cur) (full n : Nat) (wr : Option (List Byte)) :
    (peerAccess c d full n wr).Steady G False False s := steady_ask fun _ => by simp
@[simp] theorem steady_readPiece (c : Nat) (d : Cur) (full n : Nat) : (readPiece c d full n).Steady False False False s := steady_ask fun _ => by
  refine (steady_ite _ _ _).2 ⟨by simp, fun _ => (steady_ite _ _ _).2 ⟨fun _ => ?_, fun _ => ?_⟩⟩ <;> split <;> simp
@[simp] theorem steady_wrote (c k : Nat) : (wrote c k).Steady G False N s := by simp [wrote]

end

end Sys2Proof.Machine
end


section
/-!
SUPPORT. Steady meanings: register reads, chairs, queues, engines, teardowns, the host link and the mailbox, as in
the section above.
-/

namespace Sys2Proof.Machine

-- The many short proofs are checked one after another, for each would else hold a thread of its own.
set_option Elab.async false

section
variable {G D N : Prop} {s : State} {α : Type}

/-! ### Chairs, windows and reads of registers -/

@[simp] theorem steady_chairTell (n : Nat) : (chairTell n).Steady G False N s := steady_ask fun _ => by simp
@[simp] theorem steady_chairDeny : chairDeny.Steady G False N s := by simp +decide [chairDeny]
@[simp] theorem steady_chairSit (n peer mid tag : Nat) : (chairSit n peer mid tag).Steady G False N s := steady_ask fun _ =>
  (steady_when _ _).2 fun _ => ⟨by simp, by simp, (steady_forEach _ _).2 fun _ _ => by split <;> simp⟩
@[simp] theorem steady_chairWaitArrive (p : Path) (n : Nat) : (chairWaitArrive p n).Steady G False N s := steady_ask fun _ => by simp
@[simp] theorem steady_flashLoad : flashLoad.Steady False False False s := steady_ask fun _ => by simp
@[simp] theorem steady_initGo : initGo.Steady False False False s := steady_ask fun _ => by simp
@[simp] theorem steady_winFault (p : Path) (cause : Nat) : (winFault p cause).Steady G False N s := steady_ask fun _ => by simp +decide
@[simp] theorem steady_winAdvance (p : Path) : (winAdvance p).Steady G False N s := steady_ask fun _ => by simp +decide
@[simp] theorem steady_winRead (p : Path) {k : Word → Act} (h : ∀ x, (k x).Steady G False N s) : (winRead p k).Steady G False N s :=
  steady_ask fun _ => by
    simp only [steady_ite, steady_acts_cons, steady_winFault, steady_winAdvance, h, steady_acts_nil, implies_true, true_and, and_true]
    intro _ _ _
    split <;> simp +decide [h]
@[simp] theorem steady_shdAdvance : shdAdvance.Steady G False N s := steady_ask fun _ => by simp +decide
@[simp] theorem steady_modPort (p : Path) (f : PathPort → PathPort) : (modPort p f).Steady G False N s := by
  unfold modPort
  split <;> simp
@[simp] theorem steady_readDone (p : Path) : (readDone p).Steady G False N s := by simp [readDone]
@[simp] theorem steady_gotWord (p : Path) (w : Word) : (gotWord p w).Steady G False N s := by simp [gotWord]
@[simp] theorem steady_holdRead (p : Path) (r : HeldReg) : (holdRead p r).Steady G False N s := steady_ask fun _ => by simp
@[simp] theorem steady_readOne (p : Path) (off : Nat) : (readOne p off).Steady G False N s := steady_ask fun _ => by simp +decide
@[simp] theorem steady_readGo (p : Path) (fuel : Nat) : (readGo p fuel).Steady G False N s := by
  induction fuel with
  | zero => trivial
  | succ fuel ih => exact steady_ask fun _ => by split <;> simp [ih]
@[simp] theorem steady_readStart (p : Path) (off total : Nat) (fixed : Bool) (fbe lbe : Nat) :
    (readStart p off total fixed fbe lbe).Steady False False False s := steady_ask fun _ => by simp
@[simp] theorem steady_heldWaits (p : Path) (since : Nat) : (heldWaits p since).Steady G False N s := steady_ask fun _ => by simp
@[simp] theorem steady_readRelease (p : Path) : (readRelease p).Steady G False N s := steady_ask fun _ => by
  split
  · split <;> simp
  · trivial
@[simp] theorem steady_initAct : initAct.Steady False False False s := by simp [initAct]
@[simp] theorem steady_winWrite (p : Path) (v : Word) : (winWrite p v).Steady False False False s :=
  ⟨steady_ask fun _ => by simp, steady_ask fun _ => by
    simp only [steady_ite, steady_acts_cons, steady_winFault, steady_winAdvance, steady_acts_nil, implies_true, true_and, and_true]
    intro _ _ _
    split <;> simp⟩
@[simp] theorem steady_barQueue (r : BarReq) : (barQueue r).Steady False False False s := by simp [barQueue]
@[simp] theorem steady_pathWrite (p : Path) (off : Nat) (v : Word) {act : Act} (hact : act.Steady False False False s) :
    (pathWrite p off v act).Steady False False False s := steady_ask fun _ => by simp [hact]
@[simp] theorem steady_pathRead (p : Path) (off : Nat) : (pathRead p off).Steady False False False s := steady_ask fun _ => by simp

/-! ### Chairs -/

@[simp] theorem steady_sitterTold (n : Nat) (w : Sitter) : (sitterTold n w).Steady G False N s := by
  cases w with
  | path p => exact steady_readRelease p
  | gov => trivial
  | peer id mid op => exact steady_ask fun _ => steady_zAnswer _ _ _ _
  | chan c => exact steady_releaseWait _ _
@[simp] theorem steady_chairPass (n : Nat) : (chairPass n).Steady G False N s := steady_ask fun _ => by simp
@[simp] theorem steady_kindleChairGone (n : Nat) : (kindleChairGone n).Steady G False N s := steady_ask fun _ => by simp
@[simp] theorem steady_kindleChairCheck : kindleChairCheck.Steady False False False s := steady_ask fun _ => by simp
@[simp] theorem steady_chairFree (n : Nat) : (chairFree n).Steady G False N s := by simp [chairFree]
@[simp] theorem steady_chairAbandon (peer mid : Nat) : (chairAbandon peer mid).Steady G False N s := steady_ask fun _ => by simp +decide
@[simp] theorem steady_sitAct (p : Path) (n tag : Nat) : (sitAct p n tag).Steady False False False s := steady_ask fun _ => by simp
@[simp] theorem steady_giveAct (p : Path) (n : Nat) : (giveAct p n).Steady False False False s := steady_ask fun _ => by simp
@[simp] theorem steady_chrSitAct (p : Path) (n tag : Nat) : (chrSitAct p n tag).Steady False False False s := by simp [chrSitAct]
@[simp] theorem steady_chrGiveAct (p : Path) (n : Nat) : (chrGiveAct p n).Steady False False False s := by simp [chrGiveAct]
@[simp] theorem steady_chrWaitAct (p : Path) (n : Nat) : (chrWaitAct p n).Steady False False False s := by simp [chrWaitAct]
@[simp] theorem steady_chrWaitTimeoutAct (p : Path) : (chrWaitTimeoutAct p).Steady False False False s := steady_ask fun _ => by
  split
  · split <;> simp
  · trivial
@[simp] theorem steady_chairTakeBody (c : Nat) : (chairTakeBody c).Steady False False False s := steady_ask fun _ => by simp
@[simp] theorem steady_chairGiveBody (c : Nat) : (chairGiveBody c).Steady False False False s := steady_ask fun _ => by simp
@[simp] theorem steady_chairTakeLimit (c : Nat) : (chairTakeLimit c).Steady False False False s := steady_ask fun _ => by split <;> simp
@[simp] theorem steady_descRow (c op : Nat) {body : Act} (hbody : body.Steady False False False s) : (descRow c op body).Steady False False False s :=
  steady_ask fun _ => by simp [hbody]

/-! ### Waits, signals and the Cupboard -/

@[simp] theorem steady_waitWheelBody (c : Nat) : (waitWheelBody c).Steady False False False s := steady_ask fun _ => by simp
@[simp] theorem steady_waitFenceBody (c : Nat) : (waitFenceBody c).Steady False False False s := steady_ask fun _ => by simp
@[simp] theorem steady_waitWickBody (c : Nat) : (waitWickBody c).Steady False False False s := steady_ask fun _ => by simp
@[simp] theorem steady_wickEdge (w : Nat) (level : Bool) : (wickEdge w level).Steady G False N s := steady_ask fun _ =>
  (steady_forEach _ _).2 fun _ _ => steady_ask fun _ => ⟨by simp +decide, by split <;> simp +decide⟩
@[simp] theorem steady_signalGo (c : Nat) : (signalGo c).Steady False False False s := steady_ask fun _ => by simp
@[simp] theorem steady_signalBody (c : Nat) : (signalBody c).Steady False False False s := steady_ask fun _ => by split <;> simp
@[simp] theorem steady_passTo (c nxt : Nat) : (passTo c nxt).Steady False False False s := by simp [passTo]
@[simp] theorem steady_nopBody (c : Nat) : (nopBody c).Steady False False False s := by simp [nopBody]
@[simp] theorem steady_jumpBody (c : Nat) : (jumpBody c).Steady False False False s := steady_ask fun _ => by simp
@[simp] theorem steady_cupGrant (c : Nat) : (cupGrant c).Steady G False N s := steady_ask fun _ => by simp
@[simp] theorem steady_cupRequest (c : Nat) : (cupRequest c).Steady False False False s := steady_ask fun _ => by simp
@[simp] theorem steady_allocFail (ctx cause : Nat) : (allocFail ctx cause).Steady G False N s := by simp +decide [allocFail]
@[simp] theorem steady_allocKeyRefused (c ctx : Nat) (d : List Word) : (allocKeyRefused c ctx d).Steady G False N s := by
  simp [allocKeyRefused]
@[simp] theorem steady_freeEnd (o : CupOp) : (freeEnd o).Steady G False False s := steady_ask fun _ => by simp
@[simp] theorem steady_scrubAct : scrubAct.Steady False False False s := steady_ask fun _ => by simp
@[simp] theorem steady_lampFireEnt (e : LampEnt) : (lampFireEnt e).Steady False False False s := steady_ask fun _ =>
  ⟨by simp, by simp, by simp, by split <;> simp⟩
@[simp] theorem steady_lampFireSlot (e : LampEnt) : (lampFireSlot e).Steady False False False s := steady_ask fun _ => by simp
@[simp] theorem steady_lampFireAct : lampFireAct.Steady False False False s := steady_ask fun _ => by simp

/-! ### Doorbells, rings and records -/

@[simp] theorem steady_dbRefuse (n : Nat) (slot : Option Nat) : (dbRefuse n slot).Steady False False False s := by simp [dbRefuse]
@[simp] theorem steady_ringWake : ringWake.Steady G False False s := steady_ask fun _ =>
  (steady_forEach _ _).2 fun _ _ => steady_ask fun _ => (steady_ite _ _ _).2 ⟨by simp, fun _ => by split <;> simp⟩
@[simp] theorem steady_setTail (q v : Nat) : (setTail q v).Steady False False False s := by simp [setTail]
@[simp] theorem steady_setHead (q v : Nat) : (setHead q v).Steady False False False s := by simp [setHead]
@[simp] theorem steady_queueDb (n slot : Nat) (v : Word) (be : Nat) (ok : Queue → Nat → Bool) {go : Nat → Nat → Act}
    (h : ∀ x y, (go x y).Steady False False False s) :
    (queueDb n slot v be ok go).Steady False False False s := steady_ask fun _ => by simp [h]
@[simp] theorem steady_kickAct (n : Nat) (v : Word) (be : Nat) : (kickAct n v be).Steady False False False s := steady_ask fun _ => by
  split
  · simp
  · split <;> simp
@[simp] theorem steady_refAct (n : Nat) (v : Word) (be : Nat) : (refAct n v be).Steady False False False s := steady_ask fun _ => by
  split
  · simp
  · split <;> simp
@[simp] theorem steady_unrefAct (n : Nat) (v : Word) (be : Nat) : (unrefAct n v be).Steady False False False s := steady_ask fun _ => by
  split
  · simp
  · split <;> simp
@[simp] theorem steady_devDb (off : Nat) (v : Word) (ok : Queue → Nat → Bool) {go : Nat → Nat → Act} (h : ∀ x y,
    (go x y).Steady False False False s) :
    (devDb off v ok go).Steady False False False s := steady_ask fun _ => by simp [h]
@[simp] theorem steady_sqDbWrite (v : Word) : (sqDbWrite v).Steady False False False s := by simp [sqDbWrite]
@[simp] theorem steady_cqDbWrite (v : Word) : (cqDbWrite v).Steady False False False s := by simp [cqDbWrite]
@[simp] theorem steady_ringFault (q status addr : Nat) : (ringFault q status addr).Steady False False False s := steady_ask fun _ => by simp
@[simp] theorem steady_headOn (q : Nat) : (headOn q).Steady False False False s := by simp [headOn]
@[simp] theorem steady_entryEnd (q tag chanW status : Nat) : (entryEnd q tag chanW status).Steady False False False s := steady_ask fun _ => by simp
@[simp] theorem steady_judgeEntry (q : Nat) (bs : List Byte) : (judgeEntry q bs).Steady False False False s := steady_ask fun _ => by
  dsimp only
  split
  · simp
  · split <;> simp
@[simp] theorem steady_entryAct (q : Nat) (entry : List Byte) : (entryAct q entry).Steady False False False s := steady_ask fun _ =>
  (steady_when _ _).2 fun _ => (steady_ite _ _ _).2 ⟨by simp, fun _ => (steady_ite _ _ _).2 ⟨by simp, fun _ => by split <;> simp⟩⟩
@[simp] theorem steady_recorded (d : Due) (bs : List Byte) : (recorded d bs).Steady False False False s := steady_ask fun _ => by simp
@[simp] theorem steady_lampReleaseCtx (n : Nat) : (lampReleaseCtx n).Steady G False N s := by simp [lampReleaseCtx]
@[simp] theorem steady_ctxLostEntry (n c : Nat) : (ctxLostEntry n c).Steady False False False s := steady_ask fun _ => by split <;> simp
@[simp] theorem steady_unwindAct (n : Nat) : (unwindAct n).Steady False False False s := steady_ask fun _ => by split <;> simp

/-! ### Dispatch and stops -/

@[simp] theorem steady_runOn (e c : Nat) : (runOn e c).Steady False False False s := steady_ask fun _ => by simp
@[simp] theorem steady_dispatchAct (e : Nat) : (dispatchAct e).Steady False False False s := steady_ask fun _ => by simp
@[simp] theorem steady_expiryAct (e : Nat) : (expiryAct e).Steady False False False s := steady_ask fun _ => by simp
@[simp] theorem steady_fetchAct (c : Nat) : (fetchAct c).Steady False False False s := steady_ask fun _ => by simp
@[simp] theorem steady_completeAct (c : Nat) : (completeAct c).Steady False False False s := steady_ask fun _ => by simp
@[simp] theorem steady_stopTry (c : Nat) : (stopTry c).Steady G False False s := steady_ask fun _ => by simp
@[simp] theorem steady_stopReq (c mode : Nat) : (stopReq c mode).Steady G False False s := steady_ask fun _ => by simp
@[simp] theorem steady_devStop (p : Path) (v : Word) (c gen : Nat) (mode : Option Nat) : (devStop p v c gen mode).Steady False False False s := by
  unfold devStop
  split <;> simp
@[simp] theorem steady_haltBoundary (c : Nat) : (haltBoundary c).Steady False False False s := steady_ask fun _ =>
  (steady_when _ _).2 fun _ => ⟨steady_settle c, steady_ask fun _ => (steady_when _ _).2 fun _ =>
    (steady_forSome _ _).2 fun _ _ => by split <;> simp⟩
@[simp] theorem steady_biteCapture (chan : Option Nat) (mid res : Nat) (priv : Bool) : (biteCapture chan mid res priv).Steady False False False s :=
  steady_ask fun _ => by simp
@[simp] theorem steady_windowBitten (p : Path) : (windowBitten p).Steady False False False s := steady_ask fun _ =>
  ⟨by simp, by simp, by split <;> simp⟩
@[simp] theorem steady_biteChan (c res : Nat) : (biteChan c res).Steady False False False s := steady_ask fun _ => by simp
@[simp] theorem steady_biteAct (res : Nat) (owner : BiteOwner) : (biteAct res owner).Steady False False False s :=
  steady_ask fun _ => by split <;> simp

/-! ### Teardowns -/

@[simp] theorem steady_killRing (q : Nat) : (killRing q).Steady False False False s := by simp [killRing]
@[simp] theorem steady_dropDue (q : Nat) : (dropDue q).Steady G False False s := steady_ask fun _ => by simp
@[simp] theorem steady_dyingChan (c status : Nat) : (dyingChan c status).Steady False False False s := by simp [dyingChan]
@[simp] theorem steady_ctxDie (n : Nat) : (ctxDie n).Steady False False False s := steady_ask fun _ => by simp
@[simp] theorem steady_dropHolds (n : Nat) : (dropHolds n).Steady G False N s := steady_ask fun _ => by simp
@[simp] theorem steady_unwindCup (n : Nat) : (unwindCup n).Steady G False N s := steady_ask fun _ => by simp +decide
@[simp] theorem steady_destroyOwned (n : Nat) : (destroyOwned n).Steady G False N s := steady_ask fun _ => by simp
@[simp] theorem steady_teardown (n : Nat) : (teardown n).Steady G False N s := steady_ask fun _ => by simp
@[simp] theorem steady_ctxFree (n : Nat) : (ctxFree n).Steady G False N s := by simp [ctxFree]
@[simp] theorem steady_teardownAct (n : Nat) : (teardownAct n).Steady False False False s := steady_ask fun _ => by simp

/-! ### Completions, BAR4 and function resets -/

@[simp] theorem steady_flushDone (c : Nat) : (flushDone c).Steady False False False s :=
  steady_ask fun _ => (steady_forSome _ _).2 fun _ _ => by split <;> simp
@[simp] theorem steady_flushFail (c : Nat) : (flushFail c).Steady False False False s := by simp [flushFail]
@[simp] theorem steady_walkFault (w : Who) (va status : Nat) : (walkFault w va status).Steady False False False s :=
  steady_ask fun _ => by split <;> simp
@[simp] theorem steady_readFail (r : HRead) : (readFail r).Steady False False False s := steady_ask fun _ => by split <;> simp
@[simp] theorem steady_excuse (r : HRead) : (excuse r).Steady False False False s := by simp [excuse]
@[simp] theorem steady_timeoutAct (tag : Nat) : (timeoutAct tag).Steady False False False s := steady_ask fun _ => by simp
@[simp] theorem steady_bar4ReadAct (addr len : Nat) : (bar4ReadAct addr len).Steady False False False s := steady_ask fun _ => by
  dsimp only
  split
  · simp
  · split <;> simp
@[simp] theorem steady_bar4WriteAct (addr : Nat) (data : List Byte) (be : List Bool) (poison : Bool) :
    (bar4WriteAct addr data be poison).Steady False False False s :=
  steady_ask fun _ => by
  dsimp only
  split
  · simp
  · split <;> simp
@[simp] theorem steady_barUrAct (write : Bool) : (barUrAct write).Steady False False False s := steady_ask fun _ => by simp
@[simp] theorem steady_walksAgain : walksAgain.Steady False False False s := steady_ask fun _ => by simp
@[simp] theorem steady_tlbInvAct (v : Word) : (tlbInvAct v).Steady False False False s := steady_ask fun _ => by simp
@[simp] theorem steady_tlbInvDone : tlbInvDone.Steady False False False s := steady_ask fun _ => by simp
@[simp] theorem steady_bar0BankReset : bar0BankReset.Steady G False N s := by simp [bar0BankReset]
@[simp] theorem steady_perstChan (c : Nat) : (perstChan c).Steady G False False s := by simp [perstChan]
@[simp] theorem steady_perstCtx (n : Nat) : (perstCtx n).Steady G False False s := steady_ask fun _ => by simp
@[simp] theorem steady_ptmFail : ptmFail.Steady G False N s := steady_ask fun _ => by simp +decide
@[simp] theorem steady_linkTrain (gen width : Nat) : (linkTrain gen width).Steady False False False s := steady_ask fun _ => by simp
@[simp] theorem steady_frEnd (c : HostCfg) : (frEnd c).Steady False False False s := steady_ask fun _ => by simp

/-! ### The mailbox -/

@[simp] theorem steady_modJob (p : Path) (f : Option Job → Option Job) : (modJob p f).Steady False False False s :=
  steady_ask fun _ => by split <;> simp
@[simp] theorem steady_answer (p : Path) (result : Nat) (res : List Nat) (w : JobWait) : (answer p result res w).Steady False False False s := by
  simp [answer]
@[simp] theorem steady_refuse (p : Path) (result : Nat) : (refuse p result).Steady False False False s := by simp [refuse]
@[simp] theorem steady_mailOp (p : Path) (op seq : Nat) {body : (Nat → Nat) → Act} (h : ∀ a, (body a).Steady False False False s) :
    (mailOp p op seq body).Steady False False False s := steady_pathWrite _ _ _ (steady_ask fun _ => by simp [h])
@[simp] theorem steady_putResults (inst : Nat) (res : List Word) : (putResults inst res).Steady False False False s := by simp [putResults]
@[simp] theorem steady_waitTimeoutAct (p : Path) : (waitTimeoutAct p).Steady False False False s := steady_ask fun _ => by simp
@[simp] theorem steady_ctxCreate (p : Path) (a : Nat → Nat) : (ctxCreate p a).Steady False False False s := steady_ask fun _ => by split <;> simp
@[simp] theorem steady_ctxDestroy (p : Path) (a : Nat → Nat) : (ctxDestroy p a).Steady False False False s := steady_ask fun _ => by split <;> simp
@[simp] theorem steady_ctxReinit (p : Path) (a : Nat → Nat) : (ctxReinit p a).Steady False False False s := steady_ask fun _ => by split <;> simp
@[simp] theorem steady_queueCreate (p : Path) (a : Nat → Nat) : (queueCreate p a).Steady False False False s := steady_ask fun _ => by
  split
  · simp
  · simp only [steady_ite, steady_refuse, implies_true, true_and]
    intro _ _
    split <;> simp
@[simp] theorem steady_queueLeave (q c : Nat) : (queueLeave q c).Steady False False False s := steady_ask fun _ => by simp
@[simp] theorem steady_queueDestroy (p : Path) (a : Nat → Nat) : (queueDestroy p a).Steady False False False s :=
  steady_ask fun _ => by split <;> simp
@[simp] theorem steady_chanMake (c n base a1 a2 a3 : Nat) : (chanMake c n base a1 a2 a3).Steady False False False s := steady_ask fun _ => by simp
@[simp] theorem steady_chanCreate (p : Path) (a : Nat → Nat) : (chanCreate p a).Steady False False False s := steady_ask fun _ => by
  split
  · simp
  · simp only [steady_ite, steady_refuse, implies_true, true_and]
    intro _ _
    split <;> simp
@[simp] theorem steady_chanDestroy (p : Path) (a : Nat → Nat) : (chanDestroy p a).Steady False False False s := steady_ask fun _ => by split <;> simp
@[simp] theorem steady_chanReinit (p : Path) (a : Nat → Nat) : (chanReinit p a).Steady False False False s := steady_ask fun _ => by split <;> simp
@[simp] theorem steady_memCreate (p : Path) (a : Nat → Nat) : (memCreate p a).Steady False False False s := steady_ask fun _ => by
  dsimp only
  split
  · simp
  · simp only [steady_ite, steady_refuse, implies_true, true_and]
    intro _ _ _ _ _ _
    split <;> simp
@[simp] theorem steady_memDestroy (p : Path) (a : Nat → Nat) : (memDestroy p a).Steady False False False s := steady_ask fun _ => by split <;> simp
@[simp] theorem steady_refOp (p : Path) (a : Nat → Nat) : (refOp p a).Steady False False False s := steady_ask fun _ => by split <;> simp
@[simp] theorem steady_unrefOp (p : Path) (a : Nat → Nat) : (unrefOp p a).Steady False False False s := steady_ask fun _ => by split <;> simp
@[simp] theorem steady_fenceCreate (p : Path) (a : Nat → Nat) : (fenceCreate p a).Steady False False False s := steady_ask fun _ => by
  split
  · simp
  · refine (steady_ite _ _ _).2 ⟨by simp, fun _ => ?_⟩
    split <;> simp
@[simp] theorem steady_fenceDestroy (p : Path) (a : Nat → Nat) : (fenceDestroy p a).Steady False False False s :=
  steady_ask fun _ => by split <;> simp
@[simp] theorem steady_fenceExport (p : Path) (a : Nat → Nat) : (fenceExport p a).Steady False False False s := steady_ask fun _ => by split <;> simp
@[simp] theorem steady_tokenBad (p : Path) : (tokenBad p).Steady False False False s := by simp [tokenBad]
@[simp] theorem steady_importBits (i n : Nat) : (importBits i n).Steady False False False s := by simp [importBits]
@[simp] theorem steady_importAsk (p : Path) (n tok : Nat) : (importAsk p n tok).Steady False False False s :=
  steady_ask fun _ => by dsimp only; split <;> simp
@[simp] theorem steady_fenceImport (p : Path) (a : Nat → Nat) : (fenceImport p a).Steady False False False s := steady_ask fun _ => by split <;> simp
@[simp] theorem steady_stageOp (p : Path) (a : Nat → Nat) (argOk right : Bool) (v : Nat) : (stageOp p a argOk right v).Steady False False False s :=
  steady_ask fun _ => by split <;> simp
@[simp] theorem steady_stageMap (p : Path) (a : Nat → Nat) : (stageMap p a).Steady False False False s := steady_ask fun _ => by simp
@[simp] theorem steady_stageUnmap (p : Path) (a : Nat → Nat) : (stageUnmap p a).Steady False False False s := by simp [stageUnmap]
@[simp] theorem steady_chairtabOpen (p : Path) (a : Nat → Nat) : (chairtabOpen p a).Steady False False False s :=
  steady_ask fun _ => by split <;> simp
@[simp] theorem steady_engineReinit (p : Path) (a : Nat → Nat) : (engineReinit p a).Steady False False False s := steady_ask fun _ => by simp
@[simp] theorem steady_badOp (p : Path) : (badOp p).Steady False False False s := by simp [badOp]

end

end Sys2Proof.Machine
end

section
/-!
SUPPORT. Steady meanings: register writes, protection, the wheel, the lanes, Kindle, the governor and the buses, as
in the sections above.
-/

namespace Sys2Proof.Machine

-- The many short proofs are checked one after another, for each would else hold a thread of its own.
set_option Elab.async false

section
variable {G D N : Prop} {s : State} {α : Type}

/-! ### Register writes by their fields -/

@[simp] theorem steady_plainWrite (inst off : Nat) (v : Word) : (plainWrite inst off v).Steady False False False s := steady_ask fun _ => by simp
@[simp] theorem steady_captureClear (off : Nat) (v : Word) : (captureClear off v).Steady False False False s := by simp [captureClear]
@[simp] theorem steady_fieldWrite (p : Path) (off : Nat) (v : Word) : (fieldWrite p off v).Steady False False False s := steady_ask fun _ => by simp

/-! ### The protection unit -/

@[simp] theorem steady_regionSelect (idx : Nat) : (regionSelect idx).Steady False False False s := steady_ask fun _ => by simp
@[simp] theorem steady_regionCommit (idx : Nat) : (regionCommit idx).Steady False False False s := steady_ask fun _ => by simp
@[simp] theorem steady_rgnIdxWrite (v : Word) : (rgnIdxWrite v).Steady False False False s := by simp [rgnIdxWrite]
@[simp] theorem steady_shadeOverrun : shadeOverrun.Steady False False False s := by simp [shadeOverrun]
@[simp] theorem steady_shdDataWrite (v : Word) : (shdDataWrite v).Steady False False False s := steady_ask fun _ => by simp
@[simp] theorem steady_shdAddrWrite (p : Path) (v : Word) : (shdAddrWrite p v).Steady False False False s := steady_ask fun _ => by simp
@[simp] theorem steady_shdFillWrite (v : Word) : (shdFillWrite v).Steady False False False s := steady_ask fun _ => by simp
@[simp] theorem steady_fillDone : fillDone.Steady False False False s := steady_ask fun _ => by simp
@[simp] theorem steady_stallRefuse (c : Nat) : (stallRefuse c).Steady False False False s := steady_ask fun _ => by
  refine (steady_forSome _ _).2 fun _ _ => ?_
  dsimp only
  split <;> simp
@[simp] theorem steady_stallTimeout (c : Nat) : (stallTimeout c).Steady False False False s := steady_ask fun _ => by simp

/-! ### The wheel -/

@[simp] theorem steady_fireNow (l : List LampEnt) : (fireNow l).Steady False False False s := by simp [fireNow]
@[simp] theorem steady_jumpEntries (hit : LampEnt → Bool) (new : WTime) : (jumpEntries hit new).Steady False False False s :=
  steady_ask fun _ => by simp
@[simp] theorem steady_absorb (e : Int) : (absorb e).Steady False False False s := steady_ask fun _ => by simp
@[simp] theorem steady_loopCorrect (e : Int) (fine : Bool) : (loopCorrect e fine).Steady False False False s := steady_ask fun _ => by simp
@[simp] theorem steady_align (e : Int) (cyc : Nat) : (align e cyc).Steady False False False s := steady_ask fun _ => by simp
@[simp] theorem steady_adopt (wt : WTime) (back8 : Nat) : (adopt wt back8).Steady False False False s := steady_ask fun _ => by simp
@[simp] theorem steady_notLocked : notLocked.Steady False False False s := by simp [notLocked]
@[simp] theorem steady_loneCandidate : loneCandidate.Steady False False False s := steady_ask fun _ => by simp
@[simp] theorem steady_sourceChange : sourceChange.Steady False False False s := by simp [sourceChange]
@[simp] theorem steady_acqEdge (te8 back8 : Nat) (wt : Option WTime) : (acqEdge te8 back8 wt).Steady False False False s := steady_ask fun _ => by
  dsimp only
  split
  · simp
  · refine (steady_ite _ _ _).2 ⟨by simp, fun _ => (steady_ite _ _ _).2 ⟨fun _ => ⟨by simp, ?_⟩, by simp⟩⟩
    split <;> simp
@[simp] theorem steady_coastEdge (te8 back8 : Nat) : (coastEdge te8 back8).Steady False False False s :=
  steady_ask fun _ => by dsimp only; split <;> simp
@[simp] theorem steady_measureSync (e : Nat) (fine : Bool) : (measureSync e fine).Steady False False False s := steady_ask fun _ => by simp
@[simp] theorem steady_goodSync (e : Int) (cyc : Nat) : (goodSync e cyc).Steady False False False s := steady_ask fun _ => by simp
@[simp] theorem steady_missOne : missOne.Steady False False False s := steady_ask fun _ => by simp
@[simp] theorem steady_missClosed (t : Nat) : (missClosed t).Steady False False False s := steady_ask fun _ => by simp
@[simp] theorem steady_edgeAt (te8 back8 : Nat) (wt : Option WTime) : (edgeAt te8 back8 wt).Steady False False False s := steady_ask fun _ => by simp
@[simp] theorem steady_syncEdgeAct (dt8 : Nat) (rising : Bool) : (syncEdgeAct dt8 rising).Steady False False False s := steady_ask fun _ => by simp
@[simp] theorem steady_syncMissingAct : syncMissingAct.Steady False False False s := steady_ask fun _ => by simp
@[simp] theorem steady_holdReleaseAct : holdReleaseAct.Steady False False False s := steady_ask fun _ => by simp
@[simp] theorem steady_nominalApplyAct : nominalApplyAct.Steady False False False s := steady_ask fun _ => by simp
@[simp] theorem steady_nominalWrite (p : Path) (v : Word) : (nominalWrite p v).Steady False False False s := steady_ask fun _ => by simp
@[simp] theorem steady_whlCtlWrite (p : Path) (v : Word) : (whlCtlWrite p v).Steady False False False s := steady_ask fun _ => by simp
@[simp] theorem steady_ptmStart : ptmStart.Steady False False False s := steady_ask fun _ => by simp
@[simp] theorem steady_ptmCtlWrite (p : Path) (v : Word) : (ptmCtlWrite p v).Steady False False False s := steady_ask fun _ => by simp
@[simp] theorem steady_ptmIntervalAct : ptmIntervalAct.Steady False False False s := steady_ask fun _ => by simp
@[simp] theorem steady_ptmResponse (host : DWord) : (ptmResponse host).Steady False False False s := steady_ask fun _ => by simp
@[simp] theorem steady_ptmTimeoutAct : ptmTimeoutAct.Steady False False False s := steady_ask fun _ => by simp

/-! ### The lanes -/

@[simp] theorem steady_settleTx (l : Nat) : (settleTx l).Steady G False N s := steady_ask fun _ => by simp
@[simp] theorem steady_txFree (l : Nat) : (txFree l).Steady G False N s := steady_ask fun _ => by simp
@[simp] theorem steady_startBcast (l cmd : Nat) (payload : List Byte) : (startBcast l cmd payload).Steady False False False s :=
  steady_ask fun _ => by simp
@[simp] theorem steady_txChars (l n : Nat) : (txChars l n).Steady False False False s := steady_ask fun _ => by simp
@[simp] theorem steady_setLaneSt (l : Nat) (st : LaneSt) (h : G → st = .down) : (setLaneSt l st).Steady G False N s :=
  steady_ask fun _ => by
    simp only [steady_acts_cons, steady_traceRec, steady_acts_nil, true_and, and_true]
    exact steady_modLane l fun g _ => .inr (h g)
@[simp] theorem steady_laneEvent (l : Nat) (f : Fld) (h : G → 0x010 < f.off) : (laneEvent l f).Steady G False N s :=
  steady_event _ fun g => Nat.lt_of_lt_of_le (h g) (Nat.le_add_right _ _)
@[simp] theorem steady_laneCount (l : Nat) (f : Fld) : (laneCount l f).Steady False False False s := by simp [laneCount]
@[simp] theorem steady_kindleTrace : kindleTrace.Steady False False False s := steady_ask fun _ => by simp
@[simp] theorem steady_kindleCheck : kindleCheck.Steady False False False s := steady_ask fun _ => by simp
@[simp] theorem steady_emitStarted (f : TxFrame) : (emitStarted f).Steady False False False s := by
  unfold emitStarted
  split <;> simp
@[simp] theorem steady_startFrame (l : Nat) (f : TxFrame) (again : Bool) : (startFrame l f again).Steady False False False s :=
  steady_ask fun _ => by simp
@[simp] theorem steady_kindleLat : kindleLat.Steady False False False s := steady_ask fun _ => by simp
@[simp] theorem steady_startKindle (l : Nat) : (startKindle l).Steady False False False s := steady_ask fun _ => by split <;> simp
@[simp] theorem steady_startWaiting (l c : Nat) : (startWaiting l c).Steady False False False s := steady_ask fun _ => by simp
@[simp] theorem steady_startAborted (l : Nat) (f : TxFrame) : (startAborted l f).Steady False False False s := by simp [startAborted]
@[simp] theorem steady_startNormal (l : Nat) : (startNormal l).Steady False False False s := steady_ask fun _ => by dsimp only; split <;> simp
@[simp] theorem steady_frameStart (l : Nat) : (frameStart l).Steady False False False s := steady_ask fun _ =>
  (steady_when _ _).2 fun _ => ⟨by simp, steady_ask fun _ =>
    (steady_ite _ _ _).2 ⟨by simp, fun _ => by split <;> simp⟩⟩
@[simp] theorem steady_placedFrame (l : Nat) : (placedFrame l).Steady False False False s := steady_ask fun _ =>
  (steady_when _ _).2 fun _ => ⟨by simp, steady_ask fun _ => by dsimp only; split <;> simp⟩
@[simp] theorem steady_setLaneWick (b : Nat) (level : Bool) : (setLaneWick b level).Steady G False N s := steady_ask fun _ => by simp
@[simp] theorem steady_emitFail (c : Nat) : (emitFail c).Steady G False False s := steady_ask fun _ => by split <;> simp
@[simp] theorem steady_laneLock (l : Nat) (h : ¬ G) : (laneLock l).Steady G False N s := by
  simp only [laneLock, steady_acts_cons, steady_acts_nil, and_true]
  exact ⟨steady_setLaneSt l _ fun g => absurd g h, steady_ask fun _ => steady_modLane l fun g => absurd g h⟩
/-- Under an entry into STANDBY no lane trains again (R538). -/
theorem steady_lockAgain (l : Nat) (reinit : Bool) (h : G → s.pwr.entering = true) :
    (Act.ask fun s => when_ (!s.pwr.entering && !s.pwr.standby &&
      (reinit || (s.fldI 0 (F.LAN_CTL_EN.lane l) == 1 && s.fldI 0 (F.LAN_CTL_AUTO.lane l) == 1))) (laneLock l)).Steady G False N s :=
  fun u _ hu => (steady_when _ _).2 fun hc => steady_laneLock l fun g => by
    rw [hu.pwr g, h g] at hc
    cases hc
@[simp] theorem steady_laneDown (l : Nat) (post : Option Nat) (reinit : Bool) (h : G → s.pwr.entering = true) :
    (laneDown l post reinit).Steady G False False s :=
  steady_ask fun _ => (steady_when _ _).2 fun _ => by simp +decide [steady_lockAgain l reinit h]
@[simp] theorem steady_openWindow (l : Nat) {k : TxFrame → Act} (h : ∀ x, (k x).Steady False False False s) : (openWindow l k).Steady False False False s := by
  simp [openWindow, h]
@[simp] theorem steady_emitAcked (c : Nat) : (emitAcked c).Steady False False False s := steady_ask fun _ => by split <;> simp
@[simp] theorem steady_framesRaised (l : Nat) {a : Act} (ha : a.Steady False False False s) : (framesRaised l a).Steady False False False s :=
  steady_ask fun _ => by simp [ha]
@[simp] theorem steady_ackReceived (l : Nat) : (ackReceived l).Steady False False False s :=
  steady_raised (steady_framesRaised _ (steady_openWindow _ fun _ => ⟨by simp, by simp, by split <;> simp⟩))
@[simp] theorem steady_windowMissed (l : Nat) : (windowMissed l).Steady False False False s := by simp [windowMissed]
@[simp] theorem steady_rxSweep (l : Nat) : (rxSweep l).Steady False False False s := steady_ask fun _ => by simp
@[simp] theorem steady_turnGrant (l : Nat) : (turnGrant l).Steady False False False s := by simp [turnGrant]
@[simp] theorem steady_turnLapse (l : Nat) : (turnLapse l).Steady False False False s := steady_ask fun _ => by simp
@[simp] theorem steady_rxFrame (l : Nat) (chars : List Byte) (crc : Nat) {taken : RxKind → Nat → Act}
    (h : ∀ x y, (taken x y).Steady False False False s) : (rxFrame l chars crc taken).Steady False False False s :=
  ⟨by simp, by simp, steady_ask fun _ => (steady_when _ _).2 fun _ => (steady_forSome _ _).2 fun _ _ => ⟨by simp, by
    simp only [steady_ite, steady_acts_cons, steady_laneCount, steady_laneEvent, false_implies, steady_acts_nil, implies_true, true_and, and_true]
    intro _ _
    split <;> simp [h]⟩⟩
@[simp] theorem steady_telemTaken (l pc : Nat) (t : Telem) : (telemTaken l pc t).Steady False False False s := steady_ask fun _ => by simp
@[simp] theorem steady_requestTaken (l pc : Nat) (b : Byte) : (requestTaken l pc b).Steady False False False s := by simp [requestTaken]
@[simp] theorem steady_rxTaken (l : Nat) (chars : List Byte) (wt : WTime) (k : RxKind) (pc : Nat) :
    (rxTaken l chars wt k pc).Steady False False False s :=
  by
  unfold rxTaken
  split <;> simp
@[simp] theorem steady_rxArrives (l : Nat) (chars : List Byte) (crc : Nat) : (rxArrives l chars crc).Steady False False False s :=
  steady_ask fun _ => by simp
@[simp] theorem steady_rxIntact (l pc cmd seq : Nat) (payload : List Byte) : (rxIntact l pc cmd seq payload).Steady False False False s := by
  simp [rxIntact]
@[simp] theorem steady_rxSpoiled (l : Nat) {a : Act} (ha : a.Steady False False False s) : (rxSpoiled l a).Steady False False False s :=
  steady_ask fun _ => by simp [ha]
@[simp] theorem steady_badFrameAct (l : Nat) (b : BadFrame) : (badFrameAct l b).Steady False False False s := by
  unfold badFrameAct
  split <;> simp
@[simp] theorem steady_rxAnswer (l : Nat) : (rxAnswer l).Steady False False False s := steady_ask fun _ => by simp
@[simp] theorem steady_laneTraining (l : Nat) : (laneTraining l).Steady False False False s := by simp [laneTraining]
@[simp] theorem steady_discoverEnd (l : Nat) : (discoverEnd l).Steady False False False s := by simp [discoverEnd]
@[simp] theorem steady_retrainTimer (l : Nat) : (retrainTimer l).Steady False False False s := steady_ask fun _ => by simp
@[simp] theorem steady_lanCtlWrite (p : Path) (l : Nat) (v : Word) : (lanCtlWrite p l v).Steady False False False s := steady_ask fun _ => by simp
@[simp] theorem steady_holdStart (l : Nat) : (holdStart l).Steady False False False s := by simp [holdStart]
@[simp] theorem steady_holdEnter (l : Nat) : (holdEnter l).Steady False False False s := by simp [holdEnter]
@[simp] theorem steady_holdFrames (ls : List Nat) : (holdFrames ls).Steady False False False s := steady_ask fun _ => by simp
@[simp] theorem steady_holdFrame (l : Nat) : (holdFrame l).Steady False False False s := by simp [holdFrame]
@[simp] theorem steady_laneReinit (p : Path) (a : Nat → Nat) : (laneReinit p a).Steady False False False s := steady_ask fun _ => by simp
@[simp] theorem steady_readBuf (c : Nat) (d : Cur) (full off n : Nat) (acc : List Byte) {k : List Byte → Act} (fuel : Nat)
    (h : ∀ x, (k x).Steady False False False s) : (readBuf c d full off n acc k fuel).Steady False False False s := by
  induction fuel generalizing full off n acc with
  | zero => trivial
  | succ fuel ih => exact steady_ask fun _ => (steady_ite _ _ _).2 ⟨fun _ => h _, fun _ => by split <;> simp [ih]⟩
@[simp] theorem steady_emitBody (c : Nat) : (emitBody c).Steady False False False s := steady_ask fun _ => by simp
@[simp] theorem steady_sampleNext (c : Nat) : (sampleNext c).Steady False False False s := steady_ask fun _ =>
  (steady_forSome _ _).2 fun _ _ => (steady_ite _ _ _).2 ⟨fun _ => by split <;> simp, fun _ => by split <;> simp⟩

/-! ### Kindle -/

@[simp] theorem steady_kindleNak : kindleNak.Steady False False False s := by simp [kindleNak]
@[simp] theorem steady_kindleCut (l : Nat) : (kindleCut l).Steady False False False s :=
  steady_raised (steady_framesRaised _ (by simp))
@[simp] theorem steady_kindleSupersede : kindleSupersede.Steady False False False s := steady_ask fun _ => by simp
@[simp] theorem steady_kindleStart (mag : Nat) (dir : Bool) : (kindleStart mag dir).Steady False False False s := steady_ask fun _ => by simp
@[simp] theorem steady_kindleRequest (mag : Nat) (dir : Bool) : (kindleRequest mag dir).Steady False False False s := steady_ask fun _ => by simp
@[simp] theorem steady_kindleFall : kindleFall.Steady False False False s := steady_ask fun _ => by simp
@[simp] theorem steady_kindleMark : kindleMark.Steady False False False s := steady_ask fun _ => by simp
@[simp] theorem steady_kindleCopy (n i : Nat) : (kindleCopy n i).Steady False False False s := by
  induction n generalizing i with
  | zero => trivial
  | succ n ih => exact steady_ask fun _ => by dsimp only; split <;> simp [ih]
@[simp] theorem steady_kindleGo (p : Path) : (kindleGo p).Steady False False False s := steady_ask fun _ => by simp
@[simp] theorem steady_kindleLoadFail (code i : Nat) : (kindleLoadFail code i).Steady False False False s := steady_ask fun _ => by simp
@[simp] theorem steady_kindleChecked : kindleChecked.Steady False False False s := steady_ask fun _ =>
  (steady_when _ _).2 fun _ => ⟨by simp, (steady_ite _ _ _).2 ⟨by simp, fun _ => by split <;> simp⟩⟩
@[simp] theorem steady_kindleFlip : kindleFlip.Steady False False False s := steady_ask fun _ => by simp

/-! ### The governor -/

@[simp] theorem steady_usedRails (l : List Nat) (acc : List (Nat × List Byte)) {k : List (Nat × List Byte) → Act}
    (h : ∀ x, (k x).Steady False False False s) : (usedRails l acc k).Steady False False False s := by
  induction l generalizing acc with
  | nil => exact h _
  | cons r l ih =>
    exact steady_ask fun _ => (steady_ite _ _ _).2 ⟨fun _ => steady_govRead _ _ fun o => by split <;> exact ih _, fun _ => ih _⟩
@[simp] theorem steady_govRecord (r : GovRec) : (govRecord r).Steady G False N s := steady_ask fun _ => by simp +decide
@[simp] theorem steady_winRecord (wt : WTime) (kind outcome rail knob old new iavg thresh : Nat) :
    (winRecord wt kind outcome rail knob old new iavg thresh).Steady False False False s := steady_ask fun _ => by simp
@[simp] theorem steady_knobDecide (k : Knob) (new : Nat) : (knobDecide k new).Steady False False False s := steady_ask fun _ => by simp
@[simp] theorem steady_knobLimit (k : Knob) (lim : Nat × Nat) : (knobLimit k lim).Steady False False False s := steady_ask fun _ => by simp
@[simp] theorem steady_windowRestart : windowRestart.Steady False False False s := steady_ask fun _ => by simp
@[simp] theorem steady_pmbCollect : pmbCollect.Steady False False False s := steady_ask fun _ =>
  (steady_forSome _ _).2 fun _ _ => (steady_forSome _ _).2 fun _ _ =>
    ⟨by simp, (steady_when _ _).2 fun _ => steady_govRead _ _ fun _ => by split <;> simp⟩
@[simp] theorem steady_govSubmit (c tag first : Nat) : (govSubmit c tag first).Steady False False False s := steady_ask fun _ => by simp
@[simp] theorem steady_pmbusRead (r : Nat) : (pmbusRead r).Steady False False False s :=
  ⟨steady_pmbCollect, steady_ask fun _ => (steady_when _ _).2 fun _ => steady_usedRails _ _ fun _ => by
    dsimp only
    split <;> simp⟩
@[simp] theorem steady_jobRecord (j : PhaseJob) (outcome cause old new : Nat) : (jobRecord j outcome cause old new).Steady G False N s := by
  simp [jobRecord]
@[simp] theorem steady_govGive (j : PhaseJob) : (govGive j).Steady G False N s := by simp [govGive]
@[simp] theorem steady_phaseFail (j : PhaseJob) (cause : Nat) (counts : Bool) : (phaseFail j cause counts).Steady G False N s :=
  steady_ask fun _ => by simp +decide
@[simp] theorem steady_phaseSubmit (j : PhaseJob) : (phaseSubmit j).Steady False False False s := steady_ask fun _ => by
  split
  · simp
  · exact steady_govRead _ _ fun _ => by split <;> simp
@[simp] theorem steady_phaseTake (j : PhaseJob) : (phaseTake j).Steady False False False s := steady_ask fun _ => by simp
@[simp] theorem steady_phaseChange : phaseChange.Steady False False False s := steady_ask fun _ => by
  refine (steady_when _ _).2 fun _ => ?_
  split
  · simp
  · trivial
  · split
    · simp
    · exact (steady_when _ _).2 fun _ => steady_usedRails _ _ fun _ => steady_ask fun _ => by split <;> simp
@[simp] theorem steady_phaseChangeEnd : phaseChangeEnd.Steady G False N s := steady_ask fun _ => by split <;> simp +decide
@[simp] theorem steady_standbyFail (j : PhaseJob) : (standbyFail j).Steady G False N s := steady_ask fun _ => by split <;> simp +decide
@[simp] theorem steady_govStandby : govStandby.Steady G False N s :=
  ⟨steady_phaseChangeEnd, steady_ask fun _ => by split <;> simp +decide, steady_ask fun _ => by simp +decide⟩
@[simp] theorem steady_govTakeLimit : govTakeLimit.Steady False False False s := steady_ask fun _ => by split <;> simp
@[simp] theorem steady_knobRules (k : Knob) (lim : Nat × Nat) (moved tighten : Bool) (up : Nat) (relax : Bool) (down : Nat)
    (cnt : Nat) {setCnt : Nat → Act} (h : ∀ x, (setCnt x).Steady False False False s) :
    (knobRules k lim moved tighten up relax down cnt setCnt).Steady False False False s := steady_ask fun _ => by simp [h]
@[simp] theorem steady_knobsDecide (mBurst mPf mBw : Bool) : (knobsDecide mBurst mPf mBw).Steady False False False s := by simp [knobsDecide]
@[simp] theorem steady_queueJob (j : PhaseJob) : (queueJob j).Steady False False False s := by simp [queueJob]
@[simp] theorem steady_phaseDecide (r iavg thresh : Nat) (up : Bool) : (phaseDecide r iavg thresh up).Steady False False False s :=
  steady_ask fun _ => by simp
@[simp] theorem steady_phaseRules (r : Nat) : (phaseRules r).Steady False False False s := steady_ask fun _ => by simp
@[simp] theorem steady_phaseLimit (r : Nat) : (phaseLimit r).Steady False False False s := steady_ask fun _ => by simp
@[simp] theorem steady_limitMoves (rs : List (Nat × List Byte)) : (limitMoves rs).Steady False False False s := steady_ask fun _ => by simp
@[simp] theorem steady_phasesDecide (rs : List (Nat × List Byte)) : (phasesDecide rs).Steady False False False s := steady_ask fun _ => by simp
@[simp] theorem steady_showWindow (rs : List (Nat × List Byte)) : (showWindow rs).Steady False False False s := steady_ask fun _ =>
  ⟨by simp, by simp, by simp, (steady_forEach _ _).2 fun _ _ => by split <;> simp⟩
@[simp] theorem steady_windowEndAct : windowEndAct.Steady False False False s := steady_ask fun _ => by simp
@[simp] theorem steady_hystRestart : hystRestart.Steady False False False s := by simp [hystRestart]
@[simp] theorem steady_knobRevert (k : Knob) (new : Nat) : (knobRevert k new).Steady False False False s := steady_ask fun _ => by simp
@[simp] theorem steady_revertAct : revertAct.Steady False False False s := steady_ask fun _ => by simp
@[simp] theorem steady_govEnable : govEnable.Steady False False False s := steady_ask fun _ => by simp
@[simp] theorem steady_govCtlWrite (p : Path) (v : Word) : (govCtlWrite p v).Steady False False False s := steady_ask fun _ => by simp

/-! ### Buses and wicks -/

@[simp] theorem steady_nakCapture (d : List Word) (cause byte : Nat) : (nakCapture d cause byte).Steady False False False s :=
  steady_ask fun _ => by simp
@[simp] theorem steady_nakDesc (c cause byte : Nat) : (nakDesc c cause byte).Steady False False False s := steady_ask fun _ => by simp
@[simp] theorem steady_busTry (k fuel : Nat) : (busTry k fuel).Steady False False False s := by
  induction fuel with
  | zero => trivial
  | succ fuel ih => exact steady_ask fun _ => by simp [ih]
@[simp] theorem steady_busRaise (k : Nat) : (busRaise k).Steady False False False s := steady_ask fun _ => by simp
@[simp] theorem steady_araEnd (k cause : Nat) (data : List Byte) : (araEnd k cause data).Steady False False False s := steady_ask fun _ => by simp
@[simp] theorem steady_alertFall (k : Nat) : (alertFall k).Steady False False False s := steady_ask fun _ => by simp
@[simp] theorem steady_alertRise (k : Nat) : (alertRise k).Steady False False False s := steady_ask fun _ => by simp
@[simp] theorem steady_padTo (w : Nat) (level : Bool) : (padTo w level).Steady False False False s := steady_ask fun _ => by simp
@[simp] theorem steady_padDrive (w : Nat) : (padDrive w).Steady False False False s := steady_ask fun _ => by simp
@[simp] theorem steady_wckCfgWrite (v : Word) : (wckCfgWrite v).Steady False False False s := steady_ask fun _ => by simp
@[simp] theorem steady_wickJudge (w : Nat) : (wickJudge w).Steady False False False s := steady_ask fun _ =>
  (steady_forEach _ _).2 fun _ _ => steady_ask fun _ => by split <;> simp
@[simp] theorem steady_parkEndAct (w : Nat) : (parkEndAct w).Steady False False False s := steady_ask fun _ => by simp

end

end Sys2Proof.Machine
end

section
/-!
SUPPORT. Steady meanings: peers, resets, boot, power and the paths, as in the sections above.
-/

namespace Sys2Proof.Machine

-- The many short proofs are checked one after another, for each would else hold a thread of its own.
set_option Elab.async false

section
variable {G D N : Prop} {s : State} {α : Type}

/-! ### Peers -/

@[simp] theorem steady_modPeer (p : Nat) (f : Peer → Peer) : (modPeer p f).Steady False False False s := by simp [modPeer]
@[simp] theorem steady_forgetSeen (port : Nat) : (forgetSeen port).Steady False False False s := by simp [forgetSeen]
@[simp] theorem steady_headCheck : headCheck.Steady False False False s := steady_ask fun _ => by simp
@[simp] theorem steady_conflictCheck : conflictCheck.Steady False False False s := steady_ask fun _ => by simp
@[simp] theorem steady_fenRetell : fenRetell.Steady False False False s := steady_ask fun _ => by simp
@[simp] theorem steady_mirrorClear (p : Nat) : (mirrorClear p).Steady False False False s := steady_ask fun _ => by simp
@[simp] theorem steady_peerFault (c status : Nat) (wr : Bool) : (peerFault c status wr).Steady False False False s := steady_ask fun _ => by simp
@[simp] theorem steady_outGone (o : ZOut) : (outGone o).Steady False False False s := by simp [outGone]
@[simp] theorem steady_channelTold (c : Nat) (ph : Phase) (status : Nat) : (channelTold c ph status).Steady False False False s :=
  steady_ask fun _ => by simp
@[simp] theorem steady_outLost (o : ZOut) : (outLost o).Steady False False False s := ⟨by simp, by split <;> simp⟩
@[simp] theorem steady_losePeer (p : Nat) : (losePeer p).Steady False False False s := by simp [losePeer]
@[simp] theorem steady_linkDown (port : Nat) : (linkDown port).Steady False False False s := steady_ask fun _ =>
  (steady_when _ _).2 fun _ => ⟨by simp, by simp, by simp, by simp,
    steady_ask fun _ => (steady_forEach _ _).2 fun _ _ => by split <;> simp, by simp⟩
@[simp] theorem steady_zBad : zBad.Steady False False False s := by simp [zBad]
@[simp] theorem steady_zTaken (port : Nat) : (zTaken port).Steady False False False s := by simp [zTaken]
@[simp] theorem steady_idClash (port : Nat) : (idClash port).Steady False False False s := by simp [idClash]
@[simp] theorem steady_zPass (h : ZHdr) (urgent : Bool) (typ : Nat) (body : List Byte) : (zPass h urgent typ body).Steady False False False s := by
  simp [zPass]
@[simp] theorem steady_zRecv (h : ZHdr) {act : Act} (hact : act.Steady False False False s) : (zRecv h act).Steady False False False s :=
  steady_ask fun _ => by simp [hact]
@[simp] theorem steady_zDeliver (h : ZHdr) (typ : Nat) (body : List Byte) {act : Act} (hact : act.Steady False False False s) :
    (zDeliver h typ body act).Steady False False False s := by simp [zDeliver, hact]
@[simp] theorem steady_zOnce (h : ZHdr) {act : Act} (hact : act.Steady False False False s) : (zOnce h act).Steady False False False s := steady_ask fun _ => by
  split <;> simp [hact]
@[simp] theorem steady_sendHello (port : Nat) : (sendHello port).Steady False False False s := steady_ask fun _ => by simp
@[simp] theorem steady_peerSeen (h : ZHdr) (master cand : Bool) : (peerSeen h master cand).Steady False False False s := steady_ask fun _ => by simp
@[simp] theorem steady_helloRecv (h : ZHdr) (master cand : Bool) (mask : Nat) : (helloRecv h master cand mask).Steady False False False s :=
  steady_ask fun _ => by simp
@[simp] theorem steady_portTrainAct (port : Nat) : (portTrainAct port).Steady False False False s := steady_ask fun _ => by simp
@[simp] theorem steady_lockLossAct (port : Nat) : (lockLossAct port).Steady False False False s := steady_ask fun _ => by simp
@[simp] theorem steady_zAckAct (port lseq : Nat) : (zAckAct port lseq).Steady False False False s := steady_ask fun _ => by simp
@[simp] theorem steady_resendAct (port : Nat) : (resendAct port).Steady False False False s := steady_ask fun _ => by simp
@[simp] theorem steady_helloTimerAct : helloTimerAct.Steady False False False s := steady_ask fun _ => by simp
@[simp] theorem steady_peerLostAct (p : Nat) : (peerLostAct p).Steady False False False s := steady_ask fun _ => by simp
@[simp] theorem steady_pingAct (port : Nat) (received : Bool) (turn8 : Nat) : (pingAct port received turn8).Steady False False False s :=
  steady_ask fun _ => by simp
@[simp] theorem steady_pongAct (port trip8 turn8 : Nat) : (pongAct port trip8 turn8).Steady False False False s := steady_ask fun _ => by simp
@[simp] theorem steady_markSendAct : markSendAct.Steady False False False s := steady_ask fun _ => by simp
@[simp] theorem steady_markRecv (h : ZHdr) (wt : WTime) (corr8 : Nat) : (markRecv h wt corr8).Steady False False False s :=
  steady_ask fun _ => by simp
@[simp] theorem steady_zRefuse (h : ZHdr) : (zRefuse h).Steady False False False s := by simp [zRefuse]
@[simp] theorem steady_zStall_perform (k : ZStall) (n : Nat) : (ZStall.perform k n).Steady False False False s := by simp [ZStall.perform]
@[simp] theorem steady_zStall_answer (k : ZStall) : (ZStall.answer k).Steady False False False s := by simp [ZStall.answer]
@[simp] theorem steady_zStall_go (k : ZStall) : (ZStall.go k).Steady False False False s := steady_ask fun _ => by split <;> simp
@[simp] theorem steady_zServe (h : ZHdr) (m : ZMem) (wr : Bool) (data : List Byte) : (zServe h m wr data).Steady False False False s := by
  simp [zServe]
@[simp] theorem steady_zStallWake (clk : Nat) : (zStallWake clk).Steady False False False s := steady_ask fun _ => by simp
@[simp] theorem steady_zStallTimeout : zStallTimeout.Steady False False False s := steady_ask fun _ => by simp
@[simp] theorem steady_memRdRecv (h : ZHdr) (m : ZMem) : (memRdRecv h m).Steady False False False s := by simp [memRdRecv]
@[simp] theorem steady_memWrRecv (h : ZHdr) (m : ZMem) (data : List Byte) : (memWrRecv h m data).Steady False False False s := by simp [memWrRecv]
@[simp] theorem steady_rspTimeoutAct (opId : Nat) : (rspTimeoutAct opId).Steady False False False s := steady_ask fun _ =>
  (steady_when _ _).2 fun _ => (steady_forSome _ _).2 fun _ _ => by dsimp only; split <;> simp
@[simp] theorem steady_fenAnswer (h : ZHdr) (idx status : Nat) : (fenAnswer h idx status).Steady False False False s := steady_ask fun _ => by simp
@[simp] theorem steady_fenOpAt (h : ZHdr) (idx : Nat) (op : FenOp) : (fenOpAt h idx op).Steady False False False s := steady_ask fun _ => by
  cases op with
  | imp nonce => dsimp only; split <;> simp
  | _ => simp
@[simp] theorem steady_fenOpRecv (h : ZHdr) (idx : Nat) (op : FenOp) : (fenOpRecv h idx op).Steady False False False s := by simp [fenOpRecv]
@[simp] theorem steady_fenUpdRecv (h : ZHdr) (idx : Nat) (v : DWord) (dead : Bool) : (fenUpdRecv h idx v dead).Steady False False False s := by
  simp [fenUpdRecv]
@[simp] theorem steady_importDone (p : Path) (n tok : Nat) (v : DWord) : (importDone p n tok v).Steady False False False s := steady_ask fun _ => by
  dsimp only
  split
  · simp
  · refine (steady_ite _ _ _).2 ⟨by simp, fun _ => ?_⟩
    split <;> simp
@[simp] theorem steady_fenRspRecv (h : ZHdr) (status : Nat) (v : DWord) : (fenRspRecv h status v).Steady False False False s :=
  steady_zDeliver _ _ _ (steady_ask fun _ => (steady_forSome _ _).2 fun _ _ => by
    split
    · simp
    · exact ⟨by simp, by split <;> simp⟩
    · simp
    · simp
    · trivial)
@[simp] theorem steady_chrAnswer (h : ZHdr) (n : Nat) : (chrAnswer h n).Steady False False False s := steady_ask fun _ => by simp
@[simp] theorem steady_chrOpAt (h : ZHdr) (n mid tag : Nat) (i : WTime) (op : ChrOp) : (chrOpAt h n mid tag i op).Steady False False False s :=
  steady_ask fun _ => by split <;> simp
@[simp] theorem steady_chrOpRecv (h : ZHdr) (n mid tag : Nat) (i : WTime) (op : ChrOp) : (chrOpRecv h n mid tag i op).Steady False False False s := by
  simp [chrOpRecv]
@[simp] theorem steady_mirrorSet (src n : Nat) (w : Word) : (mirrorSet src n w).Steady False False False s := steady_ask fun _ =>
  (steady_when _ _).2 fun _ => ⟨by simp, steady_ask fun _ =>
    ⟨by simp, (steady_forEach _ _).2 fun _ _ => by split <;> simp⟩, by simp⟩
@[simp] theorem steady_chrRspRecv (h : ZHdr) (n : Nat) (w : Word) : (chrRspRecv h n w).Steady False False False s :=
  steady_zDeliver _ _ _ (steady_ask fun _ => ⟨by simp, (steady_forSome _ _).2 fun _ _ => by split <;> simp⟩)
@[simp] theorem steady_chrUpdRecv (h : ZHdr) (n : Nat) (w : Word) : (chrUpdRecv h n w).Steady False False False s := by simp [chrUpdRecv]
@[simp] theorem steady_errRecv (h : ZHdr) (entry : List Byte) : (errRecv h entry).Steady False False False s := by simp [errRecv]
@[simp] theorem steady_badPacketAct (port : Nat) (b : BadPacket) : (badPacketAct port b).Steady False False False s :=
  steady_ask fun _ => by split <;> simp

/-! ### The remaining registers, and flushes of idle buffers -/

@[simp] theorem steady_cupPoolWrite (p : Path) (v : Word) : (cupPoolWrite p v).Steady False False False s := steady_ask fun _ => by simp
@[simp] theorem steady_errRdWrite (v : Word) : (errRdWrite v).Steady False False False s := steady_ask fun _ => by simp
@[simp] theorem steady_traceFreeze : traceFreeze.Steady False False False s := by simp [traceFreeze]
@[simp] theorem steady_traceThaw : traceThaw.Steady False False False s := steady_ask fun _ => by simp
@[simp] theorem steady_trcCtlWrite (p : Path) (v : Word) : (trcCtlWrite p v).Steady False False False s := by simp [trcCtlWrite]
@[simp] theorem steady_pelCtlWrite (p : Path) (v : Word) : (pelCtlWrite p v).Steady False False False s := by simp [pelCtlWrite]
@[simp] theorem steady_tabCfgWrite (p : Path) (v : Word) : (tabCfgWrite p v).Steady False False False s := steady_ask fun _ => by simp
@[simp] theorem steady_trkWrite (p : Path) (v : Word) : (trkWrite p v).Steady False False False s := steady_ask fun _ => by simp
@[simp] theorem steady_arbCtlWrite (p : Path) (v : Word) : (arbCtlWrite p v).Steady False False False s := steady_ask fun _ => by simp
@[simp] theorem steady_limWrite (p : Path) (off : Nat) (v : Word) : (limWrite p off v).Steady False False False s := by simp [limWrite]
@[simp] theorem steady_railWrite (p : Path) (v : Word) : (railWrite p v).Steady False False False s := steady_ask fun _ => by simp
@[simp] theorem steady_wckOutWrite (p : Path) (off : Nat) (v : Word) : (wckOutWrite p off v).Steady False False False s := by simp [wckOutWrite]
@[simp] theorem steady_wcbIdleAct (e : Nat) : (wcbIdleAct e).Steady False False False s := steady_ask fun _ => by split <;> simp

/-! ### Resets -/

@[simp] theorem steady_resetRegs (kind : Nat) : (resetRegs kind).Steady False False False s := steady_ask fun _ => by simp
@[simp] theorem steady_resetTables (kind : Nat) : (resetTables kind).Steady False False False s := by simp [resetTables]
@[simp] theorem steady_resetBlocks (kind : Nat) : (resetBlocks kind).Steady False False False s := steady_ask fun _ => by
  have hotp : (modOtp fun o => { o with
      words := if o.burning = true ∧ kind = rkCold then [] else o.words, burning := o.burning && kind != rkCold,
      hold := [] }).Steady False False False s := steady_modOtp fun o hhash hburn => by simp [hhash, hburn]
  simp [hotp]
@[simp] theorem steady_resetPaths (kind : Nat) : (resetPaths kind).Steady False False False s := by simp [resetPaths]
@[simp] theorem steady_resetGo (kind : Nat) : (resetGo kind none).Steady False False False s := by simp [resetGo]
@[simp] theorem steady_supplyTripAct : supplyTripAct.Steady False False False s := steady_ask fun _ => by simp

/-! ### Boot -/

@[simp] theorem steady_bootFail (e : BootErr) : (bootFail e).Steady False False False s := steady_ask fun _ => by simp
@[simp] theorem steady_spiDone (bs : List Byte) {k : Act} (hk : k.Steady False False False s) : (spiDone bs k).Steady False False False s :=
  steady_ask fun _ => by simp [hk]
@[simp] theorem steady_headerAct (bs : List Byte) : (headerAct bs).Steady False False False s := steady_ask fun _ => by simp
@[simp] theorem steady_bodyAct (bs : List Byte) : (bodyAct bs).Steady False False False s := steady_ask fun _ => by simp
@[simp] theorem steady_bootGo : bootGo.Steady False False False s := steady_ask fun _ => by simp
@[simp] theorem steady_bootStage (a : Nat) (bs : List Byte) (shade : Nat) : (bootStage a bs shade).Steady False False False s := by simp [bootStage]
@[simp] theorem steady_bootChans (i base : Nat) (l : List (Nat × Nat × Nat × Nat)) : (bootChans i base l).Steady False False False s := by
  induction l generalizing i base with
  | nil => trivial
  | cons x l ih => exact ⟨steady_ask fun _ => by simp, ih _ _⟩
@[simp] theorem steady_bootRegion (i lim att : Nat) : (bootRegion i lim att).Steady False False False s := steady_ask fun _ => by simp
@[simp] theorem steady_applyDoneAct : applyDoneAct.Steady False False False s := steady_ask fun _ =>
  (steady_when _ _).2 fun _ => ⟨steady_internalWrite _ _ _, by simp⟩
@[simp] theorem steady_bootRetryAct : bootRetryAct.Steady False False False s := steady_ask fun _ => by simp
/-- Where the fuses are not burned, or a burn is in progress, any may change. -/
theorem steady_modOtp_unburned {f : Otp → Otp} {u : State} (hu : Steady G D N s u)
    (h : u.otp.hashEn = false ∨ u.otp.burning = true) : (modOtp f).Steady G D N s := fun _ _ _ hhash hburn => by
  obtain ⟨hhash', hburn', _⟩ := hu.otp hhash hburn
  rcases h with h | h
  · rw [hhash'] at h; cases h
  · rw [hburn'] at h; cases h
@[simp] theorem steady_otpCtlWrite (p : Path) (v : Word) : (otpCtlWrite p v).Steady False False False s := fun u _ hu =>
  (steady_when _ _).2 fun _ => (steady_ite _ _ _).2 ⟨by simp, fun h => by
    simp only [Bool.or_eq_true, not_or, Bool.not_eq_true] at h
    exact steady_modOtp_unburned hu (.inl h.1.1.2)⟩
@[simp] theorem steady_burnDoneAct : burnDoneAct.Steady False False False s := fun u _ hu => (steady_when _ _).2 fun h => by
  simp only [Bool.and_eq_true] at h
  exact steady_modOtp_unburned hu (.inr h.2)
@[simp] theorem steady_otpDataWrite (v : Word) : (otpDataWrite v).Steady False False False s := steady_ask fun _ =>
  (steady_when _ _).2 fun _ => steady_modOtp fun _ hhash hburn => ⟨hhash, hburn, rfl⟩
@[simp] theorem steady_bootCtlWrite (p : Path) (v : Word) : (bootCtlWrite p v).Steady False False False s := by simp [bootCtlWrite]

/-! ### Power -/

@[simp] theorem steady_keyBad : keyBad.Steady False False False s := by simp [keyBad]
@[simp] theorem steady_resetAccepted : resetAccepted.Steady False False False s := by simp [resetAccepted]
@[simp] theorem steady_resetKeyWrite (p : Path) (v : Word) : (resetKeyWrite p v).Steady False False False s := steady_ask fun _ => by simp
@[simp] theorem steady_cycKeyWrite (p : Path) (v : Word) : (cycKeyWrite p v).Steady False False False s := steady_ask fun _ => by simp
@[simp] theorem steady_quiesceLanes : quiesceLanes.Steady False False False s := by simp [quiesceLanes]
@[simp] theorem steady_deviceResetAct : deviceResetAct.Steady False False False s := steady_ask fun _ => by simp
@[simp] theorem steady_pwrcycReqAct : pwrcycReqAct.Steady False False False s := steady_ask fun _ => by simp
@[simp] theorem steady_standbyEnd : standbyEnd.Steady False False False s := by simp [standbyEnd]
@[simp] theorem steady_standbyEnteredAct : standbyEnteredAct.Steady False False False s := steady_ask fun _ => by simp
@[simp] theorem steady_pfLoad : pfLoad.Steady False False False s := steady_ask fun _ => by simp
@[simp] theorem steady_pfRecognise : pfRecognise.Steady False False False s := steady_ask fun _ => by simp
@[simp] theorem steady_pfStop : pfStop.Steady False False False s := steady_ask fun _ => by simp
@[simp] theorem steady_pwrfailAct : pwrfailAct.Steady False False False s := steady_ask fun _ => by simp
@[simp] theorem steady_pfFinal (drained : Bool) : (pfFinal drained).Steady False False False s := steady_ask fun _ => by simp
@[simp] theorem steady_pfDrained : pfDrained.Steady False False False s := steady_ask fun _ => by simp
@[simp] theorem steady_pwrfailDrainedAct : pwrfailDrainedAct.Steady False False False s := steady_ask fun _ => by simp
@[simp] theorem steady_drainMarkAct : drainMarkAct.Steady False False False s := steady_ask fun _ => by simp
@[simp] theorem steady_clockFailureAct : clockFailureAct.Steady False False False s := steady_ask fun _ => by simp

/-! ### Frames and reads over the paths -/

@[simp] theorem steady_stopWrite (p : Path) (v : Word) : (stopWrite p v).Steady False False False s := by simp [stopWrite]
@[simp] theorem steady_mailBody (p : Path) (op : Nat) (a : Nat → Nat) : (mailBody p op a).Steady False False False s := by
  unfold mailBody
  split <;> simp
@[simp] theorem steady_cmdOpWrite (p : Path) (v : Word) : (cmdOpWrite p v).Steady False False False s := by simp [cmdOpWrite]
@[simp] theorem steady_mailNext (p : Path) : (mailNext p).Steady False False False s := steady_ask fun _ => by simp
@[simp] theorem steady_sitWrite (p : Path) (n : Nat) (v : Word) : (sitWrite p n v).Steady False False False s := by simp [sitWrite]
@[simp] theorem steady_msixWrite (a : Nat) (v : Word) : (msixWrite a v).Steady False False False s := steady_ask fun _ => by simp
@[simp] theorem steady_scpReply (b : Nat) : (scpReply b).Steady False False False s := by simp [scpReply]
@[simp] theorem steady_scpLead (n : Nat) : (scpLead n).Steady False False False s := by simp [scpLead]
@[simp] theorem steady_scpCrcErr : scpCrcErr.Steady False False False s := by simp [scpCrcErr]
@[simp] theorem steady_scpFrameErr : scpFrameErr.Steady False False False s := by simp [scpFrameErr]
@[simp] theorem steady_scpCut : scpCut.Steady False False False s := by simp [scpCut]
@[simp] theorem steady_scpWithdraw : scpWithdraw.Steady False False False s := by simp [scpWithdraw]
@[simp] theorem steady_winTimeout (p : Path) : (winTimeout p).Steady False False False s := steady_ask fun _ => by split <;> simp
@[simp] theorem steady_barRead (r : ReadReq) : (barRead r).Steady False False False s := steady_ask fun _ => by simp

end

end Sys2Proof.Machine
end

section
/-!
SUPPORT. Steady meanings: those that reach a write by an engine, and rows.
-/

namespace Sys2Proof.Machine

-- The many short proofs are checked one after another, for each would else hold a thread of its own.
set_option Elab.async false

/-! ### Lists of meanings and writes by an engine -/

section
variable {G D N : Prop} {s : State} {a b : Act}

theorem steady_pair (ha : a.Steady G D N s) (hb : b.Steady G D N s) : (Act.seq a b).Steady G D N s := ⟨ha, hb⟩
theorem steady_all {l : List Act} (h : ∀ a ∈ l, a.Steady G D N s) : (acts l).Steady G D N s := by
  induction l with
  | nil => trivial
  | cons a l ih =>
    obtain ⟨ha, hl⟩ := List.forall_mem_cons.1 h
    exact (steady_acts_cons _ _).2 ⟨ha, ih hl⟩
@[simp] theorem steady_wcbPut (e space a : Nat) (bs : List Byte) : (wcbPut e space a bs).Steady G False N s := by
  simp only [wcbPut, steady_acts_cons, steady_acts_nil, and_true]
  exact ⟨steady_ask fun _ => by simp, steady_ask fun _ => by simp, steady_ask fun _ => by simp⟩
@[simp] theorem steady_engineWrite (q : FReq) (e space a : Nat) (bs : List Byte) : (engineWrite q e space a bs).Steady G False N s :=
  (steady_forEach _ _).2 fun _ _ => (steady_when _ _).2 fun _ => by simp

/-- A function reset begins. -/
@[simp] theorem steady_hostReset (up perst : Bool) : (modHost (·.reset up perst)).Steady G D N s := steady_modHost fun _ x _ => by
  unfold HostLink.reset
  split <;> rfl

end

section
variable {G D N : Prop} {s : State} {body act : Act}

/-! ### The frames of rows -/


end

/-! ### Moves -/

@[simp] theorem steady_writePiece (c : Nat) (d : Cur) (full n : Nat) (bs : List Byte) : (writePiece c d full n bs).Steady G False False s :=
  steady_ask fun _ => by
    refine (steady_ite _ _ _).2 ⟨by simp, fun _ => (steady_ite _ _ _).2 ⟨fun _ => ?_, fun _ => ?_⟩⟩
    · split <;> simp
    · split
      · exact steady_all (by simp)
      all_goals simp
theorem steady_withFree (c : Nat) (d : List Word) (off : Nat) (bs : List Byte) {k : List Byte → Act} (h : ∀ x, (k x).Steady False False False s) :
    (withFree c d off bs k).Steady False False False s := by
  refine (steady_ite _ _ _).2 ⟨fun _ => h _, fun _ => steady_ask fun _ => ?_⟩
  exact steady_pair (by simp) (steady_pair (by simp) (h _))
@[simp] theorem steady_move (c fuel : Nat) : (move c fuel).Steady False False False s := by
  induction fuel with
  | zero => simp [move]
  | succ fuel ih =>
    refine steady_ask fun _ => ?_
    split
    · simp
    · refine (steady_ite _ _ _).2 ⟨by simp, fun _ => ?_⟩
      dsimp only
      split
      · refine steady_pair ?_ (steady_pair (steady_ask fun _ => ?_) ih)
        · exact steady_withFree _ _ _ _ fun _ => steady_writePiece _ _ _ _ _
        · split <;> simp
      · refine (steady_ite _ _ _).2 ⟨by simp, fun _ => (steady_ite _ _ _).2 ⟨by simp, fun _ => ?_⟩⟩
        exact steady_underGrant c (steady_pair (by simp) ih)
@[simp] theorem steady_moveOn (c : Nat) : (moveOn c).Steady False False False s := steady_ask fun _ => by split <;> simp
@[simp] theorem steady_moveRow (c op bursts : Nat) : (moveRow c op bursts).Steady False False False s := steady_ask fun _ =>
  (steady_when _ _).2 fun _ => steady_opRow c op (steady_all (by simp))
@[simp] theorem steady_loopBody (c : Nat) : (loopBody c).Steady False False False s := steady_ask fun _ =>
  (steady_forSome _ _).2 fun _ _ => steady_all (by simp)

/-! ### Results of an ALLOC -/

@[simp] theorem steady_putResult (c fuel : Nat) : (putResult c fuel).Steady G False False s := by
  induction fuel with
  | zero => simp [putResult]
  | succ fuel ih =>
    refine steady_ask fun _ => ?_
    split
    · simp
    · refine (steady_ite _ _ _).2 ⟨by simp, fun _ => ?_⟩
      split
      · simp
      · exact steady_all (by simp [ih])
@[simp] theorem steady_resultOn (c : Nat) : (resultOn c).Steady False False False s := steady_ask fun _ =>
  (steady_forSome _ _).2 fun _ _ => (steady_when _ _).2 fun _ => steady_all (by simp)
theorem steady_allocMake (ctx : Nat) (d : List Word) (o : AllocOut) {k : Nat → Nat → Nat → Act}
    (h : ∀ x y z, (k x y z).Steady G False N s) : (allocMake ctx d o k).Steady G False N s := by
  cases o with
  | user obj e ps => exact steady_all (by simp [h])
  | priv obj g n => exact steady_all (by simp [h])
  | _ => exact trivial
@[simp] theorem steady_allocEnd (o : CupOp) : (allocEnd o).Steady G False False s := steady_ask fun _ => by
  dsimp only
  split
  · simp
  · simp
  · refine steady_allocMake _ _ _ fun _ _ _ => (steady_ite _ _ _).2 ⟨by simp +decide, fun _ => steady_ask fun _ => ?_⟩
    exact (steady_when _ _).2 fun _ => steady_all (by simp +decide)
@[simp] theorem steady_cupEndAct : cupEndAct.Steady G False False s := steady_ask fun _ =>
  (steady_forSome _ _).2 fun _ _ => steady_all (by simp +decide)
@[simp] theorem steady_allocBody (c : Nat) : (allocBody c).Steady False False False s := steady_ask fun _ => by simp

/-! ### Completion records, and channels that go on -/

@[simp] theorem steady_recordAct (q : Nat) : (recordAct q).Steady False False False s := steady_ask fun _ => by
  split
  · simp
  · refine (steady_when _ _).2 fun _ => (steady_ite _ _ _).2 ⟨fun _ => steady_all (by simp), fun _ => ?_⟩
    split <;> simp
@[simp] theorem steady_chanResume (c : Nat) : (chanResume c).Steady False False False s := by
  refine steady_pair (by simp) (steady_ask fun _ => ?_)
  split
  · refine (steady_ite _ _ _).2 ⟨by simp, fun _ => (steady_when _ _).2 fun _ => (steady_ite _ _ _).2 ⟨fun _ => ?_, by simp⟩⟩
    exact steady_all (by simp)
  · simp
@[simp] theorem steady_walkEnd (w : Who) : (walkEnd w).Steady False False False s := by cases w <;> simp [walkEnd]
@[simp] theorem steady_readEnd (r : HRead) (bs : List Byte) : (readEnd r bs).Steady False False False s := steady_ask fun _ => by
  split
  · dsimp only
    split
    · simp
    · exact steady_all (by simp)
    · simp
  · exact steady_all (by simp)
  · simp
  · simp
@[simp] theorem steady_completionAct (tag status : Nat) (poison : Bool) (data : List Byte) :
    (completionAct tag status poison data).Steady False False False s := steady_ask fun _ => by
  refine (steady_when _ _).2 fun _ => ?_
  split
  · simp
  · refine (steady_ite _ _ _).2 ⟨by simp, fun _ => (steady_ite _ _ _).2 ⟨by simp, fun _ => steady_all (by simp)⟩⟩
@[simp] theorem steady_frStart (cause : Nat) : (frStart cause).Steady G False False s := steady_ask fun _ =>
  (steady_ite _ _ _).2 ⟨by simp +decide, fun _ => steady_all (by simp +decide)⟩
@[simp] theorem steady_stallCheck (c : Nat) : (stallCheck c).Steady False False False s := steady_ask fun _ => by
  refine (steady_forSome _ _).2 fun _ _ => ?_
  dsimp only
  split
  · simp
  · simp
  · simp
  all_goals exact steady_all (by simp)
@[simp] theorem steady_stallWake : stallWake.Steady False False False s := steady_ask fun _ => by
  refine (steady_when _ _).2 fun _ => steady_pair (by simp) ((steady_forEach _ _).2 fun _ _ => steady_ask fun _ => ?_)
  simp
@[simp] theorem steady_prtCtlWrite (p : Path) (v : Word) : (prtCtlWrite p v).Steady False False False s :=
  steady_pair (by simp) (steady_ask fun _ => by simp)
@[simp] theorem steady_protEnable (p : Path) (v : Word) : (protEnable p v).Steady False False False s :=
  steady_ask fun _ => steady_all (by simp)

/-! ### SAMPLE, PMB_XFER and answers of peers -/

@[simp] theorem steady_sampleIndex (c : Nat) (d : Cur) : (sampleIndex c d).Steady False False False s :=
  steady_ask fun _ => steady_all (by simp)
@[simp] theorem steady_sampleGo (c fuel : Nat) : (sampleGo c fuel).Steady False False False s := by
  induction fuel with
  | zero => simp [sampleGo]
  | succ fuel ih =>
    have hnext : (acts [sampleNext c, sampleGo c fuel]).Steady False False False s := steady_all (by simp [ih])
    refine steady_ask fun _ => ?_
    split
    · simp
    · refine (steady_ite _ _ _).2 ⟨by simp, fun _ => ?_⟩
      split
      · refine steady_pair (by simp) (steady_pair (steady_ask fun _ => ?_) ih)
        split <;> simp
      · simp [hnext]
@[simp] theorem steady_sampleBody (c : Nat) : (sampleBody c).Steady False False False s := steady_ask fun _ => by simp
@[simp] theorem steady_sampleStale (c : Nat) : (sampleStale c).Steady False False False s := steady_ask fun _ =>
  (steady_forSome _ _).2 fun _ _ => (steady_when _ _).2 fun _ => steady_all (by simp)
@[simp] theorem steady_busStore (c status fuel : Nat) : (busStore c status fuel).Steady False False False s := by
  induction fuel with
  | zero => simp [busStore]
  | succ fuel ih =>
    refine steady_ask fun _ => (steady_forSome _ _).2 fun _ _ => ?_
    split
    · simp
    · dsimp only
      split
      · exact steady_all (by simp [ih])
      all_goals simp
@[simp] theorem steady_pmbBody (c : Nat) : (pmbBody c).Steady False False False s := steady_ask fun _ => by
  refine (steady_forSome _ _).2 fun _ _ => ?_
  split
  · exact steady_all (by simp)
  · simp
@[simp] theorem steady_busEnd (c : Nat) (wire : List Byte) (cause byte : Nat) (data : List Byte) :
    (busEnd c wire cause byte data).Steady False False False s := steady_ask fun _ =>
  (steady_forSome _ _).2 fun _ _ => steady_all (by simp)
@[simp] theorem steady_transactionEnd (k cause : Nat) (clear : Bool) (byte : Nat) (data : List Byte) :
    (transactionEnd k cause clear byte data).Steady False False False s := steady_ask fun _ => by
  refine (steady_when _ _).2 fun _ => (steady_forSome _ _).2 fun u _ => steady_raised ?_
  cases u <;> exact steady_all (by simp)
@[simp] theorem steady_memRspRecv (h : ZHdr) (status : Nat) (data : List Byte) : (memRspRecv h status data).Steady False False False s := by
  refine steady_zDeliver _ _ _ (steady_ask fun _ => (steady_forSome _ _).2 fun _ _ => ?_)
  split
  · refine (steady_ite _ _ _).2 ⟨by simp, fun _ => (steady_forSome _ _).2 fun _ _ => ?_⟩
    exact (steady_ite _ _ _).2 ⟨by simp, fun _ => steady_all (by simp)⟩
  · exact (steady_ite _ _ _).2 ⟨by simp, fun _ => (steady_forSome _ _).2 fun _ _ => steady_all (by simp)⟩
  · simp
  · simp

/-! ### Register writes -/

@[simp] theorem steady_blockWrite (p : Path) (off : Nat) (v : Word) : (blockWrite p off v).Steady False False False s := steady_ask fun _ => by
  split <;> simp
@[simp] theorem steady_bootWrite (off v : Nat) : (bootWrite off v).Steady False False False s :=
  (steady_ite _ _ _).2 ⟨fun _ => steady_all (by simp), fun _ =>
    (steady_ite _ _ _).2 ⟨fun _ => steady_all (by simp), by simp⟩⟩
@[simp] theorem steady_bootWrites (l : List (Nat × Nat)) : (bootWrites l).Steady False False False s := (steady_forEach _ _).2 fun _ _ =>
  steady_bootWrite _ _
@[simp] theorem steady_applySect (x : Sect) : (applySect x).Steady False False False s := by
  unfold applySect
  split
  · simp
  · refine steady_pair (by simp) (steady_pair ((steady_forEach _ _).2 fun _ _ => ?_) (steady_bootWrite _ _))
    exact steady_all (by simp)
  · simp
  · exact steady_pair ((steady_forEach _ _).2 fun _ _ => steady_bootWrites _) (by simp)
  · simp
  · exact steady_all (by simp)
  · simp
  · simp
  · simp
@[simp] theorem steady_checkDoneAct : checkDoneAct.Steady False False False s := steady_ask fun _ => by
  refine (steady_when _ _).2 fun _ => (steady_ite _ _ _).2 ⟨by simp, fun _ => ?_⟩
  split
  · simp
  · exact steady_all (by simp)
@[simp] theorem steady_standbyBegin : standbyBegin.Steady False False False s := steady_ask fun _ => steady_all (by simp)
@[simp] theorem steady_pwrWrite (p : Path) (v : Word) : (pwrWrite p v).Steady False False False s := steady_ask fun _ => by simp
@[simp] theorem steady_viewApply (w : JobWait) : (viewApply w).Steady False False False s := by
  cases w with
  | viewSet n entry v =>
    refine steady_ask fun _ => steady_pair (by simp) ((steady_forEach _ _).2 fun _ _ => (steady_when _ _).2 fun _ => ?_)
    exact steady_all (by simp)
  | _ => exact trivial
@[simp] theorem steady_mailDoneAct (p : Path) : (mailDoneAct p).Steady False False False s := steady_ask fun _ =>
  (steady_forSome _ _).2 fun _ _ => (steady_when _ _).2 fun _ => steady_all (by simp)
@[simp] theorem steady_regWrite (p : Path) (off : Nat) (v : Word) : (regWrite p off v).Steady False False False s := by
  unfold regWrite
  split <;> simp
@[simp] theorem steady_writeReg (p : Path) (off : Nat) (v : Word) : (writeReg p off v).Steady False False False s :=
  steady_pathWrite _ _ _ (steady_regWrite _ _ _)
@[simp] theorem steady_barWrite (off : Nat) (v : Word) (be : Nat) : (barWrite off v be).Steady False False False s :=
  steady_ask fun _ => by simp
@[simp] theorem steady_barWriteReq (off be : Nat) (ws : List (Word × Nat)) : (barWriteReq off be ws).Steady False False False s :=
  steady_ask fun _ => (steady_ite _ _ _).2 ⟨by simp, fun _ =>
    (steady_ite _ _ _).2 ⟨by simp, fun _ => (steady_forEach _ _).2 fun _ _ => by simp⟩⟩
@[simp] theorem steady_busWrite (p : Path) (off : Nat) (v : Word) (be : Nat) (more : List (Word × Nat)) :
    (busWrite p off v be more).Steady False False False s := by cases p <;> simp [busWrite]
@[simp] theorem steady_scpFrame (bytes : List Byte) : (scpFrame bytes).Steady False False False s := steady_ask fun _ => by
  have hwords : ∀ f : Frame, (acts [
      forEach (List.range f.n) fun i => writeReg .scp (f.off i) (f.word i), scpReply 0x5A]).Steady False False False s := fun f =>
    steady_pair ((steady_forEach _ _).2 fun _ _ => by simp) (by simp)
  refine (steady_when _ _).2 fun _ => (steady_forSome _ _).2 fun f _ => (steady_ite _ _ _).2 ⟨by simp, fun _ => ?_⟩
  exact steady_all (by simp [hwords])
@[simp] theorem steady_csRise (bytes : List Byte) : (csRise bytes).Steady False False False s := steady_ask fun _ => by
  refine (steady_when _ _).2 fun _ => (steady_ite _ _ _).2 ⟨by simp, fun _ => steady_pair ?_ (by simp)⟩
  split <;> simp

/-! ### Rows and commands -/

@[simp] theorem steady_barDrain (fuel : Nat) : (barDrain fuel).Steady False False False s := by
  induction fuel with
  | zero => simp [barDrain]
  | succ fuel ih =>
    refine steady_ask fun _ => (steady_when _ _).2 fun _ => (steady_forSome _ _).2 fun r _ => ?_
    cases r <;> exact steady_all (by simp [ih])
theorem steady_row {a : Act} (h : a.Steady False False False s) : (row a).Steady False False False s := by
  have hdrain : (Act.ask fun s => barDrain s.bar.behind.length).Steady False False False s := steady_ask fun _ => by simp
  refine steady_ask fun _ => (steady_when _ _).2 fun _ => steady_ask fun _ => ?_
  exact (steady_ite _ _ _).2 ⟨fun _ => h, fun _ => steady_all (by simp [h, hdrain])⟩

end Sys2Proof.Machine
end

section
/-!
SUPPORT. The fuses and the straps over every command (R526, R540).
-/

namespace Sys2Proof.Machine

-- The many short proofs are checked one after another, for each would else hold a thread of its own.
set_option Elab.async false

/-- The meaning leaves burned fuses as they were, whatever it does to the straps. -/
def Act.KeepsFuses (a : Act) : Prop := ∀ s : State, s.otp.Stays (a.run s).otp

theorem Act.KeepsFuses.of_steady {a : Act} (h : ∀ s, a.Steady False False False s) : a.KeepsFuses :=
  fun s => ((h s).steady False.elim).otp

theorem Act.KeepsFuses.seq {a b : Act} (ha : a.KeepsFuses) (hb : b.KeepsFuses) : (Act.seq a b).KeepsFuses :=
  fun s => (ha s).trans (hb _)

theorem Act.KeepsFuses.ask {k : State → Act} (h : ∀ s, (k s).KeepsFuses) : (Act.ask k).KeepsFuses := fun s => h s s

/-- A reset keeps burned fuses, though it samples the straps. -/
theorem resetGo_keepsFuses (kind : Nat) (x : Straps) : (resetGo kind (some x)).KeepsFuses :=
  .seq (fun _ => Otp.Stays.refl _) (.of_steady (a := acts [resetRegs kind, resetTables kind, resetBlocks kind, resetPaths kind])
    fun _ => by simp)

theorem reset_keepsFuses (n kind : Nat) (x : Straps) : (acts [tickBy n, resetGo kind (some x)]).KeepsFuses :=
  .seq (.of_steady fun _ => by simp) (resetGo_keepsFuses kind x)

theorem Act.KeepsFuses.when {a : Act} (b : Bool) (ha : a.KeepsFuses) : (when_ b a).KeepsFuses := by
  cases b
  · exact fun _ => Otp.Stays.refl _
  · exact ha

theorem warmAct_keepsFuses (lowNs : Nat) (x : Straps) : (warmAct lowNs x).KeepsFuses := .ask fun _ => .when _ (by
  have hgo := reset_keepsFuses (lowNs * 4 / 5) rkWarm x
  split
  · exact fun _ => Otp.Stays.refl _
  · split
    · exact .ask fun _ => .seq (fun _ => Otp.Stays.refl _) (.when _ hgo)
    · exact hgo)

/-- Every command but a cold or a warm reset leaves the fuses and the straps. -/
theorem exec_steady (i : Instr) (s : State) (hi : resetRow i = false) :
    ∃ a : Act, exec i s = .next (a.run s) ∧ a.Steady False False False s := by
  cases i with
  | coldReset x => cases hi
  | warmReset lowNs x => cases hi
  | supplyTrip => exact ⟨supplyTripAct, rfl, by simp⟩
  | scpRead r => exact ⟨_, rfl, steady_row (by cases r <;> simp)⟩
  | disabledStallTimeout c | chairTakeTimeout c => exact ⟨_, rfl, steady_row (by cases c <;> simp)⟩
  | sqDb n slot v be | cqDb n slot v be => exact ⟨_, rfl, steady_row (by simp)⟩
  | _ => exact ⟨_, rfl, steady_row (by simp)⟩

/-- Settles O5: no meaning changes burned fuses or the straps (`exec_steady`), but for the two resets, which sample the straps and
keep burned fuses as well (`resetGo_keepsFuses`). -/
theorem fusesAndStrapsStay : Obligations.FusesAndStrapsStay := by
  intro i s t hexec
  cases hi : resetRow i with
  | false =>
    obtain ⟨a, ha, hsteady⟩ := exec_steady i s hi
    cases ha.symm.trans hexec
    have h := hsteady.steady False.elim
    exact ⟨h.otp, fun _ => h.straps⟩
  | true =>
    refine ⟨?_, fun h => nomatch h⟩
    cases i with
    | coldReset x =>
      cases hexec
      exact reset_keepsFuses (usClocks 1200) rkCold x s
    | warmReset lowNs x =>
      cases hexec
      exact warmAct_keepsFuses lowNs x s
    | _ => cases hi

end Sys2Proof.Machine
end

section
/-!
SUPPORT. A channel that an ABORT stops comes to rest, and no other channel's stop wakes it (08 Model, R556).
-/

namespace Sys2Proof.Machine

-- The many short proofs are checked one after another, for each would else hold a thread of its own.
set_option Elab.async false

section
variable {N : Prop} {s u : State} {c : Nat}

/-! ### A channel at rest goes nowhere -/

section
variable (h : (s.chan c).Rests)
include h

theorem Chan.Rests.later (hu : Steady True True N s u) : (u.chan c).Rests := (hu.chans trivial trivial c).rests h

/-- Any change of a channel at rest that leaves it at rest. -/
theorem resting_modChan {f : Chan → Chan} (hf : ∀ x, x.Rests → (f x).Rests) : (modChan c f).Steady True True N s :=
  fun _ _ hu _ _ => Chan.stays_rest (hf _ (h.later hu))

theorem resting_startNext : (startNext c).Steady True True N s := fun u _ hu => (steady_ite _ _ _).2 ⟨fun _ => trivial, fun _ => by
  obtain ⟨_, hsubs⟩ := h.later hu
  rw [hsubs]
  cases u.ringBlocked c <;> exact resting_modChan h fun _ hx => ⟨rfl, hx.2⟩⟩

theorem resting_resumeNext : (resumeNext c).Steady True True N s := steady_ask fun _ => by
  simp [resting_startNext h]

theorem resting_arrive : (arrive c).Steady True True N s := steady_ask fun _ =>
  (steady_forSome _ _).2 fun _ _ => (steady_when _ _).2 fun _ => steady_pair (resting_modChan h fun _ hx => hx) (by
    simp [resting_resumeNext h, resting_startNext h])

theorem resting_stopTo (st : ChanSt) : (stopTo c st).Steady True True N s := steady_ask fun _ =>
  (steady_ite _ _ _).2 ⟨by simp, fun _ => steady_pair (resting_modChan h fun _ hx => hx) (resting_arrive h)⟩

end

/-! ### An ABORT brings a channel to rest -/

theorem run_none_of_chainEnd (hw : s.wf = true) (status : Nat) : (((chainEnd c status).run s).chan c).run = none := by
  simp only [chainEnd, run_ask, run_acts_cons, run_acts_nil]
  generalize hu : (leaveEngine c).run _ = u
  have hwu : u.wf = true := hu ▸ Act.run_wf _ _ (Act.run_wf _ s hw)
  have hsubs : ∀ v, (modSubs c List.tail).Steady True True True v := fun v => by simp
  refine (((hsubs _).steady fun _ => Act.run_wf _ u hwu).chans trivial trivial c).chainless trivial ?_
  rw [chan_modChan hwu, if_pos rfl]

/-- What an ABORT does to a chain before its end record is due (R261, R267). -/
def beforeEnd (c : Nat) : Act := acts [
  flushOf c, releaseWaits c, killReads c, killForwards c, cutEmit c, leaveBus c, dropRefs c, cutTime c]

theorem steady_beforeEnd : (beforeEnd c).Steady True True True s := by simp [beforeEnd]

theorem abortRun_run (status : Nat) (h : (s.chan c).run.isSome || !(s.chan c).subs.isEmpty) : (abortRun c status).run s =
    (when_ ((s.chan c).run.isSome || (s.chan c).park == .start) (chainEnd c status)).run ((beforeEnd c).run s) := by
  rw [abortRun, run_ask, h]
  rfl

/-- A chain that is to end ends, and where there is none none starts. -/
theorem run_none_of_abortRun (hw : s.wf = true) (status : Nat) : (((abortRun c status).run s).chan c).run = none := by
  cases hany : (s.chan c).run.isSome || !(s.chan c).subs.isEmpty with
  | false =>
    rw [abortRun, run_ask, hany]
    simp only [Bool.or_eq_false_iff, Option.isSome_eq_false_iff, Option.isNone_iff_eq_none] at hany
    exact hany.1
  | true =>
    rw [abortRun_run status hany]
    cases hend : (s.chan c).run.isSome || (s.chan c).park == .start with
    | true => exact run_none_of_chainEnd (Act.run_wf _ s hw) status
    | false =>
      simp only [Bool.or_eq_false_iff, Option.isSome_eq_false_iff, Option.isNone_iff_eq_none] at hend
      exact ((steady_beforeEnd.steady fun _ => hw).chans trivial trivial c).chainless trivial hend.1

theorem rests_of_dropSubs (hw : s.wf = true) (hrun : (s.chan c).run = none) (status : Nat) :
    (((dropSubs c status).run s).chan c).Rests := by
  have hended : (forEach (s.chan c).subs fun sub => unstarted c sub status).Steady True True True s := by simp
  have hchain := ((hended.steady fun _ => hw).chans trivial trivial c).chainless trivial hrun
  have hwu := Act.run_wf (forEach (s.chan c).subs fun sub => unstarted c sub status) s hw
  simp only [dropSubs, modSubs, run_ask, run_acts_cons, run_acts_nil]
  generalize (forEach (s.chan c).subs fun sub => unstarted c sub status).run s = u at hchain hwu
  have hsettle : queueSettle.Steady True True True ((modChan c fun x => { x with
    subs := [], pend := x.pend + 0 - x.subs.length }).run u) := by simp
  refine ((hsettle.steady fun _ => Act.run_wf _ u hwu).chans trivial trivial c).rests ?_
  rw [chan_modChan hwu, if_pos rfl]
  exact ⟨hchain, rfl⟩

/-- Where a channel goes once an ABORT has ended what it had. -/
def whereTo (c : Nat) (x : Chan) : Act :=
  match x.st with
  | .queued | .running | .parked | .dying => stopTo c (if x.dest == some ChanSt.stopped then .stopped else .idle)
  | .halted => modChan c fun x => { x with st := .idle }
  | _ => .skip

theorem resting_whereTo (h : (s.chan c).Rests) (x : Chan) : (whereTo c x).Steady True True N s := by
  unfold whereTo
  split
  any_goals exact resting_stopTo h _
  · exact resting_modChan h fun _ hx => hx
  · trivial

/-- An ABORT brings its channel to rest, and every other stays as it is. -/
theorem abortChan_rests (hw : s.wf = true) (status subStatus : Nat) :
    Steady True True N s ((abortChan c status subStatus).run s) ∧ (((abortChan c status subStatus).run s).chan c).Rests := by
  have hwr := Act.run_wf (abortRun c status) s hw
  have hwd := Act.run_wf (dropSubs c subStatus) _ hwr
  have hrests := rests_of_dropSubs hwr (run_none_of_abortRun hw status) subStatus
  have hends : (acts [abortRun c status, dropSubs c subStatus]).Steady True True N s := by simp
  have hended := hends.steady fun _ => hw
  rw [abortChan, run_ask, run_acts_cons, run_acts_cons]
  simp only [run_acts_cons, run_acts_nil] at hended
  generalize (dropSubs c subStatus).run _ = u at hwd hrests hended ⊢
  have hplace : (modChan c fun x => { x with stopWT := s.now, resValid := false, bitten := false }).Steady True True N u := by simp
  have hstopped := (steady_pair hplace (resting_whereTo hrests (s.chan c))).steady fun _ => hwd
  exact ⟨hended.trans hstopped, hrests.later hstopped⟩


end

end Sys2Proof.Machine
end

section
/-!
SUPPORT. The keyed sequences of DEV_RESET and DEV_PWRCYC (R565, R567).
-/

namespace Sys2Proof.Machine

-- The many short proofs are checked one after another, for each would else hold a thread of its own.
set_option Elab.async false

section
variable {s t u : State} {c : Nat}

/-! ### An accepted device reset stops the channels of contexts 0 to 63 -/

/-- The channel is of a context of 0 to 63, neither free nor under destruction, and in no operation performed as one whole. -/
def Chan.stoppable (op : Option CupOp) (c : Nat) (x : Chan) : Prop :=
  x.ctx < 64 ∧ x.whole op c = false ∧ x.st ≠ .free ∧ x.st ≠ .dying

/-- A channel that rests or can be stopped does so later. -/
theorem Steady.stoppable (h : Steady True True N s t) (hc : (s.chan c).Rests ∨ (s.chan c).stoppable s.cup.op c) :
    (t.chan c).Rests ∨ (t.chan c).stoppable t.cup.op c := by
  have hstays := h.chans trivial trivial c
  rcases hc with hc | ⟨hctx, hwhole, hfree, hdying⟩
  · exact .inl (hstays.rests hc)
  · rcases hstays.same with hr | ⟨hctx', hfree', hdying', hwhole'⟩
    · exact .inl hr
    · exact .inr ⟨hctx' ▸ hctx, h.op trivial ▸ hwhole' hwhole, hfree' hfree, hdying' hdying⟩

/-- What an accepted device reset does to one channel (R565). -/
def stopForReset (c : Nat) : Act := .ask fun s =>
  when_ (decide ((s.chan c).ctx < 64) && (s.chan c).st != .free && (s.chan c).st != .dying) <|
    if s.atomicBusy c then modChan c fun x => { x with stopPend := 3 }
    else acts [orphanEmit c, abortChan c stDEV_RESET stDEV_RESET]

theorem steady_stopForReset (hw : s.wf = true) : Steady True True False s ((stopForReset c).run s) := by
  rw [stopForReset, run_ask]
  cases decide ((s.chan c).ctx < 64) && (s.chan c).st != .free && (s.chan c).st != .dying with
  | false => exact Steady.refl s
  | true =>
    cases hbusy : s.atomicBusy c with
    | true => 
      have hpend : (modChan c fun x => { x with stopPend := 3 }).Steady True True False s := by simp
      exact hpend.steady fun _ => hw
    | false =>
      have horphan : (orphanEmit c).Steady True True False s := by simp
      exact (horphan.steady fun _ => hw).trans (abortChan_rests (Act.run_wf _ s hw) _ _).1

theorem stopForReset_rests (hw : s.wf = true) (hc : (s.chan c).Rests ∨ (s.chan c).stoppable s.cup.op c) :
    (((stopForReset c).run s).chan c).Rests := by
  rcases hc with hc | ⟨hctx, hwhole, hfree, hdying⟩
  · exact ((steady_stopForReset hw).chans trivial trivial c).rests hc
  · rw [← atomicBusy_eq] at hwhole
    have hcond : (decide ((s.chan c).ctx < 64) && (s.chan c).st != .free && (s.chan c).st != .dying) = true := by
      simp [hctx, hfree, hdying]
    rw [stopForReset, run_ask, hcond, hwhole]
    exact (abortChan_rests (N := False) (Act.run_wf (orphanEmit c) s hw) _ _).2

theorem stopsForReset_rest (l : List Nat) (hw : s.wf = true) : Steady True True False s ((forEach l stopForReset).run s) ∧
    ∀ c ∈ l, ((s.chan c).Rests ∨ (s.chan c).stoppable s.cup.op c) → (((forEach l stopForReset).run s).chan c).Rests := by
  induction l generalizing s with
  | nil => exact ⟨Steady.refl s, fun c hc => nomatch hc⟩
  | cons d l ih =>
    have hstep := steady_stopForReset (c := d) hw
    obtain ⟨hrest, hrests⟩ := ih (Act.run_wf (stopForReset d) s hw)
    simp only [forEach, List.map_cons, run_acts_cons] at *
    refine ⟨hstep.trans hrest, fun c hc hok => ?_⟩
    rcases List.mem_cons.1 hc with rfl | hc
    · exact (hrest.chans trivial trivial c).rests (stopForReset_rests hw hok)
    · exact hrests c hc (hstep.stoppable hok)

/-- A channel that is not free is among those that exist. -/
theorem mem_chanList (h : (s.chan c).st ≠ .free) : c ∈ s.chanList :=
  SMap_mem_keys_of_get_ne (d := Chan.init) fun hget => h (congrArg Chan.st hget)

/-- The sequence accepted, before a channel is stopped. -/
def State.acceptReset (s : State) : State := { s with pwr := { s.pwr with rstKey := none, cycKey := none, seq := some true } }

theorem resetAccepted_run : resetAccepted.run s = (forEach s.chanList stopForReset).run s.acceptReset := rfl

theorem acceptReset_wf (hw : s.wf = true) : s.acceptReset.wf = true :=
  Act.run_wf (modPwr fun x => { x with rstKey := none, cycKey := none, seq := some true }) s hw

theorem resetAccepted_pwr (hw : s.wf = true) : (resetAccepted.run s).pwr = s.acceptReset.pwr :=
  (stopsForReset_rest s.chanList (acceptReset_wf hw)).1.pwr trivial

theorem resetAccepted_rests (hw : s.wf = true) (hctx : (s.chan c).ctx < 64) (hbusy : s.atomicBusy c = false)
    (hfree : (s.chan c).st ≠ .free) (hdying : (s.chan c).st ≠ .dying) : ((resetAccepted.run s).chan c).Rests :=
  (stopsForReset_rest s.chanList (acceptReset_wf hw)).2 c (mem_chanList hfree)
    (.inr ⟨hctx, (atomicBusy_eq s c).symm.trans hbusy, hfree, hdying⟩)

/-! ### Any other word -/

/-- What a cancelled sequence reports once its key is forgotten (R565). -/
theorem keyBad_reports (hw : s.wf = true) (f : Power → Power) {t : State} (ht : (acts [modPwr f, keyBad]).run s = t) :
    t.pwr = f s.pwr ∧ t.fld F.ERR_EVT_KEYBAD = 1 ∧ t.fld F.ERR_CNT_KEYBAD = min (s.fld F.ERR_CNT_KEYBAD + 1) 65535 ∧
      t.fld F.ERR_CNT_LOST = s.fld F.ERR_CNT_LOST ∧ Unchanged [.pwr, .host] [0x3CC, 0x3D0] s t := by
  subst ht
  have hregs := State.wf_regs s hw
  have hwu := Act.run_wf (modPwr f) s hw
  have hevent := State.wf_regs _ (Act.run_wf (event F.ERR_EVT_KEYBAD) _ hwu)
  have honly : ∀ ps, .host ∈ ps → keyBad.Only ps [0x3CC, 0x3D0] := fun ps hps => (only_seq _ _).2
    ⟨only_event F.ERR_EVT_KEYBAD (by decide) (by decide) hps, (only_count F.ERR_CNT_KEYBAD (by decide)).2 (by decide)⟩
  have hpwr : _ = ((modPwr f).run s).pwr := (honly [.host] (by decide)).part _ _ .pwr (by decide)
  have hboth : (acts [modPwr f, keyBad]).Only [.pwr, .host] [0x3CC, 0x3D0] :=
    (only_seq _ _).2 ⟨by simp, honly _ (by decide)⟩
  refine ⟨hpwr, ?_, ?_, ?_, hboth.unchanged _ s hregs⟩
  · exact (fld_put_off _ _ _ _ hevent (by decide)).trans (fld_event_same _ _ hregs ((Fld.ok_iff _).2 (by decide)) rfl)
  · refine (fld_count _ F.ERR_CNT_KEYBAD hevent ((Fld.ok_iff _).2 (by decide))).trans ?_
    rw [fld_event_off ((modPwr f).run s) F.ERR_EVT_KEYBAD F.ERR_CNT_KEYBAD hregs (by decide)]
    rfl
  · exact (fld_put_disjoint _ F.ERR_CNT_KEYBAD F.ERR_CNT_LOST _ hevent ((Fld.ok_iff _).2 (by decide))
      ((Fld.ok_iff _).2 (by decide)) rfl (by decide)).trans (fld_event_off _ _ _ hregs (by decide))

/-- A live control port that holds no read reaches its own block. -/
theorem scpReaches (hrun : Running s) (hheld : s.scp.held = none) (off : Nat) : Reaches s .scp off :=
  ⟨⟨hrun.1, by simp [State.pathDead, hrun.2.1], hheld, hrun.2.2⟩, rfl⟩

/-- The rows of the keyed words are the control port's writes. -/
theorem devResetKey_next (hrun : Running s) (hheld : s.scp.held = none) {w : Word} {a : Act}
    (ha : (resetKeyWrite .scp w).run s = a.run s) : exec (.devResetKey w) s = .next (a.run s) :=
  row_next hrun ((pathWrite_run_of_reaches (scpReaches hrun hheld 0x014) w _).trans ha)

theorem devPwrcycKey_next (hrun : Running s) (hheld : s.scp.held = none) {w : Word} {a : Act}
    (ha : (cycKeyWrite .scp w).run s = a.run s) : exec (.devPwrcycKey w) s = .next (a.run s) :=
  row_next hrun ((pathWrite_run_of_reaches (scpReaches hrun hheld 0x018) w _).trans ha)

end

/-- Settles O27: the rows are `resetKeyWrite` and `cycKeyWrite`; an accepted device reset stops one channel after the other, and
none that has come to rest is woken by the stop of another (`stopsForReset_rest`). -/
theorem keyedSequences : Obligations.KeyedSequences := by
  intro s v hrun hheld hseq hquiesced
  have hw := hrun.1
  refine ⟨?_, ?_, fun k hk hclk => ?_, fun k hk hclk => ?_, fun hv hkey => ?_, fun hv hkey => ?_⟩
  · exact devResetKey_next hrun hheld (a := modPwr fun x => { x with rstKey := some s.clk }) (by simp [resetKeyWrite, hseq])
  · exact devPwrcycKey_next hrun hheld (a := modPwr fun x => { x with cycKey := some s.clk }) (by
      simp [cycKeyWrite, hseq, hquiesced])
  · have hintime : s.clk ≤ k + usClocks 100 := hclk
    have hrow : (resetKeyWrite .scp 0x0A1C).run s = resetAccepted.run s := by simp [resetKeyWrite, hseq, hk, hintime]
    have hpwr := resetAccepted_pwr hw
    exact ⟨_, devResetKey_next hrun hheld hrow, congrArg Power.seq hpwr, congrArg Power.rstKey hpwr,
      fun c hctx hbusy hfree hdying => resetAccepted_rests hw hctx hbusy hfree hdying⟩
  · have hintime : s.clk ≤ k + usClocks 100 := hclk
    exact devPwrcycKey_next hrun hheld (a := modPwr fun x => { x with cycKey := none, seq := some false }) (by
      simp [cycKeyWrite, hseq, hquiesced, hk, hintime])
  · have hfirst : v ≠ 0xC1A0#32 := hv
    have hsecond : v ≠ 0x0A1C#32 ∨ s.pwr.rstKey = none := hkey
    refine ⟨_, devResetKey_next hrun hheld (a := acts [modPwr fun x => { x with rstKey := none }, keyBad]) ?_,
      keyBad_reports hw _ rfl⟩
    rcases hsecond with h | h <;> simp [resetKeyWrite, hseq, hfirst, h]
  · have hfirst : v ≠ 0x50FF#32 := hv
    have hsecond : v ≠ 0xFF05#32 ∨ s.pwr.cycKey = none := hkey
    refine ⟨_, devPwrcycKey_next hrun hheld (a := acts [modPwr fun x => { x with cycKey := none }, keyBad]) ?_,
      keyBad_reports hw _ rfl⟩
    rcases hsecond with h | h <;> simp [cycKeyWrite, hseq, hquiesced, hfirst, h]

end Sys2Proof.Machine
end

section
/-!
SUPPORT. The entry into STANDBY and the end of it (R538, R539).
-/

namespace Sys2Proof.Machine

-- The many short proofs are checked one after another, for each would else hold a thread of its own.
set_option Elab.async false

section
variable {s t u : State} {l : Nat}

/-! ### A function reset is in force once it has started -/

/-- What a function reset does once its state is in place (R492). -/
def afterHostReset (cause : Nat) : Act := acts [
  forEach (List.range 64) perstCtx, bar0BankReset, putWord 0 0x918 0, putWord 0 0x91C 0, .upd (.tlbInv none), ptmFail,
  event F.HLK_EVT_DOWN, postPlain 0x0C 15 cause 0]

theorem steady_afterHostReset (cause : Nat) : (afterHostReset cause).Steady True False False s := by simp +decide [afterHostReset]

theorem fr_hostReset (h : HostLink) (up perst : Bool) : (h.reset up perst).fr = true := by
  unfold HostLink.reset
  split <;> rfl

theorem fr_frStart (hw : s.wf = true) (cause : Nat) : ((frStart cause).run s).host.fr = true := by
  rw [frStart, run_ask]
  split
  · next h => exact h
  · exact ((steady_afterHostReset cause).steady fun _ => Act.run_wf _ _ (Act.run_wf _ _ (Act.run_wf _ s hw))).host trivial
      (fr_hostReset _ _ _)

/-! ### A lane that goes down -/

theorem Steady.down {D N : Prop} (h : Steady True D N s t) (hl : (s.lane l).st = .down) : (t.lane l).st = .down := by
  rcases h.lanes trivial l with h | h
  · exact h.trans hl
  · exact h

theorem Steady.notHeld {D N : Prop} (h : Steady True D N s t) (hl : (s.lane l).st ≠ .hold) : (t.lane l).st ≠ .hold := by
  rcases h.lanes trivial l with h | h
  · exact h.symm ▸ hl
  · rw [h]; decide

/-- What a lane does on its way down before its state changes, and after it. -/
def beforeDown (l : Nat) (x : Lane) (clk : Nat) : Act := acts [
  modKindle fun k => { k with entry := k.entry.map (fun e =>
    if x.entryLeft e.num then { e with lost := setBit e.lost l } else e) },
  modLane l fun x => { x with
    tx := none, waiting := [], aborted := [], resend := [], unacked := [], turn := none, owed := none, rxbuf := [],
    kq := [], kfirst := false, trainAt := 0, busyTo := clk },
  forEach (List.range 16) fun p => setLaneWick (16 * l + p) false]

def afterDown (l : Nat) (x : Lane) : Act := acts [
  when_ (x.st == .trained) (laneEvent l F.LAN_EVT_DOWN),
  forEach x.emitChans emitFail,
  .ask fun s => when_ (!s.pwr.entering && !s.pwr.standby &&
    (false || (s.fldI 0 (F.LAN_CTL_EN.lane l) == 1 && s.fldI 0 (F.LAN_CTL_AUTO.lane l) == 1))) (laneLock l)]

theorem laneDown_run (hl : (s.lane l).st ≠ .hold) : (laneDown l none false).run s =
    (afterDown l (s.lane l)).run ((when_ ((s.lane l).st != .down) (setLaneSt l .down)).run ((beforeDown l (s.lane l) s.clk).run s)) := by
  have hst : ((s.lane l).st != .hold) = true := by simpa using hl
  rw [laneDown, run_ask]
  dsimp only
  rw [hst]
  simp only [beforeDown, afterDown, run_when, run_acts_cons, run_acts_nil, run_forSome_none, if_true]

theorem steady_beforeDown (x : Lane) (clk : Nat) : (beforeDown l x clk).Steady True False False s := by simp [beforeDown]

theorem steady_afterDown (x : Lane) (h : s.pwr.entering = true) : (afterDown l x).Steady True False False s := by
  have hlock := steady_lockAgain (G := True) (N := False) (s := s) l false fun _ => h
  simp +decide only [afterDown, steady_acts_cons, steady_when, steady_laneEvent, steady_forEach, steady_emitFail, hlock,
    steady_acts_nil, implies_true, and_self]

theorem lane_setLaneSt (hw : s.wf = true) (st : LaneSt) : (((setLaneSt l st).run s).lane l).st = st := by
  have hwu := Act.run_wf (traceRec 6 (leBytes 1 l ++ leBytes 1 (s.lane l).st.code ++ leBytes 1 st.code)) s hw
  rw [setLaneSt, run_ask]
  exact congrArg Lane.st ((lane_after l l _ _ (State.wf_lanes hwu)).trans (if_pos rfl))

theorem laneDown_down (hw : s.wf = true) (hl : (s.lane l).st ≠ .hold) (hentering : s.pwr.entering = true) :
    (((laneDown l none false).run s).lane l).st = .down := by
  have hbefore := (steady_beforeDown (l := l) (s.lane l) s.clk).steady fun _ => hw
  have hwb := Act.run_wf (beforeDown l (s.lane l) s.clk) s hw
  rw [laneDown_run hl]
  generalize (beforeDown l (s.lane l) s.clk).run s = u at hbefore hwb ⊢
  have hset : (when_ ((s.lane l).st != .down) (setLaneSt l .down)).Steady True False False u := by simp
  have hafter := hset.steady fun _ => hwb
  have hwa := Act.run_wf (when_ ((s.lane l).st != .down) (setLaneSt l .down)) u hwb
  have hdown : (((when_ ((s.lane l).st != .down) (setLaneSt l .down)).run u).lane l).st = .down := by
    by_cases hst : (s.lane l).st = .down
    · exact hafter.down (hbefore.down hst)
    · rw [show ((s.lane l).st != .down) = true by simpa using hst]
      exact lane_setLaneSt hwb .down
  generalize (when_ ((s.lane l).st != .down) (setLaneSt l .down)).run u = v at hafter hwa hdown ⊢
  have hpwr : v.pwr.entering = true := by rw [hafter.pwr trivial, hbefore.pwr trivial, hentering]
  exact ((steady_afterDown (s.lane l) hpwr).steady fun _ => hwa).down hdown

/-- What STANDBY_ENTERED does to one lane (R538). -/
def standbyLane (l : Nat) : Act := acts [txFree l, laneDown l none false]

theorem steady_standbyLane (h : s.pwr.entering = true) : (standbyLane l).Steady True False False s := by simp [standbyLane, h]

theorem standbyLane_down (hw : s.wf = true) (hentering : s.pwr.entering = true) (hl : (s.lane l).st ≠ .hold) :
    (((standbyLane l).run s).lane l).st = .down := by
  have hfree : (txFree l).Steady True False False s := by simp
  have hsteady := hfree.steady fun _ => hw
  simp only [standbyLane, run_acts_cons, run_acts_nil]
  exact laneDown_down (Act.run_wf _ s hw) (hsteady.notHeld hl) ((congrArg Power.entering (hsteady.pwr trivial)).trans hentering)

theorem standbyLanes_down (ls : List Nat) (hw : s.wf = true) (hentering : s.pwr.entering = true) :
    Steady True False False s ((forEach ls standbyLane).run s) ∧
      ∀ l ∈ ls, (s.lane l).st ≠ .hold → (((forEach ls standbyLane).run s).lane l).st = .down := by
  induction ls generalizing s with
  | nil => exact ⟨Steady.refl s, fun l hl => nomatch hl⟩
  | cons m ls ih =>
    have hstep := (steady_standbyLane (l := m) hentering).steady fun _ => hw
    obtain ⟨hrest, hdown⟩ := ih (Act.run_wf (standbyLane m) s hw) ((congrArg Power.entering (hstep.pwr trivial)).trans hentering)
    simp only [forEach, List.map_cons, run_acts_cons] at *
    refine ⟨hstep.trans hrest, fun l hl hhold => ?_⟩
    rcases List.mem_cons.1 hl with rfl | hl
    · exact hrest.down (standbyLane_down hw hentering hhold)
    · exact hdown l hl (hstep.notHeld hhold)

/-! ### The entry -/

theorem standbyBegin_run : ∃ halts devs : List Nat, standbyBegin.run s =
    (modGov fun g => { g with measuring := false }).run ((forEach devs fun c => stopReq c 2).run ((frStart 5).run
      ((put F.DEV_PWR_STANDBY 1).run ((modPwr fun x => { x with entering := true, exitPend := false, halts := halts }).run s)))) :=
  ⟨_, _, rfl⟩

/-- The standby bit is kept where its word is. -/
theorem Steady.standby_fld {D N : Prop} (h : Steady True D N s t) : t.fld F.DEV_PWR_STANDBY = s.fld F.DEV_PWR_STANDBY :=
  congrArg (fun w : Word => bits w.toNat F.DEV_PWR_STANDBY.lo F.DEV_PWR_STANDBY.width) (h.standby trivial)

theorem standbyBegin_enters (hw : s.wf = true) {t : State} (ht : standbyBegin.run s = t) : t.fld F.DEV_PWR_STANDBY = 1 ∧
    t.pwr.entering = true ∧ t.host.fr = true ∧ t.gov.measuring = false := by
  obtain ⟨halts, devs, hbegin⟩ := standbyBegin_run (s := s)
  rw [hbegin] at ht
  have hwp := Act.run_wf (modPwr fun x => { x with entering := true, exitPend := false, halts := halts }) s hw
  have hpwr : ((modPwr fun x => { x with entering := true, exitPend := false, halts := halts }).run s).pwr.entering = true := rfl
  generalize (modPwr fun x => { x with entering := true, exitPend := false, halts := halts }).run s = p at hwp hpwr ht
  have hput : ((put F.DEV_PWR_STANDBY 1).run p).fld F.DEV_PWR_STANDBY = 1 :=
    fld_put_same p _ 1 (State.wf_regs p hwp) ((Fld.ok_iff _).2 (by decide))
  have hputpwr : ((put F.DEV_PWR_STANDBY 1).run p).pwr = p.pwr :=
    ((only_put (ps := []) (offs := [0x010]) F.DEV_PWR_STANDBY 1 (by decide)).2 (by decide)).part _ p .pwr (by decide)
  have hwu := Act.run_wf (put F.DEV_PWR_STANDBY 1) p hwp
  generalize (put F.DEV_PWR_STANDBY 1).run p = u at hput hputpwr hwu ht
  have hreset : (frStart 5).Steady True False False u := by simp
  have hstarted := hreset.steady fun _ => hwu
  have hwr := Act.run_wf (frStart 5) u hwu
  have hfr := fr_frStart hwu 5
  generalize (frStart 5).run u = v at hstarted hwr hfr ht
  have hstops : (forEach devs fun c => stopReq c 2).Steady True False False v := by simp
  have hstopped := hstops.steady fun _ => hwr
  subst ht
  have hall := hstarted.trans hstopped
  exact ⟨hall.standby_fld.trans hput, (congrArg Power.entering ((hall.pwr trivial).trans hputpwr)).trans hpwr,
    hstopped.host trivial hfr, rfl⟩

/-! ### The rows of the control port -/

theorem pwrWrite_next (hrun : Running s) (hheld : s.scp.held = none) {v : Word} (ht : (pwrWrite .scp v).run s = t) :
    (.next ((row (pathWrite .scp 0x010 v (pwrWrite .scp v))).run s) : Host.Outcome State Fault Refusal) = .next t :=
  row_next hrun ((pathWrite_run_of_reaches (scpReaches hrun hheld 0x010) v _).trans ht)

theorem pwrWrite_one (href : s.refusing = false) (hentering : s.pwr.entering = false) :
    (pwrWrite .scp 0x100).run s = if s.pwrState = 1 ∨ s.pwrState = 2 then standbyBegin.run s else s := by
  have hbit : bitAt 256 8 = true := by decide
  simp [pwrWrite, href, hentering, hbit]

theorem pwrWrite_zero (href : s.refusing = false) (hentering : s.pwr.entering = false) (hstandby : s.pwr.standby = true) :
    (pwrWrite .scp 0).run s = standbyEnd.run s := by
  have hbit : bitAt 0 8 = false := by decide
  simp [pwrWrite, href, hentering, hstandby, hbit]

theorem standbyEntered_run (hentering : s.pwr.entering = true) (hon : s.pwr.off = false) (hentry : s.kindle.entry = none)
    (hidle : s.chanList.any (fun c => ((s.chan c).ctx == 64 || (s.chan c).ctx == 65) && decide (2 ≤ (s.chan c).stopPend)) = false) :
    standbyEnteredAct.run s = (Act.ask fun s => when_ s.pwr.exitPend standbyEnd).run
      ((modPwr fun x => { x with entering := false, standby := true }).run
        ((forEach (List.range 8) standbyLane).run (govStandby.run s))) := by
  rw [standbyEnteredAct, run_ask]
  dsimp only
  rw [hidle, hentering, hon, hentry]
  simp only [Option.isNone_none, Bool.not_false, Bool.and_self, run_when, if_true, run_acts_cons, run_acts_nil]
  rfl

theorem standbyEntered_enters (hw : s.wf = true) (hentering : s.pwr.entering = true) (hexit : s.pwr.exitPend = false) {t : State}
    (ht : (Act.ask fun s => when_ s.pwr.exitPend standbyEnd).run ((modPwr fun x => { x with entering := false, standby := true }).run
        ((forEach (List.range 8) standbyLane).run (govStandby.run s))) = t) :
    t.pwr.standby = true ∧ t.pwr.entering = false ∧ ∀ l, l < 8 → (s.lane l).st ≠ .hold → (t.lane l).st = .down := by
  have hgov : govStandby.Steady True False False s := by simp
  have hfirst := hgov.steady fun _ => hw
  have hwg := Act.run_wf govStandby s hw
  generalize govStandby.run s = g at hfirst hwg ht
  have hpwr := hfirst.pwr trivial
  obtain ⟨hlanes, hdown⟩ := standbyLanes_down (List.range 8) hwg ((congrArg Power.entering hpwr).trans hentering)
  generalize (forEach (List.range 8) standbyLane).run g = u at hlanes hdown ht
  have hexit' : u.pwr.exitPend = false := by rw [hlanes.pwr trivial, hpwr, hexit]
  have hstay : t = (modPwr fun x => { x with entering := false, standby := true }).run u := by
    rw [← ht, run_ask, show ((modPwr fun x => { x with entering := false, standby := true }).run u).pwr.exitPend = false from hexit']
    rfl
  subst hstay
  exact ⟨rfl, rfl, fun l hl hhold => hdown l (List.mem_range.2 hl) (hfirst.notHeld hhold)⟩

/-! ### The end -/

/-- What the end of STANDBY does to the lanes and the channels halted for it (R539). -/
def wakeAll : Act := acts [
  forEach (List.range 8) fun l => .ask fun s =>
    when_ (s.fldI 0 (F.LAN_CTL_EN.lane l) == 1 && (s.lane l).st == .down) (laneLock l),
  .ask fun s => forEach s.pwr.halts fun c => .ask fun s =>
    when_ ((s.chan c).st == .halted) (modChan c fun x => { x with
      st := .idle, resValid := false, faultDesc := 0, faultOff := 0, pace := 0 })]

theorem only_wakeAll : wakeAll.Only [.trace, .ports, .lanes, .chans] [F.TRC_STAT_WR.off, F.TRC_CNT_DROP.off] := by
  simp [wakeAll, laneLock, only_setLaneSt _ _ (ps := [.trace, .ports, .lanes, .chans]) (by decide) (List.Subset.refl _)]

theorem standbyEnd_run : standbyEnd.run s = (modPwr fun x => { x with halts := [] }).run (wakeAll.run ((put F.DEV_PWR_STANDBY 0).run
    ((modPwr fun x => { x with standby := false, exitPend := false }).run s))) := rfl

theorem standbyEnd_ends (hw : s.wf = true) {t : State} (ht : standbyEnd.run s = t) : t.pwr.standby = false ∧
    t.fld F.DEV_PWR_STANDBY = 0 := by
  rw [standbyEnd_run] at ht
  have hwp := Act.run_wf (modPwr fun x => { x with standby := false, exitPend := false }) s hw
  have hpwr : ((modPwr fun x => { x with standby := false, exitPend := false }).run s).pwr.standby = false := rfl
  generalize (modPwr fun x => { x with standby := false, exitPend := false }).run s = p at hwp hpwr ht
  have hput : ((put F.DEV_PWR_STANDBY 0).run p).fld F.DEV_PWR_STANDBY = 0 :=
    fld_put_same p _ 0 (State.wf_regs p hwp) ((Fld.ok_iff _).2 (by decide))
  have hputpwr : ((put F.DEV_PWR_STANDBY 0).run p).pwr = p.pwr :=
    ((only_put (ps := []) (offs := [0x010]) F.DEV_PWR_STANDBY 0 (by decide)).2 (by decide)).part _ p .pwr (by decide)
  have hwu := Act.run_wf (put F.DEV_PWR_STANDBY 0) p hwp
  generalize (put F.DEV_PWR_STANDBY 0).run p = u at hput hputpwr hwu ht
  subst ht
  have hwake : (wakeAll.run u).pwr = u.pwr := only_wakeAll.part _ u .pwr (by decide)
  have hkept : (wakeAll.run u).fld F.DEV_PWR_STANDBY = u.fld F.DEV_PWR_STANDBY :=
    only_wakeAll.fld (State.wf_regs u hwu) F.DEV_PWR_STANDBY (by decide) (by decide)
  generalize wakeAll.run u = v at hwake hkept
  exact ⟨(congrArg Power.standby (hwake.trans hputpwr)).trans hpwr, hkept.trans hput⟩

end

/-- Settles O30: an entry is `standbyBegin`, whose function reset and halts leave the power control and the standby bit as they are
(`Steady`); at the end of it the lanes go down one after another, and none trains again (`standbyLanes_down`). -/
theorem standbyEntryAndExit : Obligations.StandbyEntryAndExit := by
  intro s hrun
  have hw := hrun.1
  refine ⟨fun hheld href hentering => ⟨fun hstate => ?_, fun hstate => ?_⟩, fun hentering hexit hentry hidle => ?_,
    fun hheld href hentering hstandby => ?_⟩
  · have hwrite := (pwrWrite_one href hentering).trans (if_pos hstate)
    refine ⟨standbyBegin.run s, pwrWrite_next hrun hheld hwrite, ?_⟩
    exact standbyBegin_enters hw rfl
  · refine pwrWrite_next hrun hheld ((pwrWrite_one href hentering).trans (if_neg ?_))
    omega
  · obtain ⟨hstandby, hentered, hdown⟩ := standbyEntered_enters hw hentering hexit rfl
    refine ⟨_, row_next hrun (standbyEntered_run hentering hrun.2.1 hentry hidle), hstandby, hentered, ?_, hdown⟩
    rw [State.pwrState, hstandby]
    rfl
  · have hwrite := pwrWrite_zero href hentering hstandby
    refine ⟨standbyEnd.run s, pwrWrite_next hrun hheld hwrite, ?_⟩
    exact standbyEnd_ends hw rfl

end Sys2Proof.Machine
end

section
/-!
SUPPORT. A state that the statement on function resets does not rule out: a channel on its way to no state at all, with more
submissions than one arrival discards (R135, R258).
-/

namespace Sys2Proof.Machine

-- The many short proofs are checked one after another, for each would else hold a thread of its own.
set_option Elab.async false

/-- Contexts 0 and 1 are LIVE.  Context 0 has a queue, at whose end the channels that held-back records stopped go on (R137).
Channel 0 of context 1 is on its way to FREE, and its 18 submissions resume a record that is no more. -/
def freeArrival : State :=
  { State.reset with
    host := { State.reset.host with fr := false }
    pwr := { State.reset.pwr with off := false }
    ctxs := [(0, { Ctx.init with st := .live }), (1, { Ctx.init with st := .live }), (64, { Ctx.init with st := .live }),
      (65, { Ctx.init with st := .live })]
    queues := [(0, { Queue.init with live := true })]
    chans := [(0, { Chan.init with
      st := .idle, ctx := 1, dest := some .free, subs := List.replicate 18 ⟨0, 0, 0, 0xFFFF, 1023⟩ })] }

theorem freeArrival_running : Running freeArrival := by decide +kernel

/-- The end of context 0 brings the channel to FREE with a submission left, so that the end of context 1 passes it over. -/
theorem freeArrival_left : (((row (when_ (!freeArrival.pwr.off && (3 : Nat) < 5) (frStart 3))).run freeArrival).chan 0).subs.length = 1 := by decide +kernel

/-- Refutes O37: the end of one context may take a channel of another to FREE before that other context's channels are stopped. -/
theorem not_functionResets : ¬ Obligations.FunctionResets := by
  intro h
  obtain ⟨-, starts, -⟩ := h freeArrival freeArrival_running
  obtain ⟨t, hexec, -, -, -, -, hstopped, -⟩ := (starts 3 (by decide)).1 rfl
  obtain ⟨-, hsubs⟩ := hstopped 0 (by decide) (by decide) (by decide) (.inl (by decide))
  obtain rfl : _ = t := Host.Outcome.next.inj hexec
  exact absurd (freeArrival_left.symm.trans (congrArg List.length hsubs)) (by decide)

end Sys2Proof.Machine
end

section
/-!
SUPPORT. Memory objects and fences: what changes of them and a command begun or answered leave, what frees them, and the parts that
freeing them reaches (R141, R142, R355, R357).
-/

namespace Sys2Proof.Machine

-- The many short proofs are checked one after another, for each would else hold a thread of its own.
set_option Elab.async false

/-! ### Reading them after a change -/

theorem State.wf_mobjs {s : State} (h : s.wf = true) : SMap.wf MemObj.init s.mems = true := ((s.wf_iff.1 h).2.2 .mems :)
theorem State.wf_fences {s : State} (h : s.wf = true) : SMap.wf Fence.init s.fences = true := ((s.wf_iff.1 h).2.2 .fences :)

theorem mobj_modMobj {s : State} (h : s.wf = true) (i j : Nat) (f : MemObj → MemObj) :
    ((modMobj i f).run s).mobj j = if j = i then f (s.mobj i) else s.mobj j := mobj_after i j _ s (State.wf_mobjs h)

theorem fence_modFence {s : State} (h : s.wf = true) (i j : Nat) (f : Fence → Fence) :
    ((modFence i f).run s).fence j = if j = i then f (s.fence i) else s.fence j := fence_after i j _ s (State.wf_fences h)

@[simp] theorem mobj_modFence (s : State) (i j : Nat) (f : Fence → Fence) : ((modFence i f).run s).mobj j = s.mobj j := rfl
@[simp] theorem fence_modMobj (s : State) (i j : Nat) (f : MemObj → MemObj) : ((modMobj i f).run s).fence j = s.fence j := rfl

section
variable {ps : List Part} {offs : List Nat} {a : Act} (h : a.Only ps offs) (s : State)
include h

theorem Act.Only.mobj (hp : .mems ∉ ps) (i : Nat) : (a.run s).mobj i = s.mobj i :=
  congrArg (SMap.get MemObj.init · i) (h.part a s .mems hp : _ = s.mems)

theorem Act.Only.fence (hp : .fences ∉ ps) (i : Nat) : (a.run s).fence i = s.fence i :=
  congrArg (SMap.get Fence.init · i) (h.part a s .fences hp : _ = s.fences)

end

section
variable (p : Path) (s : State)

@[simp] theorem mobj_cmdBegun (op seq i : Nat) : (s.cmdBegun p op seq).mobj i = s.mobj i := by cases p <;> rfl
@[simp] theorem fence_cmdBegun (op seq i : Nat) : (s.cmdBegun p op seq).fence i = s.fence i := by cases p <;> rfl
@[simp] theorem memOf_cmdBegun (op seq h : Nat) : (s.cmdBegun p op seq).memOf h = s.memOf h := by cases p <;> rfl
@[simp] theorem fenceOf_cmdBegun (op seq h : Nat) : (s.cmdBegun p op seq).fenceOf h = s.fenceOf h := by cases p <;> rfl
@[simp] theorem holdOn_cmdBegun (op seq h : Nat) : (s.cmdBegun p op seq).holdOn h = s.holdOn h := by cases p <;> rfl
@[simp] theorem straps_cmdBegun (op seq : Nat) : (s.cmdBegun p op seq).straps = s.straps := by cases p <;> rfl

variable (result : Nat) (res : List Nat) (w : JobWait)

@[simp] theorem mobj_answer (i : Nat) : ((answer p result res w).run s).mobj i = s.mobj i := by cases p <;> rfl
@[simp] theorem fence_answer (i : Nat) : ((answer p result res w).run s).fence i = s.fence i := by cases p <;> rfl

end

theorem holdOn_mem {s : State} {h i : Nat} (hm : s.memOf h = some i) : s.holdOn h = some (.mem i) := by
  rw [State.holdOn, hm]

theorem holdOn_fence {s : State} {h i : Nat} (hm : s.memOf h = none) (hf : s.fenceOf h = some i) : s.holdOn h = some (.fen i) := by
  rw [State.holdOn, hm, hf]
  rfl

/-! ### What a change of a fence reaches -/

section
variable {ps : List Part} {offs : List Nat}

/-- The pieces of state that a change of a fence reaches: its waits, and its peers. -/
def fenceParts : List Part := [.fences, .chans, .zhn, .ports]

theorem mem_of_fenceParts (hp : fenceParts ⊆ ps) : Part.fences ∈ ps ∧ Part.chans ∈ ps ∧ [Part.zhn, Part.ports] ⊆ ps := by
  simpa [fenceParts, List.cons_subset] using hp

theorem only_fenTell (i : Nat) (dead : Bool) (hp : [.zhn, .ports] ⊆ ps) : (fenTell i dead).Only ps offs := fun _ => by
  simp [only_zSend _ _ _ _ _ hp]

theorem only_fenForward (i : Nat) (user : Bool) (what : ZFor) (op : FenOp) (hp : [.zhn, .ports] ⊆ ps) :
    (fenForward i user what op).Only ps offs := fun _ => only_zForward _ _ _ _ _ hp

theorem only_wakeFence (i : Nat) (hp : .chans ∈ ps) : (wakeFence i).Only ps offs := fun _ =>
  (only_forEach _ _).2 fun _ _ => by split <;> simp [hp]

theorem only_abortFenceWaits (i : Nat) (hp : .chans ∈ ps) : (abortFenceWaits i).Only ps offs := fun _ =>
  (only_forEach _ _).2 fun _ _ => by split <;> simp [hp]

theorem only_fenceInc (i : Nat) (hp : fenceParts ⊆ ps) : (fenceInc i).Only ps offs := by
  obtain ⟨hf, hc, hz⟩ := mem_of_fenceParts hp
  simp [fenceInc, fenceTo, hf, only_wakeFence _ hc, only_fenTell _ _ hz]

theorem only_fenceTryFree (i : Nat) (hp : [.fences, .zhn, .ports, .freeSeq] ⊆ ps) : (fenceTryFree i).Only ps offs := by
  have hf : .fences ∈ ps := hp (by simp)
  have hs : .freeSeq ∈ ps := hp (by simp)
  have hz : [Part.zhn, Part.ports] ⊆ ps := fun _ h => hp (by simp at h ⊢; tauto)
  simp [fenceTryFree, only_fenForward _ _ _ _ hz, only_takeFreeSeq _ hs fun _ => (only_modFence _ _).2 hf]

end

/-! ### Freeing -/

section
variable {s : State} {i : Nat}

/-- A fence freed: its generation advances, and its index is freed last (R119). -/
def Fence.freed (n : Nat) (f : Fence) : Fence := { Fence.init with gen := (f.gen + 1) % 4096, freedAt := n }

theorem fence_takeFreeSeq (hw : s.wf = true) (j : Nat) : ((takeFreeSeq fun n => modFence i (Fence.freed n)).run s).fence j =
    if j = i then (s.fence i).freed (s.freeSeq + 1) else s.fence j :=
  fence_modFence (Upd.apply_wf (.freeSeq (s.freeSeq + 1)) s hw) i j (Fence.freed (s.freeSeq + 1))

/-- What a proxy's home is told at its end (R378). -/
def freeForward (i : Nat) (f : Fence) : Act := when_ (f.proxy && decide (f.homeIdx < 4096)) (fenForward i false .free .free)

theorem freeForward_only (f : Fence) : (freeForward i f).Only [.zhn, .ports] [] :=
  (only_when _ _).2 fun _ => only_fenForward _ _ _ _ (List.Subset.refl _)

theorem fenceTryFree_run : (fenceTryFree i).run s =
    if (s.fence i).live && ((s.fence i).destroy || (s.fence i).proxy) && (s.fence i).cnt == 0 then
      (takeFreeSeq fun n => modFence i (Fence.freed n)).run ((freeForward i (s.fence i)).run s)
    else s := by
  simp only [fenceTryFree, freeForward, run_ask, run_when, run_acts_cons, run_acts_nil]
  rfl

/-- What the end of a fence leaves of each fence. -/
theorem fence_freeing (hw : s.wf = true) (j : Nat) :
    ((takeFreeSeq fun n => modFence i (Fence.freed n)).run ((freeForward i (s.fence i)).run s)).fence j =
      if j = i then (s.fence i).freed (((freeForward i (s.fence i)).run s).freeSeq + 1) else s.fence j := by
  have hkept := (freeForward_only (i := i) (s.fence i)).fence s (by decide)
  rw [fence_takeFreeSeq (Act.run_wf _ s hw), hkept, hkept]

theorem fenceTryFree_other (hw : s.wf = true) {j : Nat} (hj : j ≠ i) : ((fenceTryFree i).run s).fence j = s.fence j := by
  rw [fenceTryFree_run]
  split
  · exact (fence_freeing hw j).trans (if_neg hj)
  · rfl

/-- The last reference of a fence whose destroy is requested. -/
theorem fenceTryFree_last (hw : s.wf = true) (hlive : (s.fence i).live = true) (hdestroy : (s.fence i).destroy = true)
    (hcnt : (s.fence i).cnt = 0) :
    (((fenceTryFree i).run s).fence i).live = false ∧ (((fenceTryFree i).run s).fence i).gen = ((s.fence i).gen + 1) % 4096 := by
  have hcond : ((s.fence i).live && ((s.fence i).destroy || (s.fence i).proxy) && (s.fence i).cnt == 0) = true := by
    simp [hlive, hdestroy, hcnt]
  rw [fenceTryFree_run, if_pos hcond, fence_freeing hw, if_pos rfl]
  exact ⟨rfl, rfl⟩

theorem fenceTryFree_kept (h : ((s.fence i).destroy = false ∧ (s.fence i).proxy = false) ∨ (s.fence i).cnt ≠ 0) :
    (fenceTryFree i).run s = s := by
  have hcond : ((s.fence i).live && ((s.fence i).destroy || (s.fence i).proxy) && (s.fence i).cnt == 0) = false := by
    rcases h with ⟨hdestroy, hproxy⟩ | h
    · simp [hdestroy, hproxy]
    · simp [h]
  rw [fenceTryFree_run, hcond]
  rfl

/-- What the end of a memory object does before its index is free (R357). -/
def memFreeBefore (m : MemObj) (s : State) : Act := acts [
  when_ (m.typ == 3) (modCup fun c => { c with
    scrub := c.scrub ++ s.cupRanges m, scrubAt := if c.scrub.isEmpty then s.clk else c.scrubAt }),
  when_ (m.typ == 1 || (m.typ == 3 && !isDevCtx m.owner)) (unmapRun m.owner (m.base / 4096) (m.len / 4096)),
  when_ (m.release != 0 && (s.fence (hIdx m.release)).live) <| acts [
    (if (s.fence (hIdx m.release)).proxy then when_ (!(s.fence (hIdx m.release)).broken) (fenForward (hIdx m.release) false .kick .kick)
      else fenceInc (hIdx m.release)),
    fenceDropUnattr (hIdx m.release)]]

theorem only_memFreeBefore (m : MemObj) (u : State) :
    (memFreeBefore m u).Only [.cup, .ctxs, .fences, .chans, .zhn, .ports, .freeSeq] [] := by
  have hz : [Part.zhn, Part.ports] ⊆ [.cup, .ctxs, .fences, .chans, .zhn, .ports, .freeSeq] := by decide
  have hf : fenceParts ⊆ [.cup, .ctxs, .fences, .chans, .zhn, .ports, .freeSeq] := by decide
  have hrelease : ∀ b : Prop, [Decidable b] → ∀ c : Bool, ∀ i,
      (if b then when_ c (fenForward i false .kick .kick) else fenceInc i).Only
        [.cup, .ctxs, .fences, .chans, .zhn, .ports, .freeSeq] [] := fun b _ c i =>
    only_ite _ _ _ ((only_when _ _).2 fun _ => only_fenForward _ _ _ _ hz) (only_fenceInc _ hf)
  simp [memFreeBefore, unmapRun, fenceDropUnattr, hrelease, only_fenceTryFree (ps := [.cup, .ctxs, .fences, .chans, .zhn, .ports, .freeSeq]) _ (by decide)]

/-- A memory object freed (R119). -/
def MemObj.freed (n : Nat) (m : MemObj) : MemObj := { MemObj.init with gen := (m.gen + 1) % 4096, freedAt := n }

theorem memFree_run :
    (memFree i).run s = (takeFreeSeq fun n => modMobj i (MemObj.freed n)).run ((memFreeBefore (s.mobj i) s).run s) := by
  simp only [memFree, memFreeBefore, run_ask, run_acts_cons, run_acts_nil]
  rfl

theorem mobj_takeFreeSeq (hw : s.wf = true) (j : Nat) : ((takeFreeSeq fun n => modMobj i (MemObj.freed n)).run s).mobj j =
    if j = i then (s.mobj i).freed (s.freeSeq + 1) else s.mobj j :=
  mobj_modMobj (Upd.apply_wf (.freeSeq (s.freeSeq + 1)) s hw) i j (MemObj.freed (s.freeSeq + 1))

/-- A freed memory object is no more, and every other is as it was. -/
theorem memFree_cells (hw : s.wf = true) : ∃ n, ∀ j, ((memFree i).run s).mobj j = if j = i then (s.mobj i).freed n else s.mobj j := by
  have hbefore := fun j => (only_memFreeBefore (s.mobj i) s).mobj s (by decide) j
  refine ⟨((memFreeBefore (s.mobj i) s).run s).freeSeq + 1, fun j => ?_⟩
  rw [memFree_run, mobj_takeFreeSeq (Act.run_wf _ s hw), hbefore i, hbefore j]

theorem memTryFree_kept (h : (s.mobj i).destroy = false ∨ (s.mobj i).cnt ≠ 0) : (memTryFree i).run s = s := by
  have hcond : ((s.mobj i).live && (s.mobj i).destroy && (s.mobj i).cnt == 0) = false := by
    rcases h with h | h <;> simp [h]
  rw [memTryFree, run_ask, hcond]
  rfl

theorem memTryFree_freed (hlive : (s.mobj i).live = true) (hdestroy : (s.mobj i).destroy = true) (hcnt : (s.mobj i).cnt = 0) :
    (memTryFree i).run s = (memFree i).run s := by
  rw [memTryFree, run_ask, hlive, hdestroy, hcnt]
  rfl

/-- Whatever its count is, the end of one memory object leaves every other. -/
theorem memTryFree_other (hw : s.wf = true) {j : Nat} (hj : j ≠ i) : ((memTryFree i).run s).mobj j = s.mobj j := by
  rw [memTryFree, run_ask, run_when]
  split
  · obtain ⟨n, hcells⟩ := memFree_cells (i := i) hw
    exact (hcells j).trans (if_neg hj)
  · rfl

end

end Sys2Proof.Machine
end

section
/-!
SUPPORT. MEM_CREATE, MEM_DESTROY, REF and UNREF (R141 to R143, R353 to R355).
-/

namespace Sys2Proof.Machine

-- The many short proofs are checked one after another, for each would else hold a thread of its own.
set_option Elab.async false

section
variable {s : State} {p : Path} {a : Nat → Nat} {h i j n : Nat}

/-! ### Handles and counts -/

theorem memOf_live (hi : s.memOf h = some i) : (s.mobj i).live = true := by
  simp only [State.memOf, Option.ite_none_right_eq_some, Bool.and_eq_true, Option.some.injEq] at hi
  obtain ⟨⟨⟨_, hlive⟩, _⟩, rfl⟩ := hi
  exact hlive

theorem fenceOf_live (hi : s.fenceOf h = some i) : (s.fence i).live = true := by
  simp only [State.fenceOf, Option.ite_none_right_eq_some, Bool.and_eq_true, Option.some.injEq] at hi
  obtain ⟨⟨⟨_, hlive⟩, _⟩, rfl⟩ := hi
  exact hlive

theorem fenceOf_zero : s.fenceOf 0 = none := rfl

/-- One unattributed reference more, and one less. -/
def MemObj.ref (m : MemObj) : MemObj := { m with unattr := m.unattr + 1 }
def MemObj.unref (m : MemObj) : MemObj := { m with unattr := m.unattr - 1 }
def Fence.ref (f : Fence) : Fence := { f with unattr := f.unattr + 1 }
def Fence.unref (f : Fence) : Fence := { f with unattr := f.unattr - 1 }

theorem MemObj.cnt_unref {m : MemObj} (hm : 0 < m.unattr) : m.unref.cnt = m.cnt - 1 := by
  simp only [MemObj.cnt, MemObj.unref]
  omega

theorem Fence.cnt_unref {f : Fence} (hf : 0 < f.unattr) : f.unref.cnt = f.cnt - 1 := by
  simp only [Fence.cnt, Fence.unref]
  omega

theorem freeMemIndex_of_oldest (hi : OldestFree 0 4096 (fun i => !(s.mobj i).live) (fun i => (s.mobj i).freedAt) i) :
    s.freeMemIndex = some i := by
  obtain ⟨_, hhi, hfree, hleast⟩ := hi
  rw [State.freeMemIndex, pickFree_eq, foldl_earlier_least (c := ((s.mobj i).freedAt, i)) _ none (by simp)]
  · rfl
  · simp only [List.mem_map, List.mem_filter, List.mem_range]
    rintro _ ⟨k, ⟨hk, hf⟩, rfl⟩
    exact hleast k hk (Nat.zero_le k) hf
  · exact .inr (List.mem_map.2 ⟨i, List.mem_filter.2 ⟨List.mem_range.2 hhi, hfree⟩, rfl⟩)

/-! ### What the commands run -/

/-- MEM_CREATE's changes: the release fence has one reference more, and the object is new. -/
def memMake (rel : Option Nat) (i : Nat) (m : MemObj → MemObj) : Act := acts [
  forSome rel fun f => modFence f Fence.ref, modMobj i m]

/-- The object that MEM_CREATE makes. -/
def MemObj.made (n typ base len release : Nat) (m : MemObj) : MemObj := { MemObj.init with
  live := true, gen := m.gen, freedAt := m.freedAt, owner := n, typ := typ, base := base, len := len, release := release }

theorem ones_zero : ones 0 = 0 := by decide

theorem MemObj.cnt_made (n typ base len release : Nat) (m : MemObj) : (m.made n typ base len release).cnt = 0 := by
  simp [MemObj.cnt, MemObj.made, MemObj.init, ones_zero]

theorem memCreate_run {rel : Option Nat} (hn : s.ctxOf (a 0) = some n) (hst : (s.ctx n).st = .live)
    (hargs : memArgsOk n (a 1) (a 2 + 2 ^ 32 * a 3) (a 4) = true)
    (hpart : a 1 = 1 → a 2 + 2 ^ 32 * a 3 + a 4 ≤ driverPart (s.ctx n).mode * 4096)
    (hrel : s.fenceOf (a 5) = rel) (hsome : a 5 ≠ 0 → rel.isSome = true)
    (hok : ∀ f ∈ rel, (s.fence f).usable n = true ∧ (s.fence f).destroy = false ∧ (s.fence f).cnt < 2 ^ 32 - 1)
    (hi : s.freeMemIndex = some i) : (memCreate p a).run s = (answer p mbOK [handle 4 (s.mobj i).gen i] .none).run
      ((memMake rel i (MemObj.made n (a 1) (a 2 + 2 ^ 32 * a 3) (a 4) (a 5))).run s) := by
  have hfits : (a 1 == 1 && decide (driverPart (s.ctx n).mode * 4096 < a 2 + 2 ^ 32 * a 3 + a 4)) = false := by
    simp only [Bool.and_eq_false_imp, beq_iff_eq, decide_eq_false_iff_not]
    omega
  rw [memCreate, run_ask]
  dsimp only
  rw [hn]
  simp only [hargs, hst, hfits, hi, hrel, Bool.not_true, Bool.false_eq_true, if_false, bne_self_eq_false]
  cases rel with
  | none =>
    have harg : a 5 = 0 := by
      by_contra h
      exact absurd (hsome h) (by simp)
    simp only [harg, bne_self_eq_false, Bool.false_and, Bool.false_eq_true, if_false, run_acts_cons, run_acts_nil, memMake]
    rfl
  | some f =>
    obtain ⟨husable, hdestroy, hcnt⟩ := hok f rfl
    have hfull : ¬ (s.fence f).cnt ≥ 2 ^ 32 - 1 := by omega
    simp only [husable, hdestroy, hfull, Bool.not_true, Bool.and_false, Bool.false_eq_true, decide_false, if_false, run_acts_cons,
      run_acts_nil, memMake]
    rfl

theorem memDestroy_run (hi : s.memOf (a 0) = some i) (hdestroy : (s.mobj i).destroy = false) :
    (memDestroy p a).run s = (answer p mbOK [] .none).run ((memDestroyReq i).run s) := by
  rw [memDestroy, run_ask, hi]
  simp [hdestroy]

theorem refOp_mem_run (hi : s.memOf (a 0) = some i) (hdestroy : (s.mobj i).destroy = false) (hcnt : (s.mobj i).cnt < 2 ^ 32 - 1) :
    (refOp p a).run s = (answer p mbOK [(s.mobj i).cnt + 1] .none).run ((modMobj i MemObj.ref).run s) := by
  rw [refOp, run_ask, holdOn_mem hi]
  have hfull : ¬ (s.mobj i).cnt ≥ 2 ^ 32 - 1 := by omega
  simp only [hdestroy, hfull, Bool.false_eq_true, if_false, run_acts_cons, run_acts_nil]
  rfl

theorem refOp_fence_run (hm : s.memOf (a 0) = none) (hi : s.fenceOf (a 0) = some i)
    (hdestroy : (s.fence i).destroy = false ∨ (s.fence i).proxy = true) (hcnt : (s.fence i).cnt < 2 ^ 32 - 1) :
    (refOp p a).run s = (answer p mbOK [(s.fence i).cnt + 1] .none).run ((modFence i Fence.ref).run s) := by
  rw [refOp, run_ask, holdOn_fence hm hi]
  have hfull : ¬ (s.fence i).cnt ≥ 2 ^ 32 - 1 := by omega
  have hgone : ((s.fence i).destroy && !(s.fence i).proxy) = false := by rcases hdestroy with h | h <;> simp [h]
  simp only [hgone, hfull, Bool.false_eq_true, if_false, run_acts_cons, run_acts_nil]
  rfl

theorem unrefOp_mem_run (hi : s.memOf (a 0) = some i) (hunattr : 0 < (s.mobj i).unattr) :
    (unrefOp p a).run s =
      (memTryFree i).run ((answer p mbOK [(s.mobj i).cnt - 1] .none).run ((modMobj i MemObj.unref).run s)) := by
  rw [unrefOp, run_ask, holdOn_mem hi]
  have hsome : ((s.mobj i).unattr == 0) = false := by rw [beq_eq_false_iff_ne]; omega
  simp only [hsome, Bool.false_eq_true, if_false, run_acts_cons, run_acts_nil]
  rfl

theorem unrefOp_fence_run (hm : s.memOf (a 0) = none) (hi : s.fenceOf (a 0) = some i) (hunattr : 0 < (s.fence i).unattr) :
    (unrefOp p a).run s =
      (fenceTryFree i).run ((answer p mbOK [(s.fence i).cnt - 1] .none).run ((modFence i Fence.unref).run s)) := by
  rw [unrefOp, run_ask, holdOn_fence hm hi]
  have hsome : ((s.fence i).unattr == 0) = false := by rw [beq_eq_false_iff_ne]; omega
  simp only [hsome, Bool.false_eq_true, if_false, run_acts_cons, run_acts_nil]
  rfl

/-! ### What the changes leave -/

theorem memMake_mobj (hw : s.wf = true) (rel : Option Nat) (m : MemObj → MemObj) :
    ((memMake rel i m).run s).mobj j = if j = i then m (s.mobj i) else s.mobj j := by
  simp only [memMake, run_acts_cons, run_acts_nil]
  rw [mobj_modMobj (Act.run_wf _ s hw)]
  cases rel <;> rfl

theorem memMake_fence (hw : s.wf = true) (f g : Nat) (m : MemObj → MemObj) :
    ((memMake (some f) i m).run s).fence g = if g = f then (s.fence f).ref else s.fence g := fence_modFence hw f g Fence.ref

theorem memMake_only (m : MemObj → MemObj) : (memMake none i m).Only [.mems] [] := by simp [memMake]

theorem memMake_release_only (f : Nat) (m : MemObj → MemObj) : (memMake (some f) i m).Only [.mems, .fences] [] := by simp [memMake]

theorem memMake_quiet (rel : Option Nat) (m : MemObj → MemObj) : (memMake rel i m).Quiet := by simp [memMake]

/-! ### The commands -/

section
variable {seq : Nat} (hready : MbReady s p)
include hready

/-- A command whose meaning is one quiet change and the answer to it. -/
theorem begun_of_quiet {op result : Nat} {res : List Nat} {body : (Nat → Nat) → Act} {b : Act} (hb : b.Quiet)
    (hrun : (body (s.arg p)).run (s.cmdBegun p op seq) = (answer p result res .none).run (b.run (s.cmdBegun p op seq))) :
    (.next ((row (mailOp p op seq body)).run s) : Host.Outcome State Fault Refusal) =
      .next ((answer p result res .none).run (b.run (s.cmdBegun p op seq))) ∧
      Begun ((answer p result res .none).run (b.run (s.cmdBegun p op seq))) p seq result res .none :=
  ⟨mail_next hready op seq hrun, hb.begun hready op seq _ _ _⟩

/-- One whose quiet change is followed by another once it is answered. -/
theorem begun_of_quiet_after {op result : Nat} {res : List Nat} {body : (Nat → Nat) → Act} {b c : Act} (hb : b.Quiet) (hc : c.Quiet)
    (hrun : (body (s.arg p)).run (s.cmdBegun p op seq) =
      c.run ((answer p result res .none).run (b.run (s.cmdBegun p op seq)))) :
    (.next ((row (mailOp p op seq body)).run s) : Host.Outcome State Fault Refusal) =
      .next (c.run ((answer p result res .none).run (b.run (s.cmdBegun p op seq)))) ∧
      Begun (c.run ((answer p result res .none).run (b.run (s.cmdBegun p op seq)))) p seq result res .none :=
  ⟨mail_next hready op seq hrun, by rw [Begun, hc.job]; exact hb.begun hready op seq _ _ _⟩

end

/-! ### UNREF of a memory object, and MEM_DESTROY -/

/-- The last reference of an object whose destroy is requested. -/
theorem memTryFree_last (hw : s.wf = true) (hlive : (s.mobj i).live = true) (hdestroy : (s.mobj i).destroy = true)
    (hcnt : (s.mobj i).cnt = 0) :
    (((memTryFree i).run s).mobj i).live = false ∧ (((memTryFree i).run s).mobj i).gen = ((s.mobj i).gen + 1) % 4096 := by
  obtain ⟨n, hcells⟩ := memFree_cells (i := i) hw
  rw [memTryFree_freed hlive hdestroy hcnt, hcells i, if_pos rfl]
  exact ⟨rfl, rfl⟩

/-- MEM_DESTROY requests the destroy, and the object goes at once where nothing refers to it. -/
theorem memDestroyReq_cells (hw : s.wf = true) (hlive : (s.mobj i).live = true) :
    (0 < (s.mobj i).cnt → ((memDestroyReq i).run s).mobj i = { s.mobj i with destroy := true }) ∧
    ((s.mobj i).cnt = 0 → (((memDestroyReq i).run s).mobj i).live = false ∧
      (((memDestroyReq i).run s).mobj i).gen = ((s.mobj i).gen + 1) % 4096) ∧
    ∀ j, j ≠ i → ((memDestroyReq i).run s).mobj j = s.mobj j := by
  simp only [memDestroyReq, run_acts_cons, run_acts_nil]
  have hcells := fun j => mobj_modMobj hw i j fun m => { m with destroy := true }
  have hwu := Act.run_wf (modMobj i fun m => { m with destroy := true }) s hw
  generalize (modMobj i fun m => { m with destroy := true }).run s = u at hcells hwu
  have hi := (hcells i).trans (if_pos rfl)
  refine ⟨fun hcnt => ?_, fun hcnt => ?_, fun j hj => ?_⟩
  · have hne : (u.mobj i).cnt ≠ 0 := by rw [hi]; exact Nat.pos_iff_ne_zero.1 hcnt
    rw [memTryFree_kept (.inr hne), hi]
  · have hgen : (u.mobj i).gen = (s.mobj i).gen := by rw [hi]
    exact hgen ▸ memTryFree_last hwu (by rw [hi]; exact hlive) (by rw [hi]) (by rw [hi]; exact hcnt)
  · rw [memTryFree_other hwu hj, hcells, if_neg hj]

/-- UNREF of a memory object, up to the state in which it may be freed. -/
theorem unref_mem_next {seq : Nat} (hready : MbReady s p) (hi : s.memOf (s.arg p 0) = some i) (hunattr : 0 < (s.mobj i).unattr) :
    ∃ u : State, exec (.unref p seq) s = .next ((memTryFree i).run u) ∧
      Begun ((memTryFree i).run u) p seq mbOK [(s.mobj i).cnt - 1] .none ∧ u.wf = true ∧ u.mobj i = (s.mobj i).unref ∧
      (∀ j, j ≠ i → u.mobj j = s.mobj j) ∧ Unchanged [jobPart p, .mems] [] s u := by
  have hw := wf_of_mbReady hready
  have hwb := cmdBegun_wf hw p 0x1B seq
  have hrun := unrefOp_mem_run (s := s.cmdBegun p 0x1B seq) (p := p) (by simpa using hi) (by simpa using hunattr)
  rw [mobj_cmdBegun] at hrun
  obtain ⟨hnext, hbegun⟩ := begun_of_quiet_after hready (quiet_modMobj i MemObj.unref) (quiet_memTryFree i) hrun
  have hcells := fun j => mobj_modMobj hwb i j MemObj.unref
  simp only [mobj_cmdBegun] at hcells
  refine ⟨_, hnext, hbegun, Act.run_wf _ _ (Act.run_wf _ _ hwb), ?_, fun j hj => ?_,
    answered_unchanged ((only_modMobj i MemObj.unref).2 (List.mem_singleton.2 rfl)) hw p 0x1B seq _ _ _⟩
  · rw [mobj_answer, hcells, if_pos rfl]
  · rw [mobj_answer, hcells, if_neg hj]

/-- UNREF of a fence, up to the state in which it may be freed. -/
theorem unref_fence_next {seq : Nat} (hready : MbReady s p) (hm : s.memOf (s.arg p 0) = none) (hi : s.fenceOf (s.arg p 0) = some i)
    (hunattr : 0 < (s.fence i).unattr) :
    ∃ u : State, exec (.unref p seq) s = .next ((fenceTryFree i).run u) ∧
      Begun ((fenceTryFree i).run u) p seq mbOK [(s.fence i).cnt - 1] .none ∧ u.wf = true ∧ u.fence i = (s.fence i).unref ∧
      (∀ j, j ≠ i → u.fence j = s.fence j) ∧ Unchanged [jobPart p, .fences] [] s u := by
  have hw := wf_of_mbReady hready
  have hwb := cmdBegun_wf hw p 0x1B seq
  have hrun := unrefOp_fence_run (s := s.cmdBegun p 0x1B seq) (p := p) (by simpa using hm) (by simpa using hi) (by simpa using hunattr)
  rw [fence_cmdBegun] at hrun
  obtain ⟨hnext, hbegun⟩ := begun_of_quiet_after hready (quiet_modFence i Fence.unref) (quiet_fenceTryFree i) hrun
  have hcells := fun j => fence_modFence hwb i j Fence.unref
  simp only [fence_cmdBegun] at hcells
  refine ⟨_, hnext, hbegun, Act.run_wf _ _ (Act.run_wf _ _ hwb), ?_, fun j hj => ?_,
    answered_unchanged ((only_modFence i Fence.unref).2 (List.mem_singleton.2 rfl)) hw p 0x1B seq _ _ _⟩
  · rw [fence_answer, hcells, if_pos rfl]
  · rw [fence_answer, hcells, if_neg hj]

end

/-- Settles O22: each command is its change of the object and an answer; an object goes at its last reference (`memFree_cells`,
`fenceTryFree_freed`), and its end reaches no other memory object (`only_memFreeBefore`). -/
theorem memoryObjectsAndReferences : Obligations.MemoryObjectsAndReferences := by
  intro s p seq hready
  have hw := wf_of_mbReady hready
  refine ⟨fun n hn hst h5 hargs hpart i hi => ?_, fun n hn hst h5 f hf husable hdestroy hcnt hargs hpart i hi => ?_,
    fun i hm hi => ⟨fun hdestroy hcnt => ?_, fun hunattr => ?_⟩, fun i hi => ⟨fun hdestroy hcnt => ?_, fun hunattr hdestroy => ?_,
      fun hunattr hdestroy => ?_, fun hdestroy => ?_⟩⟩
  · have hrun := memCreate_run (s := s.cmdBegun p 0x18 seq) (p := p) (rel := none) (i := i) (by simpa using hn) (by simpa using hst)
      hargs (by simpa using hpart) (by rw [h5]; rfl) (fun h => absurd h5 h) (fun f hf => nomatch hf)
      (freeMemIndex_of_oldest (by simpa using hi))
    rw [mobj_cmdBegun, h5] at hrun
    obtain ⟨hnext, hbegun⟩ := begun_of_quiet hready (memMake_quiet none _) hrun
    have hcells := fun j => memMake_mobj (i := i) (j := j) (cmdBegun_wf hw p 0x18 seq) none
      (MemObj.made n (s.arg p 1) (s.arg p 2 + 2 ^ 32 * s.arg p 3) (s.arg p 4) 0)
    simp only [mobj_cmdBegun] at hcells
    have hmade := (mobj_answer p _ mbOK [handle 4 (s.mobj i).gen i] .none i).trans ((hcells i).trans (if_pos rfl))
    refine ⟨_, hnext, hbegun, hmade, (congrArg MemObj.cnt hmade).trans (MemObj.cnt_made _ _ _ _ _ _), fun j hj => ?_,
      answered_unchanged (memMake_only _) hw p 0x18 seq _ _ _⟩
    rw [mobj_answer, hcells, if_neg hj]
  · have hrun := memCreate_run (s := s.cmdBegun p 0x18 seq) (p := p) (rel := some f) (i := i) (by simpa using hn)
      (by simpa using hst) hargs (by simpa using hpart) (by simpa using hf) (fun _ => rfl) (by
        rintro _ ⟨⟩
        simpa using ⟨husable, hdestroy, hcnt⟩) (freeMemIndex_of_oldest (by simpa using hi))
    rw [mobj_cmdBegun] at hrun
    obtain ⟨hnext, hbegun⟩ := begun_of_quiet hready (memMake_quiet (some f) _) hrun
    have hwb := cmdBegun_wf hw p 0x18 seq
    have hcells := fun j => memMake_mobj (i := i) (j := j) hwb (some f)
      (MemObj.made n (s.arg p 1) (s.arg p 2 + 2 ^ 32 * s.arg p 3) (s.arg p 4) (s.arg p 5))
    have hfences := fun g => memMake_fence (i := i) hwb f g
      (MemObj.made n (s.arg p 1) (s.arg p 2 + 2 ^ 32 * s.arg p 3) (s.arg p 4) (s.arg p 5))
    simp only [mobj_cmdBegun, fence_cmdBegun] at hcells hfences
    refine ⟨_, hnext, hbegun, ?_, ?_, fun g hg => ?_, fun j hj => ?_,
      answered_unchanged (memMake_release_only f _) hw p 0x18 seq _ _ _⟩
    · rw [mobj_answer, hcells, if_pos rfl]; rfl
    · rw [fence_answer, hfences, if_pos rfl]; rfl
    · rw [fence_answer, hfences, if_neg hg]
    · rw [mobj_answer, hcells, if_neg hj]
  · have hrun := refOp_fence_run (s := s.cmdBegun p 0x1A seq) (p := p) (by simpa using hm) (by simpa using hi)
      (by simpa using hdestroy) (by simpa using hcnt)
    rw [fence_cmdBegun] at hrun
    obtain ⟨hnext, hbegun⟩ := begun_of_quiet hready (quiet_modFence i Fence.ref) hrun
    have hcells := fun j => fence_modFence (cmdBegun_wf hw p 0x1A seq) i j Fence.ref
    simp only [fence_cmdBegun] at hcells
    refine ⟨_, hnext, hbegun, ?_, fun j hj => ?_,
      answered_unchanged ((only_modFence i Fence.ref).2 (List.mem_singleton.2 rfl)) hw p 0x1A seq _ _ _⟩
    · rw [fence_answer, hcells, if_pos rfl]; rfl
    · rw [fence_answer, hcells, if_neg hj]
  · obtain ⟨u, hnext, hbegun, hwu, hui, hother, hframe⟩ := unref_fence_next hready hm hi hunattr
    have hcnt : (u.fence i).cnt = (s.fence i).cnt - 1 := by rw [hui, Fence.cnt_unref hunattr]
    refine ⟨_, hnext, hbegun, fun j hj => ?_, fun hkept => ?_, fun hdestroy hproxy hone => ?_⟩
    · rw [fenceTryFree_other hwu hj, hother j hj]
    · have hstays : ((u.fence i).destroy = false ∧ (u.fence i).proxy = false) ∨ (u.fence i).cnt ≠ 0 :=
        hkept.imp (fun h => by rw [hui]; exact h) (fun h => by omega)
      rw [fenceTryFree_kept hstays]
      exact ⟨hui, hframe⟩
    · have hlast := fenceTryFree_last (i := i) hwu (by rw [hui]; exact fenceOf_live hi) (by rw [hui]; exact hdestroy) (by omega)
      rwa [hui] at hlast
  · have hrun := refOp_mem_run (s := s.cmdBegun p 0x1A seq) (p := p) (by simpa using hi) (by simpa using hdestroy) (by simpa using hcnt)
    rw [mobj_cmdBegun] at hrun
    obtain ⟨hnext, hbegun⟩ := begun_of_quiet hready (quiet_modMobj i MemObj.ref) hrun
    have hcells := fun j => mobj_modMobj (cmdBegun_wf hw p 0x1A seq) i j MemObj.ref
    simp only [mobj_cmdBegun] at hcells
    refine ⟨_, hnext, hbegun, ?_, fun j hj => ?_,
      answered_unchanged ((only_modMobj i MemObj.ref).2 (List.mem_singleton.2 rfl)) hw p 0x1A seq _ _ _⟩
    · rw [mobj_answer, hcells, if_pos rfl]; rfl
    · rw [mobj_answer, hcells, if_neg hj]
  · obtain ⟨u, hnext, hbegun, hwu, hui, hother, hframe⟩ := unref_mem_next hready hi hunattr
    rw [memTryFree_kept (.inl (by rw [hui]; exact hdestroy))] at hnext hbegun
    exact ⟨u, hnext, hbegun, hui, hother, hframe⟩
  · obtain ⟨u, hnext, hbegun, hwu, hui, hother, hframe⟩ := unref_mem_next hready hi hunattr
    have hcnt : (u.mobj i).cnt = (s.mobj i).cnt - 1 := by rw [hui, MemObj.cnt_unref hunattr]
    refine ⟨_, hnext, hbegun, fun hmore => ?_, fun hone => ?_, fun j hj => ?_⟩
    · rw [memTryFree_kept (.inr (by omega)), hui]
      rfl
    · have hlast := memTryFree_last (i := i) hwu (by rw [hui]; exact memOf_live hi) (by rw [hui]; exact hdestroy) (by omega)
      rwa [hui] at hlast
    · rw [memTryFree_other hwu hj, hother j hj]
  · have hrun := memDestroy_run (s := s.cmdBegun p 0x19 seq) (p := p) (by simpa using hi) (by simpa using hdestroy)
    obtain ⟨hnext, hbegun⟩ := begun_of_quiet hready (quiet_memDestroyReq i) hrun
    obtain ⟨hkept, hfreed, hother⟩ := memDestroyReq_cells (i := i) (cmdBegun_wf hw p 0x19 seq) (by simpa using memOf_live hi)
    simp only [mobj_cmdBegun] at hkept hfreed hother
    refine ⟨_, hnext, hbegun, fun hcnt => ?_, fun hcnt => ?_, fun j hj => ?_⟩
    · rw [mobj_answer, hkept hcnt]
    · rw [mobj_answer]; exact hfreed hcnt
    · rw [mobj_answer, hother j hj]

end Sys2Proof.Machine
end

section
/-!
SUPPORT. FENCE_CREATE, FENCE_EXPORT, FENCE_IMPORT and FENCE_DESTROY (R367, R371, R374, R375).
-/

namespace Sys2Proof.Machine

-- The many short proofs are checked one after another, for each would else hold a thread of its own.
set_option Elab.async false

section
variable {s : State} {p : Path} {a : Nat → Nat} {i j n c : Nat}

/-! ### What the commands run -/

/-- The fence that FENCE_CREATE makes. -/
def Fence.made (n : Nat) (v : DWord) (f : Fence) : Fence := { Fence.init with
  live := true, gen := f.gen, freedAt := f.freedAt, owner := n, value := v }

theorem Fence.cnt_made (n : Nat) (v : DWord) (f : Fence) : (f.made n v).cnt = 0 := by
  simp [Fence.cnt, Fence.made, Fence.init, ones_zero]

theorem fenceCreate_run (hn : s.ctxOf (a 0) = some n) (hst : (s.ctx n).st = .live)
    (hi : OldestFree 0 4096 (fun i => !(s.fence i).live) (fun i => (s.fence i).freedAt) i) :
    (fenceCreate p a).run s = (answer p mbOK [handle 5 (s.fence i).gen i] .none).run
      ((modFence i (Fence.made n (BitVec.ofNat 64 (a 1 + 2 ^ 32 * a 2)))).run s) := by
  have hfree : s.freeFence = some i := freeIndex_of_oldest hi
  rw [fenceCreate, run_ask, hn]
  simp only [hst, hfree, bne_self_eq_false, Bool.false_eq_true, if_false, run_acts_cons, run_acts_nil]
  rfl

theorem fenceDestroy_run (hi : s.fenceOf (a 0) = some i) (hproxy : (s.fence i).proxy = false) (hdestroy : (s.fence i).destroy = false) :
    (fenceDestroy p a).run s = (answer p mbOK [] .none).run ((fenceDestroyReq i).run s) := by
  rw [fenceDestroy, run_ask, hi]
  simp [hproxy, hdestroy]

/-- The first export draws the NONCE (R374). -/
def exportDraw (i : Nat) (f : Fence) : Act :=
  when_ (f.nonce == 0) (drawFree fun k => modFence i fun f => { f with nonce := Config.nonce k % 65535 + 1 })

theorem fenceExport_run (hi : s.fenceOf (a 0) = some i) (hproxy : (s.fence i).proxy = false) (hdestroy : (s.fence i).destroy = false) :
    (fenceExport p a).run s = (answer p mbOK [token ((exportDraw i (s.fence i)).run s).self i
      (((exportDraw i (s.fence i)).run s).fence i).nonce] .none).run ((exportDraw i (s.fence i)).run s) := by
  rw [fenceExport, run_ask, hi]
  simp only [hproxy, hdestroy, Bool.or_self, Bool.false_eq_true, if_false, run_acts_cons, run_acts_nil]
  rfl

theorem fenceImport_run (hn : s.ctxOf (a 1) = some n) (hst : (s.ctx n).st = .live) (hres : bits (a 0) 14 2 = 0)
    (hnonce : bits (a 0) 16 16 ≠ 0) (hhome : bits (a 0) 12 2 = s.self)
    (hi : s.tokenFence (bits (a 0) 0 12) (bits (a 0) 16 16) = some i) (hcnt : (s.fence (bits (a 0) 0 12)).cnt < 2 ^ 32 - 1) :
    (fenceImport p a).run s = (answer p mbOK [handle 5 (s.fence (bits (a 0) 0 12)).gen (bits (a 0) 0 12)] .none).run
      ((importBits (bits (a 0) 0 12) n).run s) := by
  have hbad : (bits (a 0) 14 2 != 0 || bits (a 0) 16 16 == 0) = false := by simp [hres, hnonce]
  have hlt : (s.fence (bits (a 0) 0 12)).cnt < 4294967295 := hcnt
  have hok : (s.fence (bits (a 0) 0 12)).importOk n = true := by simp [Fence.importOk, hlt]
  rw [fenceImport, run_ask]
  simp only [hbad, hi, hn, hst, hok, hhome, beq_self_eq_true, bne_self_eq_false, Option.isNone_some, Bool.and_false, Bool.not_true,
    Bool.false_and, Bool.false_eq_true, if_false, run_acts_cons, run_acts_nil]

/-! ### The waits of a fence whose destroy is requested -/

/-- The channel is parked on the fence. -/
def Chan.waitsOn (i : Nat) (x : Chan) : Prop := x.st = .parked ∧ ∃ v, x.park = .fence i v

/-- What an aborted wait, if it is one, does to its channel. -/
def abortWait (s : State) (i c : Nat) : Act :=
  match (s.chan c).park with
  | .fence j _ => when_ ((s.chan c).st == .parked && j == i) (releaseWait c stABORTED)
  | _ => .skip

theorem chan_releaseWait_ne (hw : s.wf = true) (status : Nat) {d : Nat} (hd : d ≠ c) :
    ((releaseWait c status).run s).chan d = s.chan d := by
  simp only [releaseWait, descDone, run_acts_cons, run_acts_nil, run_ask]
  rw [chan_makeQueued (Act.run_wf _ s hw), if_neg hd, chan_modCur_ne hw hd]

theorem st_releaseWait (hw : s.wf = true) (status : Nat) : (((releaseWait c status).run s).chan c).st = .queued := by
  simp only [releaseWait, run_acts_cons, run_acts_nil]
  rw [chan_makeQueued (Act.run_wf _ s hw), if_pos rfl]

theorem abortWait_cases (s : State) (i c : Nat) :
    abortWait s i c = .skip ∧ ¬ (s.chan c).waitsOn i ∨ abortWait s i c = releaseWait c stABORTED := by
  unfold abortWait
  cases hpark : (s.chan c).park with
  | fence j v =>
    dsimp only
    cases hmet : (s.chan c).st == .parked && j == i with
    | true => exact .inr rfl
    | false =>
      refine .inl ⟨rfl, fun ⟨hst, w, hw⟩ => ?_⟩
      rw [hpark] at hw
      cases hw
      simp [hst] at hmet
  | _ => exact .inl ⟨rfl, fun ⟨_, w, hw⟩ => by rw [hpark] at hw; cases hw⟩

/-- A channel that waits on the fence once one wait was aborted did so before, and it was not that channel. -/
theorem abortWait_waitsOn {u : State} (hw : u.wf = true) {d : Nat} (hd : (((abortWait s i c).run u).chan d).waitsOn i) :
    (d = c → ¬ (s.chan d).waitsOn i) ∧ (u.chan d).waitsOn i := by
  rcases abortWait_cases s i c with ⟨hrun, hnot⟩ | hrun
  · rw [hrun] at hd
    exact ⟨fun h => h ▸ hnot, hd⟩
  · rw [hrun] at hd
    have hne : d ≠ c := by
      rintro rfl
      have hst := hd.1
      rw [st_releaseWait hw] at hst
      cases hst
    exact ⟨fun h => absurd h hne, chan_releaseWait_ne hw stABORTED hne ▸ hd⟩

theorem abortWaits_waitsOn (l : List Nat) {u : State} (hw : u.wf = true) {d : Nat}
    (hd : (((forEach l (abortWait s i)).run u).chan d).waitsOn i) : (d ∈ l → ¬ (s.chan d).waitsOn i) ∧ (u.chan d).waitsOn i := by
  induction l generalizing u with
  | nil => exact ⟨(nomatch ·), hd⟩
  | cons c l ih =>
    rw [run_forEach_cons] at hd
    obtain ⟨hl, hrest⟩ := ih (Act.run_wf _ u hw) hd
    obtain ⟨hc, hfirst⟩ := abortWait_waitsOn hw hrest
    exact ⟨fun hmem => (List.mem_cons.1 hmem).elim hc hl, hfirst⟩

/-- No channel stays parked on a fence whose waits are aborted (R371). -/
theorem abortFenceWaits_waitsOn (hw : s.wf = true) (d : Nat) : ¬ (((abortFenceWaits i).run s).chan d).waitsOn i := fun hd => by
  have hrun : (abortFenceWaits i).run s = (forEach s.chanList (abortWait s i)).run s := rfl
  rw [hrun] at hd
  obtain ⟨hnot, hwaits⟩ := abortWaits_waitsOn s.chanList hw hd
  exact hnot (mem_chanList (by rw [hwaits.1]; decide)) hwaits

theorem fenceDestroyReq_cells (hw : s.wf = true) (hlive : (s.fence i).live = true) :
    (0 < (s.fence i).cnt → (((fenceDestroyReq i).run s).fence i).destroy = true ∧ (((fenceDestroyReq i).run s).fence i).live = true) ∧
    ((s.fence i).cnt = 0 → (((fenceDestroyReq i).run s).fence i).live = false ∧
      (((fenceDestroyReq i).run s).fence i).gen = ((s.fence i).gen + 1) % 4096) ∧
    ∀ d, ¬ (((fenceDestroyReq i).run s).chan d).waitsOn i := by
  simp only [fenceDestroyReq, run_acts_cons, run_acts_nil]
  have hcell := (fence_modFence hw i i fun f => { f with destroy := true }).trans (if_pos rfl)
  have hwu := Act.run_wf (modFence i fun f => { f with destroy := true }) s hw
  generalize (modFence i fun f => { f with destroy := true }).run s = u at hcell hwu
  have haborted := abortFenceWaits_waitsOn (i := i) hwu
  have habort := (only_abortFenceWaits (ps := [.chans]) (offs := []) i (by decide)).fence u (by decide) i
  have hwa := Act.run_wf (abortFenceWaits i) u hwu
  generalize (abortFenceWaits i).run u = v at haborted habort hwa
  have htell := only_fenTell (ps := [.zhn, .ports]) (offs := []) i true (List.Subset.refl _)
  have htold := htell.fence v (by decide) i
  have hchans := htell.chan v (by decide)
  have hwt := Act.run_wf (fenTell i true) v hwa
  generalize (fenTell i true).run v = w at htold hchans hwt
  have hi : w.fence i = { s.fence i with destroy := true } := htold.trans (habort.trans hcell)
  have hfree := only_fenceTryFree (ps := [.fences, .zhn, .ports, .freeSeq]) (offs := []) i (List.Subset.refl _)
  refine ⟨fun hcnt => ?_, fun hcnt => ?_, fun d => ?_⟩
  · have hne : (w.fence i).cnt ≠ 0 := by rw [hi]; exact Nat.pos_iff_ne_zero.1 hcnt
    rw [fenceTryFree_kept (.inr hne), hi]
    exact ⟨rfl, hlive⟩
  · have hlast := fenceTryFree_last (i := i) hwt (by rw [hi]; exact hlive) (by rw [hi]) (by rw [hi]; exact hcnt)
    rwa [hi] at hlast
  · rw [hfree.chan w (by decide), hchans]
    exact haborted d

/-! ### The NONCE of an exported fence, and the bits of an imported one -/

theorem exportDraw_quiet (f : Fence) : (exportDraw i f).Quiet := by
  simp [exportDraw, quiet_drawFree]

theorem exportDraw_only (f : Fence) : (exportDraw i f).Only [.fences, .freeCtr] [] := by
  simp [exportDraw, only_drawFree _ (show .freeCtr ∈ [Part.fences, .freeCtr] by decide) fun _ => (only_modFence _ _).2 (by decide)]

/-- The fence an export leaves: one with a NONCE. -/
theorem exportDraw_cells (hw : s.wf = true) : ∃ nonce, nonce ≠ 0 ∧ ((s.fence i).nonce = 0 → nonce < 65536) ∧
    ((s.fence i).nonce ≠ 0 → nonce = (s.fence i).nonce) ∧
    ∀ j, ((exportDraw i (s.fence i)).run s).fence j = if j = i then { s.fence i with nonce := nonce } else s.fence j := by
  by_cases hnonce : (s.fence i).nonce = 0
  · refine ⟨Config.nonce s.freeCtr % 65535 + 1, by omega, fun _ => by omega, fun h => absurd hnonce h, fun j => ?_⟩
    rw [exportDraw, hnonce]
    exact fence_modFence (Upd.apply_wf .draw s hw) i j fun f => { f with nonce := Config.nonce s.freeCtr % 65535 + 1 }
  · refine ⟨(s.fence i).nonce, hnonce, fun h => absurd h hnonce, fun _ => rfl, fun j => ?_⟩
    rw [exportDraw, beq_eq_false_iff_ne.2 hnonce]
    split
    · next h => rw [h]; rfl
    · rfl

theorem importBits_dev (hdev : isDevCtx n = true) : (importBits i n).run s = s := by
  rw [importBits, hdev]
  rfl

theorem importBits_user (hw : s.wf = true) (hdev : isDevCtx n = false) (j : Nat) : ((importBits i n).run s).fence j =
    if j = i then { s.fence i with imported := setBit (s.fence i).imported n, holds := setBit (s.fence i).holds n } else s.fence j := by
  rw [importBits, hdev]
  exact fence_modFence hw i j fun f => { f with imported := setBit f.imported n, holds := setBit f.holds n }

theorem importBits_other (hw : s.wf = true) (hj : j ≠ i) : ((importBits i n).run s).fence j = s.fence j := by
  cases hdev : isDevCtx n with
  | true => rw [importBits_dev hdev]
  | false => rw [importBits_user hw hdev, if_neg hj]

theorem importBits_quiet : (importBits i n).Quiet := by simp [importBits]

theorem importBits_only : (importBits i n).Only [.fences] [] := by simp [importBits]

@[simp] theorem self_cmdBegun (p : Path) (op seq : Nat) : (s.cmdBegun p op seq).self = s.self := by cases p <;> rfl
@[simp] theorem tokenFence_cmdBegun (p : Path) (op seq idx nonce : Nat) :
    (s.cmdBegun p op seq).tokenFence idx nonce = s.tokenFence idx nonce := by cases p <;> rfl

end

/-- Settles O23: each command is its change of the fence and an answer; the request of a destroy ends every wait on the fence
(`abortFenceWaits_waitsOn`) and frees it where nothing refers to it. -/
theorem fencesOfTheMailbox : Obligations.FencesOfTheMailbox := by
  intro s p seq hready
  have hw := wf_of_mbReady hready
  refine ⟨fun n hn hst i hi => ?_, fun i hi hproxy hdestroy => ⟨?_, ?_⟩, fun n hn hst hres hnonce hhome htoken hcnt => ?_⟩
  · have hrun := fenceCreate_run (s := s.cmdBegun p 0x20 seq) (p := p) (a := s.arg p) (i := i) (by simpa using hn) (by simpa using hst)
      (by simpa using hi)
    rw [fence_cmdBegun] at hrun
    obtain ⟨hnext, hbegun⟩ := begun_of_quiet hready (quiet_modFence i _) hrun
    have hcells := fun j => fence_modFence (cmdBegun_wf hw p 0x20 seq) i j
      (Fence.made n (BitVec.ofNat 64 (s.arg p 1 + 2 ^ 32 * s.arg p 2)))
    simp only [fence_cmdBegun] at hcells
    have hmade := (fence_answer p _ mbOK [handle 5 (s.fence i).gen i] .none i).trans ((hcells i).trans (if_pos rfl))
    refine ⟨_, hnext, hbegun, congrArg Fence.live hmade, congrArg Fence.owner hmade, congrArg Fence.proxy hmade,
      (congrArg Fence.cnt hmade).trans (Fence.cnt_made _ _ _), (congrArg Fence.gen hmade :), congrArg Fence.value hmade, fun j hj => ?_,
      answered_unchanged ((only_modFence i _).2 (List.mem_singleton.2 rfl)) hw p 0x20 seq _ _ _⟩
    rw [fence_answer, hcells, if_neg hj]
  · have hrun := fenceExport_run (s := s.cmdBegun p 0x22 seq) (p := p) (a := s.arg p) (i := i) (by simpa using hi)
      (by simpa using hproxy) (by simpa using hdestroy)
    have hwb := cmdBegun_wf hw p 0x22 seq
    obtain ⟨nonce, hne, hfresh, hold, hcells⟩ := exportDraw_cells (i := i) hwb
    simp only [fence_cmdBegun] at hrun hfresh hold hcells
    have hi' := (hcells i).trans (if_pos rfl)
    have hstraps : ((exportDraw i (s.fence i)).run (s.cmdBegun p 0x22 seq)).straps = s.straps :=
      ((exportDraw_only (s.fence i)).part _ _ .straps (by decide)).trans (straps_cmdBegun p s 0x22 seq)
    rw [hi', show ((exportDraw i (s.fence i)).run (s.cmdBegun p 0x22 seq)).self = s.self from congrArg Straps.peerId hstraps] at hrun
    obtain ⟨hnext, hbegun⟩ := begun_of_quiet hready (exportDraw_quiet _) hrun
    have ht := (fence_answer p _ mbOK [token s.self i nonce] .none i).trans hi'
    refine ⟨_, hnext, ?_⟩
    rw [ht]
    refine ⟨hne, hbegun, hfresh, hold, rfl, fun j hj => ?_, answered_unchanged (exportDraw_only _) hw p 0x22 seq _ _ _⟩
    rw [fence_answer, hcells, if_neg hj]
  · have hrun := fenceDestroy_run (s := s.cmdBegun p 0x21 seq) (p := p) (a := s.arg p) (i := i) (by simpa using hi)
      (by simpa using hproxy) (by simpa using hdestroy)
    obtain ⟨hnext, hbegun⟩ := begun_of_quiet hready (quiet_fenceDestroyReq i) hrun
    obtain ⟨hkept, hfreed, hwaits⟩ := fenceDestroyReq_cells (i := i) (cmdBegun_wf hw p 0x21 seq) (by simpa using fenceOf_live hi)
    simp only [fence_cmdBegun] at hkept hfreed
    refine ⟨_, hnext, hbegun, fun hcnt => ?_, fun hcnt => ?_, fun c v hst hpark => hwaits c ?_⟩
    · rw [fence_answer]; exact hkept hcnt
    · rw [fence_answer]; exact hfreed hcnt
    · rw [chan_answer] at hst hpark
      exact ⟨hst, v, hpark⟩
  · have hrun := fenceImport_run (s := s.cmdBegun p 0x23 seq) (p := p) (a := s.arg p) (by simpa using hn) (by simpa using hst)
      hres hnonce (by simpa using hhome) (by simpa using htoken) (by simpa using hcnt)
    rw [fence_cmdBegun] at hrun
    obtain ⟨hnext, hbegun⟩ := begun_of_quiet hready importBits_quiet hrun
    have hwb := cmdBegun_wf hw p 0x23 seq
    have hframe := answered_unchanged (importBits_only (i := bits (s.arg p 0) 0 12) (n := n)) hw p 0x23 seq mbOK
      [handle 5 (s.fence (bits (s.arg p 0) 0 12)).gen (bits (s.arg p 0) 0 12)] .none
    refine ⟨_, hnext, hbegun, fun hdev => ?_, fun hdev => ?_, fun j hj => ?_, hframe⟩
    · rw [importBits_dev hdev]
      cases p <;> rfl
    · rw [fence_answer, importBits_user hwb hdev, if_pos rfl]
      exact ⟨bitAt_setBit_same _ _, bitAt_setBit_same _ _⟩
    · rw [fence_answer, importBits_other hwb hj, fence_cmdBegun]

end Sys2Proof.Machine
end

section
/-!
SUPPORT. The operations of a context's page on fences and holds: FENCE_KICK, CTX_REF and CTX_UNREF (R143, R355, R372).
-/

namespace Sys2Proof.Machine

-- The many short proofs are checked one after another, for each would else hold a thread of its own.
set_option Elab.async false

section
variable {s : State} {i j n be : Nat} {v : Word}

/-! ### Holds and counts -/

theorem ones_eq_card (m : Nat) : ones m = ((Finset.range 66).filter (bitAt m ·)).card := by
  simp only [ones, Finset.card, Finset.filter, Finset.range, Multiset.range, Multiset.filter_coe, Multiset.coe_card,
    Bool.decide_eq_true]

theorem ones_setBit {m : Nat} (hn : n < 66) (h : bitAt m n = false) : ones (setBit m n) = ones m + 1 := by
  have hset : (Finset.range 66).filter (bitAt (setBit m n) ·) = insert n ((Finset.range 66).filter (bitAt m ·)) := by
    ext k
    by_cases hk : k = n
    · simp [hk, hn, bitAt_setBit_same]
    · simp [hk, bitAt_setBit_ne m hk]
  rw [ones_eq_card, ones_eq_card, hset, Finset.card_insert_of_notMem (by simp [h])]

theorem ones_clrBit {m : Nat} (hn : n < 66) (h : bitAt m n = true) : ones (clrBit m n) + 1 = ones m := by
  have hclr : (Finset.range 66).filter (bitAt m ·) = insert n ((Finset.range 66).filter (bitAt (clrBit m n) ·)) := by
    ext k
    by_cases hk : k = n
    · simp [hk, hn, h]
    · simp [hk, bitAt_clrBit]
  rw [ones_eq_card, ones_eq_card, hclr, Finset.card_insert_of_notMem (by simp [bitAt_clrBit])]

/-- A context's hold taken, and given back. -/
def MemObj.take (n : Nat) (m : MemObj) : MemObj := { m with holds := setBit m.holds n }
def MemObj.give (n : Nat) (m : MemObj) : MemObj := { m with holds := clrBit m.holds n }
def Fence.take (n : Nat) (f : Fence) : Fence := { f with holds := setBit f.holds n }
def Fence.give (n : Nat) (f : Fence) : Fence := { f with holds := clrBit f.holds n }

theorem MemObj.take_eq {m : MemObj} (h : bitAt m.holds n = false) : m.take n = { m with holds := m.holds + 2 ^ n } := by
  rw [MemObj.take, setBit, h]
  rfl

theorem MemObj.give_eq {m : MemObj} (h : bitAt m.holds n = true) : m.give n = { m with holds := m.holds - 2 ^ n } := by
  rw [MemObj.give, clrBit, h]
  rfl

theorem Fence.take_eq {f : Fence} (h : bitAt f.holds n = false) : f.take n = { f with holds := f.holds + 2 ^ n } := by
  rw [Fence.take, setBit, h]
  rfl

theorem Fence.give_eq {f : Fence} (h : bitAt f.holds n = true) : f.give n = { f with holds := f.holds - 2 ^ n } := by
  rw [Fence.give, clrBit, h]
  rfl

theorem MemObj.cnt_take {m : MemObj} (hn : n < 66) (h : bitAt m.holds n = false) : (m.take n).cnt = m.cnt + 1 := by
  simp only [MemObj.cnt, MemObj.take, ones_setBit hn h]
  omega

theorem MemObj.cnt_give {m : MemObj} (hn : n < 66) (h : bitAt m.holds n = true) : (m.give n).cnt + 1 = m.cnt := by
  simp only [MemObj.cnt, MemObj.give, ← ones_clrBit hn h]
  omega

theorem Fence.cnt_take {f : Fence} (hn : n < 66) (h : bitAt f.holds n = false) : (f.take n).cnt = f.cnt + 1 := by
  simp only [Fence.cnt, Fence.take, ones_setBit hn h]
  omega

theorem Fence.cnt_give {f : Fence} (hn : n < 66) (h : bitAt f.holds n = true) : (f.give n).cnt + 1 = f.cnt := by
  simp only [Fence.cnt, Fence.give, ← ones_clrBit hn h]
  omega

/-! ### A change of one object, and rows of a page -/

theorem modMobj_cells (hw : s.wf = true) (i : Nat) (f : MemObj → MemObj) : ((modMobj i f).run s).mobj i = f (s.mobj i) ∧
    (∀ j, j ≠ i → ((modMobj i f).run s).mobj j = s.mobj j) ∧ Unchanged [.mems] [] s ((modMobj i f).run s) :=
  ⟨(mobj_modMobj hw i i f).trans (if_pos rfl), fun j hj => (mobj_modMobj hw i j f).trans (if_neg hj),
    Act.Only.unchanged _ s ((only_modMobj i f).2 (List.mem_singleton.2 rfl)) (State.wf_regs s hw)⟩

theorem modFence_cells (hw : s.wf = true) (i : Nat) (f : Fence → Fence) : ((modFence i f).run s).fence i = f (s.fence i) ∧
    (∀ j, j ≠ i → ((modFence i f).run s).fence j = s.fence j) ∧ Unchanged [.fences] [] s ((modFence i f).run s) :=
  ⟨(fence_modFence hw i i f).trans (if_pos rfl), fun j hj => (fence_modFence hw i j f).trans (if_neg hj),
    Act.Only.unchanged _ s ((only_modFence i f).2 (List.mem_singleton.2 rfl)) (State.wf_regs s hw)⟩

/-- A dword that is not poisoned acts as its page's operation does. -/
theorem barDword_next (hrun : Running s) (hbe : be < 16) {a : Act} {t : State} (ht : a.run s = t) :
    (.next ((row (barDword be a)).run s) : Host.Outcome State Fault Refusal) = .next t := by
  have hpoison : bitAt be 4 = false := by
    simp only [bitAt, beq_eq_false_iff_ne]
    omega
  refine row_next hrun ?_
  rw [barDword, run_ask, hpoison]
  exact ht

/-- What a refused operation of a page leaves (R134). -/
theorem dbRefuse_cells (hw : s.wf = true) : ((dbRefuse n none).run s).ctx n = { s.ctx n with dberr := min ((s.ctx n).dberr + 1) 65535 } ∧
    Unchanged [.ctxs] [] s ((dbRefuse n none).run s) := by
  refine ⟨(ctx_modCtx hw n n _).trans (if_pos rfl), Act.Only.unchanged _ s ?_ (State.wf_regs s hw)⟩
  simp [dbRefuse]

section
variable (hpage : s.pageLive n = true)
include hpage

theorem lt_of_pageLive : n < 64 := by
  simp only [State.pageLive, Bool.and_eq_true, decide_eq_true_eq] at hpage
  exact hpage.1.2

/-! ### What the operations run -/

theorem refAct_mem (hi : s.memOf v.toNat = some i) (howner : n = 0 ∨ (s.mobj i).owner = n) (hhold : bitAt (s.mobj i).holds n = false)
    (hdestroy : (s.mobj i).destroy = false) (hcnt : (s.mobj i).cnt < 2 ^ 32 - 1) :
    (refAct n v 15).run s = (modMobj i (MemObj.take n)).run s := by
  have hmay : mayHold n (s.mobj i).owner 0 = true := by rcases howner with h | h <;> simp [mayHold, h]
  rw [refAct, run_ask, hpage, holdOn_mem hi]
  simp only [hmay, hhold, hdestroy, decide_eq_true hcnt, bne_self_eq_false, Bool.false_eq_true, Bool.not_false, Bool.and_self, if_false,
    if_true, run_when]
  rfl

theorem refAct_fence (hm : s.memOf v.toNat = none) (hi : s.fenceOf v.toNat = some i)
    (howner : n = 0 ∨ (s.fence i).owner = n ∨ bitAt (s.fence i).imported n = true) (hproxy : (s.fence i).proxy = false)
    (hhold : bitAt (s.fence i).holds n = false) (hdestroy : (s.fence i).destroy = false) (hcnt : (s.fence i).cnt < 2 ^ 32 - 1) :
    (refAct n v 15).run s = (modFence i (Fence.take n)).run s := by
  have hmay : mayHold n (s.fence i).owner (s.fence i).imported = true := by rcases howner with h | h | h <;> simp [mayHold, h]
  rw [refAct, run_ask, hpage, holdOn_fence hm hi]
  simp only [hproxy, Bool.false_eq_true, if_false, hmay, hhold, hdestroy, decide_eq_true hcnt, bne_self_eq_false, Bool.not_false,
    Bool.false_or, Bool.and_self, if_true, run_when]
  rfl

theorem unrefAct_mem (hi : s.memOf v.toNat = some i) (hhold : bitAt (s.mobj i).holds n = true) :
    (unrefAct n v 15).run s = (memTryFree i).run ((modMobj i (MemObj.give n)).run s) := by
  rw [unrefAct, run_ask, hpage, holdOn_mem hi]
  simp only [hhold, bne_self_eq_false, Bool.false_eq_true, if_false, if_true, run_when, run_acts_cons, run_acts_nil]
  rfl

theorem unrefAct_fence (hm : s.memOf v.toNat = none) (hi : s.fenceOf v.toNat = some i) (hhold : bitAt (s.fence i).holds n = true) :
    (unrefAct n v 15).run s = (fenceTryFree i).run ((modFence i (Fence.give n)).run s) := by
  rw [unrefAct, run_ask, hpage, holdOn_fence hm hi]
  simp only [hhold, bne_self_eq_false, Bool.false_eq_true, if_false, if_true, run_when, run_acts_cons, run_acts_nil]
  rfl

theorem refAct_held (hi : s.memOf v.toNat = some i) (hhold : bitAt (s.mobj i).holds n = true) :
    (refAct n v 15).run s = (dbRefuse n none).run s := by
  rw [refAct, run_ask, hpage, holdOn_mem hi]
  simp [hhold]

theorem unrefAct_notHeld (hi : s.memOf v.toNat = some i) (hhold : bitAt (s.mobj i).holds n = false) :
    (unrefAct n v 15).run s = (dbRefuse n none).run s := by
  rw [unrefAct, run_ask, hpage, holdOn_mem hi]
  simp [hhold]

theorem refAct_partial (hbe : be < 15) : (refAct n v be).run s = (dbRefuse n none).run s := by
  rw [refAct, run_ask, hpage, bne_iff_ne.2 (Nat.ne_of_lt hbe)]
  rfl

theorem unrefAct_partial (hbe : be < 15) : (unrefAct n v be).run s = (dbRefuse n none).run s := by
  rw [unrefAct, run_ask, hpage, bne_iff_ne.2 (Nat.ne_of_lt hbe)]
  rfl

/-- A kick of a word that names no fence, or with byte enables missing (R372). -/
def kickBad (n : Nat) : Act := acts [dbRefuse n none, count F.FEN_CNT_KICK_BAD, event F.FEN_EVT_KICK_BAD]

theorem kickAct_partial (hbe : be < 15) : (kickAct n v be).run s = (kickBad n).run s := by
  rw [kickAct, run_ask, hpage]
  dsimp only
  rw [bne_iff_ne.2 (Nat.ne_of_lt hbe)]
  rfl

theorem kickAct_none (hi : s.fenceOf v.toNat = none) : (kickAct n v 15).run s = (kickBad n).run s := by
  rw [kickAct, run_ask, hpage, hi]
  rfl

theorem kickAct_home (hi : s.fenceOf v.toNat = some i) (husable : (s.fence i).usable n = true) (hproxy : (s.fence i).proxy = false)
    (hdestroy : (s.fence i).destroy = false) (hbroken : (s.fence i).broken = false) :
    (kickAct n v 15).run s = (fenceInc i).run s := by
  rw [kickAct, run_ask, hpage, hi]
  simp [husable, hproxy, hdestroy, hbroken]

end

/-! ### What a kick leaves -/

theorem kickBad_cells (hw : s.wf = true) {t : State} (ht : (kickBad n).run s = t) :
    t.ctx n = { s.ctx n with dberr := min ((s.ctx n).dberr + 1) 65535 } ∧
      t.fld F.FEN_CNT_KICK_BAD = min (s.fld F.FEN_CNT_KICK_BAD + 1) (2 ^ F.FEN_CNT_KICK_BAD.width - 1) ∧
      t.fld F.FEN_EVT_KICK_BAD = 1 ∧ Unchanged [.ctxs, .host] [F.FEN_CNT_KICK_BAD.off, F.FEN_EVT_KICK_BAD.off] s t := by
  subst ht
  have hcount : (count F.FEN_CNT_KICK_BAD).Only [.host] [F.FEN_CNT_KICK_BAD.off, F.FEN_EVT_KICK_BAD.off] :=
    (only_count _ (by decide)).2 (by decide)
  have hevent : (event F.FEN_EVT_KICK_BAD).Only [.host] [F.FEN_CNT_KICK_BAD.off, F.FEN_EVT_KICK_BAD.off] :=
    only_event _ (by decide) (by decide) (by decide)
  have hrefused := dbRefuse_cells (n := n) hw
  have hwu := Act.run_wf (dbRefuse n none) s hw
  have hframe : (acts [count F.FEN_CNT_KICK_BAD, event F.FEN_EVT_KICK_BAD]).Only [.host]
      [F.FEN_CNT_KICK_BAD.off, F.FEN_EVT_KICK_BAD.off] := (only_seq _ _).2 ⟨hcount, hevent⟩
  have hfld : ((dbRefuse n none).run s).fld F.FEN_CNT_KICK_BAD = s.fld F.FEN_CNT_KICK_BAD := rfl
  have hrun : (kickBad n).run s = (acts [count F.FEN_CNT_KICK_BAD, event F.FEN_EVT_KICK_BAD]).run ((dbRefuse n none).run s) := by
    simp only [kickBad, run_acts_cons]
  rw [hrun]
  generalize (dbRefuse n none).run s = u at hrefused hwu hfld
  obtain ⟨hctx, hrefuse⟩ := hrefused
  have hwc := Act.run_wf (count F.FEN_CNT_KICK_BAD) u hwu
  refine ⟨(hframe.ctx u (by decide) n).trans hctx, ?_, ?_, ?_⟩
  · simp only [run_acts_cons, run_acts_nil]
    rw [fld_event_off _ _ _ (State.wf_regs _ hwc) (by decide), fld_count u _ (State.wf_regs u hwu) ((Fld.ok_iff _).2 (by decide)), hfld]
  · simp only [run_acts_cons, run_acts_nil]
    exact fld_event_same _ _ (State.wf_regs _ hwc) ((Fld.ok_iff _).2 (by decide)) rfl
  · exact (hrefuse.mono (by decide) (by decide)).trans ((hframe.unchanged _ u (State.wf_regs u hwu)).mono (by decide) (List.Subset.refl _))

/-- No channel is parked on the fence. -/
theorem park_ne_of_all (hall : s.chans.all (fun e => match e.2.park with | .fence j _ => j != i | _ => true) = true) (c : Nat) (w : DWord) :
    (s.chan c).park ≠ .fence i w := fun hpark => by
  have hmem : (c, s.chan c) ∈ s.chans := SMap_mem_of_get_ne (d := Chan.init) fun h => by
    have hinit : (s.chan c).park = .none := congrArg Chan.park h
    rw [hpark] at hinit
    cases hinit
  have hc := List.all_eq_true.1 hall _ hmem
  simp [hpark] at hc

theorem run_forEach_eq_self {α : Type} {l : List α} {f : α → Act} {s : State} (h : ∀ x ∈ l, (f x).run s = s) :
    (forEach l f).run s = s := by
  induction l with
  | nil => rfl
  | cons x l ih =>
    obtain ⟨hx, hl⟩ := List.forall_mem_cons.1 h
    rw [run_forEach_cons, hx, ih hl]

theorem wakeFence_nobody (h : ∀ c w, (s.chan c).park ≠ .fence i w) : (wakeFence i).run s = s := by
  rw [wakeFence, run_ask]
  refine run_forEach_eq_self fun c _ => ?_
  cases hpark : (s.chan c).park with
  | fence j w =>
    have hj : (j == i) = false := beq_eq_false_iff_ne.2 fun hj => h c w (hj ▸ hpark)
    simp [hj]
  | _ => rfl

theorem fenTell_nobody (dead : Bool) (h : (s.fence i).subs = 0) : (fenTell i dead).run s = s := by
  have hnone : s.presentPeers.filter (fun p => bitAt (s.fence i).subs p) = [] := by
    rw [h]
    exact List.filter_eq_nil_iff.2 fun p _ => by simp [bitAt]
  rw [fenTell, run_ask, hnone]
  rfl

/-- A fence that nothing waits on, here or at a peer, is raised alone. -/
theorem fenceInc_alone (hvalue : (s.fence i).value.toNat < 2 ^ 64 - 1) (hsubs : (s.fence i).subs = 0) (hw : s.wf = true)
    (h : ∀ c w, (s.chan c).park ≠ .fence i w) :
    (fenceInc i).run s = (modFence i fun f => { f with value := (s.fence i).value + 1 }).run s := by
  have hbelow : ((s.fence i).value.toNat != 2 ^ 64 - 1) = true := by
    rw [bne_iff_ne]
    omega
  have hnext : ((s.fence i).value + 1 != (s.fence i).value) = true := by
    rw [bne_iff_ne]
    bv_omega
  rw [fenceInc, run_ask, hbelow]
  simp only [run_when, if_true, fenceTo, run_ask, hnext, run_acts_cons, run_acts_nil]
  have hcell := (fence_modFence hw i i fun f => { f with value := (s.fence i).value + 1 }).trans (if_pos rfl)
  have hchan : ∀ c, ((modFence i fun f => { f with value := (s.fence i).value + 1 }).run s).chan c = s.chan c := fun _ => rfl
  generalize (modFence i fun f => { f with value := (s.fence i).value + 1 }).run s = u at hcell hchan
  rw [wakeFence_nobody fun c w => by rw [hchan]; exact h c w, fenTell_nobody false (by rw [hcell]; exact hsubs)]

end

/-- Settles O33: each operation is one change of a hold or a value, and a hold is one bit of the count (`ones_setBit`,
`ones_clrBit`); any other word is refused (`dbRefuse_cells`, `kickBad_cells`). -/
theorem holdsAndKicks : Obligations.HoldsAndKicks := by
  intro s n v hrun hpage
  have hw := hrun.1
  have hn : n < 66 := Nat.lt_of_lt_of_le (lt_of_pageLive hpage) (by decide)
  refine ⟨fun i hi husable hproxy hdestroy hbroken hvalue hsubs hall => ?_, fun hi => ?_, fun i hi howner hhold hdestroy hcnt => ?_,
    fun i hi hhold hdestroy => ?_, fun i hm hi hproxy hdestroy => ⟨fun howner hhold hcnt => ?_, fun hhold => ?_⟩, fun be hbe => ⟨?_, ?_⟩,
    fun i hi => ⟨fun hhold => ?_, fun hhold => ?_⟩⟩
  · have hkick := (kickAct_home hpage hi husable hproxy hdestroy hbroken).trans (fenceInc_alone hvalue hsubs hw (park_ne_of_all hall))
    obtain ⟨hsame, hother, hframe⟩ := modFence_cells hw i fun f => { f with value := (s.fence i).value + 1 }
    exact ⟨_, barDword_next hrun (by decide) hkick, hsame, hother, hframe⟩
  · exact ⟨_, barDword_next hrun (by decide) (kickAct_none hpage hi), kickBad_cells hw rfl⟩
  · obtain ⟨hsame, hother, hframe⟩ := modMobj_cells hw i (MemObj.take n)
    refine ⟨_, barDword_next hrun (by decide) (refAct_mem hpage hi howner hhold hdestroy hcnt), hsame.trans (MemObj.take_eq hhold), ?_,
      hother, hframe⟩
    rw [hsame, MemObj.cnt_take hn hhold]
  · obtain ⟨hsame, hother, hframe⟩ := modMobj_cells hw i (MemObj.give n)
    have hgive := (unrefAct_mem hpage hi hhold).trans (memTryFree_kept (.inl (by rw [hsame]; exact hdestroy)))
    refine ⟨_, barDword_next hrun (by decide) hgive, hsame.trans (MemObj.give_eq hhold), ?_, hother, hframe⟩
    rw [hsame, MemObj.cnt_give hn hhold]
  · obtain ⟨hsame, hother, hframe⟩ := modFence_cells hw i (Fence.take n)
    refine ⟨_, barDword_next hrun (by decide) (refAct_fence hpage hm hi howner hproxy hhold hdestroy hcnt),
      hsame.trans (Fence.take_eq hhold), ?_, hother, hframe⟩
    rw [hsame, Fence.cnt_take hn hhold]
  · obtain ⟨hsame, hother, hframe⟩ := modFence_cells hw i (Fence.give n)
    have hgive := (unrefAct_fence hpage hm hi hhold).trans (fenceTryFree_kept (.inl (by rw [hsame]; exact ⟨hdestroy, hproxy⟩)))
    refine ⟨_, barDword_next hrun (by decide) hgive, hsame.trans (Fence.give_eq hhold), ?_, hother, hframe⟩
    rw [hsame, Fence.cnt_give hn hhold]
  · obtain ⟨hctx, _, _, hframe⟩ := kickBad_cells (n := n) hw rfl
    exact ⟨_, barDword_next hrun (by omega) (kickAct_partial hpage hbe), hctx, hframe⟩
  · exact ⟨_, barDword_next hrun (by omega) (refAct_partial hpage hbe), barDword_next hrun (by omega) (unrefAct_partial hpage hbe),
      dbRefuse_cells hw⟩
  · exact ⟨_, barDword_next hrun (by decide) (refAct_held hpage hi hhold), dbRefuse_cells hw⟩
  · exact ⟨_, barDword_next hrun (by decide) (unrefAct_notHeld hpage hi hhold), dbRefuse_cells hw⟩

end Sys2Proof.Machine
end

section
/-!
SUPPORT. The ports of the Zheyn link and the packets they hold (R500, R502): what a packet queued changes, and what an act leaves
alone that only queues packets.
-/

namespace Sys2Proof.Machine

-- The many short proofs are checked one after another, for each would else hold a thread of its own.
set_option Elab.async false

/-! ### Packets at a port -/

/-- What a packet says on the wire beside its sequence number. -/
def Pkt.said (k : Pkt) : Nat × Nat × Nat × Bool × Nat × Nat × List Byte := (k.typ, k.dst, k.src, k.user, k.hops, k.opId, k.body)

/-- What the packets of a port say, in order. -/
def ZPort.said (z : ZPort) : List (Nat × Nat × Nat × Bool × Nat × Nat × List Byte) := (z.unacked ++ z.queue).map Pkt.said

theorem pkts_eq (s : State) (p : Nat) : pkts s p = (s.zport p).said := rfl

/-- A port beside its packets. -/
def ZPort.line (z : ZPort) : ZPort := { z with unacked := [], queue := [], txSeq := 0 }

/-- Packets that leave a port stay in order and say what they said (R502). -/
theorem ZPort.said_pump (clk : Nat) (z : ZPort) : (z.pump clk).said = z.said := by
  have hsealed : ∀ e : Pkt × Nat,
      Pkt.said ({ e.1 with lseq := (z.txSeq + e.2) % 256, tries := 0, sentAt := clk } : Pkt).sealed = e.1.said := fun _ => rfl
  have hsent : ∀ l : List Pkt, (l.zipIdx.map fun e => Pkt.said e.1) = l.map Pkt.said := fun l => by
    rw [← List.zipIdx_map_fst 0 l, List.map_map, List.zipIdx_map_fst]
    rfl
  simp only [ZPort.said, ZPort.pump, List.map_append, List.map_map, Function.comp_def, hsealed, hsent, List.append_assoc]
  rw [← List.map_append, List.take_append_drop]

@[simp] theorem ZPort.line_pump (clk : Nat) (z : ZPort) : (z.pump clk).line = z.line := rfl

section
variable {s t : State} {port q : Nat}

theorem zport_congr (h : (port == 0) = (q == 0)) : s.zport port = s.zport q := by simp only [State.zport, h]

theorem zport_modZport (f : ZPort → ZPort) (port q : Nat) (s : State) :
    ((modZport port f).run s).zport q = if (port == 0) = (q == 0) then f (s.zport q) else s.zport q := by
  cases hp : port == 0 <;> cases hq : q == 0 <;> simp [modZport, modZhn, State.zport, hp, hq, Act.run, Upd.apply]

theorem zhn_portBeat (r : FReq) (res : Nat) (s : State) : ((portBeat r res).run s).zhn = s.zhn := rfl

/-- A port with one packet more, urgent or not. -/
def ZPort.added (z : ZPort) (urgent : Bool) (p : Pkt) : ZPort := { z with queue := if urgent then p :: z.queue else z.queue ++ [p] }

theorem zport_zPut (port : Nat) (urgent : Bool) (p : Pkt) (q : Nat) (s : State) : ((zPut port urgent p).run s).zport q =
    if (port == 0) = (q == 0) ∧ (s.zport q).ready = true then ((s.zport q).added urgent p).pump s.clk else s.zport q := by
  by_cases hpq : (port == 0) = (q == 0)
  · rw [zPut, run_ask, run_when, zport_congr hpq]
    by_cases hready : (s.zport q).ready = true
    · rw [if_pos hready, if_pos ⟨hpq, hready⟩]
      rw [run_acts_cons, run_acts_cons, run_acts_nil, zport_modZport, if_pos hpq]
      rfl
    · rw [if_neg hready, if_neg fun h => hready h.2]
  · rw [if_neg fun h => hpq h.1, zPut, run_ask, run_when]
    split
    · rw [run_acts_cons, run_acts_cons, run_acts_nil, zport_modZport, if_neg hpq]
      rfl
    · rfl

theorem zhn_zPut_peers (port : Nat) (urgent : Bool) (p : Pkt) (s : State) : ((zPut port urgent p).run s).zhn.peers = s.zhn.peers := by
  rw [zPut, run_ask, run_when]
  split
  · cases h : port == 0 <;> simp [modZport, modZhn, h, portBeat, Act.run, Upd.apply]
  · rfl

/-- A packet queued is the last at its port. -/
theorem pkts_zQueue_same (p : Pkt) (hpq : (port == 0) = (q == 0)) (hready : (s.zport q).ready = true) :
    pkts ((zQueue port p).run s) q = pkts s q ++ [p.said] := by
  rw [pkts_eq, zQueue, zport_zPut, if_pos ⟨hpq, hready⟩, ZPort.said_pump]
  simp [ZPort.said, ZPort.added, pkts_eq]

theorem zport_zPut_off (urgent : Bool) (p : Pkt) (hpq : (port == 0) ≠ (q == 0)) :
    ((zPut port urgent p).run s).zport q = s.zport q := (zport_zPut port urgent p q s).trans (if_neg fun h => hpq h.1)

theorem mem_pkts_zPut (urgent : Bool) (p : Pkt) (hpq : (port == 0) = (q == 0)) (hready : (s.zport q).ready = true) :
    p.said ∈ pkts ((zPut port urgent p).run s) q := by
  rw [pkts_eq, zport_zPut, if_pos ⟨hpq, hready⟩, ZPort.said_pump]
  cases urgent <;> simp [ZPort.said, ZPort.added]

/-! ### Acts that only queue packets -/

/-- From one state to the next no packet has gone, and nothing of the ports beside their packets and nothing of the peers has
changed. -/
structure Sends (s t : State) : Prop where
  kept : ∀ p, pkts s p ⊆ pkts t p
  peers : t.zhn.peers = s.zhn.peers
  line : ∀ p, (t.zport p).line = (s.zport p).line

theorem Sends.of_zhn (h : t.zhn = s.zhn) : Sends s t where
  kept p := by rw [pkts_eq, pkts_eq, State.zport, State.zport, h]; exact List.Subset.refl _
  peers := by rw [h]
  line p := by rw [State.zport, State.zport, h]

theorem Sends.trans {u : State} (h : Sends s t) (k : Sends t u) : Sends s u where
  kept p := List.Subset.trans (h.kept p) (k.kept p)
  peers := k.peers.trans h.peers
  line p := (k.line p).trans (h.line p)

theorem Sends.peer (h : Sends s t) (p : Nat) : t.peer p = s.peer p := by rw [State.peer, State.peer, h.peers]
/-- What a port says of itself beside its packets is as it was. -/
theorem Sends.keeps {α : Type} (h : Sends s t) {f : ZPort → α} (hf : ∀ z, f z.line = f z) (p : Nat) : f (t.zport p) = f (s.zport p) := by
  rw [← hf, h.line, hf]

theorem Sends.ready (h : Sends s t) (p : Nat) : (t.zport p).ready = (s.zport p).ready := h.keeps (fun _ => rfl) p
theorem Sends.up (h : Sends s t) (p : Nat) : (t.zport p).up = (s.zport p).up := h.keeps (fun _ => rfl) p
theorem Sends.rxSeq (h : Sends s t) (p : Nat) : (t.zport p).rxSeq = (s.zport p).rxSeq := h.keeps (fun _ => rfl) p

/-- An act that at most queues packets, as far as ports and peers go. -/
def OnlySends (a : Act) : Prop := ∀ s, Sends s (a.run s)

variable {a b : Act} {ps : List Part} {offs : List Nat}

theorem onlySends_of_only (h : a.Only ps offs) (hp : .zhn ∉ ps) : OnlySends a := fun s => .of_zhn (h.part a s .zhn hp)
theorem onlySends_skip : OnlySends .skip := fun _ => .of_zhn rfl
theorem onlySends_seq (ha : OnlySends a) (hb : OnlySends b) : OnlySends (.seq a b) := fun s => (ha s).trans (hb _)
theorem onlySends_ask {k : State → Act} (h : ∀ s, OnlySends (k s)) : OnlySends (.ask k) := fun s => h s s
theorem onlySends_acts {l : List Act} (h : ∀ a ∈ l, OnlySends a) : OnlySends (acts l) := by
  induction l with
  | nil => exact onlySends_skip
  | cons a l ih =>
    intro s
    rw [run_acts_cons]
    exact (h a List.mem_cons_self s).trans (ih (fun b hb => h b (List.mem_cons_of_mem _ hb)) _)
theorem onlySends_when {c : Bool} (h : OnlySends a) : OnlySends (when_ c a) := by
  cases c
  · exact onlySends_skip
  · exact h
theorem onlySends_forEach {α : Type} {l : List α} {f : α → Act} (h : ∀ x, OnlySends (f x)) : OnlySends (forEach l f) :=
  onlySends_acts fun _ ha => by
    obtain ⟨x, _, rfl⟩ := List.mem_map.1 ha
    exact h x
theorem onlySends_forSome {α : Type} {o : Option α} {f : α → Act} (h : ∀ x, OnlySends (f x)) : OnlySends (forSome o f) := by
  cases o
  · exact onlySends_skip
  · exact h _
theorem onlySends_rep (n : Nat) (h : OnlySends a) : OnlySends (rep n a) := by
  induction n with
  | zero => exact onlySends_skip
  | succ n ih => exact onlySends_seq h ih
theorem onlySends_ite {c : Prop} [Decidable c] (ha : OnlySends a) (hb : OnlySends b) : OnlySends (if c then a else b) := by
  split <;> assumption

theorem onlySends_count (f : Fld) (hf : f.off < 0x1000) : OnlySends (count f) :=
  onlySends_of_only (ps := []) (offs := [f.off]) ((only_count f hf).2 (List.mem_singleton_self _)) (by decide)

theorem onlySends_event (f : Fld) (hf : f.off < 0x1000) : OnlySends (event f) :=
  onlySends_of_only (ps := [.host]) (offs := [f.off]) (only_event f hf (List.mem_singleton_self _) (by decide)) (by decide)

theorem onlySends_modWheel (f : Wheel → Wheel) : OnlySends (modWheel f) := fun _ => .of_zhn rfl
theorem onlySends_modGov (f : Gov → Gov) : OnlySends (modGov f) := fun _ => .of_zhn rfl
theorem onlySends_modLamp (f : Lamp → Lamp) : OnlySends (modLamp f) := fun _ => .of_zhn rfl
theorem onlySends_modChan (c : Nat) (f : Chan → Chan) : OnlySends (modChan c f) := fun _ => .of_zhn rfl

theorem onlySends_zPut (port : Nat) (urgent : Bool) (p : Pkt) : OnlySends (zPut port urgent p) := fun s => by
  refine ⟨fun q => ?_, zhn_zPut_peers _ _ _ s, fun q => ?_⟩
  · rw [pkts_eq, pkts_eq, zport_zPut]
    split
    · rw [ZPort.said_pump]
      cases urgent
      · intro x hx
        simp only [ZPort.said, ZPort.added, List.map_append, List.mem_append] at hx ⊢
        exact hx.imp_right fun h => by simp [h]
      · intro x hx
        simp only [ZPort.said, ZPort.added, List.map_append, List.mem_append] at hx ⊢
        exact hx.imp_right fun h => by simp [List.mem_map.1 h]
    · exact List.Subset.refl _
  · rw [zport_zPut]
    split <;> rfl

theorem onlySends_zSend (typ dst : Nat) (user : Bool) (opId : Nat) (body : List Byte) : OnlySends (zSend typ dst user opId body) :=
  onlySends_ask fun _ => onlySends_forSome fun _ => onlySends_zPut _ _ _

theorem onlySends_fenTell (i : Nat) (dead : Bool) : OnlySends (fenTell i dead) :=
  onlySends_ask fun _ => onlySends_forEach fun _ => onlySends_zSend _ _ _ _ _

theorem onlySends_fenRetell : OnlySends fenRetell := onlySends_ask fun _ => onlySends_forEach fun i => onlySends_fenTell i false

/-- A posted entry is sent to the peers, and otherwise changes nothing of the link (R514). -/
theorem onlySends_postErr (e : ErrInfo) : OnlySends (postErr e) :=
  onlySends_ask fun _ => onlySends_seq
    (onlySends_of_only (ps := [.errq, .trace, .host, .ports]) (only_postBytes _ (List.Subset.refl _) (List.Subset.refl _)) (by decide))
    (onlySends_when (onlySends_forEach fun _ => onlySends_zSend _ _ _ _ _))

theorem onlySends_whlEvent (f : Fld) (posted : Bool) (hf : f.off < 0x1000) : OnlySends (whlEvent f posted) :=
  onlySends_ask fun _ => onlySends_seq (onlySends_event f hf) <| onlySends_seq
    (onlySends_of_only (ps := [.trace, .ports]) (only_traceRec _ _ (List.Subset.refl _) (List.Subset.refl _)) (by decide))
    (onlySends_when (onlySends_postErr _))

end

end Sys2Proof.Machine
end

section
/-!
SUPPORT. The rows of the Zheyn link that send packets or count bad ones: packets out of sequence, HELLO_TIMER, PING, PONG and
MARK_SEND (R500, R502, R506, R507).
-/

namespace Sys2Proof.Machine

-- The many short proofs are checked one after another, for each would else hold a thread of its own.
set_option Elab.async false

/-! ### Packets out of sequence (R502) -/

/-- A packet with a header acts only at a port that exchanges packets, and out of sequence is a bad one. -/
def InTurn (h : ZHdr) (a : Act) : Prop := ∀ s : State, (s.portOpen h.port = false → a.run s = s) ∧
  (s.portOpen h.port = true → h.lseq ≠ (s.zport h.port).rxSeq → a.run s = zBad.run s)

theorem inTurn_guarded {h : ZHdr} (k : State → Act) :
    InTurn h (.ask fun s => when_ (s.portOpen h.port) (if h.lseq != (s.zport h.port).rxSeq then zBad else k s)) := fun s => by
  rw [run_ask, run_when]
  refine ⟨fun hshut => by rw [hshut]; rfl, fun hopen hlate => ?_⟩
  rw [if_pos hopen, if_pos (bne_iff_ne.2 hlate)]

theorem inTurn_zRecv (h : ZHdr) (act : Act) : InTurn h (zRecv h act) := inTurn_guarded _
theorem inTurn_zDeliver (h : ZHdr) (typ : Nat) (body : List Byte) (act : Act) : InTurn h (zDeliver h typ body act) :=
  inTurn_zRecv _ _
theorem inTurn_helloRecv (h : ZHdr) (master cand : Bool) (mask : Nat) : InTurn h (helloRecv h master cand mask) := inTurn_guarded _
theorem inTurn_markRecv (h : ZHdr) (wt : WTime) (corr8 : Nat) : InTurn h (markRecv h wt corr8) := inTurn_guarded _

/-- Every row of a packet with a header takes its packet in turn. -/
theorem exec_pktRow {i : Instr} {h : ZHdr} (hi : pktRow i = some h) :
    ∃ a, InTurn h a ∧ ∀ s, exec i s = .next ((row a).run s) := by
  cases i with
  | zhnHello => cases hi; exact ⟨_, inTurn_helloRecv _ _ _ _, fun _ => rfl⟩
  | mark => cases hi; exact ⟨_, inTurn_markRecv _ _ _, fun _ => rfl⟩
  | memRd => cases hi; exact ⟨_, inTurn_zDeliver _ _ _ _, fun _ => rfl⟩
  | memWr => cases hi; exact ⟨_, inTurn_zDeliver _ _ _ _, fun _ => rfl⟩
  | memRsp => cases hi; exact ⟨_, inTurn_zDeliver _ _ _ _, fun _ => rfl⟩
  | fenOp => cases hi; exact ⟨_, inTurn_zDeliver _ _ _ _, fun _ => rfl⟩
  | fenUpd => cases hi; exact ⟨_, inTurn_zDeliver _ _ _ _, fun _ => rfl⟩
  | fenRsp => cases hi; exact ⟨_, inTurn_zDeliver _ _ _ _, fun _ => rfl⟩
  | chrOp => cases hi; exact ⟨_, inTurn_zDeliver _ _ _ _, fun _ => rfl⟩
  | chrRsp => cases hi; exact ⟨_, inTurn_zDeliver _ _ _ _, fun _ => rfl⟩
  | chrUpd => cases hi; exact ⟨_, inTurn_zDeliver _ _ _ _, fun _ => rfl⟩
  | err => cases hi; exact ⟨_, inTurn_zDeliver _ _ _ _, fun _ => rfl⟩
  | _ => cases hi

section
variable {s : State} (hrun : Running s)
include hrun

/-- A bad packet counts in CRC, and changes nothing else (R502, R519). -/
theorem zBad_counts : (zBad.run s).fld F.PEL_CNT0_CRC = min (s.fld F.PEL_CNT0_CRC + 1) 65535 ∧ Unchanged [] [0x958] s (zBad.run s) :=
  ⟨fld_count s _ (s.wf_regs hrun.1) ((Fld.ok_iff _).2 (by decide)),
    ((only_count _ (by decide)).2 (by decide) : zBad.Only [] [0x958]).unchanged _ s (s.wf_regs hrun.1)⟩

theorem exec_pktRow_shut {i : Instr} {h : ZHdr} (hi : pktRow i = some h) (hshut : s.portOpen h.port = false) : exec i s = .next s := by
  obtain ⟨a, hturn, hexec⟩ := exec_pktRow hi
  rw [hexec, row_next hrun ((hturn s).1 hshut)]

theorem exec_pktRow_late {i : Instr} {h : ZHdr} (hi : pktRow i = some h) (hopen : s.portOpen h.port = true)
    (hlate : h.lseq ≠ (s.zport h.port).rxSeq) : exec i s = .next (zBad.run s) := by
  obtain ⟨a, hturn, hexec⟩ := exec_pktRow hi
  rw [hexec, row_next hrun ((hturn s).2 hopen hlate)]

theorem exec_badPacket_shut {port : Nat} (b : BadPacket) (hshut : s.portOpen port = false) :
    exec (.zhnBadPacket ⟨port, b⟩) s = .next s := by
  refine row_next hrun ?_
  rw [badPacketAct, run_ask, run_when, hshut]
  rfl

theorem exec_badPacket_code {port : Nat} (hopen : s.portOpen port = true) :
    exec (.zhnBadPacket ⟨port, .code⟩) s = .next (zBad.run s) := by
  refine row_next hrun ?_
  rw [badPacketAct, run_ask, run_when, if_pos hopen]

/-- A packet whose CRC-32 does not cover its bytes is a bad one (R502). -/
theorem exec_badPacket_crc {port : Nat} {bytes : List Byte} {crc : Nat} (hopen : s.portOpen port = true) (hcrc : crc ≠ crc32 bytes) :
    exec (.zhnBadPacket ⟨port, .packet bytes crc⟩) s = .next (zBad.run s) := by
  have hbroken : packetIntact bytes crc (s.zport port).rxSeq = false := by
    rw [packetIntact, beq_eq_false_iff_ne.2 hcrc, Bool.and_false]
  refine row_next hrun ?_
  rw [badPacketAct, run_ask, run_when, if_pos hopen]
  simp only [hbroken, run_when, Bool.not_false, if_true]

end

/-! ### What sending leaves alone -/

section
variable {s t : State} {ps : List Part} {offs : List Nat}

theorem zhn_zPut (port : Nat) (urgent : Bool) (p : Pkt) (s : State) :
    ∃ p0 p1, ((zPut port urgent p).run s).zhn = { s.zhn with p0 := p0, p1 := p1 } := by
  rw [zPut, run_ask, run_when]
  split
  · cases h : port == 0
    · exact ⟨_, _, by simp only [modZport, h]; rfl⟩
    · exact ⟨_, _, by simp only [modZport, h]; rfl⟩
  · exact ⟨_, _, rfl⟩

theorem zhn_zPut_helloAt (port : Nat) (urgent : Bool) (p : Pkt) (s : State) :
    ((zPut port urgent p).run s).zhn.helloAt = s.zhn.helloAt := by
  obtain ⟨p0, p1, hzhn⟩ := zhn_zPut port urgent p s
  rw [hzhn]

/-- The parts of a packet queued: the link's and the ports of the fabric. -/
theorem only_sent (port : Nat) (urgent : Bool) (p : Pkt) : (zPut port urgent p).Only [.zhn, .ports] [] :=
  only_zPut _ _ _ (List.Subset.refl _)

/-- A change of a port that leaves its packets. -/
theorem pkts_modZport {f : ZPort → ZPort} (hf : ∀ z, (f z).said = z.said) (port q : Nat) (s : State) :
    pkts ((modZport port f).run s) q = pkts s q := by
  rw [pkts_eq, pkts_eq, zport_modZport]
  split
  · exact hf _
  · rfl

/-- Some clocks after an event, if there was one. -/
def since (o : Option Nat) (d : Nat) : Act := forSome o fun k => advanceTo (k + d)

theorem only_since (o : Option Nat) (d : Nat) : (since o d).Only timeParts timeOffs :=
  (only_forSome _ _).2 fun _ _ _ => only_tickBy _ (List.Subset.refl _) (List.Subset.refl _)

theorem since_clk {o : Option Nat} {d k : Nat} (h : o = some k) (s : State) : ((since o d).run s).clk = max s.clk (k + d) := by
  rw [h]
  exact advanceTo_clk _ _

theorem since_wheel_st (o : Option Nat) (d : Nat) (s : State) : ((since o d).run s).wheel.st = s.wheel.st := by
  cases o
  · rfl
  · exact Wheel.after_st _ _

theorem since_zport (o : Option Nat) (d : Nat) (s : State) (p : Nat) : ((since o d).run s).zport p = s.zport p := by
  rw [State.zport, (only_since o d).part _ s .zhn (by decide)]
  rfl

/-! ### HELLO_TIMER (R500) -/

/-- A HELLO that this device sends. -/
def State.helloPkt (s : State) : Pkt :=
  ⟨0x01, 0, s.self, false, 0, 0, 0, helloBody (s.wheel.st == .master) s.wheelCand 0 s.presentMask, 0, 0, 0⟩

theorem sendHello_run (port : Nat) (s : State) : (sendHello port).run s = (zQueue port s.helloPkt).run s := rfl

/-- What a HELLO says rests on the strap, the tracker's state, its source and the peers. -/
theorem helloPkt_congr (hstraps : t.straps = s.straps) (hst : t.wheel.st = s.wheel.st)
    (hsrc : t.fld F.WHL_CTL_SRC = s.fld F.WHL_CTL_SRC) (hpeers : t.zhn.peers = s.zhn.peers) : t.helloPkt = s.helloPkt := by
  simp only [State.helloPkt, State.wheelCand, State.presentMask, State.presentPeers, State.peer, State.self, State.flag, hstraps, hst,
    hsrc, hpeers]

theorem helloPkt_zQueue (port : Nat) (p : Pkt) (hw : Regs.wf s.regs = true) : State.helloPkt ((zQueue port p).run s) = s.helloPkt :=
  helloPkt_congr ((only_sent port false p).part _ s .straps (by decide))
    (congrArg Wheel.st ((only_sent port false p).part _ s .wheel (by decide)))
    ((only_sent port false p).fld hw _ (by decide) (by decide)) (zhn_zPut_peers port false p s)

/-- A HELLO from each port that exchanges packets. -/
theorem pkts_sendHellos (hw : Regs.wf s.regs = true) :
    ((s.zport 0).ready = true → pkts ((forEach [0, 1] sendHello).run s) 0 = pkts s 0 ++ [s.helloPkt.said]) ∧
    ((s.zport 1).ready = true → pkts ((forEach [0, 1] sendHello).run s) 1 = pkts s 1 ++ [s.helloPkt.said]) := by
  have hne : ((0 : Nat) == 0) ≠ ((1 : Nat) == 0) := by decide
  rw [run_forEach_cons, run_forEach_cons, run_forEach_nil, sendHello_run 1, sendHello_run 0, helloPkt_zQueue 0 _ hw]
  refine ⟨fun hready => ?_, fun hready => ?_⟩
  · rw [pkts_eq, zQueue, zport_zPut_off _ _ hne.symm, ← pkts_eq, pkts_zQueue_same _ rfl hready]
  · have hkeep : ((zQueue 0 s.helloPkt).run s).zport 1 = s.zport 1 := zport_zPut_off _ _ hne
    rw [pkts_zQueue_same _ rfl (hkeep ▸ hready), pkts_eq, hkeep, pkts_eq]

theorem only_sendHellos : (forEach [0, 1] sendHello).Only [.zhn, .ports] [] :=
  (only_forEach _ _).2 fun _ _ _ => only_sent _ _ _

/-- HELLO_TIMER's start: 10 µs after the last HELLO, which is noted. -/
def helloDue (s : State) : State :=
  let u := (since s.zhn.helloAt (usClocks 10)).run s
  (modZhn fun z => { z with helloAt := some u.clk }).run u

theorem exec_helloTimer (hrun : Running s) : exec .helloTimer s = .next ((forEach [0, 1] sendHello).run (helloDue s)) := by
  refine row_next hrun ?_
  rw [helloTimerAct, run_ask, run_when, hrun.2.1]
  rfl

theorem helloDue_zport (s : State) (p : Nat) : (helloDue s).zport p = s.zport p := since_zport _ _ s p

theorem helloDue_helloPkt (hrun : Running s) : (helloDue s).helloPkt = s.helloPkt :=
  helloPkt_congr ((only_since s.zhn.helloAt (usClocks 10)).part _ s .straps (by decide)) (since_wheel_st _ _ s)
    ((only_since s.zhn.helloAt (usClocks 10)).fld (s.wf_regs hrun.1) _ (by decide) (by decide))
    (show ((since s.zhn.helloAt (usClocks 10)).run s).zhn.peers = s.zhn.peers by
      rw [(only_since s.zhn.helloAt (usClocks 10)).part _ s .zhn (by decide)])

/-- HELLO_TIMER, as a meaning of its own frame. -/
theorem helloTimer_unchanged (hrun : Running s) :
    UnchangedButTime [.zhn, .ports] [] s ((forEach [0, 1] sendHello).run (helloDue s)) :=
  Act.Only.unchanged (.seq (since s.zhn.helloAt (usClocks 10))
      (.seq (modZhn fun z => { z with helloAt := some ((since s.zhn.helloAt (usClocks 10)).run s).clk }) (forEach [0, 1] sendHello))) s
    ⟨(only_since _ _).mono (List.subset_append_left _ _) (List.subset_append_left _ _), (only_modZhn _).2 (by decide),
      only_sendHellos.mono (List.subset_append_right _ _) (List.subset_append_right _ _)⟩ (s.wf_regs hrun.1)

theorem helloTimer_helloAt (s : State) : ((forEach [0, 1] sendHello).run (helloDue s)).zhn.helloAt =
    some ((forEach [0, 1] sendHello).run (helloDue s)).clk := by
  rw [only_sendHellos.part _ _ .clk (by decide), run_forEach_cons, run_forEach_cons, run_forEach_nil, sendHello_run, sendHello_run, zQueue,
    zQueue, zhn_zPut_helloAt, zhn_zPut_helloAt]
  rfl

theorem helloTimer_clk {k : Nat} (h : s.zhn.helloAt = some k) :
    ((forEach [0, 1] sendHello).run (helloDue s)).clk = max s.clk (k + 8000) := by
  rw [only_sendHellos.part _ _ .clk (by decide)]
  exact since_clk h s

end

end Sys2Proof.Machine
end

section
/-!
SUPPORT. PING, PONG and MARK_SEND (R506, R507).
-/

namespace Sys2Proof.Machine

-- The many short proofs are checked one after another, for each would else hold a thread of its own.
set_option Elab.async false

section
variable {s : State} {port : Nat}

theorem State.ready_of_open (h : s.portOpen port = true) : (s.zport port).ready = true := by
  simp only [State.portOpen, Bool.and_eq_true] at h
  exact h.2

theorem State.port_of_open (h : s.portOpen port = true) : port < 2 := by
  simp only [State.portOpen, Bool.and_eq_true, decide_eq_true_eq] at h
  exact h.1.2

/-! ### PING (R507) -/

/-- A packet of this device for the other end of a link. -/
def State.linkPkt (s : State) (typ : Nat) (body : List Byte) : Pkt := ⟨typ, 0, s.self, false, 0, 0, 0, body, 0, 0, 0⟩

theorem exec_ping_shut (hrun : Running s) (received : Bool) (turn8 : Nat)
    (h : s.portOpen port = false ∨ (s.zport port).up = false) : exec (.ping port received turn8) s = .next s := by
  refine row_next hrun ?_
  rw [pingAct, run_ask, run_when, if_neg]
  rw [Bool.and_eq_true]
  rintro ⟨hopen, hup⟩
  rcases h with h | h
  · exact Bool.false_ne_true (h.symm.trans hopen)
  · exact Bool.false_ne_true (h.symm.trans hup)

/-- A received PING is taken and answered with a PONG. -/
def pingTaken (s : State) (port turn8 : Nat) : Act := .seq (zTaken port) (zQueue port (s.linkPkt 0x03 (leBytes 2 turn8)))

theorem exec_ping_received (hrun : Running s) (turn8 : Nat) (hopen : s.portOpen port = true) (hup : (s.zport port).up = true) :
    exec (.ping port true turn8) s = .next ((pingTaken s port turn8).run s) := by
  refine row_next hrun ?_
  rw [pingAct, run_ask, run_when, if_pos (by rw [hopen, hup]; rfl)]
  rfl

theorem pingTaken_pkts (turn8 : Nat) (hopen : s.portOpen port = true) :
    pkts ((pingTaken s port turn8).run s) port = pkts s port ++ [(0x03, 0, s.self, false, 0, 0, leBytes 2 turn8)] := by
  have htaken : ((zTaken port).run s).zport port = { s.zport port with rxSeq := ((s.zport port).rxSeq + 1) % 256 } :=
    (zport_modZport _ port port s).trans (if_pos rfl)
  rw [pingTaken, run_seq, pkts_zQueue_same _ rfl (by rw [htaken]; exact State.ready_of_open hopen), pkts_eq, htaken]
  rfl

theorem pingTaken_rxSeq (s : State) (port turn8 : Nat) :
    (((pingTaken s port turn8).run s).zport port).rxSeq = ((s.zport port).rxSeq + 1) % 256 := by
  rw [pingTaken, run_seq, zQueue, (onlySends_zPut port false _ _).rxSeq, zTaken, zport_modZport, if_pos rfl]

theorem pingTaken_unchanged (hrun : Running s) (turn8 : Nat) : Unchanged [.zhn, .ports] [] s ((pingTaken s port turn8).run s) :=
  Act.Only.unchanged _ s ⟨(only_modZport _ _).2 (by decide), only_sent _ _ _⟩ (s.wf_regs hrun.1)

/-- When a PING is due, and that it is out. -/
def pingOut (s : State) (port : Nat) : Act :=
  .seq (since (s.zport port).pingAt (usClocks 1000)) (.ask fun u => modZport port fun z => { z with pingOut := true, pingAt := some u.clk })

/-- A PING is sent once it is due. -/
def pingSent (s : State) (port : Nat) : Act := .seq (pingOut s port) (zQueue port (s.linkPkt 0x02 []))

theorem exec_ping_sent (hrun : Running s) (turn8 : Nat) (hopen : s.portOpen port = true) (hup : (s.zport port).up = true) :
    exec (.ping port false turn8) s = .next ((pingSent s port).run s) := by
  refine row_next hrun ?_
  rw [pingAct, run_ask, run_when, if_pos (by rw [hopen, hup]; rfl)]
  rfl

theorem pingOut_zport (s : State) (port : Nat) : ((pingOut s port).run s).zport port =
    { s.zport port with pingOut := true, pingAt := some ((pingOut s port).run s).clk } := by
  rw [pingOut, run_seq, run_ask, zport_modZport, if_pos rfl, since_zport]
  rfl

theorem pingSent_pkts (hopen : s.portOpen port = true) :
    pkts ((pingSent s port).run s) port = pkts s port ++ [(0x02, 0, s.self, false, 0, 0, [])] := by
  rw [pingSent, run_seq, pkts_zQueue_same _ rfl (by rw [pingOut_zport]; exact State.ready_of_open hopen), pkts_eq, pingOut_zport]
  rfl

theorem pingSent_clk (s : State) (port : Nat) : ((pingSent s port).run s).clk = ((pingOut s port).run s).clk :=
  (only_sent port false _).part _ _ .clk (by decide)

theorem pingSent_line (s : State) (port : Nat) : (((pingSent s port).run s).zport port).pingOut = true ∧
    (((pingSent s port).run s).zport port).pingAt = some ((pingSent s port).run s).clk := by
  have hsends := onlySends_zPut port false (s.linkPkt 0x02 []) ((pingOut s port).run s)
  rw [pingSent_clk]
  exact ⟨(hsends.keeps (f := ZPort.pingOut) (fun _ => rfl) port).trans (by rw [pingOut_zport]),
    (hsends.keeps (f := ZPort.pingAt) (fun _ => rfl) port).trans (by rw [pingOut_zport])⟩

theorem pingSent_due {k : Nat} (h : (s.zport port).pingAt = some k) : ((pingSent s port).run s).clk = max s.clk (k + 800000) := by
  rw [pingSent_clk]
  exact since_clk h s

theorem pingSent_unchanged (hrun : Running s) : UnchangedButTime [.zhn, .ports] [] s ((pingSent s port).run s) :=
  Act.Only.unchanged _ s ⟨⟨(only_since _ _).mono (List.subset_append_left _ _) (List.subset_append_left _ _),
      fun _ => (only_modZport _ _).2 (by decide)⟩,
    (only_sent _ _ _).mono (List.subset_append_right _ _) (List.subset_append_right _ _)⟩ (s.wf_regs hrun.1)

/-! ### PONG (R507) -/

/-- The delay a PONG gives: that of the PING it answers, if one is out. -/
def ZPort.ponged (trip8 turn8 : Nat) (z : ZPort) : ZPort :=
  if z.pingOut then { z with pingOut := false, delay8 := (trip8 - turn8) / 2 } else z

/-- A PONG is taken and gives the delay. -/
def pongTaken (port trip8 turn8 : Nat) : Act := .seq (zTaken port) (modZport port (ZPort.ponged trip8 turn8))

theorem exec_pong_open (hrun : Running s) (trip8 turn8 : Nat) (hopen : s.portOpen port = true) :
    exec (.pong port trip8 turn8) s = .next ((pongTaken port trip8 turn8).run s) := by
  refine row_next hrun ?_
  rw [pongAct, run_ask, run_when, if_pos hopen]
  rfl

theorem pongTaken_zport (s : State) (port trip8 turn8 : Nat) : ((pongTaken port trip8 turn8).run s).zport port =
    ZPort.ponged trip8 turn8 { s.zport port with rxSeq := ((s.zport port).rxSeq + 1) % 256 } := by
  rw [pongTaken, run_seq, zport_modZport, if_pos rfl, zTaken, zport_modZport, if_pos rfl]

/-- No PING is out behind a PONG; the delay is new when one was. -/
theorem ZPort.ponged_delay (trip8 turn8 : Nat) (z : ZPort) : (z.ponged trip8 turn8).pingOut = false ∧
    (z.ponged trip8 turn8).delay8 = (if z.pingOut then (trip8 - turn8) / 2 else z.delay8) := by
  rw [ZPort.ponged]
  split
  · exact ⟨rfl, rfl⟩
  · next h => exact ⟨Bool.eq_false_iff.2 h, rfl⟩

theorem ZPort.said_ponged (trip8 turn8 : Nat) (z : ZPort) : (z.ponged trip8 turn8).said = z.said := by
  rw [ZPort.ponged]
  split <;> rfl

theorem pongTaken_pkts (s : State) (port trip8 turn8 : Nat) : pkts ((pongTaken port trip8 turn8).run s) port = pkts s port := by
  rw [pkts_eq, pongTaken_zport, ZPort.said_ponged]
  rfl

theorem pongTaken_unchanged (hrun : Running s) (trip8 turn8 : Nat) : Unchanged [.zhn] [] s ((pongTaken port trip8 turn8).run s) :=
  Act.Only.unchanged _ s ⟨(only_modZport _ _).2 (by decide), (only_modZport _ _).2 (by decide)⟩ (s.wf_regs hrun.1)

/-! ### MARK_SEND (R506) -/

theorem exec_markSend_other (hrun : Running s) (h : s.headNow ≠ some s.self) : exec .markSend s = .next s := by
  refine row_next hrun ?_
  rw [markSendAct, run_ask, run_when, beq_eq_false_iff_ne.2 h, Bool.and_false]
  rfl

/-- A MARK of this device. -/
def State.markPkt (s : State) : Pkt := ⟨0x04, 0, s.self, false, 0, 0, 0, markBody s.now 0, 0, 0, 0⟩

/-- A MARK goes out of a port that is UP. -/
def markOut (port : Nat) : Act := .ask fun s => when_ (s.zport port).up (zPut port true s.markPkt)

/-- The wheel is brought to the next angle 0x000, unless it is there. -/
def toZero (s : State) : Act := when_ (!s.wheel.atZero) (advanceToWheel (nextAngle s.now 0))

/-- MARK_SEND of the head. -/
def markSent (s : State) : Act := .seq (toZero s) (.seq (markOut 0) (markOut 1))

theorem exec_markSend_head (hrun : Running s) (h : s.headNow = some s.self) : exec .markSend s = .next ((markSent s).run s) := by
  refine row_next hrun ?_
  rw [markSendAct, run_ask, run_when, h, hrun.2.1, if_pos (by simp)]
  rfl

theorem only_toZero (s : State) : (toZero s).Only timeParts timeOffs :=
  (only_when _ _).2 fun _ _ => only_tickBy _ (List.Subset.refl _) (List.Subset.refl _)

theorem only_markOut (port : Nat) : (markOut port).Only [.zhn, .ports] [] := fun _ => (only_when _ _).2 fun _ => only_sent _ _ _

theorem onlySends_markOut (port : Nat) : OnlySends (markOut port) := onlySends_ask fun _ => onlySends_when (onlySends_zPut _ _ _)

theorem onlySends_toZero (s : State) : OnlySends (toZero s) := onlySends_of_only (only_toZero s) (by decide)

theorem only_markSent (s : State) : (markSent s).Only (timeParts ++ [.zhn, .ports]) (timeOffs ++ []) := by
  rw [markSent, only_seq, only_seq]
  exact ⟨(only_toZero s).mono (List.subset_append_left _ _) (List.subset_append_left _ _),
    (only_markOut 0).mono (List.subset_append_right _ _) (List.subset_append_right _ _),
    (only_markOut 1).mono (List.subset_append_right _ _) (List.subset_append_right _ _)⟩

theorem markSent_unchanged (hrun : Running s) : UnchangedButTime [.zhn, .ports] [] s ((markSent s).run s) :=
  (only_markSent s).unchanged _ s (s.wf_regs hrun.1)

/-- At angle 0x000 the MARKs leave at once. -/
theorem markSent_clk (h : s.wheel.atZero = true) : ((markSent s).run s).clk = s.clk := by
  have hstay : (toZero s).run s = s := by rw [toZero, h]; rfl
  rw [markSent, run_seq, run_seq, (only_markOut 1).part _ _ .clk (by decide), (only_markOut 0).part _ _ .clk (by decide), hstay]

theorem markOut_mem {u : State} (hready : (u.zport port).ready = true) (hup : (u.zport port).up = true) :
    u.markPkt.said ∈ pkts ((markOut port).run u) port := by
  rw [markOut, run_ask, run_when, if_pos hup]
  exact mem_pkts_zPut _ _ rfl hready

/-- What a MARK says rests on the strap and wheel time. -/
theorem markPkt_congr {t : State} (hstraps : t.straps = s.straps) (hwheel : t.wheel = s.wheel) : t.markPkt = s.markPkt := by
  simp only [State.markPkt, State.self, State.now, hstraps, hwheel]

theorem markOut_markPkt (port : Nat) (u : State) : State.markPkt ((markOut port).run u) = u.markPkt :=
  markPkt_congr ((only_markOut port).part _ u .straps (by decide)) ((only_markOut port).part _ u .wheel (by decide))

/-- Each port that is UP and exchanges packets has its MARK, with wheel time as it then is. -/
theorem markSent_mem (s : State) (port : Nat) (hport : port = 0 ∨ port = 1) (hready : (s.zport port).ready = true)
    (hup : (s.zport port).up = true) : ((markSent s).run s).markPkt.said ∈ pkts ((markSent s).run s) port := by
  have hzero := onlySends_toZero s s
  have hfirst := onlySends_markOut 0 ((toZero s).run s)
  rw [markSent, run_seq, run_seq, markOut_markPkt 1, markOut_markPkt 0]
  rcases hport with rfl | rfl
  · exact (onlySends_markOut 1 _).kept 0 (markOut_mem (by rw [hzero.ready, hready]) (by rw [hzero.up, hup]))
  · rw [← markOut_markPkt 0]
    exact markOut_mem (by rw [hfirst.ready, hzero.ready, hready]) (by rw [hfirst.up, hzero.up, hup])

theorem markSent_any (s : State) (port : Nat) (hport : port = 0 ∨ port = 1) (hready : (s.zport port).ready = true)
    (hup : (s.zport port).up = true) : (pkts ((markSent s).run s) port).any (fun k => k.1 == 0x04 && k.2.2.1 == s.self &&
      k.2.2.2.2.2.2 == markBody ((markSent s).run s).now 0) = true := by
  have hself : ((markSent s).run s).self = s.self := by
    rw [State.self, markSent, run_seq, run_seq, (only_markOut 1).part _ _ .straps (by decide),
      (only_markOut 0).part _ _ .straps (by decide), (only_toZero s).part _ _ .straps (by decide)]
    rfl
  exact List.any_eq_true.2 ⟨_, markSent_mem s port hport hready hup, by simp [State.markPkt, Pkt.said, hself]⟩

end

end Sys2Proof.Machine
end

section
/-!
SUPPORT. HELLO packets of another device (R500, R505): the peer they make present, what else they change, and the HELLO that goes on.
-/

namespace Sys2Proof.Machine

-- The many short proofs are checked one after another, for each would else hold a thread of its own.
set_option Elab.async false

/-! ### A table of any form -/

/-- A value that is not the default reads back, and every other key reads as it did, whatever the table's form. -/
theorem SMap_get_set_listed {α : Type} [DecidableEq α] {d x : α} (hx : x ≠ d) (m : SMap α) (q r : Nat) :
    SMap.get d (SMap.set d m q x) r = if r = q then x else SMap.get d m r := by
  induction m with
  | nil =>
    rw [SMap.set, if_neg hx]
    by_cases hr : r = q
    · simp [SMap.get, hr]
    · simp [SMap.get, hr, Ne.symm hr]
  | cons e rest ih =>
    obtain ⟨k, v⟩ := e
    rw [SMap.set, if_neg hx, if_neg hx]
    by_cases hr : r = q
    · subst hr
      rw [if_pos rfl]
      rcases Nat.lt_trichotomy k r with hlt | rfl | hgt
      · rw [if_neg hlt.ne, if_neg hlt.not_gt, SMap.get, if_neg hlt.ne, if_neg hlt.not_gt, ih, if_pos rfl]
      · rw [if_pos rfl, SMap.get, if_pos rfl]
      · rw [if_neg hgt.ne', if_pos hgt, SMap.get, if_pos rfl]
    · rw [if_neg hr]
      rcases Nat.lt_trichotomy k q with hlt | rfl | hgt
      · rw [if_neg hlt.ne, if_neg hlt.not_gt, SMap.get, SMap.get, ih, if_neg hr]
      · rw [if_pos rfl, SMap.get, SMap.get, if_neg (Ne.symm hr), if_neg (Ne.symm hr)]
      · rw [if_neg hgt.ne', if_pos hgt, SMap.get, if_neg (Ne.symm hr)]
        by_cases hbefore : r < q
        · have hk := hbefore.trans hgt
          rw [if_pos hbefore, SMap.get, if_neg hk.ne', if_pos hk]
        · rw [if_neg hbefore]

section
variable {s : State} {h : ZHdr} {master cand : Bool} {mask : Nat}

theorem peer_modPeer (f : Peer → Peer) (q p : Nat) (s : State) (hf : f (s.peer q) ≠ Peer.init) :
    ((modPeer q f).run s).peer p = if p = q then f (s.peer q) else s.peer p := SMap_get_set_listed hf s.zhn.peers q p

/-! ### What follows a HELLO -/

/-- A change of the link that leaves its ports and peers. -/
theorem onlySends_modZhn {f : Zhn → Zhn} (hp0 : ∀ z, (f z).p0 = z.p0) (hp1 : ∀ z, (f z).p1 = z.p1)
    (hpeers : ∀ z, (f z).peers = z.peers) : OnlySends (modZhn f) := fun s => by
  have hzport : ∀ p, ((modZhn f).run s).zport p = s.zport p := fun p => by
    show (if p == 0 then (f s.zhn).p0 else (f s.zhn).p1) = _
    rw [hp0, hp1]
    rfl
  exact ⟨fun p => by rw [pkts_eq, pkts_eq, hzport]; exact List.Subset.refl _, hpeers s.zhn, fun p => by rw [hzport]⟩

theorem onlySends_mirrorClear (p : Nat) : OnlySends (mirrorClear p) :=
  onlySends_ask fun _ => onlySends_forEach fun _ => onlySends_when <| onlySends_modZhn (fun _ => rfl) (fun _ => rfl) fun _ => rfl

theorem onlySends_notLocked : OnlySends notLocked := onlySends_modGov _

theorem onlySends_sourceChange : OnlySends sourceChange :=
  onlySends_seq (onlySends_ask fun _ => onlySends_when (onlySends_count _ (by decide))) <|
    onlySends_seq (onlySends_modWheel _) onlySends_notLocked

theorem onlySends_headCheck : OnlySends headCheck :=
  onlySends_ask fun _ => onlySends_forSome fun _ => onlySends_when <| onlySends_seq (onlySends_when onlySends_sourceChange) <|
    onlySends_modZhn (fun _ => rfl) (fun _ => rfl) fun _ => rfl

theorem onlySends_conflictCheck : OnlySends conflictCheck :=
  onlySends_ask fun _ => onlySends_when (onlySends_event _ (by decide))

/-! ### The frame of what follows -/

/-- The pieces of state and the registers that a HELLO changes beside the link's. -/
def helloParts : List Part := [.zhn, .ports, .host, .wheel, .gov]
def helloOffs : List Nat := [F.PEL_EVT_PEER_UP.off, F.WHL_CNT0_STRAY.off]

theorem only_mirrorClear (p : Nat) : (mirrorClear p).Only [.zhn] [] :=
  fun _ => (only_forEach _ _).2 fun _ _ => (only_when _ _).2 fun _ => (only_modZhn _).2 (by decide)

theorem only_fenRetell : fenRetell.Only [.zhn, .ports] [] :=
  fun _ => (only_forEach _ _).2 fun _ _ _ => (only_forEach _ _).2 fun _ _ => only_zSend _ _ _ _ _ (List.Subset.refl _)

theorem only_headCheck : headCheck.Only [.zhn, .wheel, .gov] [F.WHL_CNT0_STRAY.off] := by
  refine fun s => (only_forSome _ _).2 fun _ _ => (only_when _ _).2 fun _ => ⟨(only_when _ _).2 fun _ => ?_, ?_⟩
  · exact ⟨fun _ => (only_when _ _).2 fun _ => (only_count _ (by decide)).2 (by decide), (only_modWheel _).2 (by decide),
      only_notLocked (by decide)⟩
  · exact (only_modZhn _).2 (by decide)

theorem only_conflictCheck : conflictCheck.Only [.host] [F.PEL_EVT_CONFLICT.off] :=
  fun _ => (only_when _ _).2 fun _ => only_event _ (by decide) (by decide) (by decide)

/-- A conflict found leaves the event of a peer that comes (R505). -/
theorem conflictCheck_peerUp (hw : Regs.wf s.regs = true) : (conflictCheck.run s).fld F.PEL_EVT_PEER_UP = s.fld F.PEL_EVT_PEER_UP := by
  rw [conflictCheck, run_ask, run_when]
  split
  · exact fld_event_disjoint s _ _ hw ((Fld.ok_iff _).2 (by decide)) ((Fld.ok_iff _).2 (by decide)) rfl (by decide)
  · rfl

/-! ### The peer -/

/-- What a HELLO says of its peer, in a core clock (R500, R505). -/
def Peer.seenAt (p : Peer) (clk : Nat) (h : ZHdr) (master cand : Bool) : Peer := { p with
  present := true, at_ := clk, master := master, cand := cand,
  seen0 := if h.port == 0 then some (clk, h.hops) else freshSeen clk p.seen0,
  seen1 := if h.port == 0 then freshSeen clk p.seen1 else some (clk, h.hops) }

theorem Peer.seenAt_ne (p : Peer) (clk : Nat) (h : ZHdr) (master cand : Bool) : p.seenAt clk h master cand ≠ Peer.init :=
  fun heq => absurd (congrArg Peer.present heq) Bool.true_eq_false.mp

/-- What follows the peer's entry: its mirrors are cleared and its coming is an event, the values of fences are told again over a
new route, and the head is judged. -/
def peerJudged (s0 : State) (src : Nat) : Act :=
  let was := s0.peer src
  acts [when_ (!was.present) (acts [mirrorClear src, event F.PEL_EVT_PEER_UP]),
    .ask fun s => when_ (was.present && (s.peer src).route.map Prod.fst != was.route.map Prod.fst) fenRetell,
    headCheck, conflictCheck]

theorem peerSeen_run (s : State) : (peerSeen h master cand).run s =
    (peerJudged s h.src).run ((modPeer h.src fun p => p.seenAt s.clk h master cand).run s) := rfl

theorem onlySends_peerJudged (s0 : State) (src : Nat) : OnlySends (peerJudged s0 src) :=
  onlySends_seq (onlySends_when (onlySends_seq (onlySends_mirrorClear _) (onlySends_event _ (by decide)))) <|
    onlySends_seq (onlySends_ask fun _ => onlySends_when onlySends_fenRetell) <|
      onlySends_seq onlySends_headCheck onlySends_conflictCheck

theorem only_peerJudged (s0 : State) (src : Nat) : (peerJudged s0 src).Only helloParts helloOffs :=
  ⟨(only_when _ _).2 fun _ => ⟨(only_mirrorClear _).mono (by decide) (by decide), only_event _ (by decide) (by decide) (by decide)⟩,
    fun _ => (only_when _ _).2 fun _ => only_fenRetell.mono (by decide) (by decide),
    only_headCheck.mono (by decide) (by decide), only_conflictCheck.mono (by decide) (by decide)⟩

/-- A peer that was absent is an event (R500). -/
theorem peerJudged_peerUp {s0 : State} {src : Nat} (hw : Regs.wf s.regs = true) (habsent : (s0.peer src).present = false) :
    ((peerJudged s0 src).run s).fld F.PEL_EVT_PEER_UP = 1 := by
  rw [peerJudged, habsent]
  simp only [run_acts_cons, run_acts_nil, run_ask, run_when, Bool.not_false, Bool.false_and, Bool.false_eq_true, if_true, if_false]
  have hclear := (mirrorClear src).run_regs_wf s hw
  have hup := (event F.PEL_EVT_PEER_UP).run_regs_wf _ hclear
  rw [conflictCheck_peerUp (headCheck.run_regs_wf _ hup), only_headCheck.fld hup _ (by decide) (by decide),
    fld_event_same _ _ hclear ((Fld.ok_iff _).2 (by decide)) rfl]

/-! ### The row of a HELLO -/

/-- The port a HELLO came by is UP and has taken it. -/
def helloTaken (h : ZHdr) : Act := .seq (zTaken h.port) (modZport h.port fun z => { z with up := true })

/-- A HELLO goes on out of the other port, one hop further. -/
def helloPassed (h : ZHdr) (master cand : Bool) (mask : Nat) : Act :=
  when_ (h.hops < 3) (zPass h false 0x01 (helloBody master cand (h.hops + 1) mask))

theorem exec_hello (harr : Arrives s h) (hclash : (s.zport h.port).clash = false) : exec (.zhnHello h master cand mask) s =
    .next ((helloPassed h master cand mask).run ((peerSeen h master cand).run ((helloTaken h).run s))) := by
  obtain ⟨hrun, hopen, hseq, hsrc, hlt⟩ := harr
  have hinseq : (h.lseq != (s.zport h.port).rxSeq) = false := by rw [hseq, bne_self_eq_false]
  refine row_next hrun ?_
  rw [helloRecv, run_ask, run_when, if_pos hopen, hinseq, hclash, beq_eq_false_iff_ne.2 hsrc, decide_eq_true hlt]
  rfl

theorem helloTaken_zport (h : ZHdr) (s : State) : ((helloTaken h).run s).zport h.port =
    { s.zport h.port with rxSeq := ((s.zport h.port).rxSeq + 1) % 256, up := true } := by
  rw [helloTaken, run_seq, zport_modZport, if_pos rfl, zTaken, zport_modZport, if_pos rfl]

theorem helloTaken_ready (h : ZHdr) (s : State) (q : Nat) : (((helloTaken h).run s).zport q).ready = (s.zport q).ready := by
  rw [helloTaken, run_seq, zport_modZport, zTaken, zport_modZport]
  split <;> rfl

theorem helloTaken_peer (h : ZHdr) (s : State) (p : Nat) : ((helloTaken h).run s).peer p = s.peer p := by
  cases hp : h.port == 0 <;> simp [helloTaken, zTaken, modZport, modZhn, hp, State.peer, Act.run, Upd.apply]

/-- The state with the peer's entry as a HELLO gives it. -/
def helloEntered (s : State) (h : ZHdr) (master cand : Bool) : State :=
  (modPeer h.src fun p => p.seenAt ((helloTaken h).run s).clk h master cand).run ((helloTaken h).run s)

/-- What a HELLO answers: its peer entered, what follows, and the HELLO passed on. -/
def helloDone (s : State) (h : ZHdr) (master cand : Bool) (mask : Nat) : State :=
  (helloPassed h master cand mask).run ((peerJudged ((helloTaken h).run s) h.src).run (helloEntered s h master cand))

theorem exec_hello_done (harr : Arrives s h) (hclash : (s.zport h.port).clash = false) :
    exec (.zhnHello h master cand mask) s = .next (helloDone s h master cand mask) :=
  (exec_hello harr hclash).trans (congrArg _ (by rw [helloDone, peerSeen_run]; rfl))

theorem onlySends_helloPassed (h : ZHdr) (master cand : Bool) (mask : Nat) : OnlySends (helloPassed h master cand mask) :=
  onlySends_when (onlySends_zPut _ _ _)

theorem only_helloPassed (h : ZHdr) (master cand : Bool) (mask : Nat) : (helloPassed h master cand mask).Only [.zhn, .ports] [] :=
  (only_when _ _).2 fun _ => only_sent _ _ _

theorem helloEntered_sends (s : State) (h : ZHdr) (master cand : Bool) (mask : Nat) :
    Sends (helloEntered s h master cand) (helloDone s h master cand mask) :=
  (onlySends_peerJudged _ _ _).trans (onlySends_helloPassed _ _ _ _ _)

theorem helloEntered_zport (s : State) (h : ZHdr) (master cand : Bool) (q : Nat) :
    (helloEntered s h master cand).zport q = ((helloTaken h).run s).zport q := rfl

theorem helloEntered_peer (s : State) (h : ZHdr) (master cand : Bool) (p : Nat) : (helloEntered s h master cand).peer p =
    if p = h.src then (s.peer h.src).seenAt s.clk h master cand else s.peer p := by
  have hclk : ((helloTaken h).run s).clk = s.clk := rfl
  rw [helloEntered, peer_modPeer _ _ _ _ (Peer.seenAt_ne _ _ _ _ _), helloTaken_peer, helloTaken_peer, hclk]

theorem helloDone_peer (s : State) (h : ZHdr) (master cand : Bool) (mask p : Nat) : (helloDone s h master cand mask).peer p =
    if p = h.src then (s.peer h.src).seenAt s.clk h master cand else s.peer p := by
  rw [(helloEntered_sends s h master cand mask).peer, helloEntered_peer]

theorem helloDone_port (s : State) (h : ZHdr) (master cand : Bool) (mask : Nat) :
    ((helloDone s h master cand mask).zport h.port).up = true ∧
      ((helloDone s h master cand mask).zport h.port).rxSeq = ((s.zport h.port).rxSeq + 1) % 256 := by
  have hsends := helloEntered_sends s h master cand mask
  rw [hsends.up, hsends.rxSeq, helloEntered_zport, helloTaken_zport]
  exact ⟨rfl, rfl⟩

theorem helloEntered_part (s : State) (h : ZHdr) (master cand : Bool) (p : Part) (hp : p ∉ [Part.zhn]) :
    p.same s (helloEntered s h master cand) :=
  Act.Only.part (ps := [.zhn]) (offs := []) (.seq (helloTaken h) (modPeer h.src fun p => p.seenAt ((helloTaken h).run s).clk h master cand)) s
    ⟨⟨(only_modZport _ _).2 (by decide), (only_modZport _ _).2 (by decide)⟩, (only_modZhn _).2 (by decide)⟩ p hp

/-- The clock and the channels are as they were. -/
theorem helloDone_same (s : State) (h : ZHdr) (master cand : Bool) (mask : Nat) :
    (helloDone s h master cand mask).clk = s.clk ∧ (helloDone s h master cand mask).chans = s.chans := by
  rw [helloDone, (only_helloPassed h master cand mask).part _ _ .clk (by decide),
    (only_helloPassed h master cand mask).part _ _ .chans (by decide), (only_peerJudged _ _).part _ _ .clk (by decide),
    (only_peerJudged _ _).part _ _ .chans (by decide)]
  exact ⟨helloEntered_part s h master cand .clk (by decide), helloEntered_part s h master cand .chans (by decide)⟩

theorem helloDone_peerUp (hrun : Running s) (habsent : (s.peer h.src).present = false) :
    (helloDone s h master cand mask).fld F.PEL_EVT_PEER_UP = 1 := by
  have hw : Regs.wf (helloEntered s h master cand).regs = true :=
    (modPeer _ _).run_regs_wf _ ((helloTaken h).run_regs_wf s (s.wf_regs hrun.1))
  rw [helloDone, (only_helloPassed h master cand mask).fld ((peerJudged _ _).run_regs_wf _ hw) _ (by decide) (by decide)]
  exact peerJudged_peerUp hw (by rw [helloTaken_peer, habsent])

/-- A HELLO with fewer than 3 hops goes out of the other port with one hop more (R500). -/
theorem helloDone_passes (hport : h.port < 2) (hsrc : h.src < 4) (hhops : h.hops < 3) (hready : (s.zport (1 - h.port)).ready = true) :
    (pkts (helloDone s h master cand mask) (1 - h.port)).any (fun k => k.1 == 0x01 && k.2.2.1 == h.src &&
      k.2.2.2.2.1 == h.hops + 1 && k.2.2.2.2.2.2 == helloBody master cand (h.hops + 1) mask) = true := by
  have hother : otherPort h.port = 1 - h.port := by rw [otherPort, Nat.mod_eq_of_lt hport]
  have hready' : (((peerJudged ((helloTaken h).run s) h.src).run (helloEntered s h master cand)).zport (1 - h.port)).ready = true := by
    rw [(onlySends_peerJudged _ _ _).ready, helloEntered_zport, helloTaken_ready, hready]
  rw [helloDone, helloPassed, decide_eq_true hhops, zPass, hother]
  refine List.any_eq_true.2 ⟨_, mem_pkts_zPut false _ rfl hready', ?_⟩
  simp [Pkt.said, Nat.mod_eq_of_lt hsrc, Nat.min_eq_left (Nat.succ_le_of_lt hhops)]

end

end Sys2Proof.Machine
end

section
/-!
SUPPORT. MARK packets of another device (R505, R506, R508): an edge they give queues packets at most, as far as ports and peers go; what
they pass on; and the good sync of a LOCKED follower.
-/

namespace Sys2Proof.Machine

-- The many short proofs are checked one after another, for each would else hold a thread of its own.
set_option Elab.async false

/-! ### An entry of the Lamplighter that fires only sends -/

/-- The last of several acts. -/
theorem onlySends_last {a : Act} (h : OnlySends a) : OnlySends (acts [a]) := h

theorem onlySends_put (f : Fld) (v : Nat) (hf : f.off < 0x1000) : OnlySends (put f v) :=
  onlySends_of_only (ps := []) (offs := [f.off]) ((only_put f v hf).2 (List.mem_singleton_self _)) (by decide)

theorem onlySends_lampPlace (c ctx i : Nat) (target : WTime) (forced : Bool) : OnlySends (lampPlace c ctx i target forced) :=
  onlySends_ask fun _ => onlySends_seq (onlySends_modLamp _) <| onlySends_ask fun _ => onlySends_seq
    (onlySends_when (onlySends_put F.WHL_LL_HWM _ (by decide))) (onlySends_last <| onlySends_when (onlySends_whlEvent F.WHL_EVT_LL_FULL _ (by decide)))

theorem onlySends_lampRearm : OnlySends lampRearm :=
  onlySends_ask fun _ => onlySends_rep _ <| onlySends_ask fun _ => onlySends_forSome fun _ =>
    onlySends_seq (onlySends_modLamp _) (onlySends_forSome fun _ => onlySends_lampPlace _ _ _ _ _)

theorem onlySends_lampArm (c : Nat) (target : WTime) (forced : Bool) : OnlySends (lampArm c target forced) := by
  refine onlySends_seq onlySends_lampRearm (onlySends_ask fun s => ?_)
  dsimp only
  split
  · exact onlySends_skip
  · split
    · exact onlySends_lampPlace _ _ _ _ _
    · exact onlySends_seq (onlySends_modLamp _) <| onlySends_seq (onlySends_count F.WHL_CNT1_ARMWAIT (by decide)) <|
        onlySends_last <| onlySends_when (onlySends_whlEvent F.WHL_EVT_LL_FULL _ (by decide))

theorem onlySends_lateFire : OnlySends lateFire :=
  onlySends_seq (onlySends_count _ (by decide)) (onlySends_whlEvent _ _ (by decide))

theorem onlySends_unstarted (c : Nat) (sub : Sub) (status : Nat) : OnlySends (unstarted c sub status) :=
  onlySends_ask fun _ => onlySends_ask fun _ => onlySends_ask fun _ =>
    onlySends_ite (onlySends_modGov _) (onlySends_when fun _ => .of_zhn rfl)

theorem onlySends_modSubs (c : Nat) (f : List Sub → List Sub) : OnlySends (modSubs c f) :=
  onlySends_seq (onlySends_modChan _ _) <| onlySends_ask fun _ => onlySends_forEach fun _ _ => .of_zhn rfl

theorem onlySends_startFrom (c fuel : Nat) : OnlySends (startFrom c fuel) := by
  induction fuel with
  | zero => exact onlySends_skip
  | succ fuel ih =>
    refine onlySends_ask fun s => ?_
    split
    · exact onlySends_skip
    · split
      · exact onlySends_modChan _ _
      · exact onlySends_modChan _ _
      · split
        · exact onlySends_seq (onlySends_modChan _ _) (onlySends_lampArm _ _ _)
        · split
          · exact onlySends_seq (onlySends_unstarted _ _ _) (onlySends_seq (onlySends_modSubs _ _) ih)
          · exact onlySends_seq (onlySends_when onlySends_lateFire) <|
              onlySends_ask fun _ => onlySends_forSome fun _ => onlySends_modChan _ _

theorem onlySends_lampFireEnt (e : LampEnt) : OnlySends (lampFireEnt e) := by
  refine onlySends_ask fun s => onlySends_seq (onlySends_modLamp _) <| onlySends_seq onlySends_lampRearm <|
    onlySends_seq (onlySends_when onlySends_lateFire) ?_
  have hcur : ∀ f, OnlySends (modCur e.chan f) := fun f =>
    onlySends_of_only (ps := [.chans]) (offs := []) ((only_modCur _ _).2 (by decide)) (by decide)
  split
  · exact onlySends_seq (onlySends_modChan _ _) (onlySends_startFrom _ _)
  · exact onlySends_seq (hcur _) <|
      onlySends_of_only (ps := [.chans]) (offs := []) ((only_makeQueued _).2 (by decide)) (by decide)
  · exact onlySends_seq (hcur _) <|
      onlySends_of_only (ps := [.chans]) (offs := []) ((only_releaseWait _ _).2 (by decide)) (by decide)
  · exact onlySends_skip

theorem onlySends_tickBy (n : Nat) : OnlySends (tickBy n) :=
  onlySends_of_only (only_tickBy n (List.Subset.refl _) (List.Subset.refl _)) (by decide)

theorem onlySends_fireNow (l : List LampEnt) : OnlySends (fireNow l) :=
  onlySends_forEach fun _ => onlySends_ask fun _ => onlySends_when <| onlySends_ask fun _ =>
    onlySends_seq (onlySends_when (onlySends_tickBy 1)) <| onlySends_ask fun _ => onlySends_forSome onlySends_lampFireEnt

theorem onlySends_jumpEntries (hit : LampEnt → Bool) (new : WTime) : OnlySends (jumpEntries hit new) :=
  onlySends_ask fun _ => onlySends_ite
    (onlySends_seq (onlySends_of_only (ps := []) (offs := [F.WHL_CNT1_MOVED.off]) ((only_countBy _ _ (by decide)).2 (by decide))
      (by decide)) (onlySends_modLamp _))
    (onlySends_seq (onlySends_modLamp _) (onlySends_fireNow _))

/-! ### An edge only sends -/

theorem onlySends_absorb (e : Int) : OnlySends (absorb e) := fun _ => .of_zhn rfl

theorem onlySends_align (e : Int) (cyc : Nat) : OnlySends (align e cyc) :=
  onlySends_ask fun _ => onlySends_seq (onlySends_modWheel _) <| onlySends_ite (onlySends_absorb e) <| onlySends_ite
    (onlySends_seq (onlySends_modWheel _) (onlySends_whlEvent _ _ (by decide)))
    (onlySends_seq (onlySends_modWheel _) <| onlySends_seq (onlySends_whlEvent _ _ (by decide)) (onlySends_jumpEntries _ _))

theorem onlySends_adopt (wt : WTime) (back8 : Nat) : OnlySends (adopt wt back8) :=
  onlySends_ask fun _ => onlySends_seq (onlySends_modWheel _) (onlySends_jumpEntries _ _)

theorem onlySends_loneCandidate : OnlySends loneCandidate :=
  onlySends_ask fun _ => onlySends_when (onlySends_count _ (by decide))

theorem onlySends_missOne : OnlySends missOne :=
  onlySends_ask fun _ => onlySends_when <| onlySends_seq (onlySends_modWheel _) <| onlySends_ite
    (onlySends_seq onlySends_loneCandidate <| onlySends_seq (onlySends_modWheel _) <|
      onlySends_seq onlySends_notLocked (onlySends_whlEvent _ _ (by decide))) <| onlySends_ite
    (onlySends_seq (onlySends_modWheel _) <| onlySends_seq onlySends_notLocked (onlySends_whlEvent _ _ (by decide)))
    (onlySends_modWheel _)

theorem onlySends_acqEdge (te8 back8 : Nat) (wt : Option WTime) : OnlySends (acqEdge te8 back8 wt) := by
  refine onlySends_ask fun s => ?_
  dsimp only
  split
  · exact onlySends_modWheel _
  · refine onlySends_ite (onlySends_seq (onlySends_modWheel _) (onlySends_whlEvent _ _ (by decide))) <|
      onlySends_ite (onlySends_seq (onlySends_modWheel _) ?_) (onlySends_modWheel _)
    simp only [acts]
    split
    · exact onlySends_adopt _ _
    · exact onlySends_align _ _

theorem onlySends_coastEdge (te8 back8 : Nat) : OnlySends (coastEdge te8 back8) := by
  refine onlySends_ask fun s => ?_
  dsimp only
  split
  · exact onlySends_modWheel _
  · refine onlySends_ite (onlySends_seq (onlySends_count _ (by decide)) (onlySends_modWheel _)) <|
      onlySends_ite (onlySends_seq (onlySends_modWheel _) (onlySends_align _ _)) <|
      onlySends_seq (onlySends_count _ (by decide)) <| onlySends_ite ?_ (onlySends_modWheel _)
    exact onlySends_seq (onlySends_modWheel _) <| onlySends_seq (onlySends_whlEvent _ _ (by decide)) (onlySends_align _ _)

theorem onlySends_goodSync (e : Int) (cyc : Nat) : OnlySends (goodSync e cyc) :=
  onlySends_ask fun _ => onlySends_seq (onlySends_ask fun _ => onlySends_when (onlySends_modGov _)) <|
    onlySends_seq (fun _ => .of_zhn rfl) <| onlySends_seq (onlySends_modWheel _) <| onlySends_ask fun _ => onlySends_ite
      (onlySends_modWheel _)
      (onlySends_when <| onlySends_seq (onlySends_modWheel _) <| onlySends_seq onlySends_notLocked (onlySends_whlEvent _ _ (by decide)))

theorem onlySends_edgeAt (te8 back8 : Nat) (wt : Option WTime) : OnlySends (edgeAt te8 back8 wt) :=
  onlySends_ask fun _ => onlySends_seq (onlySends_ask fun _ => onlySends_when (onlySends_rep _ onlySends_missOne)) <|
    onlySends_ask fun _ => onlySends_ite onlySends_skip <| onlySends_seq (onlySends_when (onlySends_modWheel _)) <|
      onlySends_ite (onlySends_acqEdge _ _ _) <| onlySends_ite (onlySends_coastEdge _ _) <|
        onlySends_ite (onlySends_goodSync _ _) (onlySends_when (onlySends_count _ (by decide)))

/-! ### The row of a MARK -/

/-- A MARK goes on out of the other port with the link's delay and its time in this device added (R506). -/
def markPassed (h : ZHdr) (wt : WTime) (corr8 d : Nat) : Act :=
  when_ (h.hops < 3) (drawFree fun k => zPass h true 0x04 (markBody wt (corr8 + d + 8 * Config.markWait k)))

/-- A MARK steers this device: it follows, and the MARK is its head's by the route to it (R508). -/
def State.steered (s : State) (h : ZHdr) : Bool :=
  s.follows && s.headNow == some h.src && (s.peer h.src).route.map Prod.fst == some h.port

section
variable {s : State} {h : ZHdr} {wt : WTime} {corr8 : Nat}

/-- A MARK taken and passed on. -/
def markMoved (s : State) (h : ZHdr) (wt : WTime) (corr8 : Nat) : State :=
  (markPassed h wt corr8 (s.zport h.port).delay8).run ((zTaken h.port).run s)

/-- The edge a MARK is. -/
def markEdge (s : State) (h : ZHdr) (wt : WTime) (corr8 : Nat) : Act :=
  edgeAt (8 * s.clk - ((s.zport h.port).delay8 + corr8)) ((s.zport h.port).delay8 + corr8) (some wt)

theorem exec_mark_moved (harr : Arrives s h) :
    exec (.mark h wt corr8) s = .next ((when_ (s.steered h) (markEdge s h wt corr8)).run (markMoved s h wt corr8)) := by
  obtain ⟨hrun, hopen, hseq, hsrc, hlt⟩ := harr
  have hinseq : (h.lseq != (s.zport h.port).rxSeq) = false := by rw [hseq, bne_self_eq_false]
  refine row_next hrun ?_
  rw [markRecv, run_ask, run_when, if_pos hopen, hinseq, beq_eq_false_iff_ne.2 hsrc]
  rfl

theorem only_markMoving (h : ZHdr) (wt : WTime) (corr8 d : Nat) :
    (Act.seq (zTaken h.port) (markPassed h wt corr8 d)).Only [.zhn, .ports, .freeCtr] [] :=
  ⟨(only_modZport _ _).2 (by decide), (only_when _ _).2 fun _ => only_drawFree _ (by decide) fun _ =>
    (only_sent _ _ _).mono (by decide) (by decide)⟩

/-- A MARK with fewer than 3 hops goes out of the other port, and stays there whatever the edge does (R506). -/
theorem mark_passes (harr : Arrives s h) (hhops : h.hops < 3) (hready : (s.zport (1 - h.port)).ready = true) :
    ∃ w, (pkts ((when_ (s.steered h) (markEdge s h wt corr8)).run (markMoved s h wt corr8)) (1 - h.port)).any (fun k =>
      k.1 == 0x04 && k.2.2.1 == h.src && k.2.2.2.2.1 == h.hops + 1 &&
        k.2.2.2.2.2.2 == markBody wt (corr8 + (s.zport h.port).delay8 + 8 * w)) = true := by
  obtain ⟨_, hopen, _, _, hsrc⟩ := harr
  have hport := State.port_of_open hopen
  have hother : otherPort h.port = 1 - h.port := by rw [otherPort, Nat.mod_eq_of_lt hport]
  have hready' : ((Upd.draw.apply ((zTaken h.port).run s)).zport (1 - h.port)).ready = true := by
    show (((zTaken h.port).run s).zport (1 - h.port)).ready = true
    rw [zTaken, zport_modZport]
    split <;> exact hready
  have hsends : OnlySends (when_ (s.steered h) (markEdge s h wt corr8)) := onlySends_when (onlySends_edgeAt _ _ _)
  refine ⟨Config.markWait ((zTaken h.port).run s).freeCtr,
    List.any_eq_true.2 ⟨_, (hsends _).kept _ (?_ : Pkt.said ⟨0x04, h.dst % 4, h.src % 4, h.user, min (h.hops + 1) 3, 0, h.opId,
      markBody wt (corr8 + (s.zport h.port).delay8 + 8 * Config.markWait ((zTaken h.port).run s).freeCtr), 0, 0, 0⟩ ∈ _), ?_⟩⟩
  · rw [markMoved, markPassed, decide_eq_true hhops, run_when, if_pos rfl, run_drawFree, zPass, hother]
    exact mem_pkts_zPut true _ rfl hready'
  · simp [Pkt.said, Nat.mod_eq_of_lt hsrc, Nat.min_eq_left (Nat.succ_le_of_lt hhops)]

theorem steered_eq_false (hnot : s.follows = false ∨ s.headNow ≠ some h.src ∨ (s.peer h.src).route.map Prod.fst ≠ some h.port) :
    s.steered h = false := by
  rw [State.steered, Bool.and_eq_false_iff, Bool.and_eq_false_iff, beq_eq_false_iff_ne, beq_eq_false_iff_ne, or_assoc]
  exact hnot

/-- A MARK that does not steer changes nothing beside the link (R508). -/
theorem mark_unsteered (hrun : Running s) (hnot : s.steered h = false) :
    Unchanged [.zhn, .ports, .freeCtr] [] s ((when_ (s.steered h) (markEdge s h wt corr8)).run (markMoved s h wt corr8)) := by
  rw [hnot]
  exact (only_markMoving h wt corr8 _).unchanged _ s (s.wf_regs hrun.1)

/-- A MARK that steers a LOCKED follower, within its window and LOCK_TOL, is a good sync at its phase error (R44, R508). -/
theorem mark_locked (hrun : Running s) (hsteer : s.steered h = true) (hst : s.wheel.st = .locked) {b : Nat}
    (hb : b = (s.zport h.port).delay8 + corr8) (hclosed : s.closedWindows (s.wheel.valueBack b / 2 ^ 20) = 0)
    (hwin : (s.wheel.phaseErr b).natAbs ≤ s.winAt (s.wheel.edgeCycle b))
    (htol : (s.wheel.phaseErr b).natAbs ≤ s.lockTolAt (s.wheel.edgeCycle b)) {t : State}
    (ht : t = (when_ (s.steered h) (markEdge s h wt corr8)).run (markMoved s h wt corr8)) :
    t.wheel.st = .locked ∧ t.wheel.miss = 0 ∧ t.clk = s.clk ∧ t.wheel.err = s.wheel.phaseErr b := by
  rw [hsteer, run_when, if_pos rfl, markEdge, ← hb] at ht
  have hmoved := only_markMoving h wt corr8 (s.zport h.port).delay8
  have hwheel : (markMoved s h wt corr8).wheel = s.wheel := hmoved.part _ s .wheel (by decide)
  have hclk : (markMoved s h wt corr8).clk = s.clk := hmoved.part _ s .clk (by decide)
  have htrk : (markMoved s h wt corr8).trkAt = s.trkAt :=
    State.trkAt_congr (hmoved.word _ s (s.wf_regs hrun.1) 0 0x188 (by decide) (by decide)) (congrArg Wheel.trkOld hwheel)
  generalize markMoved s h wt corr8 = u at hwheel hclk htrk ht
  have hwinAt : ∀ c, u.winAt c = s.winAt c := fun c => by rw [State.winAt, htrk, State.winAt]
  have hnone : u.closedWindows (u.wheel.valueBack b / 2 ^ 20) = 0 := by
    rw [State.closedWindows, hwinAt, hwheel]
    exact hclosed
  have hin : u.inWindow b = true := by
    rw [State.inWindow, hwinAt, hwheel, Wheel.windowed, hst]
    simpa using hwin
  have htol' : (u.wheel.phaseErr b).natAbs ≤ u.lockTolAt (u.wheel.edgeCycle b) := by
    rw [State.lockTolAt, htrk, hwheel]
    exact htol
  obtain ⟨w, ⟨hwst, hwerr, hwmiss, _, _, _⟩, hw⟩ := goodSync_judged htol'
  have hstay : (w.st == .acquire && w.good ≥ 16) = false := by rw [hwst, hwheel, hst]; rfl
  rw [edgeAt_run _ _ fun _ => hnone, judgeEdge_run_good _ _ _ (.inl (by rw [hwheel, hst])) hin] at ht
  rw [hstay, if_neg Bool.false_ne_true, ← ht] at hw
  rw [hw, hwst, hwmiss, hwerr, hwheel, ht, (goodSync_judged_same u _ _).2]
  exact ⟨hst, rfl, hclk, rfl⟩

end

end Sys2Proof.Machine
end

section
/-!
SUPPORT. The statement on the packets of the Zheyn link, from its rows.
-/

namespace Sys2Proof.Machine

-- The many short proofs are checked one after another, for each would else hold a thread of its own.
set_option Elab.async false

/-- Settles O56: each row is a change of one port, packets queued and, for HELLO and MARK, what follows of peers and wheel; what queues
packets alone leaves the ports and the peers beside it. -/
theorem zheynLinkPackets : Obligations.ZheynLinkPackets := by
  intro s hrun
  refine ⟨fun i h hi => ⟨exec_pktRow_shut hrun hi, fun hopen hlate => ⟨_, exec_pktRow_late hrun hi hopen hlate, zBad_counts hrun⟩⟩,
    fun port hopen => ⟨⟨_, exec_badPacket_code hrun hopen, zBad_counts hrun⟩,
      fun bytes crc hcrc => ⟨_, exec_badPacket_crc hrun hopen hcrc, zBad_counts hrun⟩⟩,
    fun port b hshut => exec_badPacket_shut hrun b hshut, ?hello, ?timer, ?ping, ?mark, exec_markSend_other hrun, ?markSend⟩
  case hello =>
    intro h master cand mask harr hclash
    have hpeer := helloDone_peer s h master cand mask
    have hsrc := (hpeer h.src).trans (if_pos rfl)
    obtain ⟨hup, hseq⟩ := helloDone_port s h master cand mask
    obtain ⟨hclk, hchans⟩ := helloDone_same s h master cand mask
    refine ⟨_, exec_hello_done harr hclash, hup, hseq, by rw [hsrc]; rfl, by rw [hsrc]; rfl, by rw [hsrc]; rfl, by rw [hsrc]; rfl, ?_,
      fun p _ hp => (hpeer p).trans (if_neg hp), helloDone_peerUp hrun, fun hhops hready => ?_, hclk, hchans⟩
    · rw [hsrc]
      by_cases hport : h.port = 0
      · simp [Peer.seenAt, hport]
      · simp [Peer.seenAt, hport]
    · obtain ⟨_, hopen, _, _, hlt⟩ := harr
      exact helloDone_passes (State.port_of_open hopen) hlt hhops hready
  case timer =>
    have hdue := helloDue_zport s
    obtain ⟨h0, h1⟩ := pkts_sendHellos (s := helloDue s) (Act.run_regs_wf (.seq (since s.zhn.helloAt (usClocks 10)) (modZhn _)) s
      (s.wf_regs hrun.1))
    rw [hdue, pkts_eq (helloDue s), hdue, helloDue_helloPkt hrun] at h0 h1
    exact ⟨_, exec_helloTimer hrun, helloTimer_unchanged hrun, helloTimer_helloAt s, fun k hk => helloTimer_clk hk, h0, h1⟩
  case ping =>
    refine fun port turn8 => ⟨fun h received => exec_ping_shut hrun received turn8 h, fun hopen hup => ⟨?_, ?_⟩, fun trip8 hopen => ?_⟩
    · exact ⟨_, exec_ping_received hrun turn8 hopen hup, pingTaken_pkts turn8 hopen, pingTaken_rxSeq s port turn8,
        pingTaken_unchanged hrun turn8⟩
    · obtain ⟨hout, hat⟩ := pingSent_line s port
      exact ⟨_, exec_ping_sent hrun turn8 hopen hup, pingSent_pkts hopen, hout, hat, fun k hk => pingSent_due hk,
        pingSent_unchanged hrun⟩
    · have hz := pongTaken_zport s port trip8 turn8
      obtain ⟨hout, hdelay⟩ := ZPort.ponged_delay trip8 turn8 { s.zport port with rxSeq := ((s.zport port).rxSeq + 1) % 256 }
      exact ⟨_, exec_pong_open hrun trip8 turn8 hopen, by rw [hz, hout], by rw [hz, hdelay], pongTaken_pkts s port trip8 turn8,
        pongTaken_unchanged hrun trip8 turn8⟩
  case mark =>
    refine fun h wt corr8 harr => ⟨fun hhops hready => ⟨_, exec_mark_moved harr, mark_passes harr hhops hready⟩, fun hnot =>
      ⟨_, exec_mark_moved harr, mark_unsteered hrun (steered_eq_false hnot)⟩, fun hfollows hhead hroute hst hclosed hwin htol => ?_⟩
    have hsteer : s.steered h = true := by rw [State.steered, hfollows, hhead, hroute]; simp
    exact ⟨_, exec_mark_moved harr, mark_locked hrun hsteer hst rfl hclosed hwin htol rfl⟩
  case markSend =>
    exact fun hhead => ⟨_, exec_markSend_head hrun hhead, markSent_clk, markSent_any s 0 (.inl rfl), markSent_any s 1 (.inr rfl),
      markSent_unchanged hrun⟩

end Sys2Proof.Machine
end
